-- ==== Sys2Proof/Word.lean ====
section
/-! DEFINITION. The word types of the NS2048 (Table 00-2, R5, R8): the host bus moves 16-bit words, the line and the
durable stores hold bytes, the Fedora core works on 32-bit words and 40-bit accumulators. -/

namespace Sys2Proof

/-- A byte of the line, of Keep-E, of Keep-S, of the image store or of the core's memories. -/
abbrev Byte := BitVec 8
/-- A host-bus word (16 bits, "The bus cycle", chapter 04). -/
abbrev Half := BitVec 16
/-- A word of the Fedora core (R413, R433). -/
abbrev Word := BitVec 32
/-- An accumulator of the Fedora core, Q9.31 (R413, R419). -/
abbrev Acc := BitVec 40
/-- A roster index, 0 to 1023 (R19). -/
abbrev Idx := BitVec 10
/-- A level L0 to L3 (R21). -/
abbrev Level := BitVec 2
/-- A class 0 SAFETY, 1 INFRA, 2 COMFORT, 3 CONVENIENCE (Table 01-1). -/
abbrev Cls := BitVec 2
/-- A tenant, 0 to 63 (R19). -/
abbrev Tenant := BitVec 6
/-- An EUI-48, first octet most significant (R169). -/
abbrev Eui := BitVec 48

/-- The two trunk ports (chapter 01, "Ports and roles"). -/
inductive PortId where
  | p0
  | p1
  deriving DecidableEq, Repr

/-- The number of a port. -/
def PortId.toNat : PortId → Nat
  | .p0 => 0
  | .p1 => 1

/-- The other port of the device. -/
def PortId.other : PortId → PortId
  | .p0 => .p1
  | .p1 => .p0

/-- The role of a port (R15). -/
inductive Role where
  | off
  | feed
  | draw
  deriving DecidableEq, Repr

/-- PSTAT.ROLE and PCTL.ROLE coding (Table 04-6). -/
def Role.code : Role → Nat
  | .off => 0
  | .feed => 1
  | .draw => 2

end Sys2Proof
end

