-- ==== Sys2Proof/Config.lean ====
section
/-! DEFINITION. What an implementation fixes and the spec leaves open: free values and uninterpreted functions, each
without a body, so that no proof can learn a value of one. -/

namespace Sys2Proof.Config

/-- The n-th free value a step takes, where the spec gives a result no value and the machine goes on (assumption 5). -/
opaque freeValue : Nat → BitVec 64

/-- What a data-RAM byte that nothing has written since reads as, after the n-th start or handover that did not
preserve it (R464 says only which bytes are preserved; assumption 6). -/
opaque lostByte : Nat → Nat → Byte

/-- The bytes of the image the device is shipped with, in bank A (chapter 00, "What the manual covers"; assumption 7). -/
opaque shippedImage : List Byte

/-- Its version, as its status record holds it (Table 21-2; assumption 7). -/
opaque shippedVersion : Word

/-- SHA-256 as a number of 256 bits (R450 names it, no rule of the spec defines it; assumption 8). -/
opaque sha256Bits : List Byte → BitVec 256

/-- Its 32 bytes in output order, the first one most significant (R450). -/
def sha256 (l : List Byte) : List Byte := (List.range 32).map fun i => (sha256Bits l >>> (8 * (31 - i))).setWidth 8

/-- Ed25519 (RFC 8032, pure): does the signature (64 bytes) of the message verify under the public key (32 bytes)
(Table 21-3; assumption 8). -/
opaque ed25519Verify : List Byte → List Byte → List Byte → Bool

/-- The vendor public key that the recovery ROM holds (R453; assumption 8). -/
opaque vendorKey : List Byte

/-- A byte of the recovery ROM (Table 19-1 gives its place, no rule its contents; assumption 9). -/
opaque romByte : Nat → Byte

/-- exp(-1/w) of the bundle model, in units of 2^-32, for a time constant of w seconds (R307; the model keeps
temperatures as integers; assumption 11). -/
opaque expNegInv : Nat → Nat

/-- The EUI-48 of this head (R177 names it as assigned, no rule gives it; assumption 12). -/
opaque headEui : Eui

/-- The level the head measures for an index that a border zone of R119 leaves between two bands: true takes the
upper band (R119; assumption 13). -/
opaque borderUpper : Nat → Bool

/-- The ceiling in mA, before its clamp, that a margin in mV leaves over a loop resistance of 0: R289 divides by it and
states no result (assumption 133). -/
opaque openCeiling : Nat → Nat

end Sys2Proof.Config
end

