-- ==== Sys2Proof/Syntax.lean ====
section
/-! DEFINITION. The commands the block takes: every row of spec/opcode_table.json is a constructor of Instr. The table
gives its rows no operand fields, so the operands are those the rules give the step: what the host writes, what a frame
carries, what a pin or a sensor presents (assumption 2). -/

namespace Sys2Proof

/-- One word of the Fedora core's code stream, with the literal word that follows a LIT-class word (Table 20-1, R434,
R435). The opcode is the constructor of Instr that carries it. -/
structure OpWord where
  stop : Bool
  lit : Option Word
  d : BitVec 6
  a : BitVec 6
  b : BitVec 6
  mod : BitVec 4
  deriving DecidableEq, Repr

/-- What a port's pins present in 1 µs: VSEGn and VFEEDn in mV, ISEG in mA positive toward the segment (R42, R339), the
tap-rail current in mA (R342), and the DC levels of CWAn and CWBn in mV (R118, R134). -/
structure Sample where
  vseg : Nat
  vfeed : Nat
  iseg : Int
  irail : Nat
  cwA : Nat
  cwB : Nat
  deriving DecidableEq, Repr

/-- What a probe cycle reads on the two configuration wires, in mV: the live check, the 80 µA and the 330 µA parts, and the
lowest level of each wire in the peer window, 0 where none runs (R123, R128). -/
structure ProbeReading where
  liveA : Nat
  liveB : Nat
  a80 : Int
  a330 : Int
  b80 : Int
  b330 : Int
  winA : Nat
  winB : Nat
  deriving DecidableEq, Repr

/-- What the comparators of a port see in the cycle of a trip (R246, R252): the drop across the shunt in µV, positive toward the
segment (R42), and the causes that fire in that cycle, bit n for cause n of Table 11-3. -/
structure Crossing where
  sense : Int
  also : BitVec 7
  deriving DecidableEq, Repr

/-- An NTC point: its input in mV and the temperature that voltage stands for, in 0.25 °C (R46, R47, R8). -/
structure NtcReading where
  mv : Nat
  temp : Half
  deriving DecidableEq, Repr

/-- What the scrubber finds in a group (R409). -/
inductive EccResult where
  | clean
  | correctable
  | uncorrectable
  deriving DecidableEq, Repr

/-- Which W1C register a clear addresses (R87). -/
inductive FlagReg where
  | gstat
  | pevt (p : PortId)
  deriving DecidableEq, Repr

/-- Why a ring join fails (R226). -/
inductive JoinFailure where
  | version
  | noAnswer
  | trim
  deriving DecidableEq, Repr

/-- SEQ and RETRY of a received frame (R149). -/
structure FrameTag where
  seq : BitVec 3
  retry : Bool
  deriving DecidableEq, Repr

/-- A full frame: the header fields of Table 07-2 and the payload. -/
structure Frame where
  mtype : BitVec 6
  index : Idx
  seq : BitVec 3
  flags : Byte
  payload : List Byte
  deriving DecidableEq, Repr

/-- REQUEST (Table 08-2). -/
structure RequestMsg where
  power : Half
  floor : Half
  mask : BitVec 4
  deriving DecidableEq, Repr

/-- ENROLL (Table 08-2). -/
structure EnrollMsg where
  eui : Eui
  cls : Cls
  tenant : Tenant
  cfgd : Bool
  calable : Bool
  temp : Bool
  vmin : Half
  mask : BitVec 4
  major : Byte
  deriving DecidableEq, Repr

/-- HINT (Table 08-2): forecast in 0.1 W, ms until it starts, duration in s. -/
structure HintMsg where
  power : Half
  startMs : Half
  durS : Half
  deriving DecidableEq, Repr

/-- REPORT (Table 08-2). -/
structure ReportMsg where
  volt : Half
  cur : Half
  temp : Half
  count : Word
  calBefore : Half
  calDuring : Half
  calId : Byte
  calv : Bool
  hot : Bool
  lowv : Bool
  deriving DecidableEq, Repr

/-- BEACON (Table 08-2 and its flags of Table 07-3). -/
structure BeaconMsg where
  eui : Eui
  cur : Level
  tgt : Level
  busy : Bool
  shed : Bool
  advseq : Byte
  count : Byte
  bper : Byte
  enrw : Bool
  lonely : Bool
  first : Bool
  peer : Bool
  deriving DecidableEq, Repr

/-- ADVERT (Table 08-2), as far as an endpoint acts on it. -/
structure AdvertMsg where
  advseq : Byte
  lmax : Level
  ps2 : Bool
  fixed : Bool
  spec : Bool
  ring : Bool
  budget : Half
  headroom : Half
  largest : Half
  floorMw : Half
  bper : Byte
  enr : Byte
  version : Half
  deriving DecidableEq, Repr

/-- POLL (Table 08-2, Table 08-3). -/
structure PollMsg where
  kind : BitVec 2
  level : Level
  cls : Cls
  held : Bool
  rdy : Bool
  power : Half
  ceil : Half
  grant : Byte
  advseq : Byte
  deriving DecidableEq, Repr

/-- What a joined DRAW port's firmware has ready to answer a POLL with (Table 08-3). -/
inductive PollReply where
  | nothing
  | request (r : RequestMsg)
  | hint (m : HintMsg)
  | report (m : ReportMsg)
  | decline
  deriving DecidableEq, Repr

/-- ACCEPT (Table 08-2). -/
structure AcceptMsg where
  power : Half
  level : Level
  grant : Byte
  ceil : Half
  spec : Bool
  deriving DecidableEq, Repr

/-- READY (Table 08-2). -/
structure ReadyMsg where
  power : Half
  level : Level
  cls : Cls
  restore : Bool
  grant : Byte
  deriving DecidableEq, Repr

/-- WITHDRAW (Table 08-2). -/
structure WithdrawMsg where
  reason : Byte
  classes : BitVec 4
  grant : Byte
  deriving DecidableEq, Repr

/-- WAIT (Table 08-2). -/
structure WaitMsg where
  retryMs : Half
  position : Half
  cause : Byte
  deriving DecidableEq, Repr

/-- REJECT (Table 08-2). -/
structure RejectMsg where
  reason : Byte
  detail : Byte
  eui : Eui
  deriving DecidableEq, Repr

/-- ASSIGN (Table 08-2). -/
structure AssignMsg where
  eui : Eui
  cls : Cls
  tenant : Tenant
  known : Bool
  stored : Bool
  deriving DecidableEq, Repr

/-- CAL_PULSE (Table 08-2). -/
structure CalPulseMsg where
  drawer : Idx
  calId : Byte
  dur : Byte
  stepMa : Half
  deriving DecidableEq, Repr

/-- PEER_HELLO (Table 08-2). -/
structure HelloMsg where
  eui : Eui
  cur : Level
  lmax : Level
  orient : Bool
  sup : Bool
  entries : Half
  version : Half
  deriving DecidableEq, Repr

/-- PEER_REPORT (Table 08-2). -/
structure PeerReportMsg where
  vseg : Half
  iseg : Half
  trim : Byte
  cur : Level
  busy : Bool
  shed : Bool
  budget : Half
  admitSum : Half
  irail : Half
  deriving DecidableEq, Repr

/-- GLEAD (Table 14-1). -/
structure GleadMsg where
  leader : BitVec 4
  mode : BitVec 2
  frame : Byte
  level : Level
  allIdle : Bool
  budget : Half
  bitmap : Half
  shares : List Half
  deriving DecidableEq, Repr

/-- GMEM (Table 14-1). -/
structure GmemMsg where
  id : BitVec 4
  mode : BitVec 2
  parking : Bool
  safe : Bool
  weight : Byte
  fixedRes : Half
  admitted : Half
  u01 : Half
  u23 : Half
  want : Level
  cap : Level
  idle : Bool
  frame : Byte
  deriving DecidableEq, Repr

/-- The commands of the NS2048 as a block: one constructor per row of spec/opcode_table.json, in its order. -/
inductive Instr where
  /-- SUPPLY_LOST (R30): Loss of supply takes the device to DORMANT once its logic fails, with the Mitten pull-downs presented. -/
  | supplyLost (pages : Nat)
  /-- COLD_START (R57): The cold-start latch releases the core 1 ms after VCORE first exceeds 0.90 V, and ROMBOOT runs the steps of Table 03-2. -/
  | coldStart (bootsel : Bool)
  /-- LATCH_REARM (R58): VCORE falling below 0.3 V re-arms the cold-start latch. -/
  | latchRearm
  /-- RESET_ASSERT (R62): RESET# held low for 1 µs opens both paths, presents the Mittens, holds the registers at reset and floats the host data pins. -/
  | resetAssert (pages : Nat)
  /-- RESET_RELEASE (R62): Release of RESET# enters ROMBOOT without a Keep-S recall and without sampling BOOTSEL. -/
  | resetRelease
  /-- PRESENT_LOW (R64): PRESENT# falling starts the 10 ms delay before the host bus goes live. -/
  | presentLow
  /-- BUS_LIVE (R64): 10 ms after PRESENT# goes low, the host bus becomes live. -/
  | busLive
  /-- PRESENT_HIGH (R64): PRESENT# rising floats every host output and ignores every host input. -/
  | presentHigh
  /-- PLL_LOCK (R67): The PLL locks to XIN, and the device switches to it without a break in the timebase. -/
  | pllLock
  /-- CLOCK_FAIL (R67): If the PLL has not locked within 2 ms, the device stays on the internal oscillator, refuses FEED and posts CLOCK_FAIL. -/
  | clockFail
  /-- EVQ_POP (R85): A read returns the next word of the oldest event, and the event leaves the queue when its word 3 is read. -/
  | evqPop
  /-- TIME_LO (R86): A read returns timebase bits 15:0 and latches TIME_HI. -/
  | timeLo
  /-- ENERGY_LO (R86): A read returns port energy bits 15:0 and latches MID and HI for that port. -/
  | energyLo (p : PortId)
  /-- TDATA_READ (R101): A read returns the record word at WIDX, taking a snapshot at WIDX 0 or when no snapshot is in force, and advances WIDX. -/
  | tdataRead (early : Bool)
  /-- TDATA_WRITE (R103): A write stages a word of the record at WIDX and advances WIDX. -/
  | tdataWrite (v : Half)
  /-- TSEL_WRITE (R100): Writing TSEL selects a table and port, resets WIDX and discards staged words. -/
  | tselWrite (v : Half)
  /-- TIDX_WRITE (R100): Writing TIDX selects a record, resets WIDX and discards staged words. -/
  | tidxWrite (v : Half)
  /-- COMMIT (R105): TCTL.COMMIT tests the refusal cases in order, then applies the staged words as one change or refuses them with an ECODE. -/
  | commit
  /-- ABORT (R103): TCTL.ABORT, alone or written with COMMIT, discards the staged words. -/
  | abort (withCommit : Bool)
  /-- MBX_ARG_WRITE (R91): A write appends a word to the argument buffer, and marks an overrun beyond 1024 words. -/
  | mbxArgWrite (v : Half)
  /-- MBX_ARG_READ (R91): A read returns the next result word and advances the result pointer. -/
  | mbxArgRead
  /-- ECHO (R91): Mailbox command 0x01 returns its 0–63 argument words as results. -/
  | echo
  /-- FWU_BEGIN (R458): Mailbox command 0x10 checks a delta header, then opens a new reception or resumes the open one. -/
  | fwuBegin (storeOk : Bool)
  /-- FWU_PIECE (R459): Mailbox command 0x11 checks, programs and records one delta piece. -/
  | fwuPiece (vin : Nat) (storeOk : Bool)
  /-- FWU_APPLY (R462): Mailbox command 0x12 builds and verifies the target image, hands over to it, or both. -/
  | fwuApply (vin : Nat) (storeOk : Bool)
  /-- FWU_CANCEL (R461): Mailbox command 0x13 closes reception and abandons any build. -/
  | fwuCancel
  /-- RECOVERY_IMAGE (R469): Mailbox command 0x18 in RECOVERY stores one piece of a full image, and verifies the image once every piece is held. -/
  | recoveryImage (storeOk : Bool)
  /-- OWNER_ENROL (R408): Mailbox command 0x20 enrols or removes the owner key, code and signing policy. -/
  | ownerEnrol
  /-- FWLOCK_SET (R408): Mailbox command 0x21 sets the owner's firmware lock. -/
  | fwlockSet
  /-- FWLOCK_CLEAR (R408): Mailbox command 0x22 clears the owner's firmware lock. -/
  | fwlockClear
  /-- KEEP_DEFAULTS (R408): Mailbox command 0x28 writes the tuning settings to their defaults. -/
  | keepDefaults
  /-- MBX_DONE (R91): When a mailbox command completes, STATE, NRES and RESULT are set, GSTAT.MBX sets and MBX_DONE is posted. -/
  | mbxDone
  /-- PARK (R98): Writing MODE_REQ.PARK 1 starts the PARK sequence of Table 04-7. -/
  | park
  /-- EMERGENCY_OFF (R96): Writing EOFF 1 sets the emergency-off latch, discharges both gates and enters SAFE. -/
  | emergencyOff
  /-- EOFF_RELEASE (R97): Writing EOFF 0 releases the emergency-off latch. -/
  | eoffRelease
  /-- CCLR (R314): MODE_REQ.CCLR clears THERM.CRIT and its Keep-E group while REL is 1, and posts CRIT_CLEAR. -/
  | cclr
  /-- KEEP_CTL_STORE (R405): Writing KEEP_CTL.STORE 1 starts a Keep-S store, subject to R48. -/
  | keepCtlStore
  /-- KEEP_CTL_SCRUB (R409): Writing KEEP_CTL.SCRUB 1 restarts the scrubber pass at group 0 and runs it within 10 s. -/
  | keepCtlScrub
  /-- BLOCK_PROTECT_WRITE (R407): A write of KEEP_CTL.BP always raises protection, but lowers it only while LOCK.OPEN is 1 and otherwise sets BPERR. -/
  | blockProtectWrite (bp : BitVec 2)
  /-- POWER_FAIL_TRIGGER_ASSIGN (R389): Writing PFEN and PFCH assigns the trigger channel and arms it if that channel's output is 0. -/
  | powerFailTriggerAssign (en : Bool) (ch : BitVec 4)
  /-- CONFIRM (R466): Writing FWU_CTL.CONFIRM 1 while PEND is 1 confirms the image, advances counter 0 and posts FWU CODE 5. -/
  | confirm (byCore : Bool)
  /-- REVERT (R468): Writing FWU_CTL.REVERT 1 while PEND is 1 hands back to the previous image. -/
  | revert
  /-- LOCK_CODE (R90): A write to LOCK delivers one half of the owner code, which opens, closes or counts a failed attempt at the owner lock. -/
  | lockCode (v : Half)
  /-- GUARD_CLR (R258): Writing GUARD.CLR releases a latch of cause 1–4 and resets the count of trips within 60 s. -/
  | guardClr (p : PortId) (tripped : Bool)
  /-- GUARD_AUTO_WRITE (R257): Writing GUARD.AUTO 0 cancels a running cool-down, and writing it 1 starts or completes the pending one. -/
  | guardAutoWrite (p : PortId) (v : Bool)
  /-- ROLE_WRITE (R93): A write of PCTL.ROLE is refused or applied, and a port going to FEED starts probing while one going to OFF is shut down. -/
  | roleWrite (p : PortId) (role : BitVec 2)
  /-- EN_WRITE (R95): Writing PCTL.EN 0 stops the port engine and shuts a FEED port down as for OFF. -/
  | enWrite (p : PortId) (v : Bool)
  /-- AUTO_WRITE (R70): Setting PCTL.AUTO from 0 to 1 stores the present role as the auto-start role in a Keep-E commit. -/
  | autoWrite (p : PortId) (v : Bool)
  /-- LMAX_WRITE (R95): Writing PCTL.LMAX below LEVEL.CUR withdraws contracts that no longer fit and starts a step down. -/
  | lmaxWrite (p : PortId) (l : Level)
  /-- PS2_WRITE (R283): Setting PCTL.PS2 bounds BUDGET to 100 W and sheds under R281 where ADMIT exceeds it. -/
  | ps2Write (p : PortId) (v : Bool)
  /-- FIXED_WRITE (R311): Setting or clearing PCTL.FIXED changes the port's shelf reservation and sheds where needed. -/
  | fixedWrite (p : PortId) (v : Bool)
  /-- LEVEL_WRITE (R94): A write of LEVEL.HOLD and TGT holds the target level or returns it to the allocator. -/
  | levelWrite (p : PortId) (hold : Bool) (tgt : Level)
  /-- RAIL_SWAP (R238): Writing RAIL.SWAP 1 on a ring feeder requests a tap-rail swap. -/
  | railSwap (p : PortId)
  /-- RAIL_EN_WRITE (R222): Writing RAIL.EN 0 turns the switch OFF, clears RAIL.OC and stops the retries. -/
  | railEnWrite (p : PortId) (v : Bool)
  /-- ILIM_WRITE (R247): A write of ILIM above IFAST is ignored, and otherwise sets the port cap and the breaker reference. -/
  | ilimWrite (p : PortId) (v : Half)
  /-- IFAST_WRITE (R247): A write of IFAST is reduced to the 45 mV limit, then ignored if the result lies below ILIM. -/
  | ifastWrite (p : PortId) (v : Half)
  /-- FLAG_CLEAR (R87): A W1C write clears a flag and resets its occurrence count, unless a set in the same cycle wins. -/
  | flagClear (reg : FlagReg) (mask : Half) (sets : Half)
  /-- CMP_CFG_WRITE (R385): A CMP_CFG write reaches the channel at the next tick, and a change of INPUT, RANGE, REF, WIN or POL is a range change. -/
  | cmpCfgWrite (v : Half)
  /-- CMP_LVL_WRITE (R384): A CMP_LVL write sets a channel level from the first tick at least 1 µs after the write. -/
  | cmpLvlWrite (v : Half)
  /-- REGISTER_WRITE (R84): A host write to a register that has no row of its own takes effect within 20 ns, in bus order. -/
  | registerWrite (addr : BitVec 7) (v : Half)
  /-- FAST_OVER_CURRENT (R253): The fast comparator trips, latches the path open and runs the trip sequence of R253. -/
  | fastOverCurrent (p : PortId) (c : Crossing)
  /-- SLOW_OVER_CURRENT (R248): The I²t accumulator reaches ILIM² × 100 ms and trips the port with cause 2. -/
  | slowOverCurrent (p : PortId) (c : Crossing)
  /-- OVER_VOLTAGE (R250): VSEG stays above 1.08 × nominal for 20 µs and trips the port with cause 3. -/
  | overVoltage (p : PortId) (c : Crossing)
  /-- REVERSE_CURRENT (R251): A reverse-current crossing on a radial or DRAW port latches a trip with cause 4. -/
  | reverseCurrent (p : PortId) (c : Crossing)
  /-- REVERSE_CURRENT_BLOCK (R233): On a ring feeder with a peer, reverse current opens the path within 300 ns without latching, and sets RING.BLOCK. -/
  | reverseCurrentBlock (p : PortId) (c : Crossing)
  /-- RING_RECLOSE (R233): A blocked feeder recloses once VFEED − VSEG has lain in 0–2 % for 1 ms. -/
  | ringReclose (p : PortId)
  /-- RING_BLOCK_TIMEOUT (R234): A feeder that has not reclosed within 100 ms, or has blocked three times in 10 s, holds its path open and sets RING.MISM. -/
  | ringBlockTimeout (p : PortId)
  /-- COOL_DOWN (R257): The automatic-restart cool-down expires and releases the trip latch. -/
  | coolDown (p : PortId)
  /-- GUARD_RECLOSE (R256): Once the latch is released and every reclose condition holds, the path closes from the L0 starting code. -/
  | guardReclose (p : PortId)
  /-- PATH_CLOSED (R242): PSTAT.PATH sets once VFEED − VSEG has stayed below 0.3 V for 1 ms. -/
  | pathClosed (p : PortId)
  /-- CRITICAL_TRIP (R312): The die comparator crosses 140 °C: THERM.CRIT latches, the paths open and SAFE is entered. -/
  | criticalTrip
  /-- SAFE_EXIT (R32): Once the critical latch is released and EOFF is clear, SAFE ends in IDLE with both ports OFF. -/
  | safeExit
  /-- KHOT_RISE (R397): THERM.KHOT rising stops a running commit at its page boundary, voiding it or marking it for rollback. -/
  | khotRise (pages : Nat)
  /-- KHOT_CLEAR (R397): After KHOT has read 0 for 10 ms, held LOG entries are written and a pending rollback is restored. -/
  | khotClear
  /-- DROOP_DETECT (R294): VSEG below the droop threshold for 1 µs applies the VSET step and the shed tone, and sets SHED, ACT and HOLD. -/
  | droopDetect (p : PortId)
  /-- DROOP_HOLD_END (R296): The droop hold ends after 1 ms back in band or after 5 ms, and leaves the droop cleared or persistent. -/
  | droopHoldEnd (p : PortId)
  /-- DROOP_STEP_REMOVED (R296): Once the droop step has been removed at 1 code per 100 µs, DROOP.ACT clears. -/
  | droopStepRemoved (p : PortId)
  /-- DROOP_LIMIT_FALL (R299): Each 100 ms of persistent droop lowers the droop limit by a further 20 %. -/
  | droopLimitFall (p : PortId)
  /-- DROOP_LIMIT_END (R299): After 60 s without detection, the droop limit and THROT.DROOP end. -/
  | droopLimitEnd (p : PortId)
  /-- VSET_CALIBRATION (R204): The measurement of VFEED at codes 0 and 1023 ends, and the transfer calibration is stored or an LFAULT is reported. -/
  | vsetCalibration (p : PortId) (v0 : Nat) (v1023 : Nat)
  /-- LEVEL_NOTICE (R211): The head broadcasts LEVEL_NOTICE at the first moment the line allows, which starts a level step. -/
  | levelNotice (p : PortId) (b1 : Nat)
  /-- LEVEL_RAMP_START (R211): b1 ms after the notice, the VSET code starts its linear ramp. -/
  | levelRampStart (p : PortId)
  /-- LEVEL_RAMP_END (R211): After 30 ms, the ramp reaches the to-level's starting code. -/
  | levelRampEnd (p : PortId)
  /-- LEVEL_SETTLED (R212): The step settles: LEVEL.CUR updates and LEVEL_DONE is posted and broadcast. -/
  | levelSettled (p : PortId)
  /-- LEVEL_STEP_TIMEOUT (R216): A step not settled within its bound is aborted, and PSTAT.LFAULT sets. -/
  | levelStepTimeout (p : PortId)
  /-- LEVEL_TRIM (R206): Each ms whose mean VFEED lies more than 0.5 % off nominal moves the VSET code one step. -/
  | levelTrim (p : PortId) (meanFeed : Nat)
  /-- FEED_OUT_OF_BAND (R217): VFEED outside the settle band for 100 ms sets PSTAT.LFAULT. -/
  | feedOutOfBand (p : PortId)
  /-- L0_NOT_REACHED (R218): VSEG not in the L0 band 60 ms after gate drive starts sets PSTAT.LFAULT. -/
  | l0NotReached (p : PortId)
  /-- LFAULT_CLEAR (R219): PSTAT.LFAULT clears after VFEED has been in band for 1 s. -/
  | lfaultClear (p : PortId)
  /-- IDLE_LEVEL_DROP (R209): After 10 s with ADMIT 0 and no busy slot, TGT becomes L0. -/
  | idleLevelDrop (p : PortId)
  /-- FIRST_SECOND_START (R71): VSEG entering the L0 window after the path closes begins the first second and its 32 ms beacons. -/
  | firstSecondStart (p : PortId)
  /-- FIRST_SECOND_END (R71): At t0 + 1 s, the configured beacon period returns. -/
  | firstSecondEnd (p : PortId)
  /-- LEVEL_DECISION (R77): At the first beacon at or after t0 + 600 ms, consented contracts are admitted and LEVEL.TGT is set. -/
  | levelDecision (p : PortId)
  /-- RESTORE_READY_BROADCAST (R79): Within 5 ms after the final LEVEL_DONE, the head broadcasts a class READY twice for each restored class. -/
  | restoreReadyBroadcast (p : PortId)
  /-- PROBE_CYCLE (R123): A 10 ms probe cycle runs the live check, the two-current probes and a peer window, and classifies the wires. -/
  | probeCycle (p : PortId) (r : ProbeReading)
  /-- ATTACH (R131): The debounce completes: the port attaches, turns the tap rail on and closes its path toward L0. -/
  | attach (p : PortId)
  /-- PEER_WINDOW (R133): An attached ring feeder without a peer runs one peer window in every 100 ms. -/
  | peerWindow (p : PortId) (winA winB : Nat)
  /-- CONTENTION_PAUSE (R224): After 100 ms of fruitless probing, a ring port pauses 200–1000 ms and presents the end-cap signature. -/
  | contentionPause (p : PortId) (ms : Nat)
  /-- CONTENTION_PAUSE_END (R224): The contention pause expires and probing resumes. -/
  | contentionPauseEnd (p : PortId)
  /-- DETACH (R135): A detach condition lasting 10 ms aborts slots, opens the path, turns the rail off and posts DETACH. -/
  | detach (p : PortId)
  /-- PROBE_RESUME (R135): Probing resumes 100 ms after a detach. -/
  | probeResume (p : PortId)
  /-- DRAW_JOIN (R136): A DRAW port that has decoded two valid beacons on one pin joins, with that pin as its signal wire. -/
  | drawJoin (p : PortId)
  /-- UPSTREAM_SILENCE (R137): A joined DRAW port that has heard nothing for 3.5 s opens its path and posts DETACH. -/
  | upstreamSilence (p : PortId)
  /-- BEACON (R158): At its due time the head sends a BEACON, followed by ADVERT and an enrol window where due. -/
  | beacon (p : PortId)
  /-- ENROL_WINDOW_END (R162): After the window, the head answers each intact ENROLL with ASSIGN or REJECT, in minislot order. -/
  | enrolWindowEnd (p : PortId)
  /-- POLL (R174): The head sends a POLL of the kind due: restore, general every 2 s, after retry_after, or presence every 60 s. -/
  | poll (p : PortId) (kind : BitVec 2) (idx : Idx)
  /-- ACK_MISSING (R150): No answer within 48 µs, or tReply for a POLL, leads to a retransmission, or after three retries to LINE_FAIL. -/
  | ackMissing (p : PortId)
  /-- REQUEST (R181): The head acknowledges a REQUEST, takes a slot, and grants speculatively, posts it to the allocator, or answers WAIT. -/
  | request (p : PortId) (idx : Idx) (h : FrameTag) (r : RequestMsg)
  /-- ENROLL (R161): An intact ENROLL received in a minislot is recorded for answer after the window. -/
  | enroll (p : PortId) (slot : BitVec 3) (m : EnrollMsg)
  /-- ACK (R148): A received ACK completes the exchange under way: it frees the slot and posts READY or ENROLLED. -/
  | ack (p : PortId) (seq : BitVec 3)
  /-- NAK (R148): A received NAK ends the exchange, and a restore POLL answered with NAK deletes the stored contract. -/
  | nak (p : PortId) (seq : BitVec 3)
  /-- HINT (R302): A HINT is validated and replaces the endpoint's forecast reservation. -/
  | hint (p : PortId) (idx : Idx) (h : FrameTag) (m : HintMsg)
  /-- REPORT (R192): A REPORT updates calibration, ceiling, model rate, thermal points and the low-voltage and over-draw checks. -/
  | report (p : PortId) (idx : Idx) (h : FrameTag) (m : ReportMsg) (stepMa : Nat)
  /-- FOREIGN_BEACON (R157): A head that decodes another head's beacon compares EUI-48s and falls silent if its own is higher. -/
  | foreignBeacon (p : PortId) (eui : Eui)
  /-- CAL_PULSE (R286): On a calibration occasion, the head sends CAL_PULSE naming a drawer and then REPORT POLLs. -/
  | calPulse (p : PortId) (idx : Idx) (stepMa : Nat) (dur : Nat)
  /-- SPEC_CONFIRM_EXPIRY (R274): A SPEC slot reaching tSpecConfirm is withdrawn with reason 2 in that cycle. -/
  | specConfirmExpiry (p : PortId) (slot : BitVec 7)
  /-- BUSY_SLOT_EXPIRY (R371): A BUSY slot with no allocator decision at tSpecConfirm receives WAIT with position 0 and is freed. -/
  | busySlotExpiry (p : PortId) (slot : BitVec 7)
  /-- ALLOCATOR_PASS (R269): Every 4 ms, the allocator decides every new and pending request in admission order against Table 12-2. -/
  | allocatorPass
  /-- ENGINE_CONFIRM (R274): A core confirm store is accepted while the slot is in SPEC or BUSY, and writes CONTRACT and posts ADMITTED. -/
  | engineConfirm (p : PortId) (slot : BitVec 7)
  /-- ENGINE_DENY (R424): A core deny store withdraws the slot's grant with the reason given. -/
  | engineDeny (p : PortId) (slot : BitVec 7) (reason : Byte)
  /-- ENGINE_WITHDRAW (R424): A core withdraw store ends the contract of a roster index with the reason given. -/
  | engineWithdraw (p : PortId) (idx : Idx) (reason : BitVec 4)
  /-- ENGINE_LEVEL_TARGET (R424): A core level-target store sets LEVEL.TGT. -/
  | engineLevelTarget (p : PortId) (l : Level)
  /-- READY (R275): Once a confirmed contract's level is reached, the head sends READY within tReady. -/
  | ready (p : PortId) (slot : BitVec 7)
  /-- HINT_LEVEL_RAISE (R303): 200 ms before a forecast start, the firmware raises LEVEL.TGT for the reservation. -/
  | hintLevelRaise (p : PortId) (idx : Idx)
  /-- HINT_RESERVATION_END (R302): A HINT reservation ends at its forecast start plus its duration. -/
  | hintReservationEnd (p : PortId) (idx : Idx)
  /-- PEER_GAP (R228): In the 1.0 ms before a beacon, a feeder sends its due PEER_HELLO, swap request or PEER_REPORT. -/
  | peerGap (p : PortId)
  /-- PEER_HELLO (R225): PEER_HELLOs exchanged in a peer gap establish the ring peer and set RING.PEER. -/
  | peerHello (p : PortId) (h : FrameTag) (m : HelloMsg)
  /-- PEER_REPORT (R231): A received PEER_REPORT updates the ring budget, the follower's trim and the level mismatch check. -/
  | peerReport (p : PortId) (h : FrameTag) (m : PeerReportMsg)
  /-- RAIL_SWAP_REQ (R239): A received swap request is accepted, refused or NAKed as a crossing. -/
  | railSwapReq (p : PortId) (h : FrameTag) (eui : Eui) (takes : Bool)
  /-- RAIL_SWAP_ACK (R241): The acknowledged RAIL_SWAP_ACK 0 starts the swap, and the taker's switch goes ON. -/
  | railSwapAck (p : PortId) (h : FrameTag) (refused : Bool)
  /-- SWAP_GIVER_BACKUP (R241): 0.9–1.1 ms into the swap, the giver's switch goes from ON to BACKUP. -/
  | swapGiverBackup (p : PortId)
  /-- RAIL_SWAP_END (R241): At 2 ms the swap completes and mastership passes to the taker, or the swap is abandoned. -/
  | railSwapEnd (p : PortId) (conducted : Nat)
  /-- SWAP_SLOT_TIMEOUT (R239): Slots not all free within 200 ms refuse the swap. -/
  | swapSlotTimeout (p : PortId)
  /-- RING_JOIN_TRIM (R225): Once VFEED − VSEG has held 0–2 % for 5 ms, the joiner closes its path and sets BACKUP. -/
  | ringJoinTrim (p : PortId)
  /-- RING_JOIN_FAIL (R226): A join whose trim misses its bound, or whose versions differ, fails and sets RING.MISM. -/
  | ringJoinFail (p : PortId) (why : JoinFailure)
  /-- RING_JOIN_RETRY (R226): 10 s after a failed join or a mismatch, the follower attempts the join again. -/
  | ringJoinRetry (p : PortId)
  /-- RING_SYNCHRONISED (R227): 2.5 s after step 1 of the join, the follower counts as synchronised. -/
  | ringSynchronised (p : PortId)
  /-- RING_FRAME_MIRROR (R227): The follower decodes a master frame and updates its mirrored roster, contracts, SEQs and schedule. -/
  | ringFrameMirror (p : PortId) (f : Frame)
  /-- FOLLOWER_TAKEOVER (R235): A follower whose BACKUP carries the rail, or whose master falls silent, becomes line master. -/
  | followerTakeover (p : PortId) (backupUs : Nat)
  /-- FOLLOWER_LOST (R236): Four follower peer gaps without a PEER_REPORT declare the follower lost. -/
  | followerLost (p : PortId)
  /-- RAIL_OC (R221): After 1 ms in current limit, RAIL.OC sets and RAIL CODE 3 is posted. -/
  | railOc (p : PortId)
  /-- RAIL_OC_OFF (R221): After 20 ms of continuous limiting, the tap-rail switch turns OFF. -/
  | railOcOff (p : PortId)
  /-- RAIL_RETRY (R221): Once per second, the switch retries ON. -/
  | railRetry (p : PortId)
  /-- RAIL_OC_CLEAR (R221): RAIL.OC clears after the switch has stayed ON out of limit for 10 ms. -/
  | railOcClear (p : PortId)
  /-- PARK_HANDOFF_TIMEOUT (R337): A parking ring feeder opens its path 30 ms after its zero-budget PEER_REPORT. -/
  | parkHandoffTimeout (p : PortId)
  /-- GANG_FRAME (R317): Every 40 ms the leader pulls GSYNC, computes shares and sends GLEAD. -/
  | gangFrame
  /-- GSYNC_EDGE (R323): A GSYNC falling edge starts frame timing, and a leader that did not drive it compares IDs. -/
  | gsyncEdge
  /-- GLEAD (R330): A member decodes GLEAD and takes its share, the gang level and ALLIDLE. -/
  | glead (m : GleadMsg)
  /-- GMEM (R321): The leader decodes a member's GMEM and includes or updates that member. -/
  | gmem (m : GmemMsg)
  /-- MEMBER_SLOT (R327): In its slot, a member sends GMEM with F, A, U01, U23 and its levels. -/
  | memberSlot (readbackOk : Bool)
  /-- GANG_ELECTION (R322): After 120 ms without GSYNC plus 2 ms × ID of waiting, a device becomes leader. -/
  | gangElection
  /-- GANG_JOIN (R320): After two GLEADs, or 120 ms of silence, a device starts driving the gang bus. -/
  | gangJoin
  /-- GANG_READBACK_FAULT (R324): Three frames of readback mismatch stop a device driving the gang bus. -/
  | gangReadbackFault
  /-- GANG_RETRY (R324): 10 s after a readback fault, the device tries to join again. -/
  | gangRetry
  /-- THERMAL_THROTTLE_UPDATE (R306): Once per second, each die and NTC throttle limit falls, holds or rises, and begins or ends its cause. -/
  | thermalThrottleUpdate (a0 b0 a1 b1 : NtcReading)
  /-- BUNDLE_MODEL (R307): Once per second, each enabled bundle group updates tb and its throttle limit. -/
  | bundleModel
  /-- THERMAL_REPORT_EXPIRY (R305): An endpoint temperature report older than 10 min leaves points 16–31. -/
  | thermalReportExpiry
  /-- THROT (R309): At the end of a millisecond with THROT changes, PEVT.THROT sets and one THROT event is posted. -/
  | throt (p : PortId)
  /-- CEILING_THROT_CLEAR (R292): THROT.CEILING clears 10 s after the last ceiling refusal or withdrawal. -/
  | ceilingThrotClear (p : PortId)
  /-- CALIBRATION_POINT (R341): Every 100 ms, ENERGY updates and the firmware attributes the interval to the endpoints. -/
  | calibrationPoint
  /-- ENERGY_STORE (R351): Every 15 min, the EMETER and TENANT energies are written as a snapshot to the energy ring. -/
  | energyStore
  /-- KEEP_COMMIT_ISSUE (R393): A closed commit is tested for block protection and HOT, then queued or refused. -/
  | keepCommitIssue (writes : List (Nat × Byte))
  /-- KEEP_COMMIT_START (R394): A queued commit takes its number and starts its journal page writes. -/
  | keepCommitStart
  /-- KEEP_DURABLE (R395): The DONE header write makes a commit durable, sets DSEQ and posts KEEP_DURABLE. -/
  | keepDurable
  /-- TABLE_DURABLE_COMMIT (R107): Within 100 ms of a table commit, the firmware issues the Keep-E commit that makes it durable. -/
  | tableDurableCommit
  /-- ROSTER_PAGE_WRITE (R400): A changed stored contract or calibration value is written to its roster page, at most every 6 h. -/
  | rosterPageWrite (p : PortId) (page : BitVec 7)
  /-- KEEP_S_STORE_DONE (R405): A Keep-S store ends, marking its bank DONE with a new store sequence. -/
  | keepSStoreDone
  /-- POWER_FAIL_TRIGGER (R389): The trigger channel's output rising starts a Keep-S store within 2 µs and disarms the trigger. -/
  | powerFailTrigger
  /-- POWER_FAIL_REARM (R389): After the output has read 0 for 1 s, the trigger re-arms. -/
  | powerFailRearm
  /-- SCRUB_GROUP (R409): The scrubber visits the next group, correcting a correctable error or poisoning an uncorrectable one. -/
  | scrubGroup (r : EccResult)
  /-- WATCHDOG (R367): The Fedora watchdog fires after 100 ms unserviced, or on a double trap, and starts a core restart. -/
  | watchdog
  /-- ALLOCATOR_RESUME (R372): After a core restart, the allocator resumes and one THROT event per port is posted. -/
  | allocatorResume
  /-- HANDOVER (R464): With LEVEL.BUSY 0, the outgoing image writes the handover block and calls the ROM handover service. -/
  | handover
  /-- HANDOVER_RESUME (R465): The incoming image resumes the allocator, MODE is recomputed, PEND sets and the health timer starts. -/
  | handoverResume
  /-- HANDOVER_BUSY_TIMEOUT (R456): LEVEL.BUSY held for 500 ms refuses the handover with REFUSE 1. -/
  | handoverBusyTimeout
  /-- HEALTH_TIMEOUT (R468): tHealth expiring while PEND is 1 hands back to the previous image. -/
  | healthTimeout
  /-- HEALTH_SELF_CHECK (R467): At least 10 s after resume, with every check held, the shipped firmware writes CONFIRM. -/
  | healthSelfCheck
  /-- SEQUENCER_RELOAD (R167): After a beacon without ENRW, a port's sequencer microcode is reloaded. -/
  | sequencerReload (p : PortId)
  /-- SEQUENCER_RELOAD_DONE (R167): The reload ends within 1.5 ms, and a delayed beacon starts within 40 µs. -/
  | sequencerReloadDone (p : PortId)
  /-- CMP_TICK (R378): At each tick, the enabled channels sample and decide, routing edges to capture, interrupt and wake. -/
  | cmpTick (inputs : List Nat)
  /-- CAPTURE_FIFO_READ (R381): A core read of word 0 removes the oldest capture entry and latches its timebase. -/
  | captureFifoRead
  /-- INTERRUPT (R427): Between bundles, a pending enabled source is taken as a trap. -/
  | interrupt
  /-- DMA_DONE (R429): The end of a DMA transfer sets EVR.DMA. -/
  | dmaDone
  /-- DEBUG_HALT_REQUEST (R426): A debug halt request with no debugger attached raises BREAK. -/
  | debugHaltRequest (attached : Bool)
  /-- TIMEBASE_COMPARE (R447): The timebase reaches the compare value, which ends WAITUNTIL and raises source 4. -/
  | timebaseCompare
  /-- BEACON_RECEIVED (R136): A DRAW port decodes a beacon, measures its bit time and releases from shed on SHED 0. -/
  | beaconReceived (p : PortId) (pinB : Bool) (h : FrameTag) (m : BeaconMsg) (bitNs : Nat)
  /-- POLL_RECEIVED (R176): A joined DRAW port answers a POLL and aligns itself with the head's view of its contract. -/
  | pollReceived (p : PortId) (h : FrameTag) (m : PollMsg) (reply : PollReply) (mv : Nat)
  /-- ACCEPT_RECEIVED (R184): A DRAW port records the grant, without permission to draw. -/
  | acceptReceived (p : PortId) (h : FrameTag) (m : AcceptMsg)
  /-- READY_RECEIVED (R184): A DRAW port adopts the contract, which starts its timer and closes its path. -/
  | readyReceived (p : PortId) (h : FrameTag) (bc : Bool) (m : ReadyMsg)
  /-- WITHDRAW_RECEIVED (R189): A DRAW port ends its contract and falls to the floor within 5 ms. -/
  | withdrawReceived (p : PortId) (h : FrameTag) (bc : Bool) (m : WithdrawMsg)
  /-- WAIT_RECEIVED (R186): A DRAW port keeps its request pending until retry_after. -/
  | waitReceived (p : PortId) (h : FrameTag) (m : WaitMsg)
  /-- REJECT_RECEIVED (R188): A DRAW port sends no equal or larger REQUEST for 10 s. -/
  | rejectReceived (p : PortId) (h : FrameTag) (bc : Bool) (m : RejectMsg)
  /-- ASSIGN_RECEIVED (R178): A DRAW port takes the roster index and answers with ACK. -/
  | assignReceived (p : PortId) (h : FrameTag) (idx : Idx) (m : AssignMsg)
  /-- SHED_TONE_RECEIVED (R165): A DRAW port stops transmitting and falls to its contract floor within tShedFold. -/
  | shedToneReceived (p : PortId)
  /-- SOFT_RESET_RECEIVED (R191): A DRAW port ends its contract and keeps its index. -/
  | softResetReceived (p : PortId) (h : FrameTag) (bc : Bool)
  /-- HARD_RESET_RECEIVED (R191): A DRAW port ends its contract and forgets its index, then re-enrols. -/
  | hardResetReceived (p : PortId) (h : FrameTag) (bc : Bool)
  /-- CAL_PULSE_RECEIVED (R193): A DRAW port records its voltages, and makes the step if it is the drawer. -/
  | calPulseReceived (p : PortId) (h : FrameTag) (m : CalPulseMsg) (vBefore vDuring : Half)
  /-- ENROLL_MINISLOT (R161): An unenrolled DRAW port sends ENROLL in its chosen minislot. -/
  | enrollMinislot (p : PortId) (k j : BitVec 3) (m : EnrollMsg) (mv : Nat) (idle : Bool)
  /-- GRANT_TIMEOUT (R185): With no READY or WITHDRAW within 400 ms, a DRAW port treats the grant as lost. -/
  | grantTimeout (p : PortId)
  /-- ADD (R412): Instruction ADD: d = a + b. -/
  | add (w : OpWord)
  /-- SUB (R412): Instruction SUB: d = a − b. -/
  | sub (w : OpWord)
  /-- AND (R412): Instruction AND: d = a & b. -/
  | andOp (w : OpWord)
  /-- OR (R412): Instruction OR: d = a | b. -/
  | orOp (w : OpWord)
  /-- XOR (R412): Instruction XOR: d = a ^ b. -/
  | xor (w : OpWord)
  /-- ANDN (R412): Instruction ANDN: d = a & ~b. -/
  | andn (w : OpWord)
  /-- MOV (R412): Instruction MOV: d = b. -/
  | mov (w : OpWord)
  /-- CMP_CC (R412): Instruction CMP.cc: d = 1 if the condition holds. -/
  | cmpCc (w : OpWord)
  /-- SHL (R412): Instruction SHL: left shift. -/
  | shl (w : OpWord)
  /-- SHR (R412): Instruction SHR: logical right shift. -/
  | shr (w : OpWord)
  /-- SAR (R412): Instruction SAR: arithmetic right shift. -/
  | sar (w : OpWord)
  /-- ROR (R412): Instruction ROR: rotate right. -/
  | ror (w : OpWord)
  /-- MIN (R412): Instruction MIN: signed minimum. -/
  | min (w : OpWord)
  /-- MAX (R412): Instruction MAX: signed maximum. -/
  | max (w : OpWord)
  /-- MINU (R412): Instruction MINU: unsigned minimum. -/
  | minu (w : OpWord)
  /-- MAXU (R412): Instruction MAXU: unsigned maximum. -/
  | maxu (w : OpWord)
  /-- SEL (R412): Instruction SEL: d = d ≠ 0 ? a : b. -/
  | sel (w : OpWord)
  /-- CLZ (R412): Instruction CLZ: counts leading zeros. -/
  | clz (w : OpWord)
  /-- EXT (R412): Instruction EXT: sign- or zero-extends a byte or half. -/
  | ext (w : OpWord)
  /-- ADDS_W (R420): Instruction ADDS.W: saturating Q1.31 add. -/
  | addsW (w : OpWord)
  /-- SUBS_W (R420): Instruction SUBS.W: saturating Q1.31 subtract. -/
  | subsW (w : OpWord)
  /-- ADDS_H (R420): Instruction ADDS.H: saturating Q1.15 add. -/
  | addsH (w : OpWord)
  /-- SUBS_H (R420): Instruction SUBS.H: saturating Q1.15 subtract. -/
  | subsH (w : OpWord)
  /-- NEGS_W (R420): Instruction NEGS.W: saturating Q1.31 negate. -/
  | negsW (w : OpWord)
  /-- ABSS_W (R420): Instruction ABSS.W: saturating Q1.31 absolute value. -/
  | abssW (w : OpWord)
  /-- MUL (R412): Instruction MUL: low 32 bits of the product. -/
  | mul (w : OpWord)
  /-- MULH (R412): Instruction MULH: high 32 bits of the signed product. -/
  | mulh (w : OpWord)
  /-- MULHU (R412): Instruction MULHU: high 32 bits of the unsigned product. -/
  | mulhu (w : OpWord)
  /-- DIV (R412): Instruction DIV: signed quotient. -/
  | div (w : OpWord)
  /-- DIVU (R412): Instruction DIVU: unsigned quotient. -/
  | divu (w : OpWord)
  /-- REM (R412): Instruction REM: signed remainder. -/
  | rem (w : OpWord)
  /-- REMU (R412): Instruction REMU: unsigned remainder. -/
  | remu (w : OpWord)
  /-- MPY_Q31 (R419): Instruction MPY.Q31: acc = a × b. -/
  | mpyQ31 (w : OpWord)
  /-- MAC_Q31 (R419): Instruction MAC.Q31: acc += a × b. -/
  | macQ31 (w : OpWord)
  /-- MSU_Q31 (R419): Instruction MSU.Q31: acc −= a × b. -/
  | msuQ31 (w : OpWord)
  /-- MPY_Q15 (R419): Instruction MPY.Q15: Q1.15 product into the accumulator. -/
  | mpyQ15 (w : OpWord)
  /-- MAC_Q15 (R419): Instruction MAC.Q15: Q1.15 multiply-accumulate. -/
  | macQ15 (w : OpWord)
  /-- ACCLD (R419): Instruction ACCLD: loads a register into an accumulator. -/
  | accld (w : OpWord)
  /-- ACCADD (R419): Instruction ACCADD: adds two accumulators. -/
  | accadd (w : OpWord)
  /-- ACCSH (R419): Instruction ACCSH: shifts an accumulator. -/
  | accsh (w : OpWord)
  /-- NARQ31 (R420): Instruction NARQ31: narrows an accumulator to Q1.31. -/
  | narq31 (w : OpWord)
  /-- NARQ15 (R420): Instruction NARQ15: narrows an accumulator to Q1.15. -/
  | narq15 (w : OpWord)
  /-- MULAI (R420): Instruction MULAI: integer part of acc × b, saturating. -/
  | mulai (w : OpWord)
  /-- MULAF (R412): Instruction MULAF: fractional part of acc × b. -/
  | mulaf (w : OpWord)
  /-- LD_W (R421): Instruction LD.W: loads 32 bits. -/
  | ldW (w : OpWord)
  /-- LD_H (R421): Instruction LD.H: loads 16 bits, sign-extended. -/
  | ldH (w : OpWord)
  /-- LD_HU (R421): Instruction LD.HU: loads 16 bits, zero-extended. -/
  | ldHu (w : OpWord)
  /-- LD_B (R421): Instruction LD.B: loads 8 bits, sign-extended. -/
  | ldB (w : OpWord)
  /-- LD_BU (R421): Instruction LD.BU: loads 8 bits, zero-extended. -/
  | ldBu (w : OpWord)
  /-- ST_W (R421): Instruction ST.W: stores 32 bits. -/
  | stW (w : OpWord)
  /-- ST_H (R421): Instruction ST.H: stores 16 bits. -/
  | stH (w : OpWord)
  /-- ST_B (R421): Instruction ST.B: stores 8 bits. -/
  | stB (w : OpWord)
  /-- LDA (R421): Instruction LDA: loads a 40-bit accumulator. -/
  | lda (w : OpWord)
  /-- STA (R421): Instruction STA: stores a 40-bit accumulator. -/
  | sta (w : OpWord)
  /-- LEA (R421): Instruction LEA: computes an address without an access. -/
  | lea (w : OpWord)
  /-- LR_W (R430): Instruction LR.W: load-reserved. -/
  | lrW (w : OpWord)
  /-- SC_W (R448): Instruction SC.W: store-conditional. -/
  | scW (w : OpWord)
  /-- TAS_B (R448): Instruction TAS.B: atomic test-and-set of a byte. -/
  | tasB (w : OpWord)
  /-- BCOPY (R443): Instruction BCOPY: one block-copy iteration. -/
  | bcopy (w : OpWord)
  /-- BFILL (R443): Instruction BFILL: one block-fill iteration. -/
  | bfill (w : OpWord)
  /-- BDIFF (R443): Instruction BDIFF: one block-compare iteration. -/
  | bdiff (w : OpWord)
  /-- BR (R440): Instruction BR: branch. -/
  | br (w : OpWord)
  /-- CALL (R415): Instruction CALL: pushes the return address and slides the window. -/
  | call (w : OpWord)
  /-- BZ (R440): Instruction BZ: branch if zero. -/
  | bz (w : OpWord)
  /-- BNZ (R440): Instruction BNZ: branch if not zero. -/
  | bnz (w : OpWord)
  /-- BLTZ (R440): Instruction BLTZ: branch if negative. -/
  | bltz (w : OpWord)
  /-- BGEZ (R440): Instruction BGEZ: branch if not negative. -/
  | bgez (w : OpWord)
  /-- DBNZ (R441): Instruction DBNZ: decrement and branch if not zero. -/
  | dbnz (w : OpWord)
  /-- WAITUNTIL (R447): Instruction WAITUNTIL: waits for the timebase to reach a target. -/
  | waituntil (w : OpWord)
  /-- JR (R440): Instruction JR: branch to a register address. -/
  | jr (w : OpWord)
  /-- CALLR (R440): Instruction CALLR: call to a register address. -/
  | callr (w : OpWord)
  /-- RET (R417): Instruction RET: pops the return address and slides the window back. -/
  | ret (w : OpWord)
  /-- TRET (R426): Instruction TRET: returns from a trap. -/
  | tret (w : OpWord)
  /-- EWAIT (R446): Instruction EWAIT: waits for the selected EVR events. -/
  | ewait (w : OpWord)
  /-- EPOST (R429): Instruction EPOST: signals event targets. -/
  | epost (w : OpWord)
  /-- FENCE_I (R449): Instruction FENCE.I: refetches code as it stands in memory. -/
  | fenceI (w : OpWord)
  /-- BREAK (R426): Instruction BREAK: raises trap 8. -/
  | breakOp (w : OpWord)
  /-- SYSCALL (R426): Instruction SYSCALL: raises trap 9. -/
  | syscall (w : OpWord)
  /-- NOP (R438): Instruction NOP: does nothing. -/
  | nop (w : OpWord)
  /-- MFS (R439): Instruction MFS: reads a special register. -/
  | mfs (w : OpWord)
  /-- MTS (R439): Instruction MTS: writes a special register. -/
  | mts (w : OpWord)
  /-- UNKNOWN_FRAME (R148): An intact full frame of unknown MTYPE, or with a malformed payload, addressed to the head or a DRAW port is NAKed and not acted on; a broadcast one is discarded. -/
  | unknownFrame (p : PortId) (f : Frame)
  /-- ADVERT_RECEIVED (R173): A joined DRAW port decodes an ADVERT and records its ADVSEQ and limits, which gates its REQUESTs. -/
  | advertReceived (p : PortId) (h : FrameTag) (m : AdvertMsg)
  /-- SLOT_AT_TSPECCONFIRM_LESS_2MS (R427): A transaction slot reaching tSpecConfirm − 2 ms raises interrupt source 0 or 1 of the Fedora core. -/
  | slotAtTspecconfirmLess2ms (p : PortId) (slot : BitVec 7)
  /-- LOCK_CODE_TIMEOUT (R90): When 1 ms passes after the first half of the owner code without the second half, the armed half is dropped and LOCK.ARMED leaves 1. -/
  | lockCodeTimeout
  /-- THERM_REL_CHANGE (R314): The filtered die comparator at 115 °C changes THERM.REL, which decides whether CCLR can clear the critical latch. -/
  | thermRelChange (rel : Bool)
  /-- SREADY_CHANGE (R48): VHOLD crossing 4.6 V changes KEEP_STAT.SREADY, which decides whether a Keep-S store can start. -/
  | sreadyChange (ready : Bool)
  /-- TDIE_UPDATE (R491): At each millisecond boundary, TDIE.TEMP is updated from the die sensor. -/
  | tdieUpdate (temp : Half)
  /-- VSEG_ISEG_MEAN (R339): Every 100 µs, VSEG, ISEG and RAIL.IRAIL take the mean of the last 100 samples. -/
  | vsegIsegMean
  /-- GUARD_METER_SAMPLE (R339): Every microsecond, each port samples VSEG and the shunt, adding to the I²t accumulator and to the internal port energy. -/
  | guardMeterSample (a b : Sample)
  /-- VIO_ABSENT (R474): Loss of VIO while VIN is present floats the host pins, abandons any access in progress and lets the device run on. -/
  | vioAbsent
  deriving DecidableEq, Repr

end Sys2Proof
end

