-- ==== Sys2Proof/Machine/State.lean ====
section
/-! DEFINITION. The state of the NS2048 as plain data, and the state right after reset. Every field's docstring gives
its width, the rule that names it and its reset value; the field's default value IS that reset value, so
`State.reset` is every default. A reset value marked "choice" is one the spec does not give (assumption 4). A register
whose reset column reads "Keep" has the default of Table 04-10 (R490). -/

namespace Sys2Proof.Machine

/-- A sparse table: entries by rising key, none equal to the table's default. A memory is a `Sparse Byte`, that is a
list of `Host.Cell`. -/
abbrev Sparse (α : Type) := List (Nat × α)

/-- Why the machine stops with a fault: no rule of the spec gives the block a fault that stops it, so there is one
constructor and no meaning raises it. -/
inductive Fault where
  /-- Raised by no command; present so that the type has a name to read. Safe. -/
  | none
  deriving DecidableEq, Repr

/-- Why a command has no meaning here. -/
inductive Refusal where
  /-- An instruction this model has not reached, by the table's mnemonic. Raised by Dispatch.lean's arms only. Safe. -/
  | notModelled (mnemonic : String)
  /-- A core access to the Keep engine's window at 0x3030_0000, whose registers no rule lays out (Table 19-1). Raised by
  the core's loads and stores. Safe. -/
  | keepEngineWindow
  /-- A core access to the gang bus controller at 0x3060_0000, whose registers no rule lays out (Table 19-1). Raised by
  the core's loads and stores. Safe. -/
  | gangControllerWindow
  deriving DecidableEq, Repr

/-! ## Power, clock and start -/

/-- Which stretch of its life the device is in (Table 01-4). SAFE and HANDOVER are flags of their own, because both can
hold at once ("SAFE during HANDOVER", chapter 01). -/
inductive Phase where
  | dormant
  | held      -- the core held in reset, by the cold-start latch (R57) or by RESET# (R62)
  | recovery
  | running
  deriving DecidableEq, Repr

/-- PRESENT# as the bus sees it (R64): high; low, with the µs at which the bus may go live; or live. -/
inductive Present where
  | high
  | waiting (liveAt : Nat)
  | live
  deriving DecidableEq, Repr

/-- Supply, clock, reset pins and the bus connection. -/
structure Power where
  /-- VIN present and the logic alive; 1 bit (R30, R474). Reset true: State.reset is the powered device whose core the latch still holds. -/
  supply : Bool := true
  /-- The cold-start latch is armed; 1 bit (R57, R58). Reset true. -/
  latchArmed : Bool := true
  /-- RESET# is low; 1 bit (R62). Reset false. -/
  resetLow : Bool := false
  /-- The latch has released the core while RESET# is low: BOOTSEL as sampled then, for the ROMBOOT that the release of
  RESET# starts (R39, R57). Reset none. -/
  coldHeld : Option Bool := none
  /-- Start phase of the device (Table 01-4). Reset held (MODE reads 0x1, ROMBOOT). -/
  phase : Phase := .held
  /-- Start cause of the running start: 0 cold, 1 RESET#, 2 RECOVERY, 3 watchdog; 2 bits (R68). Reset 0, choice. -/
  cause : BitVec 2 := 0
  /-- PRESENT# and the 10 ms delay (R64). Reset live, choice: a card seated for 10 ms. -/
  present : Present := .live
  /-- VIO present; 1 bit (R474). Reset true, choice. -/
  vio : Bool := true
  /-- The PLL has been asked for; 1 bit (R67). Reset false. -/
  pllOn : Bool := false
  /-- When it was asked for, µs (R67). Reset 0. -/
  pllAt : Nat := 0
  /-- The PLL is locked and the device runs from it; 1 bit (R67). Reset false. -/
  pllLocked : Bool := false
  /-- The PLL failed to lock; 1 bit (R67). Reset false. -/
  pllFailed : Bool := false
  /-- What the last host read drove on D0-D15; none is high impedance (R82, R64). Reset none. -/
  rdata : Option Half := none
  /-- VHOLD at or above 4.6 V, KEEP_STAT.SREADY; 1 bit (R48, Table 04-3). Reset false. -/
  sready : Bool := false
  deriving DecidableEq, Repr

/-- The progress of a PARK sequence (Table 04-7). -/
inductive ParkStage where
  | rail
  | handOff (since : Nat)
  /-- step 4 waits for the commits pending and for a store that was running -/
  | store
  /-- the store of step 4 runs -/
  | storing
  deriving DecidableEq, Repr

/-- An occurrence count of R87 with the total of THROTLOG w0-w1 (Table 05-3). -/
structure Occ where
  /-- Occurrences since the flag was cleared, saturating at 15; 4 bits (R87). Reset 0. -/
  occ : BitVec 4 := 0
  /-- Occurrences since start, saturating; 32 bits (Table 05-3). Reset 0. -/
  total : Word := 0
  /-- THROTLOG w3 [15] SAT; 1 bit (Table 05-3). Reset 0. -/
  sat : Bool := false
  deriving DecidableEq, Repr

/-- The owner data of R408. -/
structure Owner where
  /-- An owner is enrolled, LOCK.OWNER; 1 bit (Table 04-3). Reset false (R490). -/
  enrolled : Bool := false
  /-- The owner's Ed25519 public key; 32 bytes (R408). Reset empty. -/
  key : List Byte := []
  /-- The owner code; 32 bits (R90). Reset 0. -/
  code : Word := 0
  /-- Signing policy 0 to 2 (R408, R453). Reset 0. -/
  policy : BitVec 2 := 0
  /-- LOCK.FWLOCK; 1 bit (R408). Reset false (R490). -/
  fwlock : Bool := false
  deriving DecidableEq, Repr

/-- The global block of registers (Table 04-3) that no other group holds. -/
structure Global where
  /-- GSTAT [13:3], the W1C flags; bits 0 to 2 are computed (R88); 14 bits (Table 04-3). Reset 0. -/
  gstat : BitVec 14 := 0
  /-- GMASK.MASK; 14 bits (Table 04-3). Reset 0. -/
  gmask : BitVec 14 := 0
  /-- SCRATCH.DATA; 16 bits (Table 04-3). Reset 0. -/
  scratch : Half := 0
  /-- The timebase latch that TIME_HI returns; 16 bits (R86). Reset 0. -/
  timeHi : Half := 0
  /-- SHELF.BUDGET; 16 bits (Table 04-3). Reset 0x0000 (R490). -/
  shelf : Half := 0
  /-- SAFE is in force; 1 bit (R32). Reset false. -/
  safe : Bool := false
  /-- MODE_REQ.EOFF, the emergency-off latch; 1 bit (R96). Reset 0. -/
  eoff : Bool := false
  /-- THERM.CRIT, the critical latch; 1 bit (R312). Reset 0 (R490). -/
  crit : Bool := false
  /-- THERM.REL; 1 bit (R314). Reset 0. -/
  rel : Bool := false
  /-- THERM.KHOT; 1 bit (R314). Reset 0. -/
  khot : Bool := false
  /-- TDIE.TEMP; 16 bits (Table 04-3). Reset 0. -/
  tdie : Half := 0
  /-- PARK under way; MODE_REQ.PARK reads 1 while it is some (R98). Reset none. -/
  park : Option ParkStage := none
  /-- A PARK written during HANDOVER, waiting for its end; 1 bit (R98). Reset false. -/
  parkWaits : Bool := false
  /-- The owner data in force (R408). Reset no owner. -/
  owner : Owner := {}
  /-- The owner lock was opened by a code; 1 bit (R90). Reset false. -/
  lockOpen : Bool := false
  /-- The first half of a code and when it came, LOCK.ARMED (R90). Reset none. -/
  lockArmed : Option (Half × Nat) := none
  /-- LOCK.FAILS; 4 bits, saturating (Table 04-3). Reset 0. -/
  lockFails : BitVec 4 := 0
  /-- LOCK.BLOCKED; 1 bit (Table 04-3). Reset 0. -/
  lockBlocked : Bool := false
  /-- Occurrences of GSTAT.OVF (R87, THROTLOG record 21). Reset 0. -/
  ovfOcc : Occ := {}
  deriving DecidableEq, Repr

/-! ## Events -/

/-- An event record (Table 05-4). -/
structure Event where
  typ : Byte
  port : Bool := false
  subj : Bool := false
  restart : Bool := false
  logged : Bool := false
  code : BitVec 4 := 0
  word1 : Half := 0
  seq : Half := 0
  ms : Half := 0
  deriving DecidableEq, Repr

/-- The reserved last entry while it holds OVERFLOW (R116). -/
structure Overflow where
  /-- Sequence number of the first lost event. -/
  first : Half
  /-- Events lost so far; the entry shows at most 0xFFFF. -/
  lost : Nat
  /-- Millisecond of the first loss. -/
  ms : Half
  /-- Word 0 has been read; the entry stands as it is (R116). -/
  frozen : Bool
  deriving DecidableEq, Repr

/-- The event queue (R113 to R116). -/
structure Queue where
  /-- The ordinary entries, oldest first, at most 511 (R116). Reset empty. -/
  q : List Event := []
  /-- The reserved entry (R116). Reset none. -/
  ovf : Option Overflow := none
  /-- An episode that begins while the reserved entry is still being read (R116; assumption 16). Reset none. -/
  ovfNext : Option Overflow := none
  /-- EVQ_LEVEL.PHASE; 2 bits (Table 04-3). Reset 0. -/
  phase : BitVec 2 := 0
  /-- The sequence number of the next event posted; 16 bits (R114). Reset 0. -/
  seq : Half := 0
  /-- The next event posted carries RESTART; 1 bit (R372). Reset false. -/
  restart : Bool := false
  deriving DecidableEq, Repr

/-- An entry of the LOG ring (Table 05-3, LOG). -/
structure LogEntry where
  ev : Event
  boot : Half
  ms : Word
  deriving DecidableEq, Repr

/-! ## The table window and the mailbox -/

/-- TSEL, TIDX, TDATA and TCTL (Table 04-3, R100 to R106). -/
structure Window where
  /-- TSEL.TABLE; 4 bits. Reset 0. -/
  table : BitVec 4 := 0
  /-- TSEL.PORT; 1 bit. Reset 0. -/
  port : Bool := false
  /-- TIDX.INDEX; 11 bits. Reset 0. -/
  index : BitVec 11 := 0
  /-- TCTL.WIDX; 4 bits. Reset 0. -/
  widx : BitVec 4 := 0
  /-- The staged words of the record, by word index (R103). Reset empty. -/
  staged : Sparse Half := []
  /-- The snapshot in force (R101). Reset none. -/
  snap : Option (List Half) := none
  /-- TCTL.BUSY, held by a KEEPWIN commit (R104); 1 bit. Reset 0. -/
  busy : Bool := false
  /-- TCTL.ERR; 1 bit. Reset 0. -/
  err : Bool := false
  /-- TCTL.ECODE; 4 bits. Reset 0. -/
  ecode : BitVec 4 := 0
  deriving DecidableEq, Repr

/-- The mailbox (R91). -/
structure Mailbox where
  /-- MBX_CMD.OP; 8 bits. Reset 0. -/
  op : Byte := 0
  /-- MBX_CMD.TAG; 8 bits. Reset 0. -/
  tag : Byte := 0
  /-- The argument words written since the previous MBX_CMD write, at most 1024 (R91). Reset empty. -/
  args : List Half := []
  /-- The overrun mark (R91); 1 bit. Reset false. -/
  overrun : Bool := false
  /-- MBX_STAT.STATE; 2 bits. Reset 0. -/
  state : BitVec 2 := 0
  /-- MBX_STAT.RESULT; 8 bits. Reset 0. -/
  result : Byte := 0
  /-- The result words not yet read; MBX_STAT.NRES counts them. Reset empty. -/
  results : List Half := []
  /-- The outcome of the command that runs, once it is known: RESULT and the result words (R91). Reset none. -/
  outcome : Option (Byte × List Half) := none
  /-- The outcome waits for the commits the command issued (R408, R457); 1 bit. Reset false. -/
  waits : Bool := false
  /-- The core's two buffers as halfwords by place: argument words beyond the count, and the result buffer from 0x400 on
  (Table 19-1). Reset empty. -/
  buf : Sparse Half := []
  deriving DecidableEq, Repr

/-! ## Ports: records of the tables -/

/-- A ROSTER record (Table 05-3) with what the head keeps beside it. -/
structure RosterRec where
  /-- w3 [2:0] STATE: 0 free, 1 known, 2 present, 3 ABSENT, 4 contracted (Table 05-3). Reset 0. -/
  state : BitVec 3 := 0
  /-- w0-w2 EUI-48. Reset 0. -/
  eui : Eui := 0
  /-- w3 [4:3] CLASS. Reset 0. -/
  cls : Cls := 0
  /-- w3 [10:5] TENANT. Reset 0. -/
  tenant : Tenant := 0
  /-- w3 [11] DUPSEEN. Reset 0. -/
  dupseen : Bool := false
  /-- w3 [12] CALOK. Reset 0. -/
  calok : Bool := false
  /-- w4 stored contract, 0.1 W. Reset 0. -/
  stored : Half := 0
  /-- The stored level (roster record b10 [5:4], R391). Reset 0. -/
  storedLevel : Level := 0
  /-- w5 current ceiling, mA (R285). Reset 0. -/
  ceil : Half := 0
  /-- w6 lowest voltage reported, mV (R285). Reset 0. -/
  lowV : Half := 0
  /-- w7 loop resistance, mΩ (R285). Reset 0. -/
  loopR : Half := 0
  /-- w8 last reported temperature. Reset 0. -/
  temp : Half := 0
  /-- w9-w10 enrolment time, ms count. Reset 0. -/
  enrolMs : Word := 0
  /-- Declared level mask, ENROLL b10 (R285). Reset 0. -/
  mask : BitVec 4 := 0
  /-- Declared lowest input voltage, ENROLL b8-b9 (R285). Reset 0. -/
  vmin : Half := 0
  /-- TEMP and CALABLE of ENROLL b7 (R391). Reset 0. -/
  tempCap : Bool := false
  calable : Bool := false
  /-- The head's SEQ to this index; 3 bits (R149). Reset 0. -/
  seqTx : BitVec 3 := 0
  /-- SEQ of the last frame accepted from it (R149). Reset none. -/
  seqRx : Option (BitVec 3) := none
  /-- The grant counter, skipping 0; 8 bits (R195). Reset 0. -/
  grantCtr : Byte := 0
  /-- It has consented to a restore (R74). Reset false. -/
  consent : Bool := false
  /-- A reset that still has to be delivered: 1 HARD, 2 SOFT with its reason (R191, Table 08-6). Reset none. -/
  resetDue : Option (Bool × Byte) := none
  /-- Consecutive REPORTs more than 10 % over contract (R191). Reset 0. -/
  overdraw : Nat := 0
  /-- Time of the last GENERAL or PRESENCE POLL, µs (R174). Reset 0. -/
  polledAt : Nat := 0
  /-- Model rate p, mW (R344). Reset 0. -/
  rate : Nat := 0
  /-- The rate to return to when the shed ends, and the ms count from which it applies, once known (R344). Reset none. -/
  rateHeld : Option Nat := none
  restoreMs : Option Nat := none
  /-- The ms count up to which the model energy is gathered (R344). Reset 0. -/
  rateMs : Nat := 0
  /-- The last REPORT count since READY and its time, µs (R344). Reset none. -/
  lastCount : Option (Word × Nat) := none
  /-- Model energy gathered over the interval, µJ = mW × ms (R345). Reset 0. -/
  modelUj : Nat := 0
  /-- The model energy of each interval not yet attributed, oldest first (R349). Reset empty. -/
  missedUj : List Nat := []
  /-- carry_j of R345, in units of 2^-16 µJ. Reset 0. -/
  carry : Nat := 0
  /-- A calibration occasion of R286 has come and no pulse has been sent since. Reset false. -/
  calDue : Bool := false
  /-- The last CAL_PULSE with it as drawer, µs (R286). Reset 0. -/
  calAt : Nat := 0
  deriving DecidableEq, Repr

/-- A CONTRACT record (Table 05-3) with what the engine keeps beside it. -/
structure ContractRec where
  /-- w0 [1:0] STATE: 0 none, 1 ADMITTED, 2 READY, 3 pending after WAIT. Reset 0. -/
  state : BitVec 2 := 0
  /-- w0 [3:2] level at admission. Reset 0. -/
  level : Level := 0
  /-- w1 power, 0.1 W. Reset 0. -/
  power : Half := 0
  /-- w2 current at that level, mA. Reset 0. -/
  cur : Half := 0
  /-- w3-w4 admission time, µs timebase. Reset 0. -/
  admitAt : Word := 0
  /-- w7 admissions since start. Reset 0. -/
  admissions : Half := 0
  /-- The acceptable mask of the contract's REQUEST (R207). Reset 0. -/
  mask : BitVec 4 := 0
  /-- Its contract floor (R295). Reset 0. -/
  floor : Half := 0
  /-- Its grant ID; 0 for a restored contract (R190). Reset 0. -/
  grant : Byte := 0
  deriving DecidableEq, Repr

/-- A request pending after WAIT (R186). -/
structure PendingReq where
  idx : Idx
  req : RequestMsg
  /-- Arrival time, µs (R270). -/
  arrival : Nat
  /-- The cause its WAIT carried (R278). -/
  cause : BitVec 4
  /-- The THROT bit of the limit on which it failed (R264, R272). -/
  bit : Nat
  /-- CONTRACT w5 and w6 while it is pending (Table 05-3). -/
  qpos : Half
  retryMs : Half
  /-- When its retry_after runs out, µs (R174, R186). -/
  retryAt : Nat
  deriving DecidableEq, Repr

/-- A transaction slot in use (R194, Table 05-3 SLOTS). STATE 0 is an absent entry. -/
structure Slot where
  /-- w0 [2:0] STATE: 1 BUSY, 2 SPEC, 3 CONFIRMED, 4 awaiting level, 5 ABORTING. -/
  state : BitVec 3 := 0
  /-- w0 [8:3] MTYPE of the operation. -/
  mtype : BitVec 6 := 0
  /-- The endpoint served; none for an ENROLL (R364). -/
  idx : Option Idx := none
  /-- The REQUEST it serves; w2 is its power. -/
  req : RequestMsg := ⟨0, 0, 0⟩
  /-- The level of its ACCEPT (R207). -/
  level : Level := 0
  /-- w3 issue number. -/
  issue : Half := 0
  /-- End of the REQUEST's EOF, µs. -/
  since : Nat := 0
  /-- The request has been posted to the allocator (R269). -/
  posted : Bool := false
  /-- An ACCEPT has been sent (R275). -/
  accepted : Bool := false
  /-- The grant ID of that ACCEPT (R195). -/
  grant : Byte := 0
  /-- READY is held until every WITHDRAW of the contracts displaced for it is delivered and 5 ms have passed (R273). -/
  displaced : List Idx := []
  readyFrom : Nat := 0
  /-- Arrival time for admission order, µs (R270). -/
  arrival : Nat := 0
  /-- Its READY is on the way (R275). -/
  readySent : Bool := false
  /-- It has reached tSpecConfirm − 2 ms undecided (R427). -/
  warned : Bool := false
  /-- The level of its contract has been reached (R208). -/
  reached : Bool := false
  deriving DecidableEq, Repr

/-- A HINT reservation (R302). -/
structure Reservation where
  idx : Idx
  /-- The forecast power, 0.1 W. -/
  forecast : Half
  /-- Δh, 0.1 W. -/
  delta : Nat
  /-- When it begins to hold, when the forecast starts, and when it ends, µs. -/
  holdAt : Nat
  startAt : Nat
  endAt : Nat
  deriving DecidableEq, Repr

/-- An EMETER record (Table 05-3). -/
structure EmeterRec where
  mj : BitVec 48 := 0
  wrap : Bool := false
  nocal : Bool := false
  deriving DecidableEq, Repr

/-- A THROTLOG record of a THROT cause (Table 05-3, records 0-10). -/
structure ThrotRec where
  /-- w0-w1 accumulated ms, saturating. -/
  ms : Word := 0
  /-- w2 onsets, saturating. -/
  onsets : Half := 0
  /-- w3 [15] SAT. -/
  sat : Bool := false
  deriving DecidableEq, Repr

/-! ## Ports: the line -/

/-- What the head put on the signal wire, newest first: the model's own record of the block's output. -/
inductive TxItem where
  | full (f : Frame)
  | short (nak : Bool) (seq : BitVec 3)
  | tone
  /-- a frame that a shed tone ended without CRC or EOF (R164, R165) -/
  | cut (f : Frame)
  deriving DecidableEq, Repr

/-- The setting of a switched pull-up current source (R117). -/
inductive PullUp where
  | off
  | hold
  | ok
  | enroll
  deriving DecidableEq, Repr

/-- What an addressed frame of the head is for, so that its answer can be acted on (R148, R196). -/
inductive OutKind where
  | poll (kind : BitVec 2)
  | assign (fresh : Bool)
  | accept
  | wait
  | reject
  | withdraw (reserve : Half)
  | ready (level : Level)
  | reset
  | peerHello
  | peerReport
  | swapReq
  | swapAck (refused : Bool)
  deriving DecidableEq, Repr

/-- An addressed frame the head has to send; the first of the list is the exchange under way (R148, R153). -/
structure OutFrame where
  kind : OutKind
  idx : Idx
  slot : Option (BitVec 7) := none
  frame : Frame
  /-- Retransmissions used, of nRetry = 3 (R150). -/
  retries : Nat := 0
  /-- Millisecond count of the first transmission (R184). -/
  firstMs : Nat := 0
  /-- A transmission is on the line or awaits its answer; false while the frame waits to be sent (R153, R158). -/
  sent : Bool := false
  /-- A transmission of the frame has been complete, so the next one sets RETRY (R166). -/
  whole : Bool := false
  deriving DecidableEq, Repr

/-- ATTACH.STATE (Table 04-6). -/
inductive AttachState where
  | idle
  | probing
  | debouncing
  | attached
  | peerHead
  | fault
  deriving DecidableEq, Repr

/-- How a probe cycle classifies the two wires (Table 06-3). `sigB` is the signal wire, true for CWBn. -/
inductive ProbeClass where
  | endCap (sigB : Bool)
  | peerHead (sigB : Bool)
  | nothing
  | fault
  deriving DecidableEq, Repr

/-- The state of the MOSFET pair: open, gate drive under way since a time, or closed (R242). -/
inductive Gate where
  | opened
  | closing (since : Nat)
  | closed
  deriving DecidableEq, Repr

/-- Where a level step stands (Table 09-2). -/
inductive StepStage where
  | due (busyAt : Nat)
  | noticed (t0 : Nat) (b1 : Nat)
  | ramp (t0 : Nat) (start : Nat)
  | settling (t0 : Nat) (rampEnd : Nat)
  deriving DecidableEq, Repr

/-- A level step under way (R211). -/
structure LevelStep where
  src : Level
  dst : Level
  stage : StepStage
  /-- Time frozen under R214, µs. -/
  frozen : Nat := 0
  deriving DecidableEq, Repr

/-- The tap-rail switch (R220). -/
inductive RailSwitch where
  | off
  | on
  | backup
  deriving DecidableEq, Repr

/-- A rail swap as this feeder sees it (R238 to R241). -/
inductive Swap where
  | none
  /-- pending since a time, not yet requested -/
  | pending (since : Nat)
  /-- a request is outstanding (R240) -/
  | outstanding
  /-- the request was acknowledged, and its RAIL_SWAP_ACK is awaited (R239) -/
  | asked
  /-- a follower's request is held until the slots are free (R238) -/
  | held (since : Nat)
  /-- this feeder's acceptance is on the line, not yet acknowledged (R241) -/
  | accepted (taker : Bool)
  /-- accepted at t0; true if this feeder is the taker (Table 10-2) -/
  | running (t0 : Nat) (taker : Bool)
  deriving DecidableEq, Repr

/-- The join of a ring by a peer-head attach (Table 10-1). -/
inductive Join where
  | none
  /-- after the peer-head attach: beacons decoded, HELLO retries used -/
  | hello (beacons : Nat) (tries : Nat)
  /-- RING.PEER set, trimming since a time -/
  | trimming (since : Nat)
  /-- path commanded closed -/
  | joined
  /-- failed; tried again from a time on (R226) -/
  | failed (retryAt : Nat)
  deriving DecidableEq, Repr

/-- PCTL (Table 04-6). -/
structure Pctl where
  /-- PCTL.ROLE; 2 bits (R93). Reset 0. -/
  role : Role := .off
  /-- PCTL.EN; 1 bit. Reset 0. -/
  en : Bool := false
  /-- PCTL.LMAX; 2 bits. Reset 3 (R490). -/
  lmax : Level := 3
  /-- PCTL.FIXED; 1 bit. Reset 0 (R490). -/
  fixed : Bool := false
  /-- PCTL.PS2; 1 bit. Reset 0 (R490). -/
  ps2 : Bool := false
  /-- PCTL.TERM; 2 bits. Reset 0 (R490). -/
  term : BitVec 2 := 0
  /-- PCTL.AUTO; 1 bit. Reset 0 (R490). -/
  auto : Bool := false
  deriving DecidableEq, Repr

/-- The per-port settings that no register shows (Table 18-11). -/
structure PortSet where
  /-- Shunt value, µΩ, 0 unset; 32 bits (R43). Reset 0 (R490). -/
  shunt : Word := 0
  /-- VSET transfer calibration: vmin in mV, slope in µV per code (R204). Reset none. -/
  xfer : Option (Half × Half) := none
  /-- Stored auto-start role (R70). Reset OFF (R490). -/
  autoRole : Role := .off
  /-- Fixed limit F, 0.1 W; 16 bits (R310). Reset 0 (R490). -/
  fixedF : Half := 0
  /-- Hub reserve, 0.1 W; 16 bits (Table 12-1). Reset 50 (R490). -/
  hubReserve : Half := 50
  /-- Uncalibrated ceiling, mA; 16 bits (R285). Reset 250 (R490). -/
  uncalCeil : Half := 250
  /-- rm, µΩ/m; 32 bits (R307). Reset 21000 (R490). -/
  rm : Word := 21000
  /-- Segment length, m; 16 bits (R346). Reset 0 (R490). -/
  segLen : Half := 0
  /-- Ring length, m; 16 bits (R291). Reset 0 (R490). -/
  ringLen : Half := 0
  /-- The stored orientation of the ring configuration (R122). Reset none (R490). -/
  ringOrient : Option Bool := none
  deriving DecidableEq, Repr

/-- Attach, presentation and detach (chapter 06). -/
structure Attach where
  /-- ATTACH.STATE; 3 bits (Table 04-6). Reset 0. -/
  state : AttachState := .idle
  /-- ATTACH.TYPE; 2 bits (Table 04-6). Reset 0. -/
  typ : BitVec 2 := 0
  /-- ATTACH.ICPT; 8 bits (R129). Reset 0. -/
  icpt : Byte := 0
  /-- PSTAT.ORIENT; 1 bit (Table 04-6). Reset 0. -/
  orient : Bool := false
  /-- PSTAT.ATT; 1 bit (Table 04-6). Reset 0. -/
  att : Bool := false
  /-- The classification being debounced and since when (R130). Reset none. -/
  debounce : Option (ProbeClass × Nat) := none
  /-- Peer windows above 1.0 V since debouncing began (R130). Reset 0. -/
  windows : Nat := 0
  /-- Since when every cycle classified as a fault (R132). Reset none. -/
  faultSince : Option Nat := none
  /-- When the next probe cycle may end (R123, R132). Reset 0. -/
  nextProbe : Nat := 0
  /-- Consecutive fruitless probing, ms (R224). Reset 0. -/
  fruitless : Nat := 0
  /-- A contention pause runs to this time (R224). Reset none. -/
  pause : Option Nat := none
  /-- The port has attached since it entered FEED (R224). Reset false. -/
  everAttached : Bool := false
  /-- Probing resumes at this time after a detach (R135). Reset none. -/
  resumeAt : Option Nat := none
  /-- The time of the last peer window (R133). Reset 0. -/
  windowAt : Nat := 0
  /-- Offset of the peer window in the probe cycle that runs, µs (R123). Reset 4000, choice. -/
  windowOff : Nat := 4000
  /-- The slope Rs of the signal wire in the last cycle that found an end cap, Ω (R125). Reset 0. -/
  slope : Nat := 0
  /-- The path starts to close at this time, 0.4 ms after the tap rail (R131). Reset none. -/
  closeAt : Option Nat := none
  deriving DecidableEq, Repr

/-- Levels (chapter 09). -/
structure Levels where
  /-- LEVEL.CUR; 2 bits. Reset 0. -/
  cur : Level := 0
  /-- LEVEL.TGT; 2 bits. Reset 0. -/
  tgt : Level := 0
  /-- LEVEL.HOLD; 1 bit. Reset 0. -/
  hold : Bool := false
  /-- A host write of TGT that waits for the step to end (R94). Reset none. -/
  tgtNext : Option Level := none
  /-- The step under way; LEVEL.BUSY while it is some (R211). Reset none. -/
  step : Option LevelStep := none
  /-- PSTAT.LFAULT and LEVEL.FAULT; 1 bit. Reset 0. -/
  lfault : Bool := false
  /-- The VSETn code, less any droop step; 10 bits (R205, R481). Reset 0. -/
  code : Nat := 0
  /-- The trimmed starting code of each level, once trimmed (R206). Reset none. -/
  trimmed : Sparse Nat := []
  /-- When the gate drive started, until VSEG enters the L0 band (R71, R218). Reset none. -/
  driveAt : Option Nat := none
  /-- The transfer is being measured since this time (R204). Reset none. -/
  calAt : Option Nat := none
  /-- No raise before this time, after an aborted step up (R215). Reset 0. -/
  raiseFrom : Nat := 0
  /-- Since when ADMIT has been 0 with no slot busy (R209). Reset none. -/
  idleSince : Option Nat := none
  /-- The level that the peer's path holds while the own path of a ring feeder is open (R213). Reset 0. -/
  ringCur : Level := 0
  /-- The millisecond of the last trim (R206). Reset 0. -/
  trimMs : Nat := 0
  /-- PCTL.LMAX was written below LEVEL.CUR while the allocator was stopped, so that its resumption owes the shedding of R95.
  Reset false. -/
  shedDue : Bool := false
  deriving DecidableEq, Repr

/-- Measurement (chapter 15) and the µs counts that time-qualified rules use. -/
structure Meter where
  /-- VSEG.MV; 16 bits (R339). Reset 0. -/
  vseg : Half := 0
  /-- ISEG.MA; 16 bits signed (R339). Reset 0. -/
  iseg : Half := 0
  /-- RAIL.IRAIL; 10 bits (R339). Reset 0. -/
  irail : BitVec 10 := 0
  /-- The last sample (R339). Reset zeros. -/
  last : Sample := ⟨0, 0, 0, 0, 0, 0⟩
  /-- Sums over the running 100 µs window: samples, VSEG, ISEG, IRAIL (R339). Reset 0. -/
  n : Nat := 0
  sumV : Nat := 0
  sumI : Int := 0
  sumR : Nat := 0
  /-- The port energy since ROMBOOT in pJ, that is the sum of mV × mA × 1 µs (R340). Reset 0. -/
  energyPj : Nat := 0
  /-- The port energy shown, mJ; 48 bits (R341). Reset 0. -/
  energy : BitVec 48 := 0
  /-- The energy latch, MID and HI; 16 bits each (R86). Reset 0. -/
  latchMid : Half := 0
  latchHi : Half := 0
  /-- Sum of ISEG squared over the calibration interval (R345). Reset 0. -/
  sumSq : Nat := 0
  /-- Sums over the last second for the bundle model: ISEG, port power, samples (R307, R308). Reset 0. -/
  secI : Int := 0
  secP : Nat := 0
  secN : Nat := 0
  /-- Tap-rail energy of the interval: mA summed over ms of conduction (R342). Reset 0. -/
  railMaMs : Nat := 0
  /-- µs in which the conducting switch's sample was taken in this ms (R342). Reset 0. -/
  railMaUs : Nat := 0
  /-- The port's power summed over each of the last ten 100 µs, newest first, and over the one that runs, µW µs (R172, R193). Reset
  empty, 0. -/
  blocks : List Nat := []
  blockP : Nat := 0
  /-- Consecutive µs of VSEG in the settle band that the step or CUR asks for (R212). Reset 0. -/
  vsegIn : Nat := 0
  /-- Consecutive µs of VFEED in that band, and outside it (R212, R217, R219). Reset 0. -/
  vfeedIn : Nat := 0
  vfeedOut : Nat := 0
  /-- Consecutive µs of VSEG at or above the settle edge of CUR (R296). Reset 0. -/
  vsegUp : Nat := 0
  /-- Consecutive µs of VSEG below the droop threshold, and at or above it (R293, R299). Reset 0. -/
  vsegDroop : Nat := 0
  vsegOk : Nat := 0
  /-- Consecutive µs of VFEED minus VSEG below 0.3 V (R242). Reset 0. -/
  near : Nat := 0
  /-- Consecutive µs of VSEG above the over-voltage threshold (R250). Reset 0. -/
  overRun : Nat := 0
  /-- Consecutive µs of VFEED minus VSEG in 0 to 2 % of nominal (R225, R233). Reset 0. -/
  match2 : Nat := 0
  /-- Consecutive µs of VFEED in the L0 band (R256). Reset 0. -/
  vfeedL0 : Nat := 0
  /-- Consecutive µs of the rail switch in current limit, and of it out of limit (R221). Reset 0. -/
  railLim : Nat := 0
  railOk : Nat := 0
  /-- Counted µs in a row of the signal wire outside 0.10 to 2.6 V, and of a supplying rail below 2 mA (R134). Reset 0. -/
  cwOut : Nat := 0
  railLow : Nat := 0
  /-- Intervals not yet attributed, oldest first: port energy increment in mJ, Σ ISEG², length in ms (R349). Reset empty. -/
  missed : List (Nat × Nat × Nat) := []
  deriving DecidableEq, Repr

/-- The guard (chapter 11). -/
structure Guard where
  /-- GUARD.CAUSE; 4 bits. Reset 0. -/
  cause : BitVec 4 := 0
  /-- GUARD.LATCH; 1 bit. Reset 0. -/
  latch : Bool := false
  /-- GUARD.AUTO; 1 bit. Reset 1 (R490). -/
  auto : Bool := true
  /-- ILIM.MA; 16 bits. Reset 1000 (R490). -/
  ilim : Half := 1000
  /-- IFAST.MA; 16 bits. Reset 2000 (R490). -/
  ifast : Half := 2000
  /-- The I²t accumulator A, mA² µs (R248). Reset 0. -/
  acc : Int := 0
  /-- A was above 0 and at its limit at a sample since the path closed (R248). Reset false. -/
  full : Bool := false
  /-- Times of the trips of the last 60 s since the count was reset, newest first, µs (R257). Reset empty. -/
  trips : List Nat := []
  /-- When the latch was last set by a guard trip, µs (R257, R258). Reset 0. -/
  tripAt : Nat := 0
  /-- The cool-down's end, µs (R257). Reset none. -/
  cool : Option Nat := none
  /-- The path waits for the conditions of R256 since the latch was released. Reset false. -/
  reclose : Bool := false
  deriving DecidableEq, Repr

/-- The droop responder and the droop limit (chapter 13). -/
structure Droop where
  /-- DROOP.WIN; 6 bits. Reset 12 (R490). -/
  win : BitVec 6 := 12
  /-- DROOP.STEP; 6 bits. Reset 16 (R490). -/
  stepCodes : BitVec 6 := 16
  /-- DROOP.EN; 1 bit. Reset 1 (R490). -/
  en : Bool := true
  /-- DROOP.ACT; 1 bit. Reset 0. -/
  act : Bool := false
  /-- DROOP.HOLD; 1 bit. Reset 0. -/
  hold : Bool := false
  /-- PSTAT.SHED; 1 bit. Reset 0. -/
  shed : Bool := false
  /-- The last detection, µs (R296). Reset 0. -/
  at_ : Nat := 0
  /-- The last tone, µs (R293). Reset none. -/
  toneAt : Option Nat := none
  /-- ADMIT at detection, 0.1 W (R298). Reset 0. -/
  admit0 : Nat := 0
  /-- The droop limit, 0.1 W (R298 to R300). Reset none. -/
  limit : Option Nat := none
  /-- The droop limit in force before this hold (R300 keeps a lower one). Reset none. -/
  limitPrev : Option Nat := none
  /-- The limit's next fall, µs (R299). Reset 0. -/
  fallAt : Nat := 0
  /-- When the step began to be removed, µs (R296). Reset none. -/
  removeAt : Option Nat := none
  /-- Codes of the step in force (R294, clamped under R205). Reset 0. -/
  applied : Nat := 0
  deriving DecidableEq, Repr

/-- The tap rail and its swap (chapter 10). -/
structure Rail where
  /-- The switch; RAIL.SUP reads 1 only in ON (R220). Reset OFF. -/
  sw : RailSwitch := .off
  /-- RAIL.EN; 1 bit. Reset 1 (R490). -/
  en : Bool := true
  /-- RAIL.OC; 1 bit. Reset 0. -/
  oc : Bool := false
  /-- The switch is OFF for over-current and retries from this time (R221). Reset none. -/
  retryAt : Option Nat := none
  /-- RAIL.SWAP; 1 bit. Reset 0. -/
  swapReq : Bool := false
  /-- The swap under way. Reset none. -/
  swap : Swap := .none
  /-- No swap request before this time (R240). Reset 0. -/
  swapFrom : Nat := 0
  /-- It answered the peer's request with NAK while its own was outstanding (R240). Reset false. -/
  crossed : Bool := false
  /-- Its own request was answered with NAK at this time, µs (R240). Reset none. -/
  nakAt : Option Nat := none
  deriving DecidableEq, Repr

/-- Ring feeding (chapter 10). -/
structure Ring where
  /-- RING.EN; 1 bit. Reset 0 (R490). -/
  en : Bool := false
  /-- RING.PEER and PSTAT.RINGF; 1 bit. Reset 0. -/
  peer : Bool := false
  /-- RING.LOCAL; 1 bit. Reset 0. -/
  loc : Bool := false
  /-- RING.MISM; 1 bit. Reset 0. -/
  mism : Bool := false
  /-- RING.BLOCK; 1 bit. Reset 0. -/
  block : Bool := false
  /-- RING.TRIM, signed code steps; 8 bits. Reset 0. -/
  trim : Int := 0
  /-- The peer's EUI-48. Reset 0. -/
  peerEui : Eui := 0
  /-- The peer's PCTL.LMAX from its last PEER_HELLO (R230). Reset 0. -/
  peerLmax : Level := 0
  /-- The peer's last PEER_REPORT (R231). Reset none. -/
  report : Option PeerReportMsg := none
  /-- Times of the blocks of the last 10 s, newest first (R234). Reset empty. -/
  blocks : List Nat := []
  /-- When the present block began (R234). Reset 0. -/
  blockAt : Nat := 0
  /-- The retrying has stopped and the path is held open (R234). Reset false. -/
  heldOpen : Bool := false
  /-- The join (Table 10-1). Reset none. -/
  join : Join := .none
  /-- The time of step 1 of Table 10-1 (R227). Reset none. -/
  joinAt : Option Nat := none
  /-- The follower is synchronised (R227). Reset false. -/
  synced : Bool := false
  /-- A PEER_HELLO is due (R228). Reset false. -/
  helloDue : Bool := false
  /-- Follower peer gaps in a row without a PEER_REPORT (R236). Reset 0. -/
  missed : Nat := 0
  /-- The last valid frame of the peer, µs (R235). Reset 0. -/
  heardAt : Nat := 0
  /-- The master's beacon period from BEACON b9, ms, 0 at the lonely rate (R235). Reset 8. -/
  peerBper : Byte := 8
  /-- Own BUDGET is held at 0 for the hand-off of R337 and since when. Reset none. -/
  handOff : Option Nat := none
  /-- A PEER_HELLO of another protocol major version has come in this join (R226). Reset false. -/
  verBad : Bool := false
  /-- The due time of the beacon whose peer gap has carried an exchange (R228). Reset 0. -/
  gapDue : Nat := 0
  /-- The due time of the beacon whose peer gap carried the follower's last PEER_REPORT (R236). Reset 0. -/
  reportDue : Nat := 0
  /-- A follower's SEQ for its own frames to the master; 3 bits (R149, R227). Reset 0. -/
  pseq : BitVec 3 := 0
  /-- The POLL that a follower has decoded and whose answer it has not: its index and how often it was sent (R151, R227). Reset
  none. -/
  polls : Option (Idx × Nat) := none
  /-- SEQ of the last frame accepted from the other feeder (R149). Reset none. -/
  seqRx : Option (BitVec 3) := none
  /-- The endpoints' REQUESTs that a follower has decoded, by index (R227). Reset empty. -/
  reqs : Sparse RequestMsg := []
  deriving DecidableEq, Repr

/-- Beacons, enrolment and the first second (chapters 03 and 07). -/
structure Line where
  /-- LINE.BPER; 7 bits. Reset 8 (R490). -/
  bper : BitVec 7 := 8
  /-- LINE.ENR; 2 bits. Reset 3 (R490). -/
  enr : BitVec 2 := 3
  /-- PSTAT.SEQ, the sequencer runs; 1 bit. Reset 0. -/
  seqRun : Bool := false
  /-- A reload of the sequencer is due, and since when it runs (R167, R471). Reset false, none. -/
  reloadDue : Bool := false
  reloadAt : Option Nat := none
  /-- The head originates nothing: another head has the lower EUI-48 (R157). Reset false. -/
  silent : Bool := false
  /-- Beacon count, modulo 256; 8 bits (BEACON b8). Reset 0. -/
  bcount : Byte := 0
  /-- The next beacon's due time, µs (R158). Reset 0. -/
  due : Nat := 0
  /-- Beacons since the last enrol window (R160). Reset 0. -/
  sinceWindow : Nat := 0
  /-- The enrol window that runs ends at this time (R160). Reset none. -/
  window : Option Nat := none
  /-- The ENROLLs recorded in the window, oldest first, with their minislots and slots (R162, R194). Reset empty. -/
  enrolls : List (BitVec 3 × EnrollMsg) := []
  /-- ADVSEQ; 8 bits (R173). Reset 0. -/
  advseq : Byte := 0
  /-- The content of the last ADVERT sent (R173). Reset none. -/
  lastAdvert : Option AdvertMsg := none
  /-- Beacons since the last ADVERT (R173). Reset 0. -/
  sinceAdvert : Nat := 0
  /-- The head's broadcast SEQ; 3 bits (R149). Reset 0. -/
  bseq : BitVec 3 := 0
  /-- t0 of the first second; PSTAT.FIRST while it is some (R71). Reset none. -/
  first : Option Nat := none
  /-- The first second's roster pass: indices still to be polled; none before it starts (R73). Reset none. -/
  pass : Option (List Idx) := none
  /-- Restore POLLs sent since the last beacon, at most 64 (R73). Reset 0. -/
  polled : Nat := 0
  /-- The level decision of R77 has been taken. Reset false. -/
  decided : Bool := false
  /-- Restored endpoints whose class READY is still to be broadcast, in admission order (R79). Reset empty. -/
  restored : List Idx := []
  /-- Addressed frames to send; the first is the exchange under way (R148, R153). Reset empty. -/
  out : List OutFrame := []
  /-- What went out on the signal wire, newest first. Reset empty. -/
  tx : List TxItem := []
  /-- Items that wait for the end of a reload, or to be sent again after a tone, oldest first (R166, R167). Reset empty. -/
  later : List TxItem := []
  /-- What has been given to the wire since the last µs, oldest first: it has no place on the line yet (R153). Reset empty. -/
  fresh : List TxItem := []
  /-- What is on the line or waits its turn there: start, end and item, oldest first (R142, R146, R153). Reset empty. -/
  flight : List (Nat × Nat × TxItem) := []
  /-- Second copies of broadcasts, with the time at which each goes out (R79). Reset empty. -/
  repeats : List (Nat × TxItem) := []
  /-- When the last item known ends: the line is idle from then on (R141). Reset 0. -/
  freeAt : Nat := 0
  /-- When the last beacon's EOF ended, and whether it carried ENRW (R167). Reset 0, false. -/
  beaconEnd : Nat := 0
  beaconEnrw : Bool := false
  /-- The setting of the signal wire's pull-up source, and since when (R117, R155). Reset off, 0. -/
  src : PullUp := .off
  srcAt : Nat := 0
  /-- The common factor of the three currents, in 10⁻⁶ (R118). Reset 1000000, choice: unscaled before an attach. -/
  factor : Nat := 1000000
  /-- Power reserved after an undelivered WITHDRAW, by index (R196, ΣRES of R266). Reset empty. -/
  resv : Sparse Half := []
  /-- The calibration pulse under way: drawer, CAL_ID, requested step, measured step, the drawer's ΔV once reported, the non-drawers still to be polled (R286 to R288). Reset none. -/
  cal : Option (Idx × Byte × Nat × Option (Nat × Int)) := none
  /-- CAL_ID of the next pulse; 8 bits (R193). Reset 0. -/
  calId : Byte := 0
  /-- CAL_PULSEs since the last beacon, at most 16 (R286). Reset 0. -/
  pulses : Nat := 0
  /-- The pulse's transaction slot (R194). Reset none. -/
  calSlot : Option (BitVec 7) := none
  deriving DecidableEq, Repr

/-- A joined or listening DRAW port as an endpoint of its upstream head (chapters 06 and 08). -/
structure Draw where
  /-- It has joined (R136). Reset false. -/
  joined : Bool := false
  /-- Its roster index (R178). Reset none. -/
  idx : Option Idx := none
  /-- Its class and tenant as assigned (R178). Reset 0. -/
  cls : Cls := 0
  tenant : Tenant := 0
  /-- The level in force upstream and the highest level involved there, as the last beacon gives them (R203, R246). Reset 0. -/
  segCur : Level := 0
  segTop : Level := 0
  /-- Beacons heard since its supply rose (R72). Reset 0. -/
  beacons : Nat := 0
  /-- Valid beacons decoded on CWAn and on CWBn while it has not joined (R136). Reset 0. -/
  pinA : Nat := 0
  pinB : Nat := 0
  /-- The last valid frame or tone, µs (R137). Reset 0. -/
  heardAt : Nat := 0
  /-- The contract held: power, level, contract floor, grant ID (R184). Reset none. -/
  contract : Option (Half × Level × Half × Byte) := none
  /-- It may draw up to its contract: READY received and no fall since (R184). Reset false. -/
  ready : Bool := false
  /-- The grant of an ACCEPT that awaits READY or WITHDRAW, with its time (R180, R185). Reset none. -/
  grant : Option (AcceptMsg × Nat) := none
  /-- The REQUEST that is open, with the time of its acknowledgement (R180, R185). Reset none. -/
  open_ : Option (RequestMsg × Nat) := none
  /-- The request that a WAIT left pending, and until when it is not repeated (R186). Reset none. -/
  waiting : Option (RequestMsg × Nat) := none
  /-- No REQUEST of this power or more before this time (R188). Reset none. -/
  barred : Option (Half × Nat) := none
  /-- The power of the REQUEST last sent, 0 for none (R188). Reset 0. -/
  lastPower : Half := 0
  /-- What its own ENROLL declared: the lowest input voltage, and that it reports a temperature (R192, R201). Reset 0, false. -/
  vmin : Half := 0
  tempCap : Bool := false
  /-- The floor of the REQUEST last sent, for the contract it makes (R295). Reset 0. -/
  reqFloor : Half := 0
  /-- ADVSEQ of the ADVERT held (R173) and of the latest beacon. Reset none, 0. -/
  advert : Option AdvertMsg := none
  beaconAdv : Byte := 0
  /-- Its own SEQ; 3 bits (R149). Reset 0. -/
  seq : BitVec 3 := 0
  /-- SEQ of the last frame accepted from the head, addressed and broadcast (R149). Reset none. -/
  seqRx : Option (BitVec 3) := none
  seqRxBc : Option (BitVec 3) := none
  /-- The full-frame reply that awaits its ACK (R152). Reset none. -/
  reply : Option Frame := none
  /-- It fell to its floor at a shed tone and is not released (R295, R297). Reset false. -/
  shed : Bool := false
  /-- The last tone, µs (R297). Reset 0. -/
  toneAt : Nat := 0
  /-- It begins its restore ramp at this time (R297). Reset none. -/
  restoreAt : Option Nat := none
  /-- The draw limit in force, 0.1 mW units of 50 mW floor or the contract: mW (R20, R172). Reset 50. -/
  limitMw : Nat := 50
  /-- The current ceiling that the last ACCEPT or POLL carried, mA, 0 for none; the one before it; and when the new one
  applies, µs (R284). Reset 0. -/
  ceil : Half := 0
  ceilPrev : Half := 0
  ceilFrom : Nat := 0
  /-- The last two measured beacon bit times, ns (R478). Reset empty. -/
  bits : List Nat := []
  /-- The calibration pair held for the next REPORT: CAL_ID, before, during (R193). Reset none. -/
  cal : Option (Byte × Half × Half) := none
  /-- It made the step of the last CAL_PULSE (R193). Reset false. -/
  stepped : Bool := false
  /-- Consecutive lost attempts and windows still to skip (R163). Reset 0. -/
  lost : Nat := 0
  skip : Nat := 0
  /-- The last beacon carried ENRW, and its window is not one to skip (R161, R163). Reset false. -/
  enrw : Bool := false
  /-- When that beacon's EOF ended, µs (R160, R161). Reset 0. -/
  winAt : Nat := 0
  /-- An ENROLL was sent and has no answer yet; beacons since (R162). Reset none. -/
  tried : Option Nat := none
  /-- No ENROLL before this time (R179). Reset 0. -/
  enrolFrom : Nat := 0
  /-- The restore POLL consented to (R74). Reset none. -/
  consent : Option PollMsg := none
  /-- It received WAIT since it consented (R78). Reset false. -/
  waited : Bool := false
  deriving DecidableEq, Repr

/-- A port: port block registers, tables and engine. -/
structure Port where
  /-- PCTL (Table 04-6). -/
  ctl : Pctl := {}
  /-- PSTAT.ROLE, the role in force; 2 bits (R15). Reset 0. -/
  role : Role := .off
  /-- The MOSFET pair; PSTAT.PATH is 1 when it is closed (R242). Reset open. -/
  gate : Gate := .opened
  /-- PEVT; 13 bits, W1C (Table 04-6). Reset 0. -/
  pevt : BitVec 13 := 0
  /-- PMASK.MASK; 13 bits (Table 04-6). Reset 0. -/
  pmask : BitVec 13 := 0
  /-- Counts of PEVT.TRIP, DROOP, ABSENT, DUP and LINE (R87). Reset 0. -/
  occTrip : Occ := {}
  occDroop : Occ := {}
  occAbsent : Occ := {}
  occDup : Occ := {}
  occLine : Occ := {}
  /-- Settings (Table 18-11). -/
  cfg : PortSet := {}
  att : Attach := {}
  lev : Levels := {}
  met : Meter := {}
  grd : Guard := {}
  drp : Droop := {}
  rail : Rail := {}
  ring : Ring := {}
  line : Line := {}
  drw : Draw := {}
  /-- ROSTER, 1024 records by index (Table 05-2). Reset all free. -/
  roster : Sparse RosterRec := []
  /-- CONTRACT, 1024 records by index (Table 05-2). Reset all none. -/
  contract : Sparse ContractRec := []
  /-- EMETER, 1026 records (Table 05-2). Reset 0. -/
  emeter : Sparse EmeterRec := []
  /-- SLOTS, 128 slots (Table 05-2). Reset all free. -/
  slots : Sparse Slot := []
  /-- EVR.PEn of the Fedora core: this port's engine has signalled it; 1 bit (R429). Reset 0. -/
  sig : Bool := false
  /-- The next issue number; 16 bits (Table 05-3). Reset 0. -/
  issue : Half := 0
  /-- Requests pending after WAIT (R186). Reset empty. -/
  pend : List PendingReq := []
  /-- HINT reservations, at most 64 (R302). Reset empty. -/
  hints : List Reservation := []
  /-- CLASS w0 of the four classes; 0xFFFF is no cap (Table 05-3). Reset 0xFFFF (R490). -/
  cap0 : Half := 0xFFFF
  cap1 : Half := 0xFFFF
  cap2 : Half := 0xFFFF
  cap3 : Half := 0xFFFF
  /-- THROT as last noted; 11 bits (Table 04-6, R309). Reset 0. -/
  throt : BitVec 11 := 0
  /-- THROT changed within a millisecond whose event is not posted yet (R309). Reset false. -/
  throtDirty : Bool := false
  /-- The millisecond count of that change (R309, R491). Reset 0. -/
  throtAtMs : Nat := 0
  /-- BUNDLE, NTC or DIE began within it, so its event is logged (R309). Reset false. -/
  throtOnset : Bool := false
  /-- THROTLOG records 0 to 10 (Table 05-3). Reset 0. -/
  throtLog : Sparse ThrotRec := []
  /-- The last refusal or withdrawal for a ceiling, THROT.CEILING while it is some (R292). Reset none. -/
  ceilAt : Option Nat := none
  /-- The throttle limits of die and NTC points that have begun: point and limit, 0.1 W (R306). Reset none. -/
  thermal : Sparse Nat := []
  /-- The limits of the bundle groups that throttle: group and limit, 0.1 W (R308). Reset none. -/
  bundle : Sparse Nat := []
  deriving DecidableEq, Repr

/-! ## Device-wide tables -/

/-- A TENANT record (Table 05-3); w2 to w4 are computed. -/
structure TenantRec where
  /-- w0 cap, 0xFFFF none. Reset 0xFFFF (R490). -/
  cap : Half := 0xFFFF
  /-- w1 [7:0] priority. Reset 0 (R490). -/
  prio : Byte := 0
  /-- w1 [15] WRAP. Reset 0. -/
  wrap : Bool := false
  /-- w5-w7 energy, mJ; 48 bits. Reset 0. -/
  mj : BitVec 48 := 0
  deriving DecidableEq, Repr

/-- An NTC point (THERMAL records 1 to 4). -/
structure NtcPoint where
  /-- w0 temperature; 0x8000 open or shorted (R47). Reset 0, choice. -/
  temp : Half := 0
  /-- w1 throttle limit. -/
  limit : Half
  /-- w3 [0] EN. Reset 1 (R490). -/
  en : Bool := true
  /-- w3 [1] OPEN, [2] SHORT (R47). Reset 0. -/
  opn : Bool := false
  shorted : Bool := false
  deriving DecidableEq, Repr

/-- A BUNDLE record (Table 05-3) with the model's temperature. -/
structure BundleRec where
  /-- w0 modelled temperature, 0.25 °C. Reset 0. -/
  temp : Half := 0
  /-- w1 throttle limit. Reset 60.0 °C (R490). -/
  limit : Half := 0x00F0
  /-- w2. Reset 0 (R490). -/
  m0 : Bool := false
  m1 : Bool := false
  en : Bool := false
  /-- w3 length, w4 heated conductors, w5 ambient point. Reset 0 (R490). -/
  len : Half := 0
  wires : Half := 0
  amb : Half := 0
  /-- w6 time constant, s. Reset 600 (R490). -/
  tau : Half := 600
  /-- w7 [0] THROTTLING. Reset 0. -/
  throttling : Bool := false
  /-- tb in µ°C (R307). Reset 0. -/
  tb : Int := 0
  /-- tb has taken the ambient temperature since the group was enabled or the device started (R307). Reset false. -/
  begun : Bool := false
  deriving DecidableEq, Repr

/-- An endpoint report position (THERMAL records 16 to 31, R305). -/
structure HotReport where
  handle : BitVec 11
  temp : Half
  /-- Time of the REPORT, µs. -/
  at_ : Nat
  deriving DecidableEq, Repr

/-- The global tables. -/
structure Tables where
  /-- TENANT, 64 records (Table 05-2). Reset no cap, priority 0. -/
  tenants : Sparse TenantRec := []
  /-- THERMAL points 1 to 4 (Table 13-3). Reset limits 105.0 and 70.0 °C, EN 1 (R490). -/
  ntcA0 : NtcPoint := { limit := 0x01A4 }
  ntcB0 : NtcPoint := { limit := 0x0118 }
  ntcA1 : NtcPoint := { limit := 0x01A4 }
  ntcB1 : NtcPoint := { limit := 0x0118 }
  /-- THERMAL points 16 to 31, hottest first, at most 16 (R305). Reset empty. -/
  hot : List HotReport := []
  /-- Every endpoint's latest temperature report of the last 10 min (R305). Reset empty. -/
  reports : List HotReport := []
  /-- THERMAL w1 of points 16 to 31 where it differs from 70.0 °C (Table 13-3). Reset 70.0 °C. -/
  hotLimit : Sparse Half := []
  /-- BUNDLE, 8 records (Table 05-2). Reset defaults (R490). -/
  bundles : Sparse BundleRec := []
  /-- When the throttle limits and the bundle model last ran, µs (R306, R307). Reset 0. -/
  thermalAt : Nat := 0
  bundleAt : Nat := 0
  /-- The last allocator pass, µs (R269). Reset 0. -/
  passAt : Nat := 0
  /-- The allocator runs (R268). Reset false. -/
  alloc : Bool := false
  /-- The ms count of the last calibration point (R341). Reset 0. -/
  pointMs : Nat := 0
  /-- BUDGET of each port when the core restart that runs began (R370). Reset 0. -/
  budgetAt0 : Nat := 0
  budgetAt1 : Nat := 0
  deriving DecidableEq, Repr

/-! ## Keep -/

/-- A durable change that is due but not yet issued (R70, R107, R400). -/
inductive Due where
  | roster (p : PortId) (idx : Idx)
  | tenant (t : Tenant)
  | settings
  /-- the tuning area is rewritten with the interval in force and a new header (R493) -/
  | tuning
  /-- the tuning area is reset to defaults (R398) -/
  | tuningReset
  /-- the next page of an area of an older format is converted (R398, R470): 0 the settings area, 1 and 2 the roster records of the
  ports, 3 to 5 the dual-copy areas -/
  | migrate (area : Nat)
  /-- copy B or A of dual-copy area `area` is stale or invalid (R399): 0 roster header of port 0's area, 1 tenants, 2 owner data -/
  | copyFix (area : Nat)
  deriving DecidableEq, Repr

/-- What a Keep-E commit carries besides its bytes, so that its end can be acted on. -/
inductive CommitTag where
  | firmware
  | keepwin
  /-- a durable change that was due; refused for HOT it is due again (R107, R70, R400) -/
  | due (x : Due)
  /-- copy A, then copy B, of owner data a mailbox command writes (R408) -/
  | ownerA (o : Owner)
  | ownerB (o : Owner) (closes : Bool)
  /-- a commit that a mailbox command waits for (R408, R457) -/
  | mailbox
  /-- a copy of a dual-copy area rewritten from the other one for an uncorrectable group (R409) -/
  | restore (g : Nat)
  deriving DecidableEq, Repr

/-- A commit: the bytes it writes, in order (R392). -/
structure Commit where
  writes : List Host.Cell
  tag : CommitTag
  deriving DecidableEq, Repr

/-- The commit that runs (R394). -/
structure Running where
  commit : Commit
  num : Word
  /-- The target pages in order. -/
  pages : List Nat
  /-- The ring position of its header page. -/
  hdr : Nat
  deriving DecidableEq, Repr

/-- A shadow bank of Keep-S (R405). -/
structure Shadow where
  begun : Bool := false
  done : Bool := false
  seq : Nat := 0
  data : Sparse Byte := []
  deriving DecidableEq, Repr

/-- Keep (chapter 18). -/
structure Keep where
  /-- Keep-E, 128 KiB; an unlisted byte reads 0 (R390, R492, R493). Reset empty. -/
  e : Sparse Byte := []
  /-- Groups whose SECDED code reports an uncorrectable error (R409). Reset none. -/
  bad : List Nat := []
  /-- Keep-S SRAM, 16 KiB; an unlisted byte reads 0 (R405, R406). Reset empty. -/
  s : Sparse Byte := []
  /-- The two shadow banks (R405). Reset never written. -/
  shadowA : Shadow := {}
  shadowB : Shadow := {}
  /-- The store that runs: into bank B, started at (R405). Reset none. -/
  store : Option (Bool × Nat) := none
  /-- KEEP_STAT.SFAIL, JROLL, JDONE, BPERR, POISON; 1 bit each (Table 04-3). Reset 0. -/
  sfail : Bool := false
  jroll : Bool := false
  jdone : Bool := false
  bperr : Bool := false
  poison : Bool := false
  /-- KEEP_STAT.DSEQ; 8 bits (Table 04-3). Reset 0. -/
  dseq : Byte := 0
  /-- KEEP_CTL.BP; 2 bits (R407). Reset 0 (R490). -/
  bp : BitVec 2 := 0
  /-- KEEP_CTL.PFCH and PFEN; 4 bits and 1 bit (R389). Reset 0 (R490). -/
  pfch : BitVec 4 := 0
  pfen : Bool := false
  /-- The commits issued and not started, at most four, in issue order (R393). Reset empty. -/
  queue : List Commit := []
  /-- The commit that runs, KEEP_STAT.BUSY (R394). Reset none. -/
  run : Option Running := none
  /-- A rollback that waits for KHOT to have read 0 for 10 ms (R397). Reset none. -/
  rollback : Option Running := none
  /-- The number of the last commit started; 32 bits (R393). Reset 0. -/
  lastNum : Word := 0
  /-- The journal's write pointer, page 0 to 63 (Table 18-3). Reset 0. -/
  jptr : Nat := 0
  /-- LOG entries held while KHOT is 1, in posting order, at most 32 (R397). Reset empty. -/
  held : List LogEntry := []
  /-- The LOG ring, newest first, at most 1024 (R404). Reset empty. -/
  log : List LogEntry := []
  /-- The next place of the LOG ring in Keep-E, 0 to 1023 (R404). Reset 0. -/
  logPos : Nat := 0
  /-- Durable changes due (R70, R107). Reset empty. -/
  due : List Due := []
  /-- The same, refused for KEEP_STAT.HOT and due again once it clears (R107). Reset empty. -/
  dueHot : List Due := []
  /-- The time each roster page was last written for a stored contract, by page (R400). Reset never. -/
  pageAt : Sparse Nat := []
  /-- Roster pages with a changed stored contract or calibration (R400). Reset none. -/
  pageDirty : List Nat := []
  /-- Groups skipped because a commit of their page ran (R409). Reset none. -/
  scrubLater : List Nat := []
  /-- When the pass visited its last group, µs (R409). Reset 0. -/
  scrubAt : Nat := 0
  /-- The scrub interval, hours (Table 18-12). Reset 24 (R490). -/
  scrubHours : Half := 24
  /-- A scrub pass requested by the host runs within 10 s (R409). Reset false. -/
  scrubFast : Bool := false
  /-- The newest energy snapshot number; (R403). Reset 0. -/
  snapNum : Word := 0
  /-- The next page of the energy ring (R403). Reset 0. -/
  ringPage : Nat := 0
  /-- The last energy store, µs (R351). Reset 0. -/
  energyAt : Nat := 0
  deriving DecidableEq, Repr

/-! ## Image store and updates -/

/-- A status record of a bank (Table 21-2). -/
structure StatusRec where
  /-- 1 BUILT, 2 PENDING, 3 CONFIRMED, 4 FAILED, 5 RECOVERED -/
  st : BitVec 3
  seq : Nat
  version : Word
  deriving DecidableEq, Repr

/-- A bank of the image store (Table 21-1). -/
structure Bank where
  /-- The status records, newest first (R451). -/
  status : List StatusRec := []
  /-- The image area, as far as it is programmed. -/
  image : List Byte := []
  /-- The delta area: pieces programmed, by index. -/
  delta : Sparse (List Byte) := []
  deriving DecidableEq, Repr

/-- What the outgoing image noted at the handover block for its successor and for R467 (Table 21-8). -/
structure HandInfo where
  cause : BitVec 2
  toB : Bool
  role0 : Role
  role1 : Role
  gangHeard : Bool
  /-- The payload length is 0: the incoming image rebuilds its state as after a core restart (R464, R468). -/
  rebuild : Bool
  deriving DecidableEq, Repr

/-- Firmware update (chapter 21). -/
structure Fwu where
  /-- The two banks. Reset: A holds the shipped image, CONFIRMED; B empty (assumption 7). -/
  bankA : Bank := { status := [⟨3, 1, Config.shippedVersion⟩], image := Config.shippedImage }
  bankB : Bank := {}
  /-- FWU_STAT.BANK; 1 bit. Reset 0. -/
  active : Bool := false
  /-- FWU_STAT.PEND; 1 bit. Reset 0. -/
  pend : Bool := false
  /-- FWU_CTL.CONFIRM reads 1 once confirmed; 1 bit. Reset 0. -/
  confirmed : Bool := false
  /-- FWU_CTL.HOSTCONF; 1 bit. Reset 0 (R490). -/
  hostconf : Bool := false
  /-- FWU_STAT.RX; 1 bit. Reset 0 (R490). -/
  rx : Bool := false
  /-- FWU_STAT.APPLY, while it is some: the build that runs, with the w0 of its FWU_APPLY (R462). Reset none. -/
  apply : Option Half := none
  /-- FWU_STAT.REFUSE; 3 bits. Reset 0. -/
  refuse : BitVec 3 := 0
  /-- FWU_STAT.OTHER; 1 bit (R466). Reset 0. -/
  other : Bool := false
  /-- The accepted delta header; 160 bytes (R457). Reset empty. -/
  header : List Byte := []
  /-- The pieces held (R457). Reset empty. -/
  held : List Nat := []
  /-- The torn-piece index (R457). Reset none. -/
  torn : Option Nat := none
  /-- FWU_VMIN, mV; 16 bits (Table 18-10). Reset 10000 (R490). -/
  vmin : Half := 10000
  /-- tHealth, s; 16 bits (Table 18-10). Reset 60 (R490). -/
  tHealth : Half := 60
  /-- The health timer's start, µs (R466). Reset 0. -/
  healthAt : Nat := 0
  /-- A handover to the BUILT bank has been asked for, since a time; true if the command that asks ends with the handover
  block (R462, R463). Reset none. -/
  handReq : Option (Nat × Bool) := none
  /-- HANDOVER is in force (R31). Reset none. -/
  hand : Option HandInfo := none
  /-- SAFE has taken over reporting in this HANDOVER, so that MODE does not come back to HANDOVER (chapter 01, Edges;
  Table 01-5). Reset false. -/
  handSafe : Bool := false
  /-- What R467 asks of the running image since step 5: a trap taken, a commit durable, a GLEAD decoded, passes on time; and the block's notes. -/
  trapped : Bool := false
  durable : Bool := false
  /-- The highest number that a commit issued before step 5 can take: a later one is the running image's own (R467). Reset 0. -/
  durableFrom : Nat := 0
  gleadSeen : Bool := false
  passLate : Bool := false
  info : Option HandInfo := none
  /-- FWU_CANCEL was sent in HANDOVER (R461). Reset false. -/
  cancelDue : Bool := false
  /-- RECOVERY's reception, in RAM: pieces by index (R469); whether the bank was erased. Reset empty. -/
  recPieces : Sparse (List Byte) := []
  recOpen : Bool := false
  deriving DecidableEq, Repr

/-! ## The gang bus -/

/-- How a device takes part in the gang bus (R320, R322, R324, R338). -/
inductive GangPhase where
  | silent
  /-- listening since, GLEADs decoded in a row -/
  | listening (since : Nat) (gleads : Nat)
  | member
  | leader
  /-- stopped by readback until a time (R324) -/
  | backedOff (until_ : Nat)
  deriving DecidableEq, Repr

/-- A member as the leader sees it (R321). -/
structure GangMember where
  last : GmemMsg
  missed : Nat
  deriving DecidableEq, Repr

/-- The gang (chapter 14). -/
structure Gang where
  /-- GANG.MODE; 2 bits. Reset 0 (R490). -/
  mode : BitVec 2 := 0
  /-- GANG.ID; 4 bits. Reset 0 (R490). -/
  id : BitVec 4 := 0
  /-- GANG.LEADER, ALONE; 1 bit each. Reset 0. -/
  leader : Bool := false
  alone : Bool := false
  /-- GANG.COUNT; 4 bits. Reset 0. -/
  count : BitVec 4 := 0
  phase : GangPhase := .silent
  /-- The mode in force as a member (R326). Reset 0. -/
  modeIn : BitVec 2 := 0
  /-- The leader's shelf budget S, 0.1 W. Reset 0. -/
  s : Half := 0
  /-- The share in force, 0.1 W, once one is known (R330, R332). Reset none. -/
  share : Option Half := none
  /-- A share that the next allocator pass applies (R330). Reset none. -/
  shareNext : Option Half := none
  /-- The last GLEAD gave less than the floor this device reported, so it sheds to its share (R328 step 0, R330). Reset false. -/
  shedShare : Bool := false
  /-- The stored share of the gang share ring, and when it was stored (R332). Reset none. -/
  stored : Option Half := none
  storedAt : Option Nat := none
  /-- The weight W; 8 bits (R327). Reset 1 (R490). -/
  weight : Byte := 1
  /-- Gang level and ALLIDLE of the last GLEAD. Reset 0. -/
  level : Level := 0
  allIdle : Bool := false
  /-- The leader's ID and frame count of the last GLEAD. Reset 0. -/
  leaderId : BitVec 4 := 0
  frame : Byte := 0
  /-- The last GSYNC falling edge, µs (R322). Reset 0. -/
  edgeAt : Nat := 0
  /-- A GSYNC edge it did not drive was seen while leading (R323). Reset false. -/
  foreign : Bool := false
  /-- Leader: the members' last GMEM (R321). Reset empty. -/
  members : List GangMember := []
  /-- The shares of the last GLEAD by ID (R329, R331). Reset empty. -/
  shares : Sparse Half := []
  /-- The other members of the last GLEAD's bitmap; in a leader those that have sent no GMEM since its election (R331). Reset empty. -/
  awaiting : List (BitVec 4) := []
  /-- Leader: frames since the election (R321, R331). Reset 0. -/
  electFrames : Nat := 0
  /-- Leader: frames in a row without any GMEM (R325). Reset 0. -/
  noGmem : Nat := 0
  /-- Another member has been heard since the last start (R325). Reset false. -/
  heardOther : Bool := false
  /-- Frames in a row of readback mismatch (R324). Reset 0. -/
  badReads : Nat := 0
  /-- GLEAD of this frame was decoded and waits for the member slot. Reset false. -/
  slotDue : Bool := false
  /-- It led when a core restart began and does not drive the bus yet; MODE does not change over a restart (R27, R368,
  R370). Reset false. -/
  kept : Bool := false
  /-- Parked under R338. Reset false. -/
  parked : Bool := false
  /-- What GANG last reported: leader ID and COUNT, mode, and the share (R335). Reset 0. -/
  told : BitVec 4 × BitVec 4 × BitVec 2 × Bool × Bool := (0, 0, 0, false, false)
  toldShare : Half := 0
  /-- What was sent on GDAT, newest first: the model's own record of the output. Reset empty. -/
  txLead : List GleadMsg := []
  txMem : List GmemMsg := []
  /-- The same as bytes, with the µs at which the message starts (R317, R318). Reset empty. -/
  gdat : List (Nat × List Byte) := []
  deriving DecidableEq, Repr

/-! ## The comparator bank -/

/-- What acts on the channel: CMP_CFG and the two levels (R376, R384). -/
structure ChanCfg where
  /-- CMP_CFG [14:0]. Reset 0. -/
  cfg : BitVec 15 := 0
  /-- CMP_LVL lower and upper; 10 bits each. Reset 0. -/
  lo : BitVec 10 := 0
  hi : BitVec 10 := 0
  deriving DecidableEq, Repr

/-- A comparator channel (chapter 17). -/
structure Chan where
  /-- The registers, as written (R384). Reset 0. -/
  reg : ChanCfg := {}
  /-- What the channel runs under (R384). Reset 0. -/
  eff : ChanCfg := {}
  /-- The writes that have not reached the channel, oldest first: time in µs and the registers after it (R384). Reset empty. -/
  writes : List (Nat × ChanCfg) := []
  /-- The output at the last decision (R380). Reset 0. -/
  out : Bool := false
  /-- A range change settles: the last sample under the new configuration, once there is one (R385, R386). Reset none. -/
  settle : Option (Option Bool) := none
  /-- The millisecond of its last CMP edge event (R382). Reset none. -/
  evMs : Option Nat := none
  deriving DecidableEq, Repr

/-- An entry of the capture FIFO (R381). -/
structure Capture where
  ch : BitVec 4
  kind : BitVec 2
  dropped : Bool
  time : Word
  deriving DecidableEq, Repr

/-- The bank (chapter 17). -/
structure Bank16 where
  /-- CMP_SEL.CH and LSEL; 4 bits and 1 bit. Reset 0. -/
  ch : BitVec 4 := 0
  lsel : Bool := false
  /-- The sixteen channels. Reset all 0. -/
  chans : Sparse Chan := []
  /-- TICK.PER; 12 bits. Reset 100. -/
  per : BitVec 12 := 100
  /-- TICK.RUN; 1 bit. Reset 0. -/
  run : Bool := false
  /-- The next tick, µs (R378). Reset 0. -/
  tickAt : Nat := 0
  /-- The capture FIFO, oldest first, at most 32 (R381). Reset empty. -/
  fifo : List Capture := []
  /-- Entries were dropped since the last one accepted (R381). Reset false. -/
  dropped : Bool := false
  /-- The timebase latched by the last read of word 0 (Table 19-1); 32 bits. Reset 0. -/
  capTime : Word := 0
  /-- The power-fail trigger is armed (R389). Reset false. -/
  armed : Bool := false
  /-- Since when the trigger channel's output has read 0 (R389). Reset 0. -/
  zeroAt : Nat := 0
  /-- The trigger has fired and its store is to start (R389). Reset false. -/
  fired : Bool := false
  deriving DecidableEq, Repr

/-! ## The Fedora core -/

/-- An operation of the Fedora core (Tables 20-4 to 20-7). -/
inductive Opc where
  | add | sub | and | or | xor | andn | mov | cmp | shl | shr | sar | ror
  | min | max | minu | maxu | sel | clz | ext
  | addsW | subsW | addsH | subsH | negsW | abssW
  | mul | mulh | mulhu | div | divu | rem | remu
  | mpyQ31 | macQ31 | msuQ31 | mpyQ15 | macQ15
  | accld | accadd | accsh | narq31 | narq15 | mulai | mulaf
  | ldW | ldH | ldHu | ldB | ldBu | stW | stH | stB | lda | sta | lea
  | lrW | scW | tasB | bcopy | bfill | bdiff
  | br | call | bz | bnz | bltz | bgez | dbnz | waituntil | jr | callr | ret | tret
  | ewait | epost | fenceI | brk | syscall | nop | mfs | mts
  deriving DecidableEq, Repr

/-- What the core waits for (R429). -/
inductive CoreWait where
  | ewait (d : BitVec 6) (mask : Byte) (bundleBytes : Nat)
  | until_ (target : Word) (bundleBytes : Nat)
  deriving DecidableEq, Repr

/-- The Fedora core (chapters 19 and 20). -/
structure Core where
  /-- The core runs firmware: not held in reset, not reloading (R369). Reset false. -/
  run : Bool := false
  /-- The address of the bundle in issue; 32 bits (R432). Reset 0. -/
  pc : Word := 0
  /-- The 256 physical window registers (R415). Reset 0 (R432). -/
  phys : Sparse Word := []
  /-- g1 to g7; g0 reads 0 (R414). Reset 0 (R432). -/
  g : Sparse Word := []
  /-- a0 to a3 (R413). Reset 0 (R432). -/
  acc : Sparse Acc := []
  /-- CWB; 8 bits (R415). Reset 0. -/
  cwb : Byte := 0
  /-- WRES; 4 bits (R415). Reset 1. -/
  wres : BitVec 4 := 1
  /-- The return stack's 16 slots, its top slot and RSCNT (R418). Reset 0. -/
  rs : Sparse Word := []
  rsTop : BitVec 4 := 0
  rsCnt : BitVec 5 := 0
  /-- CORECFG.RND and RSWRAP (Table 19-4). Reset 1 and 0. -/
  rnd : BitVec 2 := 1
  rswrap : Bool := false
  /-- STATUS.IE, TH, SAT, AOV (Table 19-4). Reset 0. -/
  ie : Bool := false
  th : Bool := false
  sat : Bool := false
  aov : Bool := false
  /-- STATUS.IE as the last trap entry found it, which TRET restores; 1 bit (R426). Reset 0, choice. -/
  ieSaved : Bool := false
  /-- TPC, TVAL; 32 bits each. Reset 0. -/
  tpc : Word := 0
  tval : Word := 0
  /-- TCAUSE; 6 bits. Reset 0. -/
  tcause : BitVec 6 := 0
  /-- TVEC [31:6]; 26 bits. Reset 0. -/
  tvec : BitVec 26 := 0
  /-- IEN; 8 bits (Table 19-4). Reset 0. -/
  ien : Byte := 0
  /-- IPEND [7:4], the sources whose status is IPEND itself: 4 compare reached, 5 Keep, 6 gang bus, 7 host write; bits 3
  to 0 are computed (R427; assumption 27). Reset 0. -/
  ipend : Byte := 0
  /-- EVR [4:0]; bits 1 and 2, PE0 and PE1, are the ports' `sig` (R429). Reset 0. -/
  evr : BitVec 5 := 0
  /-- HWMASK; 128 bits. Reset 0. -/
  hwmask : BitVec 128 := 0
  /-- The timebase compare register (R447). Reset 0. -/
  compare : Word := 0
  /-- The compare has been written and not yet reached (R447). Reset false. -/
  compareOn : Bool := false
  /-- The reservation: the 8-byte granule's number (R430). Reset none. -/
  resv : Option Nat := none
  /-- The wait under way (R429). Reset none. -/
  wait : Option CoreWait := none
  /-- The operations of the bundle gathered so far, in order (R412, R434). Reset empty. -/
  bundle : List (Opc × OpWord) := []
  /-- Data RAM, 256 KiB: the bytes written, by offset from 0x1000_0000 (Table 19-1). Reset empty. -/
  ram : Sparse Byte := []
  /-- The model's own counts of how often the data RAM's contents, and those of its handover area, were lost (R464;
  assumption 6). Reset 0, choice. -/
  ramEpoch : Nat := 0
  keptEpoch : Nat := 0
  /-- IRAM, 128 KiB: the bytes written, as loads see them and as fetch sees them (R431). Reset empty. -/
  iram : Sparse Byte := []
  iramFetch : Sparse Byte := []
  /-- The event inputs that EPOST signals: port engines 0 and 1 and the DMA (R429). Reset false. -/
  pe0In : Bool := false
  pe1In : Bool := false
  dmaIn : Bool := false
  /-- The snapshot of the table region: port, table, index and words (R423). Reset none. -/
  snap : Option (Nat × Nat × Nat × List Half) := none
  /-- The last service of the watchdog, µs (R367). Reset 0. -/
  wdAt : Nat := 0
  /-- Times of the watchdog's firings of the last 60 s, newest first (R373). Reset empty. -/
  fires : List Nat := []
  /-- A double trap has fired the watchdog (R428). Reset false. -/
  wdNow : Bool := false
  /-- A core restart runs since (R369). Reset none. -/
  restart : Option Nat := none
  deriving DecidableEq, Repr

/-! ## The machine -/

/-- Everything but the queue of commands. -/
structure Dev where
  /-- µs since step 1 of Table 03-2: the timebase is its low 32 bits, the millisecond count its thousandth (R491). Reset 0. -/
  us : Nat := 0
  /-- The model's own counter of free values taken; the spec names no such thing (assumption 5). Reset 0, choice. -/
  free : Nat := 0
  pw : Power := {}
  gl : Global := {}
  q : Queue := {}
  win : Window := {}
  mbx : Mailbox := {}
  p0 : Port := {}
  p1 : Port := {}
  tb : Tables := {}
  keep : Keep := {}
  fwu : Fwu := {}
  gang : Gang := {}
  cmp : Bank16 := {}
  core : Core := {}
  deriving DecidableEq, Repr

/-- The state of the block: the device, and the commands that wait, first in, first out (assumption 1). -/
structure State where
  dev : Dev := {}
  /-- The commands waiting; the front is taken by the next step. Reset empty. -/
  pending : List Instr := []
  deriving DecidableEq, Repr

/-- The machine right after reset: powered, the core held by the cold-start latch, every register at its Reset column
(R12, R57, R490; assumption 4). -/
def State.reset : State := {}

end Sys2Proof.Machine
end

