-- ==== Sys2Proof/Machine/Ops.lean ====
section
/-! DEFINITION. The named operations every meaning is built from: sparse tables and byte stores, the access to a port,
the clock, bit fields and byte order, the CRC-32 of R145, and how a meaning answers. -/

namespace Sys2Proof.Machine

open Sys2Proof

/-- How a command answers. -/
abbrev Answer := Host.Outcome State Fault Refusal

/-! ## Sparse tables -/

/-- The entry at a key, if the table lists one. -/
def spFind {α : Type} : Sparse α → Nat → Option α
  | [], _ => none
  | (a, v) :: t, k => if a = k then some v else if k < a then none else spFind t k

/-- The value at a key, where an unlisted key has the value that `f` gives it. -/
def spGetF {α : Type} (f : Nat → α) (s : Sparse α) (k : Nat) : α := (spFind s k).getD (f k)

/-- The value at a key, with one default. -/
def spGet {α : Type} (c : α) (s : Sparse α) (k : Nat) : α := spGetF (fun _ => c) s k

/-- The table without a key. -/
def spErase {α : Type} : Sparse α → Nat → Sparse α
  | [], _ => []
  | (a, v) :: t, k => if a = k then t else if k < a then (a, v) :: t else (a, v) :: spErase t k

/-- The table with a key set, in rising order. -/
def spPut {α : Type} : Sparse α → Nat → α → Sparse α
  | [], k, v => [(k, v)]
  | (a, w) :: t, k, v =>
    if a = k then (k, v) :: t else if k < a then (k, v) :: (a, w) :: t else (a, w) :: spPut t k v

/-- The table with a key set: setting the value an unlisted key has removes the entry. -/
def spSetF {α : Type} [DecidableEq α] (f : Nat → α) (s : Sparse α) (k : Nat) (v : α) : Sparse α :=
  if v = f k then spErase s k else spPut s k v

/-- The same with one default. -/
def spSet {α : Type} [DecidableEq α] (c : α) (s : Sparse α) (k : Nat) (v : α) : Sparse α :=
  spSetF (fun _ => c) s k v

/-- The canonical form: keys strictly rising, no entry equal to what an unlisted key has. -/
def spWfF {α : Type} [DecidableEq α] (f : Nat → α) : Sparse α → Bool
  | [] => true
  | (a, v) :: t => decide (v ≠ f a) && (match t with | [] => true | (b, _) :: _ => decide (a < b)) && spWfF f t

/-- The canonical form of a store whose unlisted bytes have no one value: keys strictly rising. -/
def spRising {α : Type} : Sparse α → Bool
  | [] => true
  | (a, _) :: t => (match t with | [] => true | (b, _) :: _ => decide (a < b)) && spRising t

/-- The canonical form of a byte store whose unlisted bytes read 0. -/
def Memory.wf (m : Sparse Byte) : Bool := spWfF (fun _ => (0 : Byte)) m

/-- `n` bytes from an address of a store whose unlisted bytes read 0. -/
def readBytes (m : Sparse Byte) (a : Nat) : Nat → List Byte
  | 0 => []
  | n + 1 => spGet 0 m a :: readBytes m (a + 1) n

/-- Bytes written one after the other from an address. -/
def writeBytes (m : Sparse Byte) (a : Nat) : List Byte → Sparse Byte
  | [] => m
  | b :: bs => writeBytes (spSet 0 m a b) (a + 1) bs

/-- Bytes put one after the other into a store whose unlisted bytes have no one value (assumption 6). -/
def putBytes (m : Sparse Byte) (a : Nat) : List Byte → Sparse Byte
  | [] => m
  | b :: bs => putBytes (spPut m a b) (a + 1) bs

/-- Single bytes written in order; a later write of a byte replaces an earlier one (R392). -/
def writeCells (m : Sparse Byte) : List Host.Cell → Sparse Byte
  | [] => m
  | (a, b) :: t => writeCells (spSet 0 m a b) t

/-! ## Numbers, fields and byte order -/

/-- A Bool as 0 or 1. -/
def b2n (b : Bool) : Nat := if b then 1 else 0

/-- A number on the 16-bit host bus. -/
def h16 (n : Nat) : Half := BitVec.ofNat 16 n

/-- A number that saturates at 16 bits. -/
def sat16 (n : Nat) : Half := BitVec.ofNat 16 (if n < 65536 then n else 65535)

/-- A 32-bit increment that saturates. -/
def satInc32 (w : Word) : Word := if w = 0xFFFFFFFF then w else w + 1

/-- Field of `w` bits from bit `lo` of a number. -/
def fld (n lo w : Nat) : Nat := (n >>> lo) % 2 ^ w

/-- Bit `i` of a number. -/
def bit (n i : Nat) : Bool := n.testBit i

/-- A word put together from fields: (lowest bit, value). -/
def pack : List (Nat × Nat) → Nat
  | [] => 0
  | (lo, v) :: t => v <<< lo ||| pack t

/-- A byte of a number. -/
def byteOf (n i : Nat) : Byte := BitVec.ofNat 8 (n >>> (8 * i))

/-- A number as `n` bytes, low byte first (R493). -/
def leBytes (n : Nat) : Nat → List Byte
  | 0 => []
  | k + 1 => BitVec.ofNat 8 n :: leBytes (n / 256) k

/-- The number that bytes spell, low byte first. -/
def leNat : List Byte → Nat
  | [] => 0
  | b :: t => b.toNat + 256 * leNat t

/-- The number that bytes spell, high byte first (EUI-48s, R169). -/
def beNat (l : List Byte) : Nat := leNat l.reverse

/-- A number as `n` bytes, high byte first. -/
def beBytes (n k : Nat) : List Byte := (leBytes n k).reverse

/-- A division rounded to the nearest, halves up. -/
def divRound (a b : Nat) : Nat := (2 * a + b) / (2 * b)

/-- The lesser of a number and a limit that may be absent. -/
def capBy (n : Nat) : Option Nat → Nat
  | none => n
  | some m => if m < n then m else n

/-- Sum of a list of numbers. -/
def sumNat : List Nat → Nat
  | [] => 0
  | n :: t => n + sumNat t

/-! ## Orders -/

/-- Puts an element in front of the first one it precedes. -/
def insertBy {α : Type} (lt : α → α → Bool) (x : α) : List α → List α
  | [] => [x]
  | y :: t => if lt x y then x :: y :: t else y :: insertBy lt x t

/-- A stable sort. -/
def sortBy {α : Type} (lt : α → α → Bool) : List α → List α
  | [] => []
  | x :: t => insertBy lt x (sortBy lt t)

/-- Lexicographic order of number lists. -/
def lexLt : List Nat → List Nat → Bool
  | a :: s, b :: t => if a < b then true else if b < a then false else lexLt s t
  | _, _ => false

/-! ## The CRC-32 of R145 -/

/-- One bit of the reflected CRC. -/
def crcBit (c : Word) : Word := if c.toNat % 2 = 1 then (c >>> 1) ^^^ 0xEDB88320 else c >>> 1

/-- One byte of it. -/
def crcByte (c : Word) (b : Byte) : Word :=
  crcBit (crcBit (crcBit (crcBit (crcBit (crcBit (crcBit (crcBit (c ^^^ (b.setWidth 32)))))))))

/-- The bytes of it in order. -/
def crcFold (c : Word) : List Byte → Word
  | [] => c
  | b :: t => crcFold (crcByte c b) t

/-- The IEEE 802.3 CRC-32: reflected, initial and final all ones (R145). -/
def crc32 (l : List Byte) : Word := crcFold 0xFFFFFFFF l ^^^ 0xFFFFFFFF

/-! ## Time -/

/-- The timebase: 32-bit microseconds since step 1 of Table 03-2 (R491). -/
def Dev.timebase (d : Dev) : Word := BitVec.ofNat 32 d.us

/-- The 32-bit millisecond count (R491). -/
def Dev.msCount (d : Dev) : Word := BitVec.ofNat 32 (d.us / 1000)

/-- Its low 16 bits (Table 05-4). -/
def Dev.ms16 (d : Dev) : Half := BitVec.ofNat 16 (d.us / 1000)

/-! ## Ports -/

/-- A port of the device. -/
def Dev.port (d : Dev) : PortId → Port
  | .p0 => d.p0
  | .p1 => d.p1

/-- The device with a port changed. -/
def Dev.modPort (d : Dev) (p : PortId) (f : Port → Port) : Dev :=
  match p with
  | .p0 => { d with p0 := f d.p0 }
  | .p1 => { d with p1 := f d.p1 }

/-- A function over both ports, port 0 first. -/
def Dev.bothPorts (d : Dev) (f : PortId → Dev → Dev) : Dev := f .p1 (f .p0 d)

/-- The port bit of an event (Table 05-4). -/
def portBit : PortId → Bool
  | .p0 => false
  | .p1 => true

/-- The handle of an endpoint: port in bit 10, index below (R19). -/
def handleOf (p : PortId) (i : Idx) : Half := BitVec.ofNat 16 (p.toNat * 1024 + i.toNat)

/-! ## Free values (assumption 5) -/

/-- Takes a fresh free value. -/
def takeFree (d : Dev) : BitVec 64 × Dev := (Config.freeValue d.free, { d with free := d.free + 1 })

/-! ## How a meaning answers -/

/-- A meaning that changes the device and leaves the queue alone. -/
def onDev (f : Dev → Dev) (s : State) : Answer := .next { s with dev := f s.dev }

/-- A change that happens only where a condition holds (assumption 2). -/
def guardDev (c : Bool) (f : Dev → Dev) (d : Dev) : Dev := if c then f d else d

/-- A list processed in order over the device. -/
def foldDev {α : Type} (f : α → Dev → Dev) : List α → Dev → Dev
  | [], d => d
  | a :: t, d => foldDev f t (f a d)

end Sys2Proof.Machine
end

