-- ==== Sys2Proof/Machine/Flags.lean ====
section
/-! DEFINITION. Every flag computation: the occurrence counts of R87, setting and clearing W1C flags, the status words
that follow their sources (GSTAT 2 to 0, IRQ#), and MODE (R29). -/

namespace Sys2Proof.Machine

open Sys2Proof

/-! ## Bit positions of Table 04-3 and Table 04-6 -/

/-- GSTAT bits. -/
def gOvf : Nat := 3
def gMbx : Nat := 4
def gSafe : Nat := 5
def gCrit : Nat := 6
def gKeep : Nat := 7
def gFwu : Nat := 8
def gCmp : Nat := 9
def gGang : Nat := 10
def gParked : Nat := 11
def gBoot : Nat := 12
def gClk : Nat := 13

/-- PEVT bits. -/
def eAttach : Nat := 0
def eDetach : Nat := 1
def eTrip : Nat := 2
def eLevel : Nat := 3
def eThrot : Nat := 4
def eRail : Nat := 5
def eRing : Nat := 6
def eDroop : Nat := 7
def eRole : Nat := 8
def eAbsent : Nat := 9
def eEnrol : Nat := 10
def eDup : Nat := 11
def eLine : Nat := 12

/-! ## Occurrences (R87, Table 05-3) -/

/-- One more occurrence: OCC stops at 15, the total at 2^32 - 1 with SAT. -/
def occBump (o : Occ) : Occ :=
  { occ := if o.occ = 15 then 15 else o.occ + 1
    total := satInc32 o.total
    sat := o.sat || decide (o.total = 0xFFFFFFFF) }

/-- A write that clears the flag; a set in the same cycle leaves the count at 1 (R87). -/
def occClear (o : Occ) (set : Bool) : Occ :=
  if set then { occBump o with occ := 1 } else { o with occ := 0 }

/-! ## GSTAT -/

/-- Sets a W1C flag of GSTAT. -/
def setG (i : Nat) (d : Dev) : Dev :=
  { d with gl := { d.gl with gstat := d.gl.gstat ||| BitVec.ofNat 14 (2 ^ i) } }

/-- An overflow episode begins: the flag and its count (R87, R116). -/
def setOvf (d : Dev) : Dev :=
  setG gOvf { d with gl := { d.gl with ovfOcc := occBump d.gl.ovfOcc } }

/-- A write that clears GSTAT flags, with the sets of the same cycle (R87): the set wins. -/
def clearG (mask sets : Half) (d : Dev) : Dev :=
  let m : BitVec 14 := mask.setWidth 14 &&& 0x3FF8
  let st : BitVec 14 := sets.setWidth 14 &&& 0x3FF8
  let g := { d.gl with gstat := (d.gl.gstat &&& ~~~m) ||| st }
  let ovf := m.getLsbD gOvf
  let set := st.getLsbD gOvf
  { d with gl := { g with ovfOcc :=
      if ovf then occClear g.ovfOcc set else if set then occBump g.ovfOcc else g.ovfOcc } }

/-- An interrupt source of the core whose status is IPEND itself becomes pending: 5, 6 or 7 (Table 19-3; assumption 27). -/
def raise (n : Nat) (d : Dev) : Dev :=
  { d with core := { d.core with ipend := d.core.ipend ||| BitVec.ofNat 8 (2 ^ n) } }

/-! ## PEVT -/

/-- Sets a flag of PEVT. -/
def setPevt (i : Nat) (q : Port) : Port := { q with pevt := q.pevt ||| BitVec.ofNat 13 (2 ^ i) }

/-- A counted occurrence of PEVT.TRIP. -/
def notePTrip (q : Port) : Port := { setPevt eTrip q with occTrip := occBump q.occTrip }
/-- A counted occurrence of PEVT.DROOP. -/
def notePDroop (q : Port) : Port := { setPevt eDroop q with occDroop := occBump q.occDroop }
/-- A counted occurrence of PEVT.ABSENT. -/
def notePAbsent (q : Port) : Port := { setPevt eAbsent q with occAbsent := occBump q.occAbsent }
/-- A counted occurrence of PEVT.DUP. -/
def notePDup (q : Port) : Port := { setPevt eDup q with occDup := occBump q.occDup }
/-- A counted occurrence of PEVT.LINE. -/
def notePLine (q : Port) : Port := { setPevt eLine q with occLine := occBump q.occLine }

/-- What a clearing write and a set of the same cycle make of one count. -/
def occWrite (m st : BitVec 13) (i : Nat) (o : Occ) : Occ :=
  if m.getLsbD i then occClear o (st.getLsbD i) else if st.getLsbD i then occBump o else o

/-- A write that clears PEVT flags, with the sets of the same cycle (R87): the set wins. -/
def clearPevt (mask sets : Half) (q : Port) : Port :=
  let m : BitVec 13 := mask.setWidth 13
  let st : BitVec 13 := sets.setWidth 13
  { q with
    pevt := (q.pevt &&& ~~~m) ||| st
    occTrip := occWrite m st eTrip q.occTrip
    occDroop := occWrite m st eDroop q.occDroop
    occAbsent := occWrite m st eAbsent q.occAbsent
    occDup := occWrite m st eDup q.occDup
    occLine := occWrite m st eLine q.occLine }

/-! ## Words that follow their sources -/

/-- (PEVT & PMASK) of a port is not 0 (R88). -/
def portFlag (q : Port) : Bool := decide (q.pevt &&& q.pmask ≠ 0)

/-- The number of complete events queued (EVQ_LEVEL.COUNT). -/
def Queue.count (q : Queue) : Nat := q.q.length + b2n q.ovf.isSome

/-- GSTAT as a read returns it: bits 2 to 0 follow their sources (R88). -/
def gstatWord (d : Dev) : Half :=
  d.gl.gstat.setWidth 16
    ||| h16 (pack [(0, b2n (portFlag d.p0)), (1, b2n (portFlag d.p1)), (2, b2n (decide (d.q.count ≠ 0)))])

/-- IRQ# is driven low (R88); a high PRESENT# or an absent VIO floats it (R64, R474). -/
def irqLow (d : Dev) : Bool :=
  decide (d.pw.present = .live) && d.pw.vio && decide (gstatWord d &&& d.gl.gmask.setWidth 16 ≠ 0)

/-- A port is a ring feeder with a peer (RING.PEER, PSTAT.RINGF). -/
def Port.ringFeeder (q : Port) : Bool := decide (q.role = .feed) && q.ring.peer

/-- The device takes part in a gang as a member, its leader among them. A device that has backed off the bus (R324) drives
nothing on it and counts as no member, although R25 makes it its own leader: no rule says which mode such a device reads,
and this is the model's choice (assumption 91). A leader that a core restart sent back to listening still counts (R27). -/
def gangMember (d : Dev) : Bool :=
  match d.gang.phase with
  | .member => true
  | .leader => true
  | .listening _ _ => d.gang.kept
  | _ => false

/-- MODE: the highest-numbered mode of Table 01-4 that applies (R29); ROMBOOT and RECOVERY report themselves until the
start ends, and DORMANT is never read (R30). -/
def modeOf (d : Dev) : Nat :=
  match d.pw.phase with
  | .dormant => 0
  | .held => 1
  | .recovery => 2
  | .running =>
    if d.gl.safe then 11
    else if d.fwu.hand.isSome && !d.fwu.handSafe then 10
    else if gangMember d && decide (d.gang.modeIn = 2) then 9
    else if gangMember d && decide (d.gang.modeIn = 1) then 8
    else if d.p0.ringFeeder || d.p1.ringFeeder then 7
    else
      let feed := decide (d.p0.role = .feed) || decide (d.p1.role = .feed)
      let draw := decide (d.p0.role = .draw) || decide (d.p1.role = .draw)
      if feed && draw then 6 else if draw then 5 else if feed then 4 else 3

/-- The registers can be reached beyond ID, REV, MODE and the mailbox (R28). -/
def Dev.up (d : Dev) : Bool := decide (d.pw.phase = .running)

/-- A host access reaches the device: the bus is live and VIO is there (R64, R474), and RESET# is high (R62). -/
def busLive (d : Dev) : Bool :=
  decide (d.pw.present = .live) && d.pw.vio && d.pw.supply && !d.pw.resetLow

end Sys2Proof.Machine
end

