-- ==== Sys2Proof/Machine/KeepE.lean ====
section
/-! DEFINITION. Keep-E as bytes: engine writes, the tally counters (R401), the system page (R492), the poison list
(R410), the settings areas' headers (R398), and reads that a pending rollback redirects (R397). -/

namespace Sys2Proof.Machine

open Sys2Proof

/-- The 8-byte groups that a range of bytes touches. -/
def groupsOf (a len : Nat) : List Nat :=
  (List.range ((a + len + 7) / 8 - a / 8)).map (· + a / 8)

/-- The Keep engine writes bytes; a rewritten group reads good again (R390, R410). -/
def eWrite (a : Nat) (l : List Byte) (k : Keep) : Keep :=
  { k with e := writeBytes k.e a l, bad := k.bad.filter (fun g => !(groupsOf a l.length).contains g) }

/-- A group's SECDED code reports an uncorrectable error (R409). -/
def groupBad (k : Keep) (g : Nat) : Bool := k.bad.contains g

/-! ## Tally counters -/

/-- Address of a cell (R401). -/
def cellAddr (c j : Nat) : Nat := 0x2000 + 256 * c + 8 * j

/-- The highest readable cell from cell j on. -/
def tallyFrom (k : Keep) (c : Nat) : List Nat → Nat
  | [] => 0
  | j :: t =>
    let rest := tallyFrom k c t
    let v := if groupBad k (cellAddr c j / 8) then 0 else leNat (readBytes k.e (cellAddr c j) 4)
    if rest < v then v else rest

/-- A tally counter's value (R401). -/
def tally (k : Keep) (c : Nat) : Nat := tallyFrom k c (List.range 32)

/-- The SAT mark of a counter stands in the cell of its last value (R401). -/
def tallyWrite (c v : Nat) (sat : Bool) (k : Keep) : Keep :=
  eWrite (cellAddr c (v % 32)) (leBytes v 4 ++ [BitVec.ofNat 8 (b2n sat)]) k

/-- One more: an increment at 0xFFFFFFFF writes nothing further and sets SAT (R401). -/
def tallyInc (c : Nat) (k : Keep) : Keep :=
  let v := tally k c
  if v = 0xFFFFFFFF then tallyWrite c v true k else tallyWrite c (v + 1) false k

/-- Counter 0 is only ever advanced (R402). -/
def tallyAdvance (c v : Nat) (k : Keep) : Keep := if tally k c < v then tallyWrite c v false k else k

/-- A tally counter of the device. -/
def countUp (c : Nat) (d : Dev) : Dev := { d with keep := tallyInc c d.keep }

/-! ## System page (R492, R313) -/

/-- Writes one group of the system page alone. -/
def sysWrite (g : Nat) (l : List Byte) (k : Keep) : Keep := eWrite (0x3200 + 8 * g) l k

/-- The critical-latch group (R313). -/
def sysCrit (set : Bool) (k : Keep) : Keep := sysWrite 0 [if set then 0xC5 else 0] k

/-- The protection and trigger group. -/
def sysCtl (k : Keep) : Keep :=
  sysWrite 1 [BitVec.ofNat 8 k.bp.toNat, BitVec.ofNat 8 (pack [(0, k.pfch.toNat), (4, b2n k.pfen)])] k

/-- The group at which the scrubber's pass resumes. -/
def sysScrub (g : Nat) (k : Keep) : Keep := sysWrite 2 (leBytes g 2) k

/-- Where the scrubber's pass resumes. -/
def scrubPos (k : Keep) : Nat := leNat (readBytes k.e 0x3210 2) % 16384

/-- The last commit number. -/
def sysCommit (n : Word) (k : Keep) : Keep := sysWrite 3 (leBytes n.toNat 4) k

/-! ## Poison list (R410) -/

/-- The 32 entries of copy A, as numbers. -/
def poisonEntries (k : Keep) : List Nat := (List.range 32).map fun i => leNat (readBytes k.e (0x3000 + 8 * i) 2)

/-- An entry names a group: as itself, or as part of the page that starts at its group. -/
def poisonHits (e g : Nat) : Bool :=
  bit e 15 && (if bit e 14 then decide (e % 16384 ≤ g ∧ g < e % 16384 + 16) else decide (e % 16384 = g))

/-- A group is poisoned, or uncorrectable: its reads set KEEP_STAT.POISON (R410). -/
def groupPoisoned (k : Keep) (g : Nat) : Bool := groupBad k g || (poisonEntries k).any (poisonHits · g)

/-- Writes entry i of both copies. -/
def poisonPut (i v : Nat) (k : Keep) : Keep :=
  eWrite (0x3100 + 8 * i) (leBytes v 8) (eWrite (0x3000 + 8 * i) (leBytes v 8) k)

/-- The first entry of a list that is not valid. -/
def freeEntry : List Nat → Nat → Option Nat
  | [], _ => none
  | e :: t, i => if bit e 15 then freeEntry t (i + 1) else some i

/-- Enters a group, or a whole page, in both copies and counts it; a full list takes no further entry (R409, R410). -/
def poisonAdd (g : Nat) (page : Bool) (k : Keep) : Keep :=
  match freeEntry (poisonEntries k) 0 with
  | none => k
  | some i => tallyInc 11 (poisonPut i (g + 16384 * b2n page + 32768) k)

/-- Clears the entries of one group. -/
def poisonClearAt (g : Nat) : List Nat → Nat → Keep → Keep
  | [], _, k => k
  | e :: t, i, k => poisonClearAt g t (i + 1) (if poisonHits e g then poisonPut i 0 k else k)

/-- A commit that rewrites a poisoned group clears its entry (R410). -/
def poisonClear (g : Nat) (k : Keep) : Keep := poisonClearAt g (poisonEntries k) 0 k

/-! ## Reads -/

/-- Page of a byte. -/
def pageOf (a : Nat) : Nat := a / 128

/-- Byte address of a page of the journal ring (Table 18-1). -/
def journalPage (pos : Nat) : Nat := (pos % 64) * 128

/-- Where a page stands in a list. -/
def indexIn (p : Nat) : List Nat → Nat → Option Nat
  | [], _ => none
  | a :: t, i => if a = p then some i else indexIn p t (i + 1)

/-- Where a read of a byte looks: a target page of an unresolved rollback reads from its undo image (R397). -/
def readAddr (k : Keep) (a : Nat) : Nat :=
  match k.rollback with
  | none => a
  | some r =>
    match indexIn (pageOf a) r.pages 0 with
    | none => a
    | some i => journalPage (r.hdr + 1 + i) + a % 128

/-- A byte of Keep-E as every reader sees it. -/
def keepByte (k : Keep) (a : Nat) : Byte := spGet 0 k.e (readAddr k a)

/-- Bytes of Keep-E as every reader sees them. -/
def keepBytes (k : Keep) (a n : Nat) : List Byte := (List.range n).map fun i => keepByte k (a + i)

/-- A little-endian field of Keep-E. -/
def keepNat (k : Keep) (a n : Nat) : Nat := leNat (keepBytes k a n)

/-! ## Settings areas (R398, R399, R493) -/

/-- The bytes of an area that its header's CRC covers: all but b12 to b15 (R398). -/
def areaCovered (k : Keep) (base len : Nat) : List Byte := keepBytes k base 12 ++ keepBytes k (base + 16) (len - 16)

/-- The area's CRC passes. -/
def areaCrcOk (k : Keep) (base len : Nat) : Bool :=
  decide (keepNat k (base + 12) 4 = (crc32 (areaCovered k base len)).toNat)

/-- An area has never been written: every byte of its header reads 0 (R493). -/
def areaBlank (k : Keep) (base : Nat) : Bool := (keepBytes k base 16).all (· == 0)

/-- None of an area's groups is poisoned. -/
def areaUnpoisoned (k : Keep) (base len : Nat) : Bool := (groupsOf base len).all fun g => !groupPoisoned k g

/-- A copy of a dual-copy area is valid (R399). -/
def copyValid (k : Keep) (base len : Nat) : Bool :=
  !areaBlank k base && areaCrcOk k base len && areaUnpoisoned k base len

/-- The valid copy with the higher sequence (R399). -/
def copyTaken (k : Keep) (a b len : Nat) : Option Nat :=
  let va := copyValid k a len
  let vb := copyValid k b len
  if va && vb then some (if keepNat k (a + 4) 4 < keepNat k (b + 4) 4 then b else a)
  else if va then some a else if vb then some b else none

/-- The bytes of an area with the writes of a commit on top. -/
def areaAfter (k : Keep) (base len : Nat) (ws : List Host.Cell) : List Byte :=
  let m := writeCells ((keepBytes k base len).zipIdx.map fun (b, i) => (base + i, b)) ws
  readBytes m base len

/-- Bytes at an address as the cells of a commit. -/
def cellsAt (a : Nat) (l : List Byte) : List Host.Cell := l.zipIdx.map fun (b, i) => (a + i, b)

end Sys2Proof.Machine
end

