-- ==== Sys2Proof/Machine/Events.lean ====
section
/-! DEFINITION. Posting events (R113 to R116, R354 to R366) and the LOG ring (R404). -/

namespace Sys2Proof.Machine

open Sys2Proof

/-! ## The LOG ring -/

/-- An event's four words (Table 05-4). -/
def eventWord0 (e : Event) : Half :=
  h16 (pack [(0, e.typ.toNat), (8, b2n e.port), (9, b2n e.subj), (10, b2n e.restart), (11, b2n e.logged), (12, e.code.toNat)])

/-- The words of an event, in order. -/
def eventWords (e : Event) : List Half := [eventWord0 e, e.word1, e.seq, e.ms]

/-- The eight words of a LOG record (Table 05-3). -/
def logWords (l : LogEntry) : List Half :=
  eventWords l.ev ++ [l.boot, l.ms.setWidth 16, (l.ms >>> 16).setWidth 16, 1]

/-- The 16 bytes of a LOG entry, VALID last (R404). -/
def logBytes (l : LogEntry) : List Byte := (logWords l).flatMap fun w => leBytes w.toNat 2

/-- Appends one entry to the ring in Keep-E. -/
def logRing (l : LogEntry) (k : Keep) : Keep :=
  { eWrite (0x4000 + 16 * (k.logPos % 1024)) (logBytes l) k with logPos := (k.logPos + 1) % 1024 }

/-- LOG entries are held rather than written: KHOT is 1, or held entries are still ahead (R397). -/
def logHolds (d : Dev) : Bool := d.gl.khot || decide (d.keep.held ≠ [])

/-- The device can log one more event (R397, R112). -/
def logRoom (d : Dev) : Bool := !logHolds d || decide (d.keep.held.length < 32)

/-- Logs an event: it is in the LOG table at once, and in the ring at once unless entries are held (R397, R404). -/
def logEvent (e : Event) (ms : Word) (d : Dev) : Dev :=
  let l : LogEntry := { ev := e, boot := h16 (tally d.keep 1), ms := ms }
  let k := { d.keep with log := (l :: d.keep.log).take 1024 }
  { d with keep := if logHolds d then { k with held := k.held ++ [l] } else logRing l k }

/-! ## Posting -/

/-- An event as the posting block gives it. -/
structure EventSpec where
  typ : Nat
  port : Bool := false
  /-- Word 1 is a handle. -/
  handle : Bool := false
  code : Nat := 0
  word1 : Half := 0
  log : Bool := false
  /-- The millisecond count of the cause, where it is not this one (R114). -/
  ms : Option Nat := none
  deriving DecidableEq, Repr

/-- The 511 ordinary entries hold no more, or an episode is under way and not yet read (R116). -/
def Queue.loses (q : Queue) : Bool :=
  decide (511 ≤ q.q.length) || (match q.ovf with | some o => !o.frozen | none => false) || q.ovfNext.isSome

/-- One more event is lost (R116): it opens an episode, or counts in the one that runs. -/
def loseEvent (seq ms : Half) (d : Dev) : Dev :=
  match d.q.ovf with
  | none => setOvf { d with q := { d.q with ovf := some ⟨seq, 1, ms, false⟩ } }
  | some o =>
    if o.frozen then
      match d.q.ovfNext with
      | none => { d with q := { d.q with ovfNext := some ⟨seq, 1, ms, false⟩ } }
      | some n => { d with q := { d.q with ovfNext := some { n with lost := n.lost + 1 } } }
    else { d with q := { d.q with ovf := some { o with lost := o.lost + 1 } } }

/-- Posts an event: it takes the next sequence number, carries RESTART if one is due and it is queued, is logged if
its kind asks for it and the log has room, and is queued or lost (R114, R116, R366, R372, R397). -/
def post (x : EventSpec) (d : Dev) : Dev :=
  let lost := d.q.loses
  let logged := x.log && logRoom d
  let ms : Word := match x.ms with | some n => BitVec.ofNat 32 n | none => d.msCount
  let e : Event :=
    { typ := BitVec.ofNat 8 x.typ, port := x.port, subj := !x.handle, restart := d.q.restart && !lost
      logged := logged, code := BitVec.ofNat 4 x.code, word1 := x.word1, seq := d.q.seq
      ms := ms.setWidth 16 }
  let d1 := if logged then logEvent e ms d else d
  let d2 := { d1 with q := { d1.q with seq := d1.q.seq + 1 } }
  if lost then loseEvent e.seq e.ms d2
  else { d2 with q := { d2.q with q := d2.q.q ++ [e], restart := false } }

/-- An event about an endpoint (R115). -/
def postEndpoint (typ code : Nat) (p : PortId) (i : Idx) (log : Bool := false) : Dev → Dev :=
  post { typ := typ, port := portBit p, handle := true, code := code, word1 := handleOf p i, log := log }

/-- An event about a port. -/
def postPort (typ code : Nat) (p : PortId) (word1 : Half := 0) (log : Bool := false) : Dev → Dev :=
  post { typ := typ, port := portBit p, code := code, word1 := word1, log := log }

/-- An event about the device. -/
def postGlobal (typ code : Nat) (word1 : Half := 0) (log : Bool := false) : Dev → Dev :=
  post { typ := typ, code := code, word1 := word1, log := log }

/-! ## Popping (R85, R116, Table 04-1) -/

/-- The four words of an OVERFLOW entry. -/
def overflowWords (o : Overflow) : List Half :=
  [h16 (pack [(0, 0xFF), (9, 1), (12, if 65535 < o.lost then 0xF else 0)]), sat16 o.lost, o.first, o.ms]

/-- The words of the event that EVQ_POP reads next, if the queue holds one. -/
def frontWords (q : Queue) : Option (List Half) :=
  match q.ovf, q.q with
  | some o, [] => some (overflowWords o)
  | some o, e :: _ => some (if o.frozen then overflowWords o else eventWords e)
  | none, e :: _ => some (eventWords e)
  | none, [] => none

/-- OVERFLOW is the oldest entry. -/
def ovfFront (q : Queue) : Bool :=
  match q.ovf with
  | some o => o.frozen || q.q.isEmpty
  | none => false

/-- The reserved entry is free again; an episode that waited for it takes it. -/
def dropOvf (d : Dev) : Dev :=
  match d.q.ovfNext with
  | none => { d with q := { d.q with ovf := none } }
  | some n => setOvf { d with q := { d.q with ovf := some n, ovfNext := none } }

/-- A read of EVQ_POP: the word, and the queue after it (R85, R113, R116). -/
def popWord (d : Dev) : Half × Dev :=
  match frontWords d.q with
  | none => (0, d)
  | some ws =>
    let i := d.q.phase.toNat
    let w := ws.getD i 0
    let atOvf := ovfFront d.q
    let d1 := if atOvf then { d with q := { d.q with ovf := d.q.ovf.map fun o => { o with frozen := true } } } else d
    if i = 3 then
      let d2 := { d1 with q := { d1.q with phase := 0 } }
      (w, if atOvf then dropOvf d2 else { d2 with q := { d2.q with q := d2.q.q.tail } })
    else (w, { d1 with q := { d1.q with phase := d.q.phase + 1 } })

end Sys2Proof.Machine
end

