-- ==== Sys2Proof/Machine/Limits.lean ====
section
/-! DEFINITION. The limits on a port (R263 to R266, Table 12-1), the totals counted against them, the levels' windows
(Table 09-1), BUDGET, THROT and its records (R26, R264, R309). Powers are in 0.1 W, currents in mA, voltages in mV. -/

namespace Sys2Proof.Machine

open Sys2Proof

/-! ## Levels (Table 09-1) -/

/-- Nominal voltage of a level, mV. -/
def nominalMv (l : Level) : Nat := [12000, 24000, 36000, 44000].getD l.toNat 0

/-- Settle band, mV. -/
def settleLow (l : Level) : Nat := [11640, 23280, 34920, 42680].getD l.toNat 0
def settleHigh (l : Level) : Nat := [12360, 24720, 37080, 45320].getD l.toNat 0

/-- Upper limit, mV. -/
def upperMv (l : Level) : Nat := [12600, 25200, 37800, 46200].getD l.toNat 0

/-- The terminal lower edge, mV, at an endpoint's supply (R197, R198). -/
def terminalLowMv (l : Level) : Nat := [8000, 16000, 24000, 30000].getD l.toNat 0

/-- A voltage lies in a level's settle band. -/
def inBand (l : Level) (mv : Nat) : Bool := decide (settleLow l ≤ mv ∧ mv ≤ settleHigh l)

/-- mA times mV as 0.1 W. -/
def power01 (ma mv : Nat) : Nat := ma * mv / 100000

/-- The current of a power at a level in mA, rounded to nearest (Table 05-6). -/
def currentOf (p : Nat) (l : Level) : Nat := divRound (p * 100000) (nominalMv l)

/-! ## Records -/

def rosterOf (q : Port) (i : Nat) : RosterRec := spGet {} q.roster i
def contractOf (q : Port) (i : Nat) : ContractRec := spGet {} q.contract i
def setRoster (i : Nat) (r : RosterRec) (q : Port) : Port := { q with roster := spSet {} q.roster i r }
def setContract (i : Nat) (c : ContractRec) (q : Port) : Port := { q with contract := spSet {} q.contract i c }
def tenantOf (d : Dev) (t : Nat) : TenantRec := spGet {} d.tb.tenants t

/-- Gathers an endpoint's model energy up to a millisecond at its rate (R344). -/
def gather (ms : Nat) (r : RosterRec) : RosterRec :=
  { r with modelUj := r.modelUj + r.rate * (ms - r.rateMs), rateMs := Nat.max ms r.rateMs }

/-- The same, with the end of a shed on the way: from its millisecond the previous rate applies again (R297, R344). -/
def rateTo (ms : Nat) (r : RosterRec) : RosterRec :=
  match r.restoreMs with
  | some t =>
    if t ≤ ms then gather ms { gather t r with rate := r.rateHeld.getD r.rate, rateHeld := none, restoreMs := none }
    else gather ms r
  | none => gather ms r

/-- A new model rate from the millisecond of its cause (R344). -/
def setRate (p us : Nat) (r : RosterRec) : RosterRec :=
  { rateTo (us / 1000) r with rate := p, rateHeld := none, restoreMs := none }

/-- A new model rate for an endpoint that the roster knows. -/
def rateFor (i : Idx) (p us : Nat) (q : Port) : Port :=
  let r := rosterOf q i.toNat
  if r.state = 0 then q else setRoster i.toNat (setRate p us r) q

/-- The record shows a contract: STATE ADMITTED or READY. -/
def ContractRec.held (c : ContractRec) : Bool := decide (c.state = 1) || decide (c.state = 2)

/-- The contracts of a port, by rising index. -/
def contracts (q : Port) : List (Nat × ContractRec) := q.contract.filter fun (_, c) => c.held

/-- An endpoint's present contract power, 0 if it has none (R263). -/
def heldPower (q : Port) (i : Nat) : Nat := if (contractOf q i).held then (contractOf q i).power.toNat else 0

/-- A shed tone: an endpoint with a READY contract falls to its contract floor, a restored one to 50 mW (R190, R295,
R344). -/
def shedRate (us : Nat) (q : Port) (x : Nat × ContractRec) : Port :=
  if x.2.state = 2 then
    let r := rateTo (us / 1000) (rosterOf q x.1)
    setRoster x.1 { r with rateHeld := some (r.rateHeld.getD r.rate), restoreMs := none
                           rate := if x.2.grant = 0 then 50 else x.2.floor.toNat * 100 } q
  else q

/-- The same for every contract of a port. -/
def shedRates (us : Nat) (q : Port) : Port := q.contract.foldl (shedRate us) q

/-- A beacon with SHED 0 ends at a time: an endpoint of class c returns 2c ms later (R297, R344). -/
def releaseRate (us : Nat) (q : Port) (x : Nat × RosterRec) : Port :=
  match x.2.rateHeld, x.2.restoreMs with
  | some _, none => setRoster x.1 { x.2 with restoreMs := some (us / 1000 + 2 * x.2.cls.toNat) } q
  | _, _ => q

/-- The same for every endpoint of a port. -/
def releaseRates (us : Nat) (q : Port) : Port := q.roster.foldl (releaseRate us) q

/-- The pending request of an endpoint. -/
def pendOf (q : Port) (i : Idx) : Option PendingReq := q.pend.find? fun r => r.idx == i

/-- The slot an endpoint holds, with its number. -/
def slotOf (q : Port) (i : Idx) : Option (Nat × Slot) := q.slots.find? fun (_, s) => s.idx == some i

/-- A power at a level's nominal does not exceed a current in mA (R267, R271). -/
def withinMa (power : Nat) (l : Level) (ma : Nat) : Bool := decide (power * 100000 ≤ ma * nominalMv l)

/-! ## Ceilings (R285, R289, R291) -/

/-- The settle band's lower edge at the lowest level of a mask, mV; 0 for an empty mask. -/
def maskVref (m : BitVec 4) : Nat :=
  match ([0, 1, 2, 3] : List Level).find? fun l => m.getLsbD l.toNat with | some l => settleLow l | none => 0

/-- The ceiling of R289, mA: half the margin over the loop resistance, rounded down; no margin gives 1 mA. The quotient by a
loop resistance of 0 is open (assumption 133). -/
def ceilingFor (mask : BitVec 4) (vmin rLoop ilim : Nat) : Nat :=
  let margin := maskVref mask - vmin
  let c := if margin = 0 then 1 else if rLoop = 0 then Config.openCeiling margin else margin * 1000 / (2 * rLoop)
  Nat.max 1 (Nat.min c ilim)

/-- A loop resistance in mΩ is taken for an endpoint (R287, R288, R291); w7 holds at most 65535 mΩ (assumption 133). -/
def setLoop (rLoop : Nat) (ilim : Nat) (r : RosterRec) : RosterRec :=
  { r with loopR := sat16 rLoop, calok := true, ceil := sat16 (ceilingFor r.mask r.vmin.toNat rLoop ilim) }

/-- Every endpoint of a ring takes the resistance of the whole ring (R291). -/
def ringLoop (q : Port) (r : RosterRec) : RosterRec :=
  if q.ring.en then setLoop ((q.cfg.rm.toNat * q.cfg.ringLen.toNat + 999) / 1000) q.grd.ilim.toNat r else r

/-- The ceiling of a record that Keep gives a start: from its loop resistance where it is calibrated, else the port's
uncalibrated ceiling (R285, R289, R291). -/
def storedCeiling (q : Port) (r : RosterRec) : RosterRec :=
  ringLoop q (if r.calok then setLoop r.loopR.toNat q.grd.ilim.toNat r else { r with ceil := q.cfg.uncalCeil })

/-! ## Totals -/

/-- ADMIT: the total of confirmed contracts. -/
def admitSum (q : Port) : Nat := sumNat ((contracts q).map fun (_, c) => c.power.toNat)

/-- CLASS w1: confirmed total of a class. -/
def classTotal (q : Port) (c : Cls) : Nat :=
  sumNat (((contracts q).filter fun (i, _) => (rosterOf q i).cls == c).map fun (_, c) => c.power.toNat)

/-- CLASS w2: contracts held. -/
def classHeld (q : Port) (c : Cls) : Nat := ((contracts q).filter fun (i, _) => (rosterOf q i).cls == c).length

/-- CLASS w3: endpoints pending after WAIT (R279). -/
def classPending (q : Port) (c : Cls) : Nat := (q.pend.filter fun r => (rosterOf q r.idx.toNat).cls == c).length

/-- TENANT w2 or w3: confirmed total of a tenant on a port. -/
def tenantTotal (q : Port) (t : Tenant) : Nat :=
  sumNat (((contracts q).filter fun (i, _) => (rosterOf q i).tenant == t).map fun (_, c) => c.power.toNat)

/-- The tenant's total on both ports. -/
def tenantBoth (d : Dev) (t : Tenant) : Nat := tenantTotal d.p0 t + tenantTotal d.p1 t

/-- TENANT w4: enrolled endpoints, on both ports. -/
def tenantEnrolled (d : Dev) (t : Tenant) : Nat :=
  (d.p0.roster.filter fun (_, r) => r.state != 0 && r.tenant == t).length
    + (d.p1.roster.filter fun (_, r) => r.state != 0 && r.tenant == t).length

/-- Slots in SPEC. -/
def specSlots (q : Port) : List (Nat × Slot) := q.slots.filter fun (_, s) => s.state == 2

/-- ΣSPEC, ΣRES and ΣPEND of R266. -/
def sumSpec (q : Port) : Nat := sumNat ((specSlots q).map fun (_, s) => s.req.power.toNat)
def sumRes (q : Port) : Nat := sumNat (q.line.resv.map fun (_, w) => w.toNat)
def incrementOf (q : Port) (i : Idx) (power : Nat) : Nat := power - heldPower q i.toNat
def sumPend (q : Port) : Nat := sumNat (q.pend.map fun r => incrementOf q r.idx r.req.power.toNat)

/-- The cap of a class. -/
def classCap (q : Port) (c : Cls) : Half :=
  if c = 0 then q.cap0 else if c = 1 then q.cap1 else if c = 2 then q.cap2 else q.cap3

/-! ## Limits of Table 12-1 -/

/-- A limit in force: its value, its THROT bit, its code, and whether its cause is present whatever the totals (R264). -/
structure Limit where
  value : Nat
  bit : Nat
  code : Nat
  always : Bool := false
  deriving DecidableEq, Repr

/-- S: the device's share of the shelf (Table 12-1, R325, R331, R332). -/
def shelfShare (d : Dev) : Nat :=
  if d.gang.mode = 0 then d.gl.shelf.toNat else (d.gang.share.getD d.gl.shelf).toNat

/-- The feeder's own port cap (Table 12-1); a hand-off holds its BUDGET at 0 (R337). -/
def portCap (q : Port) : Nat :=
  if q.ring.handOff.isSome then 0 else power01 q.grd.ilim.toNat (nominalMv q.ctl.lmax)

/-- The port's path stays open until its restart (R254 to R256). -/
def pathHeld (q : Port) : Bool := q.grd.latch || q.grd.reclose || q.ring.heldOpen

/-- The fixed limit: F, or the port cap where F is 0, clamped to S (R310). -/
def fixedLimit (d : Dev) (q : Port) : Nat :=
  let f := if q.cfg.fixedF = 0 then portCap q else q.cfg.fixedF.toNat
  if shelfShare d < f then shelfShare d else f

/-- What a port takes from S before the other port's shelf limit (R310). -/
def shelfUse (d : Dev) (q : Port) : Nat :=
  if q.ctl.fixed then Nat.max (fixedLimit d q) (admitSum q) else admitSum q

/-- The cascade limit of a FEED port beside a DRAW port (R23, R255). -/
def cascadeLimit (q other : Port) : Option Limit :=
  if other.role = .draw then
    let held := other.drw.ready && !pathHeld other
    let p := match other.drw.contract with | some (w, _) => w.toNat | none => 0
    some ⟨if held then p - q.cfg.hubReserve.toNat else 0, 0, 1, pathHeld other⟩
  else none

/-- The level limits of R210. -/
def levelLimits (q : Port) : List Limit :=
  (if q.lev.hold && decide (q.lev.tgt < q.ctl.lmax) then
    [⟨power01 q.grd.ilim.toNat (nominalMv q.lev.tgt), 7, 1, true⟩] else [])
  ++ (if q.lev.lfault then [⟨power01 q.grd.ilim.toNat q.met.vseg.toNat, 7, 1, true⟩] else [])

/-- The throttle limits of die, NTC points and bundle groups (R306, R308). -/
def heatLimits (q : Port) : List Limit :=
  (q.thermal.map fun (i, v) => (⟨v, if i = 0 then 6 else 5, 6, true⟩ : Limit))
  ++ (q.bundle.map fun (_, v) => (⟨v, 4, 6, true⟩ : Limit))

/-- The THROT bit of the limit that the shelf sets on a port: FIXED, GANG where the gang share is below SHELF.BUDGET, else SHELF
(Table 12-1). -/
def shelfBit (d : Dev) (q : Port) : Nat :=
  if q.ctl.fixed then 8 else if d.gang.mode != 0 && decide (shelfShare d < d.gl.shelf.toNat) then 9 else 2

/-- The port-wide limits in force on a port, in the order of Table 12-1. -/
def portLimits (d : Dev) (p : PortId) : List Limit :=
  let q := d.port p
  let o := d.port p.other
  [⟨portCap q, 0, 1, q.ring.handOff.isSome⟩]
  ++ (if q.ctl.ps2 then [⟨1000, 0, 1, false⟩] else [])
  ++ (cascadeLimit q o).toList
  ++ levelLimits q
  ++ (match q.drp.limit with | some v => [⟨v, 3, 1, true⟩] | none => [])
  ++ [⟨if q.ctl.fixed then fixedLimit d q else shelfShare d - shelfUse d o, shelfBit d q, 4, false⟩]
  ++ heatLimits q

/-- The lowest limit of a list; the first of equals. -/
def lowest : List Limit → Option Limit
  | [] => none
  | l :: t =>
    match lowest t with
    | some m => if m.value < l.value then some m else some l
    | none => some l

/-- The THROT bit of the limit that a WAIT cause names on a port (Table 12-1, R264). -/
def causeBit (d : Dev) (p : PortId) (code : Nat) : Nat :=
  if code = 2 ∨ code = 3 then 1
  else if code = 4 then shelfBit d (d.port p)
  else match lowest (portLimits d p) with
    | some l => if l.code = code then l.bit else 0
    | none => 0

/-- BUDGET: the lowest port-wide limit in force (R26, R264); 0 on a port that is not in FEED (assumption 17). -/
def budget (d : Dev) (p : PortId) : Nat :=
  if (d.port p).role = .feed then
    match lowest (portLimits d p) with | some l => l.value | none => 0
  else 0

/-- What ADMIT is admitted against: on a ring the ring budget of R232, without the own share while the own path is held
open (R234, R254), else BUDGET. -/
def admissionBudget (d : Dev) (p : PortId) : Nat :=
  let q := d.port p
  if q.ring.peer then
    (if pathHeld q then 0 else budget d p) + (match q.ring.report with | some r => r.budget.toNat | none => 0)
  else budget d p

/-- The same without the gang share where the share alone sheds nothing (R330). -/
def shedBudget (d : Dev) (p : PortId) : Nat :=
  let q := d.port p
  let ls := portLimits d p
  let ls1 := if d.gang.mode != 0 && d.gang.share.isSome && !d.gang.shedShare then ls.filter fun l => l.bit != 9 && l.bit != 2 else ls
  let own := if q.role = .feed then (match lowest ls1 with | some l => l.value | none => 0) else 0
  if q.ring.peer then
    (if pathHeld q then 0 else own) + (match q.ring.report with | some r => r.budget.toNat | none => 0)
  else own

/-- The speculative headroom SH of R266. -/
def headroom (d : Dev) (p : PortId) : Int :=
  let q := d.port p
  (admissionBudget d p : Int) - admitSum q - sumSpec q - sumRes q - sumPend q

/-! ## THROT -/

/-- An allocator cause is present: a request waits on it, or the limit lies below its total (R264). -/
def pendingOn (q : Port) (b : Nat) : Bool := q.pend.any fun r => r.bit == b

/-- A class cap lies below its total. -/
def classOver (q : Port) : Bool :=
  [0, 1, 2, 3].any fun c => classCap q c != 0xFFFF && decide ((classCap q c).toNat < classTotal q c)

/-- A tenant with contracts on the port has a cap below its total. -/
def tenantOver (d : Dev) (q : Port) : Bool :=
  (contracts q).any fun (i, _) =>
    let t := (rosterOf q i).tenant
    (tenantOf d t.toNat).cap != 0xFFFF && decide ((tenantOf d t.toNat).cap.toNat < tenantBoth d t)

/-- One THROT bit of a port. -/
def throtBit (d : Dev) (p : PortId) (b : Nat) : Bool :=
  let q := d.port p
  let below := fun (l : Limit) => decide (l.bit = b) && (l.always || decide (l.value < admitSum q))
  match b with
  | 10 => q.ceilAt.isSome
  | 1 => pendingOn q 1 || classOver q || tenantOver d q
  | 0 => pendingOn q 0 || (if q.ring.peer then decide (admissionBudget d p < admitSum q)
           || ((portLimits d p).any fun l => decide (l.bit = 0) && l.always)
         else (portLimits d p).any below)
  | _ => (decide (b = 2 ∨ b = 8 ∨ b = 9) && pendingOn q b) || (portLimits d p).any below

/-- THROT of a port (Table 04-6, R26). -/
def throtOf (d : Dev) (p : PortId) : BitVec 11 :=
  BitVec.ofNat 11 (pack ((List.range 11).map fun b => (b, b2n (throtBit d p b))))

/-- Counts the onsets of a change of THROT (R309). -/
def countOnsets (old new : BitVec 11) : List Nat → Sparse ThrotRec → Sparse ThrotRec
  | [], t => t
  | b :: bs, t =>
    let r := spGet {} t b
    let t1 := if new.getLsbD b && !old.getLsbD b then
        spSet {} t b { r with onsets := if r.onsets = 0xFFFF then r.onsets else r.onsets + 1
                              sat := r.sat || decide (r.onsets = 0xFFFF) }
      else t
    countOnsets old new bs t1

/-- The THROT event a millisecond owes (R309): PEVT.THROT, and the value at its end, stamped with that millisecond
(R114). -/
def postThrot (p : PortId) (d : Dev) : Dev :=
  let q := d.port p
  if q.throtDirty then
    let d1 := d.modPort p fun q => { setPevt eThrot q with throtDirty := false, throtOnset := false }
    post { typ := 0x18, port := portBit p, word1 := q.throt.setWidth 16, log := q.throtOnset, ms := some q.throtAtMs } d1
  else d

/-- The event that an earlier millisecond still owes is posted (R309, R491): a change of THROT in a later one finds it
gone. -/
def flushThrot (p : PortId) (d : Dev) : Dev :=
  if (d.port p).throtAtMs < d.us / 1000 then postThrot p d else d

/-- Notes a change of a port's THROT: its records, and that the millisecond owes an event (R309). -/
def noteThrot (p : PortId) (d : Dev) : Dev :=
  let new := throtOf d p
  if new = (d.port p).throt then d
  else
    (flushThrot p d).modPort p fun q =>
      { q with throt := new, throtDirty := true, throtAtMs := d.us / 1000
               throtOnset := q.throtOnset || decide ((new &&& ~~~q.throt) &&& 0x070 ≠ 0)
               throtLog := countOnsets q.throt new (List.range 11) q.throtLog }

/-- One more millisecond of each cause present (R309). -/
def throtMs (throt : BitVec 11) : List Nat → Sparse ThrotRec → Sparse ThrotRec
  | [], t => t
  | b :: bs, t =>
    let r := spGet {} t b
    throtMs throt bs (if throt.getLsbD b then
      spSet {} t b { r with ms := satInc32 r.ms, sat := r.sat || decide (r.ms = 0xFFFFFFFF) } else t)


end Sys2Proof.Machine
end

