-- ==== Sys2Proof/Machine/Frames.lean ====
section
/-! DEFINITION. Frames on the line (R142 to R149, Tables 07-1 to 07-3, 08-1, 08-2): header, body bytes and CRC, the
payload layouts of the head's messages, and how the head's frames reach the wire. -/

namespace Sys2Proof.Machine

open Sys2Proof

/-! ## Header and body (Table 07-2, R145, R146) -/

/-- FLAGS bits of Table 07-3. -/
def flRetry : Byte := 0x01
def flSpec : Byte := 0x02
def flEnrw : Byte := 0x04
def flLonely : Byte := 0x08
def flFirst : Byte := 0x10
def flDir : Byte := 0x20
def flPeer : Byte := 0x40
def flBc : Byte := 0x80

/-- The 32-bit header H. -/
def frameHeader (f : Frame) : Word :=
  BitVec.ofNat 32 (pack [(0, f.mtype.toNat), (6, f.index.toNat), (16, f.seq.toNat), (19, f.payload.length),
    (24, f.flags.toNat)])

/-- Header bytes, payload bytes and CRC, in the order they are sent. -/
def frameBytes (f : Frame) : List Byte :=
  let body := leBytes (frameHeader f).toNat 4 ++ f.payload
  body ++ leBytes (crc32 body).toNat 4

/-- The body byte of a short frame: SEQ, ACK or NAK, and their complement (R146). -/
def shortBody (nak : Bool) (seq : BitVec 3) : Byte :=
  let low : BitVec 4 := BitVec.ofNat 4 (pack [(0, seq.toNat), (3, b2n nak)])
  BitVec.ofNat 8 (pack [(0, low.toNat), (4, (~~~low).toNat)])

/-- What the body of a short frame says: NAK and SEQ, where its complement check holds (R146, R147). -/
def shortReads (b : Byte) : Option (Bool × BitVec 3) :=
  if fld b.toNat 4 4 = 15 - fld b.toNat 0 4 then some (bit b.toNat 3, BitVec.ofNat 3 b.toNat) else none

/-- The frame that a receiver takes from the bytes behind SOF_F, where none of the cases of R147 discards it: LEN is at most
24, the bytes are those LEN asks for, and the CRC holds. -/
def frameReads (l : List Byte) : Option Frame :=
  let h := leNat (l.take 4)
  let len := fld h 19 5
  if len ≤ 24 ∧ l.length = len + 8 ∧ l.drop (len + 4) = leBytes (crc32 (l.take (len + 4))).toNat 4 then
    some ⟨BitVec.ofNat 6 h, BitVec.ofNat 10 (h >>> 6), BitVec.ofNat 3 (h >>> 16), BitVec.ofNat 8 (h >>> 24), (l.drop 4).take len⟩
  else none

/-! ## Bits and times on the wire (R139, R142, R143, R146, R164) -/

/-- The bits of a byte in the order they are sent, least significant first (R143). -/
def byteBits (b : Byte) : List Bool := (List.range 8).map b.toNat.testBit

/-- The alternating preamble, starting with 0 (Table 07-1, R146). -/
def preambleBits (n : Nat) : List Bool := (List.range n).map fun k => decide (k % 2 = 1)

/-- The two start bytes (Table 07-1, R146). -/
def sofF : Byte := 0xC7
def sofS : Byte := 0x38

/-- The bits of a full frame and of a short one, in the order they are sent. -/
def frameBits (f : Frame) : List Bool := preambleBits 32 ++ byteBits sofF ++ (frameBytes f).flatMap byteBits
def shortBits (nak : Bool) (seq : BitVec 3) : List Bool := preambleBits 4 ++ byteBits sofS ++ byteBits (shortBody nak seq)

/-- Biphase mark coding: the two half-bit levels of each bit, from the level before it (R139). -/
def bmc : Bool → List Bool → List Bool
  | _, [] => []
  | l, b :: t => let e := if b then l else !l; (!l) :: e :: bmc e t

/-- The EOF's hold in µs (Table 07-1), and the four holds of the shed tone, 4 µs each (R164). -/
def eofUs : Nat := 6
def toneHolds : List Bool := [true, false, true, false]

/-- What an item takes on the line, µs: 214 + 16 × LEN for a full frame, 46 for a short one, 16 for the tone (R142, R146,
R164). -/
def itemUs : TxItem → Nat
  | .full f => 214 + 16 * f.payload.length
  | .short _ _ => 46
  | .tone => 16
  | .cut _ => 0

/-- LEN of a known MTYPE in Table 08-1; a broadcast REJECT has 8. -/
def minLen (mt : BitVec 6) (bc : Bool) : Option Nat :=
  match mt.toNat with
  | 0x01 => some 10 | 0x02 => some 16 | 0x03 => some 8 | 0x04 => some 12 | 0x05 => some 8
  | 0x08 => some 6 | 0x09 => some 6 | 0x0A => some 6 | 0x0B => some (if bc then 8 else 2)
  | 0x0C => some 4 | 0x0D => some 4 | 0x10 => some 4 | 0x11 => some 2 | 0x14 => some 6
  | 0x15 => some 16 | 0x16 => some 8 | 0x18 => some 8 | 0x19 => some 2 | 0x1A => some 12
  | 0x1B => some 12 | 0x1E => some 2 | 0x1F => some 2 | _ => none

/-- A receiver discards a frame whose LEN exceeds 24, and one with BC 1 and a reserved INDEX (R144, R147). -/
def discarded (f : Frame) : Bool :=
  decide (24 < f.payload.length) || (decide (f.flags &&& flBc ≠ 0) && decide (f.index ≠ 0x3FF ∧ f.index ≠ 0x3FE))

/-- Fields outside their range (R170, Tables 08-2, 08-4): retry_after and cause of a WAIT, reason and detail of a REJECT, reason of
a WITHDRAW, duration of a CAL_PULSE. -/
def waitBad (retry cause : Nat) : Bool := decide (retry = 0 ∨ 9 < cause)
def rejectBad (reason detail : Nat) : Bool :=
  decide (reason = 0 ∨ 9 < reason)
    || decide ((if reason = 8 then 7 else if reason = 1 then 1 else 0) < detail)
def withdrawBad (reason : Nat) : Bool := decide (reason = 0 ∨ 8 < reason)
def pulseBad (dur : Nat) : Bool := decide (dur < 20 ∨ 100 < dur)

/-- A payload byte, 0 beyond the end. -/
def payByte (l : List Byte) (i : Nat) : Nat := (l.getD i 0).toNat

/-- A two-byte payload field, low byte first (R169). -/
def payHalf (l : List Byte) (i : Nat) : Nat := payByte l i + 256 * payByte l (i + 1)

/-- An EUI-48 field, first octet first (R169). -/
def payEui (l : List Byte) (i : Nat) : Eui := BitVec.ofNat 48 (beNat ((l.drop i).take 6))

/-! ## Payloads of Table 08-2 -/

/-- Two bytes, low first. -/
def le2 (n : Nat) : List Byte := leBytes n 2

/-- EUI-48, first octet first. -/
def euiBytes (e : Eui) : List Byte := beBytes e.toNat 6

def payBeacon (m : BeaconMsg) : List Byte :=
  euiBytes m.eui ++ [BitVec.ofNat 8 (pack [(0, m.cur.toNat), (2, m.tgt.toNat), (4, b2n m.busy), (5, b2n m.shed)]),
    m.advseq, m.count, m.bper]

def payAdvert (m : AdvertMsg) : List Byte :=
  [m.advseq, BitVec.ofNat 8 (pack [(0, m.lmax.toNat), (2, b2n m.ps2), (3, b2n m.fixed), (4, b2n m.spec), (5, b2n m.ring)])]
  ++ le2 m.budget.toNat ++ le2 m.headroom.toNat ++ le2 m.largest.toNat ++ le2 m.floorMw.toNat
  ++ [m.bper, m.enr] ++ le2 m.version.toNat ++ [0, 0]

def payPoll (m : PollMsg) : List Byte :=
  [BitVec.ofNat 8 m.kind.toNat,
   BitVec.ofNat 8 (pack [(0, m.level.toNat), (2, m.cls.toNat), (4, b2n m.held), (5, b2n m.rdy)])]
  ++ le2 m.power.toNat ++ le2 m.ceil.toNat ++ [m.grant, m.advseq]

def payAssign (m : AssignMsg) : List Byte :=
  euiBytes m.eui ++ [BitVec.ofNat 8 (pack [(0, m.cls.toNat), (2, m.tenant.toNat)]),
    BitVec.ofNat 8 (pack [(0, b2n m.known), (1, b2n m.stored)])]

def payRequest (m : RequestMsg) : List Byte := le2 m.power.toNat ++ le2 m.floor.toNat ++ [BitVec.ofNat 8 m.mask.toNat, 0]

def payAccept (m : AcceptMsg) : List Byte :=
  le2 m.power.toNat ++ [BitVec.ofNat 8 m.level.toNat, m.grant] ++ le2 m.ceil.toNat

def payWait (m : WaitMsg) : List Byte := le2 m.retryMs.toNat ++ le2 m.position.toNat ++ [m.cause, 0]

def payReject (m : RejectMsg) : List Byte := [m.reason, m.detail]

def payRejectBc (m : RejectMsg) : List Byte := [m.reason, m.detail] ++ euiBytes m.eui

def payWithdraw (m : WithdrawMsg) : List Byte := [m.reason, BitVec.ofNat 8 m.classes.toNat, m.grant, 0]

def payReady (m : ReadyMsg) : List Byte :=
  le2 m.power.toNat
  ++ [BitVec.ofNat 8 (pack [(0, m.level.toNat), (2, m.cls.toNat), (7, b2n m.restore)]), m.grant]

def payNotice (src dst : Level) (b1 : Nat) : List Byte :=
  [BitVec.ofNat 8 (pack [(0, src.toNat), (2, dst.toNat)]), BitVec.ofNat 8 b1, 0, 0]

def payDone (l : Level) (aborted : Bool) : List Byte := [BitVec.ofNat 8 (pack [(0, l.toNat), (2, b2n aborted)]), 0]

def payCal (m : CalPulseMsg) : List Byte :=
  le2 m.drawer.toNat ++ [m.calId, m.dur] ++ le2 m.stepMa.toNat ++ [0, 0]

def paySwapReq (eui : Eui) (takes : Bool) : List Byte := euiBytes eui ++ [BitVec.ofNat 8 (b2n takes), 0]

def payHello (m : HelloMsg) : List Byte :=
  euiBytes m.eui ++ [BitVec.ofNat 8 (pack [(0, m.cur.toNat), (2, m.lmax.toNat), (4, b2n m.orient), (5, b2n m.sup)]), 0]
  ++ le2 m.entries.toNat ++ le2 m.version.toNat

def payPeerReport (m : PeerReportMsg) : List Byte :=
  le2 m.vseg.toNat ++ le2 m.iseg.toNat
  ++ [m.trim, BitVec.ofNat 8 (pack [(0, m.cur.toNat), (2, b2n m.busy), (3, b2n m.shed)])]
  ++ le2 m.budget.toNat ++ le2 m.admitSum.toNat ++ le2 m.irail.toNat

def payHint (m : HintMsg) : List Byte := le2 m.power.toNat ++ le2 m.startMs.toNat ++ le2 m.durS.toNat

def payReport (m : ReportMsg) : List Byte :=
  le2 m.volt.toNat ++ le2 m.cur.toNat ++ le2 m.temp.toNat ++ leBytes m.count.toNat 4
  ++ le2 m.calBefore.toNat ++ le2 m.calDuring.toNat
  ++ [m.calId, BitVec.ofNat 8 (pack [(0, b2n m.calv), (1, b2n m.hot), (2, b2n m.lowv)])]

def payEnroll (m : EnrollMsg) : List Byte :=
  euiBytes m.eui
  ++ [BitVec.ofNat 8 (pack [(0, m.cls.toNat), (2, m.tenant.toNat)]),
      BitVec.ofNat 8 (pack [(0, b2n m.cfgd), (1, b2n m.calable), (2, b2n m.temp)])]
  ++ le2 m.vmin.toNat ++ [BitVec.ofNat 8 m.mask.toNat, m.major]

/-! ## Who the port is on its line -/

/-- The feeder that supplies the rail, and on a ring is line master (R156, R220); while a swap runs the giver still is
(Table 10-2 step 4a). RAIL.SUP reads 1 in a master whose switch is ON. -/
def Port.master (q : Port) : Bool :=
  match q.rail.swap with
  | .running _ taker => !taker
  | _ => decide (q.rail.sw = .on)

/-- The port acts as the head of its line: FEED, attached, not fallen silent, and on a ring the master (R156, R157); a
feeder that attached as a peer head is one once it has lost the master it had joined (R235). -/
def Port.isHead (q : Port) : Bool :=
  decide (q.role = .feed) && !q.line.silent
    && (if q.ring.peer then q.master && decide (q.att.state = .attached ∨ q.att.state = .peerHead)
        else decide (q.att.state = .attached) || (decide (q.att.state = .peerHead) && decide (q.ring.join = .none)))

/-- The port is the follower of a ring (R156). -/
def Port.follower (q : Port) : Bool := decide (q.role = .feed) && q.ring.peer && !q.master

/-! ## Sending -/

/-- Gives an item to the wire; a reload of the sequencer holds it back (R167). -/
def emit (x : TxItem) (q : Port) : Port :=
  if q.line.reloadAt.isSome then { q with line := { q.line with later := q.line.later ++ [x] } }
  else { q with line := { q.line with tx := x :: q.line.tx, fresh := q.line.fresh ++ [x] } }

/-- The shed tone, which no reload delays (R164, R167). -/
def emitTone (q : Port) : Port :=
  { q with line := { q.line with tx := .tone :: q.line.tx, fresh := q.line.fresh ++ [.tone] } }

/-- What waited goes to the wire (R166, R167). -/
def flushLater (q : Port) : Port :=
  { q with line := { q.line with tx := q.line.later.reverse ++ q.line.tx, fresh := q.line.fresh ++ q.line.later, later := [] } }

/-- The line has been idle for a time (R141, R153). -/
def idleFor (n now : Nat) (q : Port) : Bool := q.line.fresh.isEmpty && decide (q.line.freeAt + n ≤ now)

/-- A frame or a tone is on the line (R153, R164). -/
def lineBusy (now : Nat) (q : Port) : Bool := decide (now < q.line.freeAt)

/-- A frame of another party has just ended (R141). -/
def hears (now : Nat) (q : Port) : Port := { q with line := { q.line with freeAt := Nat.max q.line.freeAt now } }

/-- A frame of the port that is on the line at a time. -/
def onLine (now : Nat) (q : Port) : Option Frame :=
  q.line.flight.findSome? fun x => match x.2.2 with
    | .full f => if x.1 ≤ now ∧ now < x.2.1 then some f else none
    | _ => none

/-- The first item of a list that is a given full frame becomes a cut one. -/
def cutItem (f : Frame) : List TxItem → List TxItem
  | [] => []
  | x :: t => if x = .full f then .cut f :: t else x :: cutItem f t

/-- What becomes of the sender of a frame that a tone ends: the head sends it again without counting a retry (R166); a DRAW
port's reply waits for the next POLL (R152), and its ENROLL is no lost attempt (R163). -/
def senderCut (f : Frame) (q : Port) : Port :=
  if q.role = .draw then { q with drw := if f.mtype = 0x04 then { q.drw with tried := none } else q.drw }
  else match q.line.out with
    | o :: t =>
      if o.sent = true ∧ o.frame = f then { q with line := { q.line with out := { o with sent := false } :: t } }
      else { q with line := { q.line with later := q.line.later ++ [.full f] } }
    | [] => { q with line := { q.line with later := q.line.later ++ [.full f] } }

/-- A tone ends the frame that the port is sending, without CRC or EOF; what waited its turn on the line waits on (R164,
R165). -/
def toneCuts (now : Nat) (q : Port) : Port :=
  match onLine now q with
  | some f =>
    senderCut f { q with line := { q.line with
      tx := cutItem f q.line.tx, flight := q.line.flight.filter (fun x => decide (x.2.2 ≠ .full f)) } }
  | none => q

/-- How long the head stays silent behind an item: behind a CAL_PULSE until 20 µs after the end of its step, which starts 210 µs
after the EOF at the latest (R193). -/
def silenceUs : TxItem → Nat
  | .full f => if f.mtype = 0x16 ∧ f.flags &&& flDir = 0 then 230 + payByte f.payload 3 else 0
  | _ => 0

/-- The idle line that an item waits for: 8 µs for an answer, 24 µs for a frame of a ring's master to its peer, else 12 µs (R148,
R153, R156). -/
def idleBefore : TxItem → Nat
  | .short _ _ => 8
  | .full f => if f.index = 0x3FE ∧ f.flags &&& flBc ≠ 0 ∧ f.flags &&& flPeer = 0 then 24 else 12
  | _ => 12

/-- An item takes its place on the line, behind what is there. -/
def queueItem (now : Nat) (x : TxItem) (l : Line) : Line :=
  let start := Nat.max now (l.freeAt + idleBefore x)
  let stop := start + itemUs x
  { l with flight := l.flight ++ [(start, stop, x)], freeAt := stop + silenceUs x }

/-- The same for any item; the tone comes at the next boundary of the 2 µs bit grid, whatever is on the line (R164). -/
def placeItem (now : Nat) (q : Port) (x : TxItem) : Port :=
  match x with
  | .tone =>
    let t := now + now % 2
    let q1 := toneCuts t q
    let wait := (q1.line.flight.filter fun y => decide (t < y.1)).map (·.2.2)
    let l := { q1.line with flight := [(t, t + 16, .tone)], freeAt := t + 16 }
    { q1 with line := wait.foldl (fun l y => queueItem t y l) l }
  | x => { q with line := queueItem now x q.line }

/-- A swap that is running or about to run silences both feeders but for the beacon (R241). -/
def swapSilences (s : Swap) : Bool :=
  match s with
  | .running _ _ => true
  | .accepted _ => true
  | _ => false

/-- A microsecond of the line: what was given to the wire takes its place, and what waited is sent once the line is idle. -/
def tickWire (now : Nat) (q : Port) : Port :=
  let q1 :=
    if q.line.later ≠ [] ∧ q.line.reloadAt = none ∧ swapSilences q.rail.swap = false ∧ idleFor 12 now q = true then flushLater q
    else q
  let fresh := q1.line.fresh
  fresh.foldl (placeItem now)
    { q1 with line := { q1.line with fresh := [], flight := q1.line.flight.filter fun x => decide (now < x.2.1) } }

/-- A group frame: it takes the port's broadcast SEQ (R149). -/
def sendGroup (index : Idx) (mt : BitVec 6) (flags : Byte) (payload : List Byte) (q : Port) : Port :=
  emit (.full ⟨mt, index, q.line.bseq, flags ||| flBc, payload⟩) { q with line := { q.line with bseq := q.line.bseq + 1 } }

/-- A group frame that has to wait: it has its SEQ, and goes once the port may originate again (R241). -/
def holdGroup (index : Idx) (mt : BitVec 6) (flags : Byte) (payload : List Byte) (q : Port) : Port :=
  { q with line := { q.line with
    bseq := q.line.bseq + 1, later := q.line.later ++ [.full ⟨mt, index, q.line.bseq, flags ||| flBc, payload⟩] } }

/-- A broadcast of the head (R144), which waits for the end of a swap (R241). -/
def broadcast (mt : BitVec 6) (flags : Byte) (payload : List Byte) (q : Port) : Port :=
  if q.isHead then
    (if swapSilences q.rail.swap then holdGroup 0x3FF mt flags payload q else sendGroup 0x3FF mt flags payload q)
  else q

/-- A broadcast sent as the head loses the segment, while it is still the head. -/
def broadcastWithdraw (reason : Byte) (classes : BitVec 4) (q : Port) : Port :=
  broadcast 0x0C 0 (payWithdraw ⟨reason, classes, 0⟩) q

/-- An ENROLL slot is freed when its ASSIGN is sent (R194). -/
def freeEnrolSlot (o : OutFrame) (q : Port) : Port :=
  match o.kind, o.slot with
  | .assign _, some k => { q with slots := spErase q.slots k.toNat, sig := true }
  | _, _ => q

/-- A frame between the two feeders of a ring (R156). -/
def OutKind.peer : OutKind → Bool
  | .peerHello => true
  | .peerReport => true
  | .swapReq => true
  | .swapAck _ => true
  | _ => false

/-- A follow-up frame of the sequence that a REQUEST began (R153). -/
def OutKind.follows : OutKind → Bool
  | .accept => true
  | .wait => true
  | .reject => true
  | _ => false

/-- The longest that an exchange without retransmissions takes, µs (R148, R151, R158): the frame, and its answer. -/
def exchangeUs (o : OutFrame) : Nat :=
  itemUs (.full o.frame) + (match o.kind with | .poll _ => 200 + 598 | _ => 0) + 40 + 46

/-- A sequence of a length that starts now is over in time for the next beacon, on a ring 1.0 ms before it (R158). -/
def endsInTime (len now : Nat) (q : Port) : Bool :=
  decide (q.line.due = 0)
    || decide (Nat.max now (q.line.freeAt + 12) + len + (if q.ring.peer then 1000 else 0) ≤ q.line.due)

/-- An ASSIGN that has to go before the second beacon behind its window, of which the first has been sent (R162). -/
def OutKind.pressed (k : OutKind) (q : Port) : Bool :=
  match k with
  | .assign _ => decide (1 ≤ q.line.sinceWindow)
  | _ => false

/-- The peer gap before the beacon that falls due next: its 1.0 ms (R156). -/
def inGap (q : Port) (now : Nat) : Bool := decide (q.line.due ≠ 0) && decide (q.line.due ≤ now + 1000) && decide (now ≤ q.line.due)

/-- The gap has carried its exchange (R228). -/
def useGap (q : Port) : Port := { q with ring := { q.ring with gapDue := q.line.due } }

/-- A retransmission is not overdue: one that falls due after the next beacon's time, on a ring 1.0 ms before it, waits until the
beacon has been sent (R158). -/
def beforeBeacon (now : Nat) (q : Port) : Bool :=
  decide (q.line.due = 0) || decide (now + (if q.ring.peer then 1000 else 0) ≤ q.line.due)

/-- A frame to the other feeder may start: in a peer gap (R156); a PEER_HELLO goes again in a later gap only (R226). -/
def mayStartPeer (o : OutFrame) (now : Nat) (q : Port) : Bool :=
  inGap q now && !(o.whole && decide (o.kind = .peerHello) && decide (q.ring.gapDue = q.line.due))

/-- A frame of the head to an endpoint may start: the port is the head, no swap silences it, and the sequence is over in time for
the beacon; follow-ups belong to a sequence under way (R153, R157, R158, R241). -/
def mayStartHead (o : OutFrame) (now : Nat) (q : Port) : Bool :=
  q.isHead && !swapSilences q.rail.swap
    && (o.kind.follows || o.kind.pressed q || (if o.whole then beforeBeacon now q else endsInTime (exchangeUs o) now q))

/-- The port may start to send a frame of its queue, outside enrol windows and reloads. -/
def mayStart (o : OutFrame) (now : Nat) (q : Port) : Bool :=
  q.line.window.isNone && q.line.reloadAt.isNone && (if o.kind.peer then mayStartPeer o now q else mayStartHead o now q)

/-- The exchange at the front of the port's queue begins or goes on: a transmission of its frame (R153, R184). -/
def launchOn (now : Nat) (q : Port) : Port :=
  match q.line.out with
  | [] => q
  | o :: t =>
    if o.sent || !mayStart o now q then q
    else
      let q1 := if o.kind.peer then useGap q else q
      emit (.full o.frame) (freeEnrolSlot o { q1 with line := { q1.line with
        out := { o with sent := true, firstMs := if o.whole then o.firstMs else now / 1000
                        slot := match o.kind with | .assign _ => none | _ => o.slot } :: t } })

/-- The same on a port of the device. -/
def launch (p : PortId) (d : Dev) : Dev := d.modPort p (launchOn d.us)

/-- The rank of a frame in the queue: the exchange under way or begun, then the frames of the peer gap, the follow-ups of a
sequence (R153), the ASSIGNs that have a beacon to keep (R162), and the rest. -/
def OutFrame.rank (o : OutFrame) : Nat :=
  if o.sent || o.whole then 0
  else if o.kind.peer then 1
  else if o.kind.follows then 2
  else match o.kind with
    | .assign _ => 3
    | _ => 4

/-- A frame joins the queue behind those of its rank. -/
def joinQueue (o : OutFrame) (l : List OutFrame) : List OutFrame := insertBy (fun a b => decide (a.rank < b.rank)) o l

/-- An exchange joins the port's queue, and begins at once if none is under way and the line allows it. -/
def enqueue (p : PortId) (o : OutFrame) (d : Dev) : Dev :=
  launch p (d.modPort p fun q => { q with line := { q.line with out := joinQueue o q.line.out } })

/-- The exchange at the front is over; the next begins once the line allows it, at the next microsecond at the earliest. -/
def dropFront (p : PortId) (d : Dev) : Dev :=
  d.modPort p fun q => { q with line := { q.line with out := q.line.out.tail } }

/-- An addressed frame of the head to a roster index, with the SEQ of that index (R149). -/
def sendTo (p : PortId) (i : Idx) (kind : OutKind) (mt : BitVec 6) (flags : Byte) (payload : List Byte)
    (slot : Option (BitVec 7)) (d : Dev) : Dev :=
  let r := rosterOf (d.port p) i.toNat
  let d1 := d.modPort p (setRoster i.toNat { r with seqTx := r.seqTx + 1 })
  enqueue p { kind := kind, idx := i, slot := slot, frame := ⟨mt, i, r.seqTx, flags, payload⟩ } d1

/-- A frame to the other feeder of a ring: the master's with its broadcast SEQ, which the follower mirrors, the follower's with FLAGS.PEER
and a SEQ of its own (R149, R156, R168, R227). -/
def sendPeer (p : PortId) (kind : OutKind) (mt : BitVec 6) (payload : List Byte) (d : Dev) : Dev :=
  let q := d.port p
  if q.master then
    enqueue p { kind := kind, idx := 0x3FE, frame := ⟨mt, 0x3FE, q.line.bseq, flBc, payload⟩ }
      (d.modPort p fun q => { q with line := { q.line with bseq := q.line.bseq + 1 } })
  else
    enqueue p { kind := kind, idx := 0x3FE, frame := ⟨mt, 0x3FE, q.ring.pseq, flBc ||| flPeer, payload⟩ }
      (d.modPort p fun q => { q with ring := { q.ring with pseq := q.ring.pseq + 1 } })

/-- ACK or NAK to a frame (R146, R148). -/
def answerShort (nak : Bool) (seq : BitVec 3) (q : Port) : Port := emit (.short nak seq) q

/-- A frame received from an endpoint repeats the last one accepted (R149). -/
def duplicateFrom (q : Port) (i : Idx) (h : FrameTag) : Bool :=
  h.retry && decide ((rosterOf q i.toNat).seqRx = some h.seq)

/-- Notes the SEQ of a frame accepted from an endpoint (R149). -/
def noteSeq (i : Idx) (h : FrameTag) (q : Port) : Port :=
  setRoster i.toNat { rosterOf q i.toNat with seqRx := some h.seq } q

end Sys2Proof.Machine
end

