-- ==== Sys2Proof/Machine/Contracts.lean ====
section
/-! DEFINITION. What the engine does to slots, grants and contracts: taking and freeing slots (R194), answering a REQUEST
(R181 to R188), confirming and serving (R274 to R276), withdrawing (R189, R280, R281), abort runs (R360, R363, R364), the
opening of a path (R213), and entering SAFE (R32, R365). -/

namespace Sys2Proof.Machine

open Sys2Proof

/-! ## Orders -/

/-- R10 for 16-bit numbers: b is later than a. -/
def later16 (a b : Half) : Bool := decide (b - a ≠ 0 ∧ (b - a).toNat < 0x8000)

/-! ## Slots -/

/-- The lowest free slot of a port, of 128. -/
def freeSlotFrom : Sparse Slot → Nat → Option Nat
  | [], k => if k < 128 then some k else none
  | (a, _) :: t, k => if a = k then freeSlotFrom t (k + 1) else if k < 128 then some k else none

/-- The lowest free slot. -/
def freeSlot (q : Port) : Option Nat := freeSlotFrom q.slots 0

/-- Writes a slot; the engine signals the core (R429). -/
def putSlot (k : Nat) (s : Slot) (q : Port) : Port := { q with slots := spPut q.slots k s, sig := true }

/-- Frees a slot. -/
def dropSlot (k : Nat) (q : Port) : Port := { q with slots := spErase q.slots k, sig := true }

/-- Takes a slot in issue order (R194). -/
def takeSlot (k : Nat) (s : Slot) (q : Port) : Port :=
  { putSlot k { s with issue := q.issue } q with issue := q.issue + 1 }

/-- The slot a frame serves is finished once the frame is delivered or has failed; until then it takes no decision (R194). A slot
whose WAIT or REJECT is on the way stays BUSY; R194 gives no state to one whose WITHDRAW is: it reads ABORTING, which keeps its
states in order (the model's choice, assumption 121). -/
def closeSlot (k : Nat) (q : Port) : Port :=
  match spFind q.slots k with
  | some s => putSlot k { s with state := if s.state = 1 then 1 else 5, posted := false } q
  | none => q

/-- The slots of a port in issue order (R360). -/
def slotsByIssue (q : Port) : List (Nat × Slot) := sortBy (fun a b => later16 a.2.issue b.2.issue) q.slots

/-! ## The records of a contract -/

/-- The pending request of an endpoint ends, without an event (R279). -/
def dropPending (i : Idx) (q : Port) : Port := { q with pend := q.pend.filter fun r => r.idx != i }

/-- The forecast reservation of an endpoint ends (R302). -/
def dropHint (i : Idx) (q : Port) : Port := { q with hints := q.hints.filter fun h => h.idx != i }

/-- The endpoint's contract is gone from the tables; its admissions stay counted. -/
def clearContract (i : Idx) (q : Port) : Port :=
  let r := rosterOf q i.toNat
  let q1 := setContract i.toNat { admissions := (contractOf q i.toNat).admissions } q
  let q2 := if r.state = 4 then setRoster i.toNat { r with state := 2 } q1 else q1
  dropHint i (dropPending i q2)

/-- A contract or grant ends with WITHDRAWN (R189, Table 05-5). -/
def endContract (code : Nat) (p : PortId) (i : Idx) (d : Dev) : Dev :=
  postEndpoint 0x25 code p i false (d.modPort p fun q => rateFor i 50 d.us (clearContract i q))

/-- The grant counter advances and skips 0 (R195). -/
def nextGrant (c : Byte) : Byte := if c + 1 = 0 then 1 else c + 1

/-- A page of the roster area (Table 18-1). -/
def rosterPage (p : PortId) (i : Idx) : Nat := 512 + (p.toNat * 1024 + i.toNat) / 8

/-- A stored contract or calibration value of a roster page has changed (R400). -/
def dirtyPage (p : PortId) (i : Idx) (d : Dev) : Dev :=
  let pg := rosterPage p i
  if d.keep.pageDirty.contains pg then d
  else { d with keep := { d.keep with pageDirty := d.keep.pageDirty ++ [pg] } }

/-! ## Withdrawing -/

/-- Sends an addressed WITHDRAW, whose delivery frees the slot it ends (R189, R194). -/
def sendWithdraw (reason : Nat) (p : PortId) (i : Idx) (slot : Option Nat) (reserve : Nat) (d : Dev) : Dev :=
  let g := match slot with
    | some k => (match spFind (d.port p).slots k with | some s => s.grant | none => 0)
    | none => (contractOf (d.port p) i.toNat).grant
  if (d.port p).isHead then
    let d1 := match slot with | some k => d.modPort p (closeSlot k) | none => d
    sendTo p i (.withdraw (sat16 reserve)) 0x0C 0 (payWithdraw ⟨BitVec.ofNat 8 reason, 0, g⟩)
      (slot.map fun k => BitVec.ofNat 7 k) d1
  else match slot with | some k => d.modPort p (dropSlot k) | none => d

/-- A speculative grant is withdrawn: WITHDRAW and one WITHDRAWN, which ends any contract of the endpoint (R183, R364). -/
def withdrawGrant (reason : Nat) (p : PortId) (k : Nat) (d : Dev) : Dev :=
  match spFind (d.port p).slots k with
  | some s =>
    match s.idx with
    | some i => endContract reason p i (sendWithdraw reason p i (some k) s.req.power.toNat d)
    | none => d
  | none => d

/-- The slot with the grant or the contract of an endpoint that a WITHDRAW ends; a REQUEST that is still undecided keeps its slot
and gets its own answer (R181, R189). -/
def requestSlot (q : Port) (i : Idx) : Option Nat :=
  (q.slots.find? fun (_, s) => s.idx == some i && s.mtype == 0x08 && (s.state == 2 || s.state == 3 || s.state == 4)).map (·.1)

/-- A confirmed contract is withdrawn (R281); the slot that still serves it goes with it. -/
def withdrawContract (reason : Nat) (p : PortId) (i : Idx) (d : Dev) : Dev :=
  endContract reason p i
    (sendWithdraw reason p i (requestSlot (d.port p) i) (heldPower (d.port p) i.toNat) d)

/-! ## Admission and shed order -/

/-- The key of admission order (R270): class, tenant priority, arrival, index, port. -/
def admissionKey (d : Dev) (p : PortId) (i : Idx) (arrival : Nat) : List Nat :=
  let r := rosterOf (d.port p) i.toNat
  [r.cls.toNat, (tenantOf d r.tenant.toNat).prio.toNat, arrival, i.toNat, p.toNat]

/-- A contract's age in timebase µs (R10). -/
def ageOf (d : Dev) (c : ContractRec) : Nat := (d.timebase - c.admitAt).toNat

/-- The key of shed order (R281): lowest class, lowest tenant priority, latest admission, highest index, port 1. -/
def shedKey (d : Dev) (p : PortId) (i : Nat) (c : ContractRec) : List Nat :=
  let r := rosterOf (d.port p) i
  [3 - r.cls.toNat, 255 - (tenantOf d r.tenant.toNat).prio.toNat, ageOf d c, 1023 - i, 1 - p.toNat]

/-- The contracts of a port with their shed keys. -/
def shedSide (d : Dev) (p : PortId) : List (List Nat × PortId × Idx) :=
  (contracts (d.port p)).map fun (i, c) => (shedKey d p i c, p, BitVec.ofNat 10 i)

/-- The contracts of both ports in shed order. -/
def shedOrder (d : Dev) : List (PortId × Idx) :=
  let side := shedSide d
  (sortBy (fun a b => lexLt a.1 b.1) (side .p0 ++ side .p1)).map fun x => x.2

/-- The speculative grants of a port in reverse admission order (R280). -/
def grantsReversed (d : Dev) (p : PortId) : List Nat :=
  let l := (specSlots (d.port p)).filterMap fun (k, s) => s.idx.map fun i => (admissionKey d p i s.arrival, k)
  ((sortBy (fun a b => lexLt a.1 b.1) l).map (·.2)).reverse

/-- The reason a shed carries: 8 where the cascade limit has fallen below what is counted against it (R255, R281). -/
def shedReason (d : Dev) (p : PortId) : Nat :=
  match cascadeLimit (d.port p) (d.port p.other) with
  | some l => if l.value < admitSum (d.port p) + sumSpec (d.port p) then 8 else 3
  | none => 3

/-- While SH is below 0, grants go in reverse admission order (R280): with reason 3, where the cascade limit has fallen with
reason 8 (R255). -/
def trimGrants (p : PortId) (d : Dev) : Dev :=
  let rsn := shedReason d p
  foldDev (fun k d => if headroom d p < 0 then withdrawGrant rsn p k d else d) (grantsReversed d p) d

/-- The port-wide limit lies below ADMIT. -/
def overBudget (d : Dev) (p : PortId) : Bool :=
  (d.port p).isHead && decide (shedBudget d p < admitSum (d.port p))

/-- Sheds one port to its port-wide limit: every grant it counts, then contracts (R281). -/
def shedPort (p : PortId) (d : Dev) : Dev :=
  if overBudget d p then
    let rsn := shedReason d p
    let d1 := foldDev (fun k d => withdrawGrant rsn p k d) (grantsReversed d p) d
    foldDev (fun x d => if x.1 = p ∧ overBudget d p = true then withdrawContract rsn p x.2 d else d) (shedOrder d1) d1
  else d

/-- A class cap lies below its total. -/
def overClass (d : Dev) (p : PortId) (c : Cls) : Bool :=
  classCap (d.port p) c != 0xFFFF && decide ((classCap (d.port p) c).toNat < classTotal (d.port p) c)

/-- Sheds one class of a port to its cap. -/
def shedClass (p : PortId) (c : Cls) (d : Dev) : Dev :=
  if overClass d p c then
    let mine := fun (d : Dev) (i : Idx) => (rosterOf (d.port p) i.toNat).cls == c
    let d1 := foldDev (fun k d => match spFind (d.port p).slots k with
      | some s => (match s.idx with | some i => if mine d i then withdrawGrant 3 p k d else d | none => d)
      | none => d) (grantsReversed d p) d
    foldDev (fun x d => if x.1 = p ∧ overClass d p c = true ∧ mine d x.2 = true then withdrawContract 3 p x.2 d else d)
      (shedOrder d1) d1
  else d

/-- A tenant cap lies below its total. -/
def overTenant (d : Dev) (t : Tenant) : Bool :=
  (tenantOf d t.toNat).cap != 0xFFFF && decide ((tenantOf d t.toNat).cap.toNat < tenantBoth d t)

/-- Sheds one tenant to its device-wide cap. -/
def shedTenant (t : Tenant) (d : Dev) : Dev :=
  if overTenant d t then
    let mine := fun (d : Dev) (p : PortId) (i : Idx) => (rosterOf (d.port p) i.toNat).tenant == t
    let grants := fun (p : PortId) (d : Dev) => foldDev (fun k d => match spFind (d.port p).slots k with
      | some s => (match s.idx with | some i => if mine d p i then withdrawGrant 3 p k d else d | none => d)
      | none => d) (grantsReversed d p) d
    let d1 := grants .p1 (grants .p0 d)
    foldDev (fun x d => if overTenant d t && mine d x.1 x.2 then withdrawContract 3 x.1 x.2 d else d) (shedOrder d1) d1
  else d

/-- The tenants that a table lists with a cap. -/
def cappedTenants (d : Dev) : List Tenant :=
  (d.tb.tenants.filter fun (_, r) => r.cap != 0xFFFF).map fun (t, _) => BitVec.ofNat 6 t

/-- What the engine and a running allocator withdraw where a limit lies below what is counted against it (R280, R281).
Contracts wait for the allocator while it is stopped (chapter 16, Edges). -/
def relieve (d : Dev) : Dev :=
  let d1 := trimGrants .p1 (trimGrants .p0 (d.bothPorts noteThrot))
  if d1.tb.alloc then
    let d2 := shedPort .p1 (shedPort .p0 d1)
    let d3 := foldDev (fun c d => shedClass .p1 c (shedClass .p0 c d)) [3, 2, 1, 0] d2
    foldDev shedTenant (cappedTenants d3) d3
  else d1

/-! ## Levels a request may have (R207) -/

/-- At or below LEVEL.TGT while the host holds it, and at or below the gang level in GANG-LEVEL (R207, R333). -/
def levelCapped (d : Dev) (p : PortId) (l : Level) : Bool :=
  let q := d.port p
  (q.lev.hold && decide (q.lev.tgt < l))
    || (gangMember d && decide (d.gang.modeIn = 1) && decide (d.gang.level < l))

/-- The highest level the port may be directed to: PCTL.LMAX, on a ring the lower of both (R94, R230). -/
def levelTop (q : Port) : Level :=
  if q.ring.peer ∧ q.ring.peerLmax < q.ctl.lmax then q.ring.peerLmax else q.ctl.lmax

/-- A target bounded by the highest level allowed. -/
def clampTop (q : Port) (l : Level) : Level := if levelTop q < l then levelTop q else l

/-- The level that the segment has: LEVEL.CUR, which reads L0 on a ring feeder whose own path is open while the peer's path holds
the ring level (R213). -/
def segmentLevel (q : Port) : Level := if q.ringFeeder && decide (q.gate = .opened) then q.lev.ringCur else q.lev.cur

/-- The first, second, third (without the held target) and fourth condition of R207; no level passes the top of a ring (R230). -/
def levelOpen (d : Dev) (p : PortId) (mask : BitVec 4) (l : Level) : Bool :=
  let q := d.port p
  mask.getLsbD l.toNat && decide (q.lev.cur ≤ l) && decide (l ≤ levelTop q)
    && (contracts q).all fun (_, c) => c.mask.getLsbD l.toNat

/-- ILIM × nominal of the last condition of R207; on a ring the sum of R232. -/
def levelCapacity (q : Port) (l : Level) : Nat :=
  if q.ring.peer then
    match q.ring.report with
    | some r => power01 (q.grd.ilim.toNat + r.budget.toNat * 100000 / nominalMv r.cur) (nominalMv l)
    | none => power01 q.grd.ilim.toNat (nominalMv l)
  else power01 q.grd.ilim.toNat (nominalMv l)

/-- The last condition of R207; a slot that asks about its own grant does not count it twice. -/
def levelFits (q : Port) (l : Level) (delta ownSpec : Nat) : Bool :=
  decide (admitSum q + (sumSpec q - ownSpec) + delta ≤ levelCapacity q l)

/-- The four levels in order. -/
def allLevels : List Level := [0, 1, 2, 3]

/-- The levels that meet the first four conditions of R207 (the third without HOLD and gang level). -/
def openLevels (d : Dev) (p : PortId) (mask : BitVec 4) : List Level := allLevels.filter (levelOpen d p mask)

/-- The level of R207: the lowest that meets every condition. -/
def grantLevel (d : Dev) (p : PortId) (mask : BitVec 4) (delta ownSpec : Nat) : Option Level :=
  (openLevels d p mask).find? fun l => !levelCapped d p l && levelFits (d.port p) l delta ownSpec

/-! ## Answers to a REQUEST -/

/-- The answer WAIT of R187, R238, R268 and R371: not queued, no event; it frees the slot once delivered. -/
def sendWaitPlain (p : PortId) (i : Idx) (k : Option Nat) (retry : Nat) (d : Dev) : Dev :=
  let d1 := match k with | some k => d.modPort p (closeSlot k) | none => d
  sendTo p i .wait 0x0A 0 (payWait ⟨h16 retry, 0, 0⟩) (k.map fun k => BitVec.ofNat 7 k) d1

/-- REJECT with REJECTED; a ceiling refusal starts THROT.CEILING (R188, R292). -/
def sendReject (p : PortId) (i : Idx) (k : Option Nat) (reason : Nat) (d : Dev) : Dev :=
  let d1 := match k with | some k => d.modPort p (closeSlot k) | none => d
  let d2 := d1.modPort p fun q => dropPending i (if reason = 5 then { q with ceilAt := some d.us } else q)
  postEndpoint 0x27 reason p i false
    (sendTo p i .reject 0x0B 0 (payReject ⟨BitVec.ofNat 8 reason, 0, 0⟩) (k.map fun k => BitVec.ofNat 7 k) d2)

/-- The rank of a request among the port's pending requests, from 1 (R278). -/
def rankOf (d : Dev) (p : PortId) (i : Idx) (arrival : Nat) : Nat :=
  let key := admissionKey d p i arrival
  1 + ((d.port p).pend.filter fun r => r.idx != i && lexLt (admissionKey d p r.idx r.arrival) key).length

/-- WAIT with WAITED: the request is pending at its rank (R186, R278). -/
def sendWait (p : PortId) (i : Idx) (k : Option Nat) (req : RequestMsg) (arrival code bit : Nat)
    (d : Dev) : Dev :=
  let pos := rankOf d p i arrival
  let retry := Nat.min 30000 (500 + 250 * (pos - 1))
  let d1 := match k with | some k => d.modPort p (closeSlot k) | none => d
  let pr : PendingReq :=
    { idx := i, req := req, arrival := arrival, cause := BitVec.ofNat 4 code, bit := bit, qpos := h16 pos
      retryMs := h16 retry, retryAt := d.us + retry * 1000 }
  let d2 := d1.modPort p fun q => { dropPending i q with pend := (dropPending i q).pend ++ [pr] }
  let d3 := sendTo p i .wait 0x0A 0 (payWait ⟨h16 retry, h16 pos, BitVec.ofNat 8 code⟩) (k.map fun k => BitVec.ofNat 7 k) d2
  postEndpoint 0x26 (Nat.min pos 15) p i false d3

/-- The ceiling an ACCEPT or POLL carries: 0 while uncalibrated (R285). -/
def sentCeil (r : RosterRec) : Half := if r.calok then r.ceil else 0

/-- Sends ACCEPT: the grant counter advances (R195), and the slot notes the grant. -/
def sendAccept (p : PortId) (i : Idx) (k : Nat) (s : Slot) (l : Level) (spec : Bool) (d : Dev) : Dev :=
  let r := rosterOf (d.port p) i.toNat
  let g := nextGrant r.grantCtr
  let d1 := d.modPort p fun q =>
    putSlot k { s with level := l, grant := g, accepted := true } (setRoster i.toNat { r with grantCtr := g } q)
  sendTo p i .accept 0x09 (if spec then flSpec else 0) (payAccept ⟨s.req.power, l, g, sentCeil r, spec⟩) none d1

/-! ## Confirming (R274 to R276) -/

/-- The allocator may raise the level: not for 10 s after an aborted step up, nor then while shed is asserted (R215). -/
def raiseAllowed (now : Nat) (q : Port) : Bool :=
  decide (q.lev.raiseFrom ≤ now) && (decide (q.lev.raiseFrom = 0) || !q.drp.shed)

/-- Raises LEVEL.TGT to a contract's level, subject to HOLD, to the ring's top and to the wait after an aborted step up (R94, R208,
R215, R230). -/
def raiseTgt (l : Level) (now : Nat) (q : Port) : Port :=
  if q.lev.tgt < clampTop q l ∧ q.lev.hold = false ∧ raiseAllowed now q = true then
    { q with lev := { q.lev with tgt := clampTop q l } }
  else q

/-- The level one step from another toward a target (R208). -/
def stepToward (cur tgt : Level) : Level := if cur < tgt then cur + 1 else cur - 1

/-- A step may run: the path is closed, or it is that of a ring feeder, whose peer's path holds the level (R213). -/
def stepsPath (q : Port) : Bool := decide (q.gate = .closed) || (q.ringFeeder && decide (q.gate = .opened))

/-- A transition begins: LEVEL.BUSY, with the step's notice due (R208, R211). Only the head of a line decides on a step
(R212); in the first second only once the level decision is taken (R77). -/
def beginStep (now : Nat) (q : Port) : Port :=
  let l := segmentLevel q
  if q.lev.step = none ∧ q.lev.tgt ≠ l ∧ stepsPath q = true ∧ q.isHead = true
      ∧ (q.line.first = none ∨ q.line.decided = true) then
    { q with lev := { q.lev with step := some ⟨l, stepToward l q.lev.tgt, .due now, 0⟩ } }
  else q

/-- Writes the CONTRACT record of a confirmed request: ADMITTED, its power, level and time (R275). -/
def writeContract (i : Idx) (req : RequestMsg) (l : Level) (grant : Byte) (now : Word) (q : Port) : Port :=
  let r := rosterOf q i.toNat
  let c : ContractRec :=
    { state := 1, level := l, power := req.power, cur := sat16 (currentOf req.power.toNat l), admitAt := now
      admissions := (contractOf q i.toNat).admissions + 1, mask := req.mask, floor := req.floor, grant := grant }
  dropPending i (setRoster i.toNat { r with state := 4, lowV := 0 } (setContract i.toNat c q))

/-- A confirmation that the engine accepts, at a level: CONTRACT, ADMITTED, ACCEPT where none was sent, the level it needs
(R275, R276, R279). -/
def confirmSlot (p : PortId) (k : Nat) (s : Slot) (i : Idx) (l : Level) (d : Dev) : Dev :=
  let d1 := d.modPort p (writeContract i s.req l s.grant d.timebase)
  let d2 := postEndpoint 0x23 (b2n (decide (s.state = 2))) p i false d1
  let here := decide (l ≤ segmentLevel (d.port p))
  let s1 := { s with state := if here then 3 else 4, reached := here, level := l, posted := false }
  let d3 := d2.modPort p (putSlot k s1)
  let d4 := if s.accepted then d3 else sendAccept p i k s1 l false d3
  let g := match spFind (d4.port p).slots k with | some s => s.grant | none => s.grant
  (d4.modPort p fun q => setContract i.toNat { contractOf q i.toNat with grant := g } q).modPort p fun q => beginStep d.us (raiseTgt l d.us q)

/-! ## Abort runs (R360, R363, R364) -/

/-- What a run does with one slot: SLOT_ABORTED, and for a grant its WITHDRAWN. -/
def abortSlot (sa w : Nat) (p : PortId) (x : Nat × Slot) (d : Dev) : Dev :=
  let d1 := d.modPort p (dropSlot x.1)
  match x.2.idx with
  | none => post { typ := 0x28, port := portBit p, code := sa, word1 := 0xFFFF } d1
  | some i =>
    let d2 := postEndpoint 0x28 sa p i false d1
    if x.2.state = 2 then endContract w p i d2 else d2

/-- Every slot of a port is aborted, in issue order (R360). -/
def abortSlots (sa w : Nat) (p : PortId) (d : Dev) : Dev := foldDev (abortSlot sa w p) (slotsByIssue (d.port p)) d

/-- The step that runs ends as the path opens: LEVEL_ABORT with CODE 0 (R213). -/
def levelEnds (p : PortId) (d : Dev) : Dev :=
  if (d.port p).lev.step.isSome then
    postPort 0x16 0 p 0 false (d.modPort p fun q => setPevt eLevel { q with lev := { q.lev with step := none, cur := 0, tgt := 0 } })
  else d

/-- Every contract of the tables is gone, without events. -/
def clearAll (q : Port) : Port := (contracts q).foldl (fun q x => clearContract (BitVec.ofNat 10 x.1) q) q

/-- WITHDRAWN for each contract, by rising index (R363); the mirrored contracts of a ring follower go without events
(R227). -/
def endAll (w : Nat) (p : PortId) (d : Dev) : Dev :=
  if (d.port p).follower then d.modPort p clearAll
  else foldDev (fun x d => endContract w p (BitVec.ofNat 10 x.1) d) (contracts (d.port p)) d

/-- The exchanges, reservations, pending requests and the window of a port that loses its segment (R279, R302). -/
def dropTraffic (q : Port) : Port :=
  { q with
    pend := [], hints := []
    line := { q.line with out := [], enrolls := [], window := none, cal := none, calSlot := none, first := none,
                          pass := none, decided := false, restored := [], polled := 0 }
    lev := { q.lev with idleSince := none } }

/-! ## Codes and the path -/

/-- The starting code of a level: its trimmed code, else (nominal - vmin) / slope rounded up (R205, R206). -/
def startCode (q : Port) (l : Level) : Nat :=
  match spFind q.lev.trimmed l.toNat with
  | some c => c
  | none =>
    match q.cfg.xfer with
    | some (vmin, slope) =>
      if slope = 0 then 0
      else ((nominalMv l - vmin.toNat) * 1000 + (slope.toNat - 1)) / slope.toNat
    | none => 0

/-- The upper-limit code of a level, rounded down (R205). -/
def upperCode (q : Port) (l : Level) : Nat :=
  match q.cfg.xfer with
  | some (vmin, slope) => if slope = 0 then 0 else Nat.min 1023 ((upperMv l - vmin.toNat) * 1000 / slope.toNat)
  | none => 1023

/-- The highest level involved: LEVEL.CUR, or the higher end of a step; on a DRAW port that of the segment above (R205, R246,
assumption 128). -/
def topLevel (q : Port) : Level :=
  if q.role = .draw then q.drw.segTop else match q.lev.step with
  | some s => if s.src < s.dst then s.dst else s.src
  | none => q.lev.cur

/-- The droop responder lets go: no hold, no step, no shed; a limit set for the hold ends with it (R253, assumption 18). -/
def droopEnds (q : Port) : Port :=
  { q with drp := { q.drp with act := false, hold := false, shed := false, removeAt := none, applied := 0
                               limit := if q.drp.hold then q.drp.limitPrev else q.drp.limit
                               limitPrev := none } }

/-- The path of a port opens (R213, R242): LEVEL.CUR reads L0, TGT becomes L0 but for a ring feeder, whose ring keeps its level, and
the first second and the breaker's count are over. The feed of a ring feeder stays at the ring level, at which its path closes again
(R256). -/
def openPath (q : Port) : Port :=
  let keep := q.ring.peer
  let ringCur := match q.lev.step with | some s => s.src | none => segmentLevel q
  droopEnds { q with
    gate := .opened
    grd := { q.grd with acc := 0, full := false }
    ring := { q.ring with block := false }
    line := { q.line with first := none, pass := none }
    lev := { q.lev with
      cur := 0, tgt := if keep then q.lev.tgt else 0, ringCur := if keep then ringCur else 0, tgtNext := none, driveAt := none
      step := if keep then q.lev.step else none, code := startCode q (if keep then ringCur else 0) } }

/-- The role in force changes: PEVT.ROLE and ROLE (Table 05-5). -/
def setRole (p : PortId) (r : Role) (d : Dev) : Dev :=
  if (d.port p).role = r then d
  else postPort 0x12 r.code p 0 false (d.modPort p fun q => setPevt eRole { q with role := r })

/-- The tap-rail switch goes OFF, clearing RAIL.OC and the retries (R221, R222); RAIL CODE 1 where it supplied, and where it was
retrying after an over-current. -/
def railOff (p : PortId) (d : Dev) : Dev :=
  let q := d.port p
  let d1 := d.modPort p fun q =>
    { q with rail := { q.rail with sw := .off, oc := false, retryAt := none, swapReq := false, swap := .none } }
  if q.rail.sw = .on then postPort 0x19 1 p 0 false (d1.modPort p (setPevt eRail))
  else if q.rail.retryAt.isSome then postPort 0x19 1 p 0 false d1
  else d1

/-- The tap-rail switch goes ON (R222, R235); RAIL CODE 0 where it did not supply. With RAIL.EN 0 it stays OFF. -/
def railOn (p : PortId) (d : Dev) : Dev :=
  let q := d.port p
  if q.rail.en then
    let d1 := d.modPort p fun q => { q with rail := { q.rail with sw := .on, oc := false, retryAt := none } }
    if q.rail.sw = .on then d1 else postPort 0x19 0 p 0 false (d1.modPort p (setPevt eRail))
  else d

/-- Attachment, ring and line of a port that leaves its segment: nothing is attached, no peer, and a DRAW port forgets
its head. -/
def unattach (q : Port) : Port :=
  let q1 := dropTraffic q
  { q1 with
    att := { q1.att with state := .idle, typ := 0, att := false, debounce := none, faultSince := none, pause := none
                         resumeAt := none, fruitless := 0, closeAt := none }
    ring := { q1.ring with peer := false, loc := false, mism := false, block := false, trim := 0, report := none, blocks := []
                           heldOpen := false, join := .none, joinAt := none, synced := false, helloDue := false
                           missed := 0, handOff := none }
    line := { q1.line with silent := false, resv := [], due := 0, src := .off, factor := 1000000 }
    lev := { q1.lev with tgt := 0, ringCur := 0, tgtNext := none, step := none }
    grd := { q1.grd with reclose := false }
    drw := {} }

/-- A FEED port's run: slots, the step, the contracts (Table 16-1); the engine signals the core (R429). -/
def abortRun (sa w : Nat) (p : PortId) (d : Dev) : Dev :=
  (endAll w p (levelEnds p (abortSlots sa w p d))).modPort p fun q => { dropTraffic q with sig := true }

/-! ## SAFE (R32, R96, R312, R365) -/

/-- A path that is closed or closing when a critical trip or emergency off comes records its cause, unless a latch holds
(R96, R252, R312). -/
def safeCause (cause : BitVec 4) (q : Port) : Port :=
  if q.gate = .opened ∨ q.grd.latch = true then q else { q with grd := { q.grd with cause := cause, latch := true } }

/-- What SAFE does to one port after its event: its run, its path, its role (R32, R365). -/
def safePort (p : PortId) (d : Dev) : Dev :=
  (abortRun 4 7 p d).modPort p fun q => openPath q

/-- The pieces of a delta held (FWU word 1). -/
def piecesHeld (d : Dev) : Half := h16 d.fwu.held.length

/-- An FWU event, with GSTAT.FWU (R456, R458 to R468). -/
def postFwu (code : Nat) (d : Dev) : Dev := postGlobal 0x38 code (piecesHeld d) true (setG gFwu d)

/-- A refusal of an update (R456): REFUSE, the flag, the event. -/
def fwuRefused (r : BitVec 3) (d : Dev) : Dev :=
  postFwu 3 { d with fwu := { d.fwu with refuse := r, apply := none } }

/-- SAFE ends a build, or the wait for a handover start, with REFUSE 2 (Table 21-7); the bank of an abandoned build is empty (R462). -/
def safeEndsWait (d : Dev) : Dev :=
  let ends := fun (d : Dev) => { d with mbx := { d.mbx with outcome := some (0x10, []), waits := false } }
  if d.fwu.apply.isSome then ends (fwuRefused 2 d)
  else match d.fwu.handReq with
    | none => d
    | some (_, c) =>
      let d1 := fwuRefused 2 { d with fwu := { d.fwu with handReq := none } }
      if c then ends d1 else d1

/-- Entry to SAFE with cause 5 or 6 (R32, R96, R99, R312, R365): the paths open, the SAFE event, port 0's run and port
1's; then the roles in force read OFF and the rails go off. PARK ends without a report (R99). -/
def enterSafe (cause : Nat) (d : Dev) : Dev :=
  if d.gl.safe || d.pw.phase != .running then d
  else
    let d1 := (d.modPort .p0 (safeCause (BitVec.ofNat 4 cause))).modPort .p1 (safeCause (BitVec.ofNat 4 cause))
    let d2 := setG gSafe { d1 with gl := { d1.gl with safe := true, park := none, parkWaits := false }
                                   fwu := { d1.fwu with handSafe := d1.fwu.hand.isSome } }
    let d3 := postGlobal 0x03 cause 0 true d2
    let d4 := d3.bothPorts safePort
    let d5 := d4.bothPorts fun p d => setRole p .off d
    let d6 := d5.bothPorts railOff
    safeEndsWait ((d6.modPort .p0 unattach).modPort .p1 unattach)

end Sys2Proof.Machine
end

