-- ==== Sys2Proof/Machine/Guard.lean ====
section
/-! DEFINITION. The power-path guard (chapter 11): trips, latches, restart, the thresholds' registers, the blocking of a
ring feeder (R233, R234), and the closing of a path (R242). -/

namespace Sys2Proof.Machine

open Sys2Proof

/-- A host write reaches a register other than ID, REV, MODE and the mailbox (R28, R64). -/
def hostOk (d : Dev) : Bool := busLive d && d.up

/-- The number of a port register in the host register map: its byte address halved (Table 04-6, "Port blocks"). -/
def portReg (p : PortId) (off : Nat) : Nat := 32 + 32 * p.toNat + off / 2

/-- Interrupt source 7: a host write to a register that HWMASK marks, bit n standing for word address n (R427). -/
def markHost (n : Nat) (d : Dev) : Dev :=
  if d.core.hwmask.getLsbD n then raise 7 d else d

/-- A host write to register n: it takes effect and may raise source 7 (R84, R427). -/
def byHost (n : Nat) (f : Dev → Dev) (d : Dev) : Dev := if hostOk d then markHost n (f d) else d

/-- The comparators run (R244). -/
def guardRuns (q : Port) : Bool := q.ctl.en && decide (q.role ≠ .off)

/-! ## Thresholds (R246 to R250) -/

/-- The current that corresponds to 45 mV, rounded down to 1 mA; none while the shunt value is unset (R43, R247). -/
def fastMax (q : Port) : Option Nat := if q.cfg.shunt = 0 then none else some (45000000 / q.cfg.shunt.toNat)

/-- IFAST and ILIM after a value from Keep or a change of the shunt value (R247). -/
def clampFast (q : Port) : Port :=
  let f := capBy q.grd.ifast.toNat (fastMax q)
  { q with grd := { q.grd with ifast := h16 f, ilim := if f < q.grd.ilim.toNat then h16 f else q.grd.ilim } }

/-- The breaker's reference: ILIM, under PS2 at most 100 W over the upper limit of the highest level (R248, R249). -/
def breakerRef (q : Port) : Nat :=
  if q.ctl.ps2 then Nat.min q.grd.ilim.toNat (100000000 / upperMv (topLevel q)) else q.grd.ilim.toNat

/-- The current of the fast threshold, in mA: IFAST, under PS2 at most twice the breaker's reference (R249). -/
def fastMa (q : Port) : Nat := if q.ctl.ps2 then Nat.min q.grd.ifast.toNat (2 * breakerRef q) else q.grd.ifast.toNat

/-- The fast threshold in force, in µV: that current times the shunt value, rounded to 0.25 mV, and at most 45 mV (Table 11-1,
R247, R249). -/
def fastUv (q : Port) : Nat := Nat.min 45000 ((fastMa q * q.cfg.shunt.toNat + 125000) / 250000 * 250)

/-- The reverse threshold, in µV (Table 11-1). -/
def reverseUv : Int := 1500

/-- The over-voltage threshold, in mV (Table 11-1). -/
def overMv (q : Port) : Nat := nominalMv (topLevel q) * 108 / 100

/-- Forward current: toward the segment on FEED, toward the feed bus on DRAW (R245). -/
def forwardMa (q : Port) (iseg : Int) : Int := if q.role = .draw then -iseg else iseg

/-- The forward drop across the shunt, in µV, of one that is positive toward the segment (R42, R245). -/
def forwardUv (q : Port) (sense : Int) : Int := if q.role = .draw then -sense else sense

/-- One microsecond of the breaker (R248). -/
def breakerAdd (q : Port) (iseg : Int) : Int :=
  let i := forwardMa q iseg
  let r : Int := breakerRef q
  let a := q.grd.acc + (if 0 ≤ i then i * i else 0) - r * r
  if a < 0 then 0 else a

/-- A value of the accumulator is above 0 and at or above ILIM² × 100 ms (R248). -/
def breakerFull (q : Port) (acc : Int) : Bool :=
  let r : Int := breakerRef q
  decide (0 < acc) && decide (r * r * 100000 ≤ acc)

/-- A sample of the breaker: A, and whether the port trips at it, by the reference of that sample (R248). -/
def breakerStep (q : Port) (iseg : Int) : Guard :=
  if q.gate = .opened ∨ guardRuns q = false then { q.grd with acc := 0, full := false }
  else
    let a := breakerAdd q iseg
    { q.grd with acc := a, full := q.grd.full || breakerFull q a }

/-! ## Trips (R252 to R255) -/

/-- The cool-down that R257 assigns to the n-th trip within 60 s, at its low bound, µs. -/
def coolDownFor (n : Nat) : Option Nat :=
  match n with
  | 1 => some 980000
  | 2 => some 1960000
  | 3 => some 3920000
  | _ => none

/-- The latch sets with a cause: GUARD, the trips of the last 60 s, and the cool-down (R252, R257). -/
def latchTrip (cause : BitVec 4) (now : Nat) (q : Port) : Port :=
  let ts := now :: q.grd.trips.filter fun t => decide (now < t + 60000000)
  { q with grd := { q.grd with
      cause := cause, latch := true, trips := ts, tripAt := now, reclose := false
      cool := if q.grd.auto then (coolDownFor ts.length).map (now + ·) else none } }

/-- What a latched trip does on a radial FEED port (R253). -/
def tripRadial (cause : Nat) (p : PortId) (d : Dev) : Dev :=
  let d1 := d.modPort p fun q =>
    broadcastWithdraw 4 0xF (notePTrip (latchTrip (BitVec.ofNat 4 cause) d.us { q with gate := .opened }))
  let d2 := postPort 0x14 cause p 0 true d1
  countUp (3 + p.toNat) ((abortRun 1 4 p d2).modPort p openPath)

/-- On a ring feeder with a peer: its own path opens; the master's slots abort and the ring budget falls (R254). -/
def tripRing (cause : Nat) (p : PortId) (d : Dev) : Dev :=
  let d1 := d.modPort p fun q => openPath (notePTrip (latchTrip (BitVec.ofNat 4 cause) d.us q))
  let d2 := postPort 0x14 cause p 0 true d1
  let d3 := if (d.port p).master then abortSlots 1 4 p d2 else d2
  relieve (countUp (3 + p.toNat) d3)

/-- On a DRAW port: the path opens, the port stays joined, and the cascade limit is 0 (R255). -/
def tripDraw (cause : Nat) (p : PortId) (d : Dev) : Dev :=
  let d1 := d.modPort p fun q => openPath (notePTrip (latchTrip (BitVec.ofNat 4 cause) d.us q))
  relieve (countUp (3 + p.toNat) (postPort 0x14 cause p 0 true d1))

/-- A guard trip of cause 1 to 4; a set latch changes nothing further (R252). -/
def trip (cause : Nat) (p : PortId) (d : Dev) : Dev :=
  let q := d.port p
  if guardRuns q && !q.grd.latch then
    match q.role with
    | .feed => if q.ring.peer then tripRing cause p d else tripRadial cause p d
    | .draw => tripDraw cause p d
    | .off => d
  else d

/-- OVER_VOLTAGE (R250): above the threshold for 20 µs, low bound 18; on a ring feeder only while VFEED is above it too. -/
def overTrips (q : Port) : Bool :=
  decide (18 ≤ q.met.overRun) && (!q.ring.peer || decide (overMv q < q.met.last.vfeed))

/-- The reverse comparator fires (R245, R246, assumption 127). -/
def reverseFires (q : Port) (c : Crossing) : Bool := decide (forwardUv q c.sense < -reverseUv)

/-- A cause of Table 11-3 fires: the comparators at the thresholds of Table 11-1, the reverse one as a trip only off a ring (R246
to R251, assumption 127); causes 5 and 6 have commands of their own. -/
def fires (q : Port) (c : Crossing) (cause : Nat) : Bool :=
  match cause with
  | 1 => decide ((fastUv q : Int) < forwardUv q c.sense)
  | 2 => q.grd.full
  | 3 => overTrips q
  | 4 => !q.ringFeeder && reverseFires q c
  | _ => true

/-- The order of Table 11-3. -/
def tripOrder : List Nat := [5, 6, 1, 4, 3, 2]

/-- Of a cause and those that fire in the same cycle, the one that comes first in Table 11-3 (R252). -/
def firstCause (q : Port) (c : Crossing) (own : Nat) : Nat :=
  (tripOrder.find? fun n => (decide (n = own) || c.also.getLsbD n) && fires q c n).getD own

/-- A comparator trips the port, with the first cause of its cycle; where that is 5 or 6, CRITICAL_TRIP or EMERGENCY_OFF sets the
latch (R252). -/
def tripFirst (own : Nat) (p : PortId) (c : Crossing) (d : Dev) : Dev :=
  let n := firstCause (d.port p) c own
  if fires (d.port p) c own = true ∧ n ≤ 4 then trip n p d else d

/-- FAST_OVER_CURRENT (R246, R247, R249, R253). -/
def execFastOverCurrent (p : PortId) (c : Crossing) (s : State) : Answer := onDev (tripFirst 1 p c) s

/-- SLOW_OVER_CURRENT (R248): a sample has found the accumulator at its limit. -/
def execSlowOverCurrent (p : PortId) (c : Crossing) (s : State) : Answer := onDev (tripFirst 2 p c) s

/-- OVER_VOLTAGE (R250). -/
def execOverVoltage (p : PortId) (c : Crossing) (s : State) : Answer := onDev (tripFirst 3 p c) s

/-- REVERSE_CURRENT (R251): on a radial FEED port and on a DRAW port. -/
def execReverseCurrent (p : PortId) (c : Crossing) (s : State) : Answer := onDev (tripFirst 4 p c) s

/-! ## Blocking on a ring (R233, R234) -/

/-- The path opens without a latch; the code stays, to be raised (R233). -/
def blockPort (now : Nat) (q : Port) : Port :=
  let o := openPath q
  { o with
    lev := { o.lev with code := q.lev.code }
    ring := { o.ring with block := true, blockAt := now
                          blocks := now :: q.ring.blocks.filter fun t => decide (now < t + 10000000) } }

/-- REVERSE_CURRENT_BLOCK (R233). -/
def execReverseCurrentBlock (p : PortId) (c : Crossing) (s : State) : Answer :=
  onDev (fun d =>
    let q := d.port p
    guardDev (guardRuns q && q.ringFeeder && reverseFires q c && decide (q.gate ≠ .opened)) (fun d => d.modPort p (blockPort d.us)) d) s


/-- VFEED - VSEG has lain in 0 to 2 % of nominal for 1 ms (R233). -/
def ringMatched (q : Port) : Bool := decide (1000 ≤ q.met.match2)

/-- RING_RECLOSE (R233). -/
def execRingReclose (p : PortId) (s : State) : Answer :=
  onDev (fun d =>
    let q := d.port p
    guardDev (q.ringFeeder && q.ring.block && !q.ring.heldOpen && ringMatched q)
      (fun d => d.modPort p fun q =>
        { q with gate := .closing d.us, ring := { q.ring with block := false }, grd := { q.grd with acc := 0, full := false }
                 lev := { q.lev with cur := q.lev.ringCur } }) d) s

/-- RING.MISM with its event (R226, R234). -/
def mismatch (p : PortId) (d : Dev) : Dev :=
  postPort 0x1A 2 p 0 false (d.modPort p fun q => setPevt eRing { q with ring := { q.ring with mism := true } })

/-- A feeder gives up reclosing (R234): path held open; a follower joins again after 10 s, a master's ring budget
becomes its peer's. -/
def stopReclosing (p : PortId) (d : Dev) : Dev :=
  let fol := (d.port p).follower
  let d1 := d.modPort p fun q =>
    let o := openPath q
    { o with ring := { o.ring with heldOpen := true, join := if fol then .failed (d.us + 9900000) else o.ring.join } }
  let d2 := mismatch p d1
  if fol then d2 else relieve d2

/-- RING_BLOCK_TIMEOUT (R234): not reclosed within 100 ms, or the third block within 10 s. -/
def execRingBlockTimeout (p : PortId) (s : State) : Answer :=
  onDev (fun d =>
    let q := d.port p
    guardDev (q.ringFeeder && q.ring.block &&
        (decide (q.ring.blockAt + 100000 ≤ d.us) || decide (3 ≤ q.ring.blocks.length)))
      (stopReclosing p) d) s

/-! ## Restart (R256 to R259) -/

/-- The latch of a guard trip is released; the path waits for R256 where there is a segment to return to. -/
def releaseLatch (q : Port) : Port :=
  { q with grd := { q.grd with latch := false, cool := none, reclose := q.att.att || q.drw.joined } }

/-- A latch of cause 1 to 4 is held. -/
def guardLatched (q : Port) : Bool := q.grd.latch && decide (1 ≤ q.grd.cause.toNat ∧ q.grd.cause.toNat ≤ 4)

/-- COOL_DOWN (R257). -/
def execCoolDown (p : PortId) (s : State) : Answer :=
  onDev (fun d =>
    guardDev (match (d.port p).grd.cool with | some t => decide (t ≤ d.us) | none => false)
      (fun d => d.modPort p releaseLatch) d) s

/-- GUARD_CLR (R258): releases a latch of cause 1 to 4 and resets the count of trips; no effect in SAFE. -/
def guardClear (p : PortId) (d : Dev) : Dev :=
  if guardLatched (d.port p) && !d.gl.safe then
    d.modPort p fun q => let r := releaseLatch q; { r with grd := { r.grd with trips := [] } }
  else d

/-- The latch of a port was set in the same microsecond, and the write says in the same cycle: the trip wins (R258). -/
def tripWins (tripped : Bool) (q : Port) (now : Nat) : Bool := tripped && q.grd.latch && decide (q.grd.tripAt = now)

/-- GUARD_CLR (R258). -/
def execGuardClr (p : PortId) (tripped : Bool) (s : State) : Answer :=
  onDev (fun d => byHost (portReg p 0x14) (fun d => if tripWins tripped (d.port p) d.us then d else guardClear p d) d) s

/-- A durable setting is to be stored (R70, R107). -/
def dueSettings (d : Dev) : Dev :=
  if d.keep.due.contains .settings then d else { d with keep := { d.keep with due := d.keep.due ++ [.settings] } }

/-- What a write of GUARD.AUTO does (R257). -/
def guardAuto (v : Bool) (p : PortId) (d : Dev) : Dev :=
  dueSettings <| d.modPort p fun q =>
    let q1 := { q with grd := { q.grd with auto := v } }
    if !v then { q1 with grd := { q1.grd with cool := none } }
    else if guardLatched q && q.grd.cool.isNone then
      match coolDownFor q.grd.trips.length with
      | none => q1
      | some t =>
        if q.grd.tripAt + t ≤ d.us then releaseLatch q1
        else { q1 with grd := { q1.grd with cool := some (q.grd.tripAt + t) } }
    else q1

/-- GUARD_AUTO_WRITE (R257). -/
def execGuardAutoWrite (p : PortId) (v : Bool) (s : State) : Answer :=
  onDev (fun d => byHost (portReg p 0x14) (guardAuto v p) d) s

/-- Every condition of R256 holds, 100 ms have passed since the trip (R258), and a feeder's transfer is known (R204). -/
def mayReclose (d : Dev) (p : PortId) : Bool :=
  let q := d.port p
  q.grd.reclose && !q.grd.latch && q.ctl.en && decide (q.role ≠ .off) && !d.gl.safe && decide (q.gate = .opened)
    && (decide (q.role = .draw) || (q.cfg.xfer.isSome && q.lev.calAt.isNone))
    && decide (q.grd.tripAt + 100000 ≤ d.us)
    && (if q.role = .draw then q.drw.joined && q.drw.ready else q.att.att)
    && (decide (q.grd.cause ≠ 3) || decide (10000 ≤ q.met.vfeedL0))
    && (decide (q.grd.cause ≠ 4) || q.ringFeeder || decide (q.role = .draw) || decide (q.met.last.vseg < q.met.last.vfeed))
    && (!q.ringFeeder || ringMatched q)

/-- The gate drive starts (R242): the breaker starts at 0, and the path closes from the L0 starting code, on a ring at
the ring level (R248, R256); a DRAW port is at the level of the segment above (assumption 128). -/
def startClosing (now : Nat) (q : Port) : Port :=
  let l := if q.role ≠ .feed then q.drw.segCur else if q.ring.peer then segmentLevel q else 0
  let lv : Levels := { q.lev with cur := l }
  { q with gate := .closing now
           grd := { q.grd with acc := 0, full := false }
           lev := if q.role = .feed ∧ q.ring.peer = false then { lv with code := startCode q 0, driveAt := some now } else lv }

/-- GUARD_RECLOSE (R256, R259). -/
def execGuardReclose (p : PortId) (s : State) : Answer :=
  onDev (fun d => guardDev (mayReclose d p) (fun d => d.modPort p (startClosing d.us)) d) s

/-- PATH_CLOSED (R242): what waited for the path to close again is over (R255, R256). -/
def execPathClosed (p : PortId) (s : State) : Answer :=
  onDev (fun d => d.modPort p fun q =>
    match q.gate with
    | .closing _ => if 1000 ≤ q.met.near then { q with gate := .closed, grd := { q.grd with reclose := false } } else q
    | _ => q) s

/-! ## The registers ILIM and IFAST (R247) -/

/-- A write of ILIM above IFAST is ignored (R247); a lower cap acts on the budget (R26, R280, R281). -/
def writeIlim (p : PortId) (v : Half) (d : Dev) : Dev :=
  if (d.port p).grd.ifast < v then d
  else dueSettings (relieve (d.modPort p fun q => { q with grd := { q.grd with ilim := v } }))

/-- ILIM_WRITE (R247). -/
def execIlimWrite (p : PortId) (v : Half) (s : State) : Answer :=
  onDev (fun d => byHost (portReg p 0x10) (writeIlim p v) d) s

/-- A write of IFAST is reduced to 45 mV, and ignored where the result lies below ILIM (R247). -/
def writeIfast (p : PortId) (v : Half) (d : Dev) : Dev :=
  dueSettings <| d.modPort p fun q =>
    let f := capBy v.toNat (fastMax q)
    if f < q.grd.ilim.toNat then q else { q with grd := { q.grd with ifast := h16 f } }

/-- IFAST_WRITE (R247). -/
def execIfastWrite (p : PortId) (v : Half) (s : State) : Answer :=
  onDev (fun d => byHost (portReg p 0x12) (writeIfast p v) d) s

/-! ## SAFE is left (R32, R97, Table 01-5) -/

/-- A port as it leaves SAFE: its latch clears and both its roles read OFF (R32, R252). -/
def leavePort (q : Port) : Port :=
  { q with ctl := { q.ctl with role := .off }, role := .off
           grd := { q.grd with latch := false, cool := none, reclose := false } }

/-- Leaves SAFE once the critical latch and EOFF are both released (Table 01-5): MODE goes to IDLE, and the PCTL.ROLE of
both ports that R32 writes with it is the change of port role after which Table 01-5 computes the mode. A device that is a
gang member then reads the gang's mode at once under R29, where Table 01-5 names IDLE; the spec leaves open which of the two
holds, and this is the model's choice (assumption 109). -/
def leaveSafe (d : Dev) : Dev :=
  if d.gl.safe && !d.gl.crit && !d.gl.eoff then
    { (d.modPort .p0 leavePort).modPort .p1 leavePort with gl := { d.gl with safe := false } }
  else d

/-- SAFE_EXIT (R32). -/
def execSafeExit (s : State) : Answer := onDev leaveSafe s

end Sys2Proof.Machine
end

