-- ==== Sys2Proof/Machine/Levels.lean ====
section
/-! DEFINITION. Segment levels and transitions (chapter 09) and the droop responder (R293 to R301). -/

namespace Sys2Proof.Machine

open Sys2Proof

/-! ## The end of a step -/

/-- A slot awaits a level that has not been reached (R208). -/
def Slot.awaits (s : Slot) : Bool := decide (s.state = 4) && !s.reached

/-- Contracts that were confirmed and await a level receive WITHDRAW with reason 3 (R214, chapter 09 Edges). -/
def dropAwaiting (p : PortId) (above : Level → Bool) (d : Dev) : Dev :=
  foldDev (fun x d =>
    match x.2.idx with
    | some i => if x.2.awaits = true ∧ above x.2.level = true then withdrawContract 3 p i d else d
    | none => d) (d.port p).slots d

/-- Slots that awaited a level have reached it (R208); a slot that awaited one reads STATE 4 until it is freed (R194). -/
def reachSlots (l : Level) (q : Port) : Port :=
  { q with
    slots := q.slots.map fun (k, s) => (k, if s.awaits = true ∧ s.level ≤ l then { s with reached := true } else s)
    sig := q.sig || q.slots.any fun (_, s) => s.awaits && decide (s.level ≤ l) }

/-- LEVEL.TGT after a step: a host write that waited, then the clamp to LMAX (R94, chapter 09 Edges). -/
def nextTgt (q : Port) : Level := clampTop q (q.lev.tgtNext.getD q.lev.tgt)

/-- A code with RING.TRIM added, on the follower of a ring (R206, R231). -/
def withTrim (q : Port) (code : Nat) : Nat :=
  if q.follower then Nat.min (((code : Int) + q.ring.trim).toNat) (upperCode q (topLevel q)) else code

/-- The code of a level: its starting code, on a follower with RING.TRIM (R205, R206). -/
def levelCode (q : Port) (l : Level) : Nat := withTrim q (startCode q l)

/-- The codes of the droop step still in place: one goes every 100 µs once its removal has begun (R296). -/
def droopLeft (now : Nat) (q : Port) : Nat :=
  match q.drp.removeAt with
  | some t => q.drp.applied - (now - t) / 100
  | none => q.drp.applied

/-- The code on VSETn: that of the level or the ramp with the droop step, never above the upper-limit code of the higher level
involved (R205, R214, R294). -/
def vsetCode (now : Nat) (q : Port) : Nat := Nat.min (q.lev.code + droopLeft now q) (upperCode q (topLevel q))

/-- A droop step in place is clamped again where the code or the level has moved (R205). -/
def clampDroop (q : Port) : Port :=
  { q with drp := { q.drp with applied := Nat.min q.drp.applied (upperCode q (topLevel q) - q.lev.code) } }

/-- RING.TRIM goes back to 0, and with it what it added to the code. -/
def dropTrim (q : Port) : Port :=
  { q with ring := { q.ring with trim := 0 }, lev := { q.lev with code := ((q.lev.code : Int) - q.ring.trim).toNat } }

/-- A step that runs is aborted (R214 step 4): the from-level's code, TGT, the broadcast, LEVEL_ABORT, and the contracts
that awaited the level; a step up is not tried again for 10 s (R215). -/
def abortStep (p : PortId) (d : Dev) : Dev :=
  match (d.port p).lev.step with
  | none => d
  | some st =>
    let d1 := d.modPort p fun q =>
      broadcast 0x11 0 (payDone st.src true) (setPevt eLevel (clampDroop { q with lev := { q.lev with
        step := none, tgt := st.src, tgtNext := none, code := levelCode q st.src
        raiseFrom := if st.src < st.dst then d.us + 9900000 else q.lev.raiseFrom } }))
    dropAwaiting p (fun l => decide (st.src < l)) (postPort 0x16 st.src.toNat p 0 false d1)

/-- Time from which a step counts as started, for its bound (R211). -/
def stepStart (s : LevelStep) : Option Nat :=
  match s.stage with
  | .due _ => none
  | .noticed t _ => some t
  | .ramp t _ => some t
  | .settling t _ => some t

/-- Contracts that do not fit a lower level: those whose mask excludes it, then the lowest class first until the rest fit
ILIM × its nominal (R95, R209). -/
def shedForLevel (p : PortId) (l : Level) (d : Dev) : Dev :=
  let d1 := foldDev (fun x d =>
    if x.1 = p ∧ (contractOf (d.port p) x.2.toNat).mask.getLsbD l.toNat = false then withdrawContract 3 p x.2 d else d)
    (shedOrder d) d
  foldDev (fun x d =>
    if x.1 = p ∧ levelCapacity (d.port p) l < admitSum (d.port p) then withdrawContract 3 p x.2 d else d) (shedOrder d1) d1

/-! ## The steps of Table 09-2 -/

/-- The head may begin a broadcast at this moment: no exchange, window, reload or swap is under way, and the line has been idle for
12 µs (R153, R167, R241). -/
def mayBroadcast (now : Nat) (q : Port) : Bool :=
  q.isHead && q.line.window.isNone && q.line.reloadAt.isNone && !swapSilences q.rail.swap && idleFor 12 now q
    && q.line.out.all fun o => !o.sent

/-- LEVEL_NOTICE (R211): 1 ms after BUSY at the earliest, at a moment that R153 allows, b1 in 5 to 10 ms. -/
def execLevelNotice (p : PortId) (b1 : Nat) (s : State) : Answer :=
  onDev (fun d => d.modPort p fun q =>
    match q.lev.step with
    | some st =>
      match st.stage with
      | .due t =>
        if t + 1000 ≤ d.us ∧ 5 ≤ b1 ∧ b1 ≤ 10 ∧ mayBroadcast d.us q = true then
          broadcast 0x10 0 (payNotice st.src st.dst b1)
            { q with lev := { q.lev with step := some { st with stage := .noticed d.us b1 } } }
        else q
      | _ => q
    | none => q) s

/-- LEVEL_RAMP_START (R211): b1 ms after the notice's EOF, 278 µs after its start; a droop hold freezes it (R214). -/
def execLevelRampStart (p : PortId) (s : State) : Answer :=
  onDev (fun d => d.modPort p fun q =>
    match q.lev.step with
    | some st =>
      match st.stage with
      | .noticed t b1 =>
        if t + 278 + b1 * 1000 ≤ d.us ∧ q.drp.hold = false then
          { q with lev := { q.lev with step := some { st with stage := .ramp t (d.us - st.frozen) }
                                       code := levelCode q st.src } }
        else q
      | _ => q
    | none => q) s

/-- The code of a ramp: linear from one starting code to the other over 30 ms, in updates of 100 µs (R211). -/
def rampCode (q : Port) (st : LevelStep) (start now : Nat) : Nat :=
  let n := Nat.min 300 ((now - start - st.frozen) / 100)
  let a : Int := levelCode q st.src
  let b : Int := levelCode q st.dst
  (a + (b - a) * n / 300).toNat

/-- LEVEL_RAMP_END (R211): 28 ms after the start at the earliest, time frozen under R214 not counted. -/
def execLevelRampEnd (p : PortId) (s : State) : Answer :=
  onDev (fun d => d.modPort p fun q =>
    match q.lev.step with
    | some st =>
      match st.stage with
      | .ramp t start =>
        if start + st.frozen + 28000 ≤ d.us ∧ q.drp.hold = false then
          { q with lev := { q.lev with step := some { st with stage := .settling t d.us }, code := levelCode q st.dst } }
        else q
      | _ => q
    | none => q) s

/-- The settle test of R212. -/
def settled (q : Port) (st : LevelStep) (rampEnd now : Nat) : Bool :=
  decide (rampEnd + 2000 ≤ now) &&
    (if st.src < st.dst then decide (2000 ≤ q.met.vsegIn)
     else decide (2000 ≤ q.met.vfeedIn) && decide (q.met.last.vseg ≤ settleHigh st.dst))

/-- Where the next step goes down for PCTL.LMAX, the contracts that do not fit the new level are withdrawn first; while the allocator
is stopped, that waits for its resumption (R95, R209). -/
def shedDown (p : PortId) (top : Level) (d : Dev) : Dev :=
  if top < segmentLevel (d.port p) then
    if d.tb.alloc then shedForLevel p top d
    else d.modPort p fun q => { q with lev := { q.lev with shedDue := true } }
  else d

/-- A step has settled: CUR, the flag, LFAULT cleared (R219), the broadcast; then the next step or the end (R208, R211).
A ring feeder whose own path is open keeps CUR at L0 (R213), which the event shows (Table 05-5). -/
def settleStep (p : PortId) (st : LevelStep) (d : Dev) : Dev :=
  let d1 := d.modPort p fun q =>
    let q1 := setPevt eLevel (clampDroop { q with lev := { q.lev with
      cur := if q.gate = .opened then 0 else st.dst, ringCur := st.dst, step := none, tgt := nextTgt q, tgtNext := none
      lfault := false } })
    broadcast 0x11 0 (payDone st.dst false) (reachSlots st.dst q1)
  let d2 := postPort 0x15 (d1.port p).lev.cur.toNat p 0 false d1
  let top := (d2.port p).lev.tgt
  (shedDown p top (dropAwaiting p (fun l => decide (top < l)) d2)).modPort p (beginStep (d.us - 1000))

/-- LEVEL_SETTLED (R212). -/
def execLevelSettled (p : PortId) (s : State) : Answer :=
  onDev (fun d =>
    match (d.port p).lev.step with
    | some st =>
      match st.stage with
      | .settling _ e => guardDev (settled (d.port p) st e d.us) (settleStep p st) d
      | _ => d
    | none => d) s

/-- The master of the ring has settled the step that a follower has not (R234). -/
def masterSettled (q : Port) (st : LevelStep) : Bool :=
  q.follower && (match q.ring.report with | some r => r.cur == st.dst && !r.busy | none => false)

/-- The bound of a step, µs: 60 ms and the time frozen, at most 70 ms (R211). -/
def stepBound (st : LevelStep) : Nat := Nat.min (60000 + st.frozen) 70000

/-- LEVEL_STEP_TIMEOUT (R216): not settled within its bound. -/
def execLevelStepTimeout (p : PortId) (s : State) : Answer :=
  onDev (fun d =>
    match (d.port p).lev.step with
    | some st =>
      match stepStart st with
      | some t =>
        guardDev (decide (t + stepBound st ≤ d.us)) (fun d =>
          let stop := masterSettled (d.port p) st
          let d1 := relieve ((abortStep p d).modPort p fun q => { q with lev := { q.lev with lfault := true } })
          if stop then stopReclosing p d1 else d1) d
      | none => d
    | none => d) s

/-! ## Trim and faults -/

/-- LEVEL_TRIM (R206): one code toward the nominal where the mean of VFEED lies more than 0.5 % off it; on the follower
of a ring without its RING.TRIM (R231). -/
def trimCode (q : Port) (mean : Int) : Int :=
  let nom : Int := nominalMv q.lev.cur
  if nom * 5 < (mean - nom) * 1000 then -1 else if nom * 5 < (nom - mean) * 1000 then 1 else 0

/-- The mean that the trim compares (R231). -/
def trimMean (q : Port) (mean : Nat) : Int :=
  (mean : Int) - (if q.follower then q.ring.trim * ((match q.cfg.xfer with | some (_, s) => s.toNat | none => 0) : Int) / 1000 else 0)

/-- A trim at the end of a millisecond: the code, and the level's starting code, which RING.TRIM is not part of (R206). -/
def trimOnce (ms mean : Nat) (q : Port) : Port :=
  let c := Nat.min ((q.lev.code : Int) + trimCode q (trimMean q mean)).toNat (upperCode q q.lev.cur)
  let own := if q.follower then ((c : Int) - q.ring.trim).toNat else c
  let lv := { q.lev with trimMs := ms }
  { q with lev := if c = q.lev.code then lv else { lv with code := c, trimmed := spPut q.lev.trimmed q.lev.cur.toNat own } }

/-- LEVEL_TRIM (R206): once for each millisecond while a level is settled. -/
def execLevelTrim (p : PortId) (meanFeed : Nat) (s : State) : Answer :=
  onDev (fun d => d.modPort p fun q =>
    if q.role = .feed ∧ q.gate = .closed ∧ q.lev.step = none ∧ q.drp.hold = false ∧ q.drp.act = false
        ∧ q.lev.trimMs < d.us / 1000 then
      trimOnce (d.us / 1000) meanFeed q
    else q) s

/-- PSTAT.LFAULT sets, and its limit acts (R210). -/
def setFault (p : PortId) (d : Dev) : Dev :=
  relieve (d.modPort p fun q => { q with lev := { q.lev with lfault := true } })

/-- FEED_OUT_OF_BAND (R217): 100 ms out of band, low bound 95, with the path closed and neither step nor hold. -/
def execFeedOutOfBand (p : PortId) (s : State) : Answer :=
  onDev (fun d =>
    let q := d.port p
    guardDev (decide (q.role = .feed) && decide (q.gate = .closed) && q.lev.step.isNone && !q.drp.hold
        && decide (95000 ≤ q.met.vfeedOut)) (setFault p) d) s

/-- L0_NOT_REACHED (R218): 60 ms after the gate drive started. -/
def execL0NotReached (p : PortId) (s : State) : Answer :=
  onDev (fun d =>
    guardDev (match (d.port p).lev.driveAt with | some t => decide (t + 60000 ≤ d.us) | none => false)
      (setFault p) d) s

/-- LFAULT_CLEAR (R219): VFEED in the band of LEVEL.CUR for 1 s. -/
def execLfaultClear (p : PortId) (s : State) : Answer :=
  onDev (fun d => d.modPort p fun q =>
    if q.lev.lfault = true ∧ q.lev.step = none ∧ 1000000 ≤ q.met.vfeedIn then
      { q with lev := { q.lev with lfault := false } } else q) s

/-- IDLE_LEVEL_DROP (R209, R334): ADMIT 0 and no slot for 10 s, low bound 9.9; in GANG-LEVEL only under ALLIDLE. -/
def execIdleLevelDrop (p : PortId) (s : State) : Answer :=
  onDev (fun d =>
    let q := d.port p
    guardDev (d.tb.alloc && q.isHead && !q.lev.hold
        && (match q.lev.idleSince with | some t => decide (t + 9900000 ≤ d.us) | none => false)
        && (!(gangMember d && decide (d.gang.modeIn = 1)) || d.gang.allIdle))
      (fun d => d.modPort p fun q => beginStep d.us { q with lev := { q.lev with tgt := 0 } }) d) s

/-- The transfer is out of range (R204): vmin above 11.4 V, the value at 1023 above 55 V, or 46.2 V above code 1023. -/
def xferBad (v0 v1023 : Nat) : Bool := decide (11400 < v0 ∨ 55000 < v1023 ∨ v1023 < 46200)

/-- VSET_CALIBRATION (R204): after 20 ms at each code. -/
def execVsetCalibration (p : PortId) (v0 v1023 : Nat) (s : State) : Answer :=
  onDev (fun d =>
    guardDev (decide ((d.port p).role = .feed) && (match (d.port p).lev.calAt with | some t => decide (t + 40000 ≤ d.us) | none => false))
      (fun d =>
        if xferBad v0 v1023 then
          postPort 0x16 0 p 0 false
            (d.modPort p fun q => { q with lev := { q.lev with calAt := none, lfault := true } })
        else dueSettings (d.modPort p fun q =>
          let q1 := { q with cfg := { q.cfg with xfer := some (h16 v0, h16 ((v1023 - v0) * 1000 / 1023)) } }
          { q1 with lev := { q1.lev with calAt := none, code := startCode q1 0 } })) d) s

/-! ## Host and core writes of the level -/

/-- A write of LEVEL (R94, R230): HOLD, and with HOLD 1 the target, which waits for a running step; a follower ignores
both. -/
def writeLevel (p : PortId) (hold : Bool) (tgt : Level) (d : Dev) : Dev :=
  if (d.port p).follower then d
  else relieve (d.modPort p fun q =>
    let q1 := { q with lev := { q.lev with hold := hold } }
    if !hold then q1
    else if q.lev.step.isSome then { q1 with lev := { q1.lev with tgtNext := some (clampTop q tgt) } }
    else beginStep d.us { q1 with lev := { q1.lev with tgt := clampTop q tgt } })

/-- LEVEL_WRITE (R94). -/
def execLevelWrite (p : PortId) (hold : Bool) (tgt : Level) (s : State) : Answer :=
  onDev (fun d => byHost (portReg p 0x0A) (writeLevel p hold tgt) d) s

/-- The core's level target: the allocator sets LEVEL.TGT while HOLD is 0 (R94, R424), and raises it only where R215 lets it. -/
def coreTarget (p : PortId) (l : Level) (d : Dev) : Dev :=
  d.modPort p fun q =>
    if q.lev.hold ∨ q.follower = true ∨ (q.lev.tgt < clampTop q l ∧ raiseAllowed d.us q = false) then q
    else beginStep d.us { q with lev := { q.lev with tgt := clampTop q l } }

/-- ENGINE_LEVEL_TARGET (R424). -/
def execEngineLevelTarget (p : PortId) (l : Level) (s : State) : Answer :=
  onDev (fun d => guardDev d.core.run (coreTarget p l) d) s

/-- The target follows a fall of the highest level allowed, and a step down begins, contracts that do not fit first (R94, R209,
R230). -/
def followTop (p : PortId) (d : Dev) : Dev :=
  if (d.port p).lev.step.isSome then d
  else
    let top := clampTop (d.port p) (d.port p).lev.tgt
    (shedDown p top (d.modPort p fun q => { q with lev := { q.lev with tgt := top } })).modPort p (beginStep d.us)

/-- The shedding that a write of PCTL.LMAX left to the allocator's resumption (R95; chapter 16, Edges). -/
def shedLate (p : PortId) (d : Dev) : Dev :=
  if (d.port p).lev.shedDue then
    shedForLevel p (d.port p).ctl.lmax (d.modPort p fun q => { q with lev := { q.lev with shedDue := false } })
  else d

/-- A write of PCTL.LMAX (R95, R209, R228). -/
def writeLmax (p : PortId) (l : Level) (d : Dev) : Dev :=
  let low := decide (l < segmentLevel (d.port p))
  let d1 := d.modPort p fun q =>
    { q with ctl := { q.ctl with lmax := l }, ring := { q.ring with helloDue := q.ring.helloDue || (q.ring.peer && q.ctl.lmax != l) }
             lev := { q.lev with shedDue := q.lev.shedDue || (low && !d.tb.alloc) } }
  let d2 := if low && d1.tb.alloc then shedForLevel p l d1 else d1
  relieve (d2.modPort p fun q =>
    if q.lev.step.isSome then q else beginStep d.us { q with lev := { q.lev with tgt := clampTop q q.lev.tgt } })

/-! ## Droop (R293 to R301) -/

/-- The voltage that the VSET code in force represents, without the droop step, in mV (R293). -/
def setpointMv (q : Port) : Nat :=
  match q.cfg.xfer with
  | some (vmin, slope) => vmin.toNat + slope.toNat * q.lev.code / 1000
  | none => 0

/-- VSEG lies below the droop threshold (R293). -/
def belowDroop (q : Port) (mv : Nat) : Bool := decide (mv * 200 < setpointMv q * (200 - q.drp.win.toNat))

/-- The codes that a droop step may add without passing the upper-limit code of the higher level involved (R205). -/
def droopCodes (q : Port) : Nat := Nat.min q.drp.stepCodes.toNat (upperCode q (topLevel q) - q.lev.code)

/-- A new response may start (R293). -/
def droopReady (d : Dev) (p : PortId) : Bool :=
  let q := d.port p
  decide (q.role = .feed) && decide (q.gate = .closed) && q.drp.en && !q.drp.hold && decide (1 ≤ q.met.vsegDroop)
    && (match q.drp.toneAt with | some t => decide (t + 1000 ≤ d.us) | none => true)

/-- A tone that meets the step of a CAL_PULSE: the pulse is discarded (chapter 13, Edges). A CAL_PULSE lasts 342 µs, and
its step ends 310 µs after it at the latest (R142, R193). -/
def toneCutsPulse (p : PortId) (d : Dev) : Dev :=
  match (d.port p).line.cal with
  | some (i, _, _, none) =>
    if d.us ≤ (rosterOf (d.port p) i.toNat).calAt + 652 then
      postEndpoint 0x2A 1 p i false (d.modPort p fun q => { q with line := { q.line with cal := none } })
    else d
  | _ => d

/-- The response of R294: the step, the tone but on a follower, the flags, the droop limit of R298. Where an earlier droop's step is
still in place, the step is set to STEP codes anew and not added to it: the model's choice (assumption 135). -/
def droopRespond (p : PortId) (d : Dev) : Dev :=
  let fol := (d.port p).follower
  let d1 := d.modPort p fun q =>
    let a := admitSum q
    let q1 := notePDroop { q with drp := { q.drp with
      act := true, hold := true, shed := true, at_ := d.us, toneAt := some d.us, removeAt := none
      applied := droopCodes q, admit0 := a
      limitPrev := if fol then q.drp.limitPrev else q.drp.limit
      limit := if fol then q.drp.limit else some (capBy a q.drp.limit) } }
    if fol then q1 else emitTone (shedRates d.us q1)
  relieve (postPort 0x17 0 p 0 false (if fol then d1 else toneCutsPulse p d1))

/-- DROOP_DETECT (R294). -/
def execDroopDetect (p : PortId) (s : State) : Answer :=
  onDev (fun d => guardDev (droopReady d p) (droopRespond p) d) s

/-- The hold ends with the droop cleared (R296): shed clears, the limit of the hold ends, the step begins to go. -/
def droopCleared (p : PortId) (d : Dev) : Dev :=
  postPort 0x17 1 p 0 false (d.modPort p fun q => { q with drp := { q.drp with
    hold := false, shed := false, removeAt := some d.us
    limit := if q.follower then q.drp.limit else q.drp.limitPrev, limitPrev := none } })

/-- The hold ends with the droop persistent (R299, R214): the limit falls to 80 %, and a step is aborted. -/
def droopPersists (p : PortId) (d : Dev) : Dev :=
  let d1 := postPort 0x17 1 p 0 false (d.modPort p fun q => { q with drp := { q.drp with
    hold := false, fallAt := d.us + 100000
    limit := if q.follower then q.drp.limit else some (capBy (q.drp.admit0 * 80 / 100) q.drp.limitPrev)
    limitPrev := none } })
  relieve (abortStep p d1)

/-- DROOP_HOLD_END (R296): 1 ms back in band, or 5 ms from the detection, low bound 4.9. -/
def execDroopHoldEnd (p : PortId) (s : State) : Answer :=
  onDev (fun d =>
    let q := d.port p
    if q.drp.hold then
      if 1000 ≤ q.met.vsegUp then droopCleared p d
      else if q.drp.at_ + 4900 ≤ d.us then droopPersists p d else d
    else d) s

/-- DROOP_STEP_REMOVED (R296): one code every 100 µs. -/
def execDroopStepRemoved (p : PortId) (s : State) : Answer :=
  onDev (fun d => d.modPort p fun q =>
    match q.drp.removeAt with
    | some t =>
      if t + 100 * q.drp.applied ≤ d.us then { q with drp := { q.drp with act := false, applied := 0, removeAt := none } }
      else q
    | none => q) s

/-- The droop is persistent: its step is in place after the hold, and VSEG has not recovered (R299). -/
def droopPersistent (q : Port) : Bool := q.drp.act && !q.drp.hold && q.drp.removeAt.isNone && decide (q.met.vsegUp < 1000)

/-- DROOP_LIMIT_FALL (R299). -/
def execDroopLimitFall (p : PortId) (s : State) : Answer :=
  onDev (fun d =>
    let q := d.port p
    guardDev (droopPersistent q && q.drp.limit.isSome && decide (q.drp.fallAt ≤ d.us))
      (fun d => relieve (d.modPort p fun q => { q with drp := { q.drp with
        fallAt := d.us + 100000, limit := q.drp.limit.map (· - q.drp.admit0 * 20 / 100) } })) d) s

/-- DROOP_LIMIT_END (R299): 60 s without detection and with VSEG above the threshold. -/
def execDroopLimitEnd (p : PortId) (s : State) : Answer :=
  onDev (fun d => d.modPort p fun q =>
    if q.drp.hold = false ∧ q.drp.at_ + 60000000 ≤ d.us ∧ 60000000 ≤ q.met.vsegOk then
      { q with drp := { q.drp with limit := none } } else q) s

end Sys2Proof.Machine
end

