-- ==== Sys2Proof/Machine/Ports.lean ====
section
/-! DEFINITION. Port roles and the other fields of PCTL (R15, R69, R93, R95), RAIL's host fields (R222, R238), emergency
off (R96, R97), the owner lock (R90), the presentation on the configuration wires (Table 06-1), and the PLL (R67). -/

namespace Sys2Proof.Machine

open Sys2Proof

/-! ## PLL (R67) -/

/-- The PLL is asked for. -/
def pllNeed (d : Dev) : Dev :=
  if d.pw.pllOn then d else { d with pw := { d.pw with pllOn := true, pllAt := d.us } }

/-- PLL_LOCK (R67). -/
def execPllLock (s : State) : Answer :=
  onDev (fun d => guardDev (d.pw.pllOn && !d.pw.pllFailed) (fun d => { d with pw := { d.pw with pllLocked := true } }) d) s

/-- CLOCK_FAIL (R67): not locked within 2 ms. R67 and R93 refuse the role writes that come after it and say nothing of a
port that is in FEED already, the one whose entry asked for the PLL among them: it stays in FEED on the internal oscillator
and no ROLE_DENIED is posted for it (the model's choice, assumption 108). -/
def execClockFail (s : State) : Answer :=
  onDev (fun d =>
    guardDev (d.up && d.pw.pllOn && !d.pw.pllLocked && !d.pw.pllFailed && decide (d.pw.pllAt + 2000 ≤ d.us))
      (fun d => postGlobal 0x02 0 0 true (setG gClk { d with pw := { d.pw with pllFailed := true } })) d) s

/-! ## The role in force -/

/-- A FEED port is taken to OFF (R95, R222): slots, WITHDRAW, contracts, path; ROLE trails the run; then the rail. -/
def shutFeed (p : PortId) (d : Dev) : Dev :=
  let d1 := (abortSlots 3 6 p d).modPort p (broadcastWithdraw 6 0xF)
  let d2 := (endAll 6 p (levelEnds p d1)).modPort p openPath
  let d3 := setRole p .off d2
  (railOff p d3).modPort p unattach

/-- A DRAW port is taken to OFF: its path opens (R95), and it is no endpoint any longer. -/
def shutDraw (p : PortId) (d : Dev) : Dev :=
  setRole p .off (d.modPort p fun q => unattach (openPath q))

/-- The role in force becomes OFF. -/
def leaveRole (p : PortId) (d : Dev) : Dev :=
  match (d.port p).role with
  | .feed => relieve (shutFeed p d)
  | .draw => relieve (shutDraw p d)
  | .off => d

/-- A host write that brings a port into FEED or DRAW ends the parked state: the device listens again (R338, R320). -/
def unpark (d : Dev) : Dev :=
  if d.gang.parked then { d with gang := { d.gang with parked := false, phase := .listening d.us 0 } } else d

/-- FEED comes into force (R67, R123, R204): probing begins, and the transfer is measured where Keep holds none. -/
def enterFeed (p : PortId) (d : Dev) : Dev :=
  pllNeed ((setRole p .feed d).modPort p fun q =>
    { unattach q with
      att := { state := .probing, nextProbe := d.us + 10000, orient := q.att.orient, icpt := q.att.icpt }
      lev := { q.lev with code := 0, cur := 0, tgt := 0, tgtNext := none, step := none, idleSince := none
                          calAt := if q.cfg.xfer.isNone then some d.us else none } })

/-- DRAW comes into force (R136): the port presents PCTL.TERM and listens. -/
def enterDraw (p : PortId) (d : Dev) : Dev := (setRole p .draw d).modPort p unattach

/-- A role comes into force. -/
def applyRole (p : PortId) (r : Role) (d : Dev) : Dev :=
  if (d.port p).role = r then d
  else
    let d1 := leaveRole p d
    match r with
    | .off => d1
    | .feed => unpark (enterFeed p d1)
    | .draw => unpark (enterDraw p d1)

/-- Why a role is refused (R93), in the order of the ROLE_DENIED codes (Table 05-5). -/
def roleRefusal (d : Dev) (p : PortId) (r : Role) (en : Bool) : Option Nat :=
  if r = .off then none
  else if !en then some 1
  else if r = (d.port p).role then none
  else if r = .draw ∧ (d.port p.other).role = .draw then some 2
  else if (d.port p).cfg.shunt = 0 then some 3
  else if d.pw.pllFailed then some 4
  else if d.gl.safe then some 5
  else none

/-- ROLE_DENIED (R93). -/
def denyRole (p : PortId) (code : Nat) (d : Dev) : Dev := postPort 0x13 code p 0 false (d.modPort p (setPevt eRole))

/-- PCTL.ROLE takes a role, which comes into force if the port is enabled and the device is not in SAFE (R32, R93). -/
def putRole (p : PortId) (r : Role) (d : Dev) : Dev :=
  let d1 := d.modPort p fun q => { q with ctl := { q.ctl with role := r } }
  applyRole p (if (d.port p).ctl.en && !d.gl.safe then r else .off) d1

/-- A host write of PCTL.ROLE comes into force; under AUTO the role written is the auto-start role, which is stored
(R70). -/
def takeRole (p : PortId) (r : Role) (d : Dev) : Dev :=
  let d2 := putRole p r d
  if (d2.port p).ctl.auto then dueSettings (d2.modPort p fun q => { q with cfg := { q.cfg with autoRole := r } }) else d2

/-- PARK is under way: writes of PCTL.ROLE are ignored (R98). -/
def parking (d : Dev) : Bool := d.gl.park.isSome || d.gl.parkWaits

/-- The role that a code of PCTL.ROLE names; 3 names none. -/
def roleOfCode (c : BitVec 2) : Option Role :=
  if c = 0 then some .off else if c = 1 then some .feed else if c = 2 then some .draw else none

/-- A write of PCTL.ROLE (R93, R98). -/
def writeRole (p : PortId) (c : BitVec 2) (d : Dev) : Dev :=
  match roleOfCode c with
  | none => d
  | some r =>
    if parking d then d
    else match roleRefusal d p r (d.port p).ctl.en with
      | some code => denyRole p code d
      | none => takeRole p r d

/-- ROLE_WRITE (R93). -/
def execRoleWrite (p : PortId) (role : BitVec 2) (s : State) : Answer :=
  onDev (fun d => byHost (portReg p 0x02) (writeRole p role) d) s

/-! ## The other fields of PCTL -/

/-- PCTL.EN is written 0: the port stops, its role in force reads OFF, and PCTL.ROLE keeps its value (R95). -/
def disablePort (p : PortId) (d : Dev) : Dev :=
  leaveRole p (d.modPort p fun q => { q with ctl := { q.ctl with en := false } })

/-- PCTL.EN is written 1: the role that PCTL.ROLE holds is asked for (R93). -/
def enablePort (p : PortId) (d : Dev) : Dev :=
  let d1 := d.modPort p fun q => { q with ctl := { q.ctl with en := true } }
  let r := (d.port p).ctl.role
  if (d.port p).ctl.en || parking d then d1
  else match roleRefusal d1 p r true with
    | some code => denyRole p code d1
    | none => applyRole p (if d.gl.safe then .off else r) d1

/-- A write of PCTL.EN (R95). -/
def writeEn (p : PortId) (v : Bool) (d : Dev) : Dev := if v then enablePort p d else disablePort p d

/-- EN_WRITE (R95). -/
def execEnWrite (p : PortId) (v : Bool) (s : State) : Answer :=
  onDev (fun d => byHost (portReg p 0x02) (writeEn p v) d) s

/-- A write of PCTL.AUTO: from 0 to 1 it stores the role that PCTL.ROLE holds (R70). -/
def writeAuto (p : PortId) (v : Bool) (d : Dev) : Dev :=
  let rise := v && !(d.port p).ctl.auto
  let d1 := dueSettings (d.modPort p fun q => { q with ctl := { q.ctl with auto := v } })
  if rise then d1.modPort p fun q => { q with cfg := { q.cfg with autoRole := q.ctl.role } } else d1

/-- AUTO_WRITE (R70). -/
def execAutoWrite (p : PortId) (v : Bool) (s : State) : Answer :=
  onDev (fun d => byHost (portReg p 0x02) (writeAuto p v) d) s

/-- LMAX_WRITE (R95, R209). -/
def execLmaxWrite (p : PortId) (l : Level) (s : State) : Answer :=
  onDev (fun d => byHost (portReg p 0x02) (fun d => dueSettings (writeLmax p l d)) d) s

/-- A write of PCTL.PS2 (R249, R283). -/
def writePs2 (p : PortId) (v : Bool) (d : Dev) : Dev :=
  relieve (dueSettings (d.modPort p fun q => { q with ctl := { q.ctl with ps2 := v } }))

/-- PS2_WRITE (R283). -/
def execPs2Write (p : PortId) (v : Bool) (s : State) : Answer :=
  onDev (fun d => byHost (portReg p 0x02) (writePs2 p v) d) s

/-- A write of PCTL.FIXED (R310, R311). -/
def writeFixed (p : PortId) (v : Bool) (d : Dev) : Dev :=
  relieve (dueSettings (d.modPort p fun q => { q with ctl := { q.ctl with fixed := v } }))

/-- FIXED_WRITE (R311). -/
def execFixedWrite (p : PortId) (v : Bool) (s : State) : Answer :=
  onDev (fun d => byHost (portReg p 0x02) (writeFixed p v) d) s

/-- A write of the whole of PCTL (R93): the role is judged by EN after the write, and the other fields take effect. A
write that leaves PCTL.ROLE as it stands asks for it where EN would bring it into force, or where it names FEED or DRAW with
EN 0 (assumption 21). -/
def writePctl (p : PortId) (v : Half) (d : Dev) : Dev :=
  let n := v.toNat
  let q := d.port p
  let en := bit n 2
  let want : Role := match roleOfCode (BitVec.ofNat 2 n) with
    | some r => if parking d then q.ctl.role else r
    | none => q.ctl.role
  let asks := decide (want ≠ q.ctl.role) || (if en then decide (want ≠ q.role) else decide (want ≠ .off))
  let d1 := d.modPort p fun q => { q with ctl := { q.ctl with en := en, term := BitVec.ofNat 2 (n >>> 7) } }
  let d2 := writeFixed p (bit n 5) (writePs2 p (bit n 6) (writeLmax p (BitVec.ofNat 2 (n >>> 3)) d1))
  let d3 :=
    if parking d then (if en then d2 else disablePort p d2)
    else match (if asks then roleRefusal d p want en else none) with
      | some code => denyRole p code (if en then d2 else disablePort p d2)
      | none =>
        let d4 := if en then d2 else disablePort p d2
        if asks then takeRole p want (d4.modPort p fun q => { q with ctl := { q.ctl with auto := bit n 9 && q.ctl.auto } })
        else d4
  writeAuto p (bit n 9) (d3.modPort p fun r => { r with ctl := { r.ctl with auto := q.ctl.auto } })

/-! ## RAIL (R222, R238) -/

/-- Writing RAIL.SWAP 1 on a ring feeder (R238); on a radial port it is ignored. -/
def requestSwap (p : PortId) (d : Dev) : Dev :=
  d.modPort p fun q =>
    if q.ringFeeder ∧ q.rail.swapReq = false then
      { q with rail := { q.rail with swapReq := true
                                     swap := if q.rail.swap = .none then .pending d.us else q.rail.swap } }
    else q

/-- RAIL_SWAP (R238). -/
def execRailSwap (p : PortId) (s : State) : Answer :=
  onDev (fun d => byHost (portReg p 0x1E) (requestSwap p) d) s

/-- A write of RAIL.EN (R221, R222, R223): 0 turns the switch OFF; 1 gives a joined follower its BACKUP. -/
def writeRailEn (p : PortId) (v : Bool) (d : Dev) : Dev :=
  let d1 := dueSettings (d.modPort p fun q => { q with rail := { q.rail with en := v } })
  if !v then railOff p d1
  else d1.modPort p fun q =>
    if q.ring.peer ∧ q.ring.join = .joined ∧ q.rail.sw = .off ∧ q.rail.retryAt = none then
      { q with rail := { q.rail with sw := .backup } }
    else q

/-- RAIL_EN_WRITE (R222). -/
def execRailEnWrite (p : PortId) (v : Bool) (s : State) : Answer :=
  onDev (fun d => byHost (portReg p 0x1E) (writeRailEn p v) d) s

/-! ## Emergency off (R96, R97) -/

/-- Writing EOFF 1 (R96): in SAFE it changes nothing further (R97); outside modes 3 to 11 it has no effect. -/
def emergencyOff (d : Dev) : Dev :=
  if d.gl.safe || !d.up then d else enterSafe 6 { d with gl := { d.gl with eoff := true } }

/-- EMERGENCY_OFF (R96). -/
def execEmergencyOff (s : State) : Answer := onDev (fun d => byHost 3 emergencyOff d) s

/-- Writing EOFF 0 (R97): the latch is released, and SAFE is left once nothing holds it (Table 01-5, R33). -/
def releaseEoff (d : Dev) : Dev := leaveSafe { d with gl := { d.gl with eoff := false } }

/-- EOFF_RELEASE (R97). -/
def execEoffRelease (s : State) : Answer := onDev (fun d => byHost 3 releaseEoff d) s

/-! ## Owner lock (R90) -/

/-- LOCK.OPEN: opened by a code, or no owner is enrolled (Table 04-3). -/
def lockOpens (d : Dev) : Bool := d.gl.lockOpen || !d.gl.owner.enrolled

/-- The second half of a code has come in time: it opens the lock, or it is one more wrong code. -/
def tryCode (c : Word) (g : Global) : Global :=
  let g1 := { g with lockArmed := none }
  if c = g.owner.code then { g1 with lockOpen := true }
  else
    let f := if g.lockFails = 15 then 15 else g.lockFails + 1
    { g1 with lockFails := f, lockBlocked := g.lockBlocked || decide (8 ≤ f.toNat) }

/-- A write to LOCK (R90). -/
def writeLock (v : Half) (d : Dev) : Dev :=
  let g := d.gl
  if g.lockBlocked || !g.owner.enrolled then d
  else
    let armed := match g.lockArmed with
      | some (h, t) => if d.us ≤ t + 1000 then some h else none
      | none => none
    match armed with
    | some h => { d with gl := tryCode (BitVec.ofNat 32 (h.toNat * 65536 + v.toNat)) g }
    | none =>
      if v = 0 ∧ g.lockOpen = true then { d with gl := { g with lockOpen := false, lockArmed := none } }
      else { d with gl := { g with lockArmed := some (v, d.us) } }

/-- LOCK_CODE (R90). -/
def execLockCode (v : Half) (s : State) : Answer := onDev (fun d => byHost 28 (writeLock v) d) s

/-- LOCK_CODE_TIMEOUT (R90). -/
def execLockCodeTimeout (s : State) : Answer :=
  onDev (fun d =>
    match d.gl.lockArmed with
    | some (_, t) => if t + 1000 < d.us then { d with gl := { d.gl with lockArmed := none } } else d
    | none => d) s

/-! ## Presentation (Table 06-1) -/

/-- The port probes: FEED in force and not attached (R123). -/
def probes (q : Port) : Bool :=
  decide (q.role = .feed) && q.ctl.en && !q.att.att && q.att.pause.isNone && q.att.resumeAt.isNone
    && decide (q.ring.join = .none)

/-- The parts of a probe cycle (R123): the live check, both sources at 80 µA, both at 330 µA, the peer window; and the rest. -/
inductive ProbePart where
  | live
  | low
  | high
  | window
  | rest
  deriving DecidableEq, Repr

/-- The part that runs: a cycle takes the 10 ms that end when the next one is due (R123, R132). -/
def probePart (now : Nat) (q : Port) : ProbePart :=
  let t := now + 10000 - q.att.nextProbe
  if now + 10000 < q.att.nextProbe then .rest
  else if t < 500 then .live
  else if t < 2000 then .low
  else if t < 3500 then .high
  else if q.ring.en && decide (q.att.windowOff ≤ t ∧ t < q.att.windowOff + 1000) then .window
  else .rest

/-- An attached ring feeder without a peer looks for one (R133). -/
def seeksPeer (q : Port) : Bool := decide (q.role = .feed) && q.ring.en && q.att.att && !q.ring.peer

/-- A peer window of R133 runs. -/
def inPeerWindow (now : Nat) (q : Port) : Bool :=
  seeksPeer q && decide (q.att.windowAt ≤ now ∧ now < q.att.windowAt + 1000)

/-- In a peer window both sources are off and a 100 kΩ bleed to AGND stands on both pins (R128). -/
def bleeds (now : Nat) (q : Port) : Bool := (probes q && decide (probePart now q = .window)) || inPeerWindow now q

/-- The nominal current of a setting, µA (R117). -/
def PullUp.microamps : PullUp → Nat
  | .off => 0
  | .hold => 80
  | .ok => 180
  | .enroll => 330

/-- The level at which R118 puts the idle signal wire, mV. -/
def PullUp.targetMv : PullUp → Nat
  | .off => 0
  | .hold => 408
  | .ok => 918
  | .enroll => 1683

/-- The settings of the sources of CWAn and CWBn (R117, R123): both in the probes' parts; on an attached FEED port that of the
signal wire alone. -/
def sources (now : Nat) (q : Port) : PullUp × PullUp :=
  if probes q then
    match probePart now q with
    | .low => (.hold, .hold)
    | .high => (.enroll, .enroll)
    | _ => (.off, .off)
  else if q.role ≠ .feed ∨ q.ctl.en = false ∨ q.att.att = false ∨ inPeerWindow now q = true then (.off, .off)
  else if q.att.orient then (.off, q.line.src) else (q.line.src, .off)

/-- The current of a setting under the common factor, nA (R117, R118). -/
def sourceNa (s : PullUp) (factor : Nat) : Nat := s.microamps * factor / 1000

/-- The open-circuit clamp, mV, and what a source puts on a resistive wire (R117). -/
def clampMv : Nat := 3000
def wireMv (na ohms : Nat) : Nat := Nat.min clampMv (na * ohms / 1000000)

/-- The factor of R118, in 10⁻⁶, held to 0.75 to 1.25. -/
def clampFactor (n : Nat) : Nat := Nat.max 750000 (Nat.min 1250000 n)

/-- The factor that brings an idle level to its target, from the factor and the setting under which it was measured (R118). R118
gives it no resolution: 10⁻⁶, rounded down, is the model's choice (assumption 118). -/
def nextFactor (s : PullUp) (factor level : Nat) : Nat :=
  if s = .off then factor else clampFactor (if level = 0 then 1250000 else factor * s.targetMv / level)

/-- The factor at an attach, from the slope of the probe (Table 06-4): 1.683 V over 330 µA and the slope in Ω. -/
def firstFactor (slope : Nat) : Nat := if slope = 0 then 1000000 else clampFactor (1683000000000 / (330 * slope))

/-- The level of the signal wire, mV. -/
def signalMv (q : Port) (s : Sample) : Nat := if q.att.orient then s.cwB else s.cwA

/-- What a port presents on CWAn and CWBn (Table 06-1). -/
inductive Presentation where
  | mitten
  | opened
  | endCap (sigB : Bool)
  | endpointTap
  /-- the port's own sources or the attached line -/
  | none
  deriving DecidableEq, Repr

/-- What PCTL.TERM presents (R122). -/
def termPresents (q : Port) : Presentation :=
  if q.ctl.term = 1 then .opened else if q.ctl.term = 2 then .endCap (q.cfg.ringOrient.getD false) else .mitten

/-- The presentation of a port (R121, R123, R224). R123 lets a probing port keep its own presentation in the live check alone and
does not name it: what PCTL.TERM sets is the model's choice (assumption 112). -/
def presents (d : Dev) (p : PortId) : Presentation :=
  let q := d.port p
  if d.pw.phase ≠ .running || !q.ctl.en then .mitten
  else match q.role with
    | .off => termPresents q
    | .draw => if q.drw.joined then .endpointTap else termPresents q
    | .feed =>
      if q.att.pause.isSome then .endCap (q.cfg.ringOrient.getD false)
      else if probes q && decide (probePart d.us q = .live) then termPresents q
      else .none

end Sys2Proof.Machine
end

