-- ==== Sys2Proof/Machine/Journal.lean ====
section
/-! DEFINITION. The commit engine of Keep-E: block protection and issue (R391 to R393), the journal's pages (R394,
Tables 18-2 and 18-3), and its resolution at ROMBOOT (R396). -/

namespace Sys2Proof.Machine

open Sys2Proof

/-! ## Pages and protection -/

/-- The pages of a list of writes, in the order they are first touched (R392). -/
def pagesOf : List Host.Cell → List Nat → List Nat
  | [], acc => acc
  | (a, _) :: t, acc => pagesOf t (if acc.contains (pageOf a) then acc else acc ++ [pageOf a])

/-- The lowest page that a value of KEEP_CTL.BP protects (Table 18-6). -/
def protectedFrom (bp : BitVec 2) : Nat := if bp = 0 then 1024 else if bp = 1 then 768 else if bp = 2 then 512 else 256

/-- A page is closed to commits at every BP value (R391), lies outside Keep-E, or is protected by the BP in force. -/
def pageProtected (bp : BitVec 2) (pg : Nat) : Bool := decide (pg < 256 ∨ protectedFrom bp ≤ pg ∨ 1024 ≤ pg)

/-- A commit touches a protected page (R393). -/
def commitProtected (bp : BitVec 2) (ws : List Host.Cell) : Bool := (pagesOf ws []).any (pageProtected bp)

/-- A commit holds 1 to 16 pages (R392). -/
def commitSized (ws : List Host.Cell) : Bool := decide (1 ≤ (pagesOf ws []).length ∧ (pagesOf ws []).length ≤ 16)

/-- A refusal by block protection (R393, Table 04-3): BPERR and GSTAT.KEEP. -/
def bpRefused (d : Dev) : Dev := setG gKeep { d with keep := { d.keep with bperr := true } }

/-- KEEP_REFUSED with its flag (R393). -/
def keepRefused (code : Nat) (d : Dev) : Dev := postGlobal 0x32 code 0 true (setG gKeep (raise 5 d))

/-- A closed commit is issued: block protection first, KEEP_STAT.HOT second (R393); the Bool says whether it was queued. -/
def issue (c : Commit) (d : Dev) : Bool × Dev :=
  if commitProtected d.keep.bp c.writes then (false, keepRefused 2 (bpRefused d))
  else
    let d1 := { d with keep := { d.keep with bperr := false } }
    if d.gl.crit then (false, keepRefused 1 d1)
    else (true, { d1 with keep := { d1.keep with queue := d1.keep.queue ++ [c] } })

/-- Keep-E as it will stand once every commit issued is durable. -/
def keepAhead (k : Keep) : Keep :=
  let e1 := match k.run with | some r => writeCells k.e r.commit.writes | none => k.e
  { k with e := k.queue.foldl (fun e c => writeCells e c.writes) e1 }

/-- Only the cells that differ from what Keep-E will hold. -/
def changedCells (k : Keep) (ws : List Host.Cell) : List Host.Cell := ws.filter fun (a, b) => keepByte k a != b

/-! ## The journal (R394) -/

/-- The 128 bytes of a page. -/
def pageBytes (e : Sparse Byte) (pg : Nat) : List Byte := readBytes e (pg * 128) 128

/-- The 128 bytes that a commit leaves in a page. -/
def newImage (e : Sparse Byte) (ws : List Host.Cell) (pg : Nat) : List Byte := pageBytes (writeCells e ws) pg

/-- STATE bytes of a header (Table 18-2). -/
def hOpen : Byte := 0x5A
def hSealed : Byte := 0xA5
def hRollback : Byte := 0xC3
def hDone : Byte := 0x3C
def hVoid : Byte := 0x99

/-- b1 to b39 of a header. -/
def headerBody (num : Word) (pages : List Nat) : List Byte :=
  [BitVec.ofNat 8 pages.length, 0, 0] ++ leBytes num.toNat 4
    ++ ((List.range 16).flatMap fun i => leBytes (pages.getD i 0xFFFF) 2)

/-- A header page with DCHK, or without it in STATE OPEN. -/
def headerPage (st : Byte) (num : Word) (pages : List Nat) (dchk : List Byte) : List Byte :=
  let b := headerBody num pages
  st :: b ++ leBytes (crc32 b).toNat 4 ++ dchk

/-- The page writes of a commit, in order (Table 18-3): ring position or home page, and contents. -/
def commitSteps (e : Sparse Byte) (r : Running) : List (Nat × List Byte) :=
  let undo := r.pages.map (pageBytes e)
  let new := r.pages.map (newImage e r.commit.writes)
  let dchk := leBytes (crc32 ((undo ++ new).flatMap id)).toNat 4
  let h := journalPage r.hdr
  let ring := (undo ++ new).zipIdx.map fun (l, i) => (journalPage (r.hdr + 1 + i), l)
  let home := (r.pages.zip new).map fun (pg, l) => (pg * 128, l)
  (h, headerPage hOpen r.num r.pages [0, 0, 0, 0]) :: ring
    ++ ((h, headerPage hSealed r.num r.pages dchk) :: home ++ [(h, [hDone])])

/-- Groups that the writes of a commit rewrite. -/
def groupsWritten (ws : List Host.Cell) : List Nat :=
  ws.foldl (fun acc x => if acc.contains (x.1 / 8) then acc else acc ++ [x.1 / 8]) []

/-- One page write of the engine. -/
def pageWrite (x : Nat × List Byte) (k : Keep) : Keep := { k with e := writeBytes k.e x.1 x.2 }

/-- The first page writes of a running commit are on the cells. -/
def commitWrites (n : Nat) (r : Running) (k : Keep) : Keep := ((commitSteps k.e r).take n).foldl (fun k x => pageWrite x k) k

/-- The number of page writes of a commit (R394). -/
def commitLength (r : Running) : Nat := 3 + 3 * r.pages.length

/-- The groups that a commit rewrites read good again and leave the poison list (R410). -/
def cleanGroups (ws : List Host.Cell) (k : Keep) : Keep :=
  (groupsWritten ws).foldl (fun k g => poisonClear g { k with bad := k.bad.filter (· != g) }) k

/-- A running commit has been interrupted after some page writes by RESET# or the loss of supply (R61, R62). -/
def interruptCommit (n : Nat) (k : Keep) : Keep :=
  match k.run with
  | none => k
  | some r => { commitWrites n r k with run := none }

/-- The number of a page write that stands for a stage (Table 18-3): SEALED comes after the 2n data pages. -/
def sealedAt (r : Running) : Nat := 2 + 2 * r.pages.length

/-- A commit that THERM.KHOT stops after a page write (R397): VOID before SEALED, ROLLBACK from SEALED on. Only a commit
whose DONE header has been written is complete. -/
def stopCommit (n : Nat) (r : Running) (k : Keep) : Keep :=
  let k1 := { commitWrites n r k with run := none }
  if n < sealedAt r then { pageWrite (journalPage r.hdr, [hVoid]) k1 with jroll := true }
  else { pageWrite (journalPage r.hdr, [hRollback]) k1 with rollback := some r }

/-- The rollback that waited restores the home pages from the undo images and voids the header (R397). -/
def rollBack (r : Running) (k : Keep) : Keep :=
  let k0 := { k with rollback := none }
  let homes := r.pages.zipIdx.map fun (pg, i) => (pg * 128, readBytes k.e (journalPage (r.hdr + 1 + i)) 128)
  { homes.foldl (fun k x => pageWrite x k) k0 |> pageWrite (journalPage r.hdr, [hVoid]) with jroll := true }

/-! ## Resolution at ROMBOOT (R396) -/

/-- A header as the scan finds it. -/
structure JHeader where
  pos : Nat
  st : Byte
  num : Nat
  pages : List Nat
  dchk : Nat
  deriving DecidableEq, Repr

/-- No group of some bytes is uncorrectable. -/
def rangeGood (k : Keep) (a len : Nat) : Bool := (groupsOf a len).all fun g => !groupBad k g

/-- The header at a ring position, if its HCHK passes. -/
def headerAt (k : Keep) (pos : Nat) : Option JHeader :=
  let a := journalPage pos
  let n := leNat (readBytes k.e (a + 1) 1)
  if 1 ≤ n ∧ n ≤ 16 ∧ rangeGood k a 128 = true
      ∧ leNat (readBytes k.e (a + 40) 4) = (crc32 (readBytes k.e (a + 1) 39)).toNat then
    some { pos := pos, st := spGet 0 k.e a, num := leNat (readBytes k.e (a + 4) 4)
           pages := (List.range n).map fun i => leNat (readBytes k.e (a + 8 + 2 * i) 2)
           dchk := leNat (readBytes k.e (a + 44) 4) }
  else none

/-- The header of the highest commit number. -/
def highestHeader (k : Keep) : List Nat → Option JHeader
  | [] => none
  | i :: t =>
    match headerAt k i, highestHeader k t with
    | some h, some g => if g.num < h.num then some h else some g
    | some h, none => some h
    | none, g => g

/-- DCHK passes over the 2n data pages, none of which has an uncorrectable group. -/
def dchkOk (k : Keep) (h : JHeader) : Bool :=
  let ps := (List.range (2 * h.pages.length)).map fun i => journalPage (h.pos + 1 + i)
  ps.all (fun a => rangeGood k a 128)
    && decide ((crc32 (ps.flatMap fun a => readBytes k.e a 128)).toNat = h.dchk)

/-- Writes home pages from the images that begin at an offset in the ring; an image with an uncorrectable group leaves
its page as found, poisoned whole. -/
def writeHome (h : JHeader) (off : Nat) : List (Nat × Nat) → Keep → Keep
  | [], k => k
  | (pg, i) :: t, k =>
    let a := journalPage (h.pos + 1 + off + i)
    writeHome h off t (if rangeGood k a 128 then eWrite (pg * 128) (readBytes k.e a 128) k else poisonAdd (pg * 16) true k)

/-- The groups in which the new image of a commit differs from its undo image. -/
def groupsCommitted (k : Keep) (h : JHeader) : List Nat :=
  let n := h.pages.length
  h.pages.zipIdx.flatMap fun (pg, i) =>
    ((List.range 16).filter fun j =>
      readBytes k.e (journalPage (h.pos + 1 + i) + 8 * j) 8 != readBytes k.e (journalPage (h.pos + 1 + n + i) + 8 * j) 8).map
    fun j => pg * 16 + j

/-- The pages that the resolution poisons. -/
def lostPages (k : Keep) (h : JHeader) (off : Nat) : List Nat :=
  (h.pages.zipIdx.filter fun (_, i) => !rangeGood k (journalPage (h.pos + 1 + off + i)) 128).map (·.1)

/-- What a start finds in the journal: the commit completed and the pages poisoned, for the events after BOOT. -/
structure Resolved where
  keep : Keep
  done : Option Nat
  poisoned : List Nat
  deriving DecidableEq, Repr

/-- ROMBOOT step 3 (R396); a commit completed here clears the poison entries of the groups it rewrote (R410). -/
def resolveJournal (k : Keep) : Resolved :=
  let k0 := { k with jroll := false, jdone := false, bperr := false, poison := false, sfail := false, dseq := 0
                     run := none, queue := [], rollback := none, lastNum := BitVec.ofNat 32 (leNat (readBytes k.e 0x3218 4)) }
  match highestHeader k (List.range 64) with
  | none => { keep := k0, done := none, poisoned := [] }
  | some h =>
    let n := h.pages.length
    let k1 := { k0 with lastNum := BitVec.ofNat 32 h.num, jptr := (h.pos + 1 + 2 * n) % 64 }
    let void := fun (k : Keep) => tallyInc 9 { pageWrite (journalPage h.pos, [hVoid]) k with jroll := true }
    if h.st = hDone ∨ h.st = hVoid then { keep := k1, done := none, poisoned := [] }
    else if h.st = hOpen then { keep := void k1, done := none, poisoned := [] }
    else if h.st = hSealed ∧ dchkOk k h = true then
      let k2 := (groupsCommitted k h).foldl (fun k g => poisonClear g k) (writeHome h n h.pages.zipIdx k1)
      { keep := tallyInc 8 (tallyInc 9 { pageWrite (journalPage h.pos, [hDone]) k2 with
          jdone := true, dseq := BitVec.ofNat 8 h.num }), done := some h.num, poisoned := [] }
    else if h.st = hRollback ∧ dchkOk k h = true then
      { keep := void (writeHome h 0 h.pages.zipIdx k1), done := none, poisoned := [] }
    else
      let off := if h.st = hRollback then 0 else n
      { keep := void (writeHome h off h.pages.zipIdx k1), done := none, poisoned := lostPages k h off }

end Sys2Proof.Machine
end

