-- ==== Sys2Proof/Machine/Settings.lean ====
section
/-! DEFINITION. The settings areas of Keep-E as they stand for registers and tables (R391, R398, R399, R490, R492, R493,
Tables 18-10 to 18-12): the bytes of each area, reading them at a start, and applying a KEEPWIN change. -/

namespace Sys2Proof.Machine

open Sys2Proof

/-! ## Bytes of the durable settings area -/

/-- A port's block (Table 18-11), b0 to b36. -/
def portBlock (q : Port) : List Byte :=
  let x := q.cfg.xfer.getD (0, 0)
  leBytes q.cfg.shunt.toNat 4 ++ leBytes x.1.toNat 2 ++ leBytes x.2.toNat 2
  ++ [BitVec.ofNat 8 (b2n q.cfg.xfer.isSome), 0] ++ leBytes q.grd.ilim.toNat 2 ++ leBytes q.grd.ifast.toNat 2
  ++ [BitVec.ofNat 8 (pack [(0, q.ctl.lmax.toNat), (2, b2n q.ctl.fixed), (3, b2n q.ctl.ps2), (4, q.ctl.term.toNat),
        (6, b2n q.ctl.auto)]),
      BitVec.ofNat 8 q.cfg.autoRole.code,
      BitVec.ofNat 8 (pack [(0, b2n q.rail.en), (1, b2n q.ring.en), (2, b2n q.grd.auto), (3, b2n q.drp.en)]),
      q.drp.win.setWidth 8, q.drp.stepCodes.setWidth 8, q.line.bper.setWidth 8, q.line.enr.setWidth 8, 0]
  ++ leBytes q.cfg.fixedF.toNat 2 ++ leBytes q.cfg.hubReserve.toNat 2 ++ leBytes q.cfg.uncalCeil.toNat 2
  ++ leBytes q.cfg.rm.toNat 4 ++ leBytes q.cfg.segLen.toNat 2 ++ leBytes q.cfg.ringLen.toNat 2
  ++ [BitVec.ofNat 8 (pack [(0, b2n q.cfg.ringOrient.isSome), (1, b2n (q.cfg.ringOrient.getD false))])]

/-- The thermal points 1 to 4. -/
def ntcPoint (d : Dev) (i : Nat) : NtcPoint :=
  if i = 1 then d.tb.ntcA0 else if i = 2 then d.tb.ntcB0 else if i = 3 then d.tb.ntcA1 else d.tb.ntcB1

/-- w1 of a thermal point that takes host commits (Table 05-2). -/
def thermLimit (d : Dev) (i : Nat) : Half :=
  if 1 ≤ i ∧ i ≤ 4 then (ntcPoint d i).limit else if 16 ≤ i then spGet 0x0118 d.tb.hotLimit i else 0

/-- A thermal point's four bytes; those of a point without host commits are reserved, 0. -/
def thermBytes (d : Dev) (i : Nat) : List Byte :=
  leBytes (thermLimit d i).toNat 2
  ++ [BitVec.ofNat 8 (if 1 ≤ i ∧ i ≤ 4 then b2n (ntcPoint d i).en else 0), 0]

/-- A bundle group of the table. -/
def bundleOf (d : Dev) (g : Nat) : BundleRec := spGet {} d.tb.bundles g

/-- BUNDLE w2. -/
def bundleW2 (b : BundleRec) : Nat := pack [(0, b2n b.m0), (1, b2n b.m1), (15, b2n b.en)]

/-- A bundle group's b0 to b11. -/
def bundleBytes (b : BundleRec) : List Byte :=
  le2 b.limit.toNat ++ le2 (bundleW2 b) ++ le2 b.len.toNat ++ le2 b.wires.toNat ++ le2 b.amb.toNat ++ le2 b.tau.toNat

/-- The device block. -/
def deviceBlock (d : Dev) : List Byte :=
  le2 d.gl.shelf.toNat ++ [BitVec.ofNat 8 (pack [(0, d.gang.mode.toNat), (2, d.gang.id.toNat)]), d.gang.weight]
  ++ le2 d.fwu.vmin.toNat ++ le2 d.fwu.tHealth.toNat ++ [BitVec.ofNat 8 (b2n d.fwu.hostconf)]

/-- The bitmap of delta pieces held. -/
def pieceBitmap (l : List Nat) : List Byte :=
  (List.range 32).map fun i => BitVec.ofNat 8 (pack ((List.range 8).map fun b => (b, b2n (l.contains (8 * i + b)))))

/-- The cells of the durable settings area below its header. -/
def settingsCells (d : Dev) : List Host.Cell :=
  cellsAt 0x19010 (portBlock d.p0) ++ cellsAt 0x19050 (portBlock d.p1) ++ cellsAt 0x19090 (deviceBlock d)
  ++ cellsAt 0x190A0 ([d.p0.cap0, d.p0.cap1, d.p0.cap2, d.p0.cap3, d.p1.cap0, d.p1.cap1, d.p1.cap2, d.p1.cap3].flatMap
      fun w => le2 w.toNat)
  ++ cellsAt 0x19100 ((List.range 32).flatMap (thermBytes d))
  ++ ((List.range 8).flatMap fun g => cellsAt (0x19180 + 16 * g) (bundleBytes (bundleOf d g)))
  ++ cellsAt 0x19200 d.fwu.header
  ++ cellsAt 0x192A0 (pieceBitmap d.fwu.held)
  ++ cellsAt 0x192C0 (le2 (d.fwu.torn.getD 0xFFFF) ++ [BitVec.ofNat 8 (b2n d.fwu.rx)])

/-! ## Formats of the running image (Table 21-3) -/

/-- A little-endian field of some bytes. -/
def bytesNat (l : List Byte) (i n : Nat) : Nat := leNat ((l.drop i).take n)

/-- A bank; true is B. -/
def bankOf (f : Fwu) (b : Bool) : Bank := if b then f.bankB else f.bankA

/-- The running image. -/
def runningImage (d : Dev) : List Byte := (bankOf d.fwu d.fwu.active).image

/-- The durable settings format that the running image produces, b50 to b51 of its header. -/
def durableFormat (d : Dev) : Half := h16 (bytesNat (runningImage d) 50 2)

/-- The tuning settings format that it produces, b52 to b53. -/
def tuningFormat (d : Dev) : Half := h16 (bytesNat (runningImage d) 52 2)

/-! ## Headers (R398, R399) -/

/-- Base and extent of the areas (Table 18-1). -/
def settingsBase : Nat := 0x19000
def settingsLen : Nat := 0x800
def tuningBase : Nat := 0x19800
def tuningLen : Nat := 0x800
/-- The copies of a dual-copy area: 0 roster header, 1 tenants, 2 owner data. -/
def copyA (area : Nat) : Nat := if area = 0 then 0x18000 else if area = 1 then 0x18400 else 0x18C00
def copyB (area : Nat) : Nat := if area = 0 then 0x18200 else if area = 1 then 0x18800 else 0x18E00
def copyLen (area : Nat) : Nat := if area = 1 then 0x400 else 0x200

/-- The writes of a commit with an area's header: format, length, a copy sequence, the migration word kept, a new CRC. -/
def headed (k : Keep) (base len : Nat) (fmt : Half) (seq : Nat) (ws : List Host.Cell) : List Host.Cell :=
  let ws1 := ws ++ cellsAt base (leBytes fmt.toNat 2 ++ leBytes len 2 ++ leBytes seq 4)
  let body := areaAfter k base len ws1
  changedCells k ws1 ++ cellsAt (base + 12) (leBytes (crc32 (body.take 12 ++ body.drop 16)).toNat 4)

/-- The format that a write of an area records: it never lowers the version (R398). -/
def keptFormat (k : Keep) (base : Nat) (fmt : Half) : Half :=
  let f := keepNat k base 2
  if fmt.toNat < f ∧ areaBlank k base = false then h16 f else fmt

/-- An area counts as unwritten: its version or its length is not one that an image of this design writes (R493). -/
def areaUnwritten (k : Keep) (base len : Nat) : Bool := areaBlank k base || decide (keepNat k (base + 2) 2 ≠ len)

/-- The format of the durable settings area: that of the running image where it has not been written; else the one it holds, which
only the migration raises (R398, R470). -/
def settingsFormat (d : Dev) (k : Keep) : Half :=
  if areaUnwritten k settingsBase settingsLen then durableFormat d else h16 (keepNat k settingsBase 2)

/-- The commit that stores the durable settings as they stand. -/
def settingsCommit (d : Dev) : List Host.Cell :=
  let k := keepAhead d.keep
  headed k settingsBase settingsLen (settingsFormat d k) (keepNat k (settingsBase + 4) 4 + 1) (settingsCells d)

/-- The page of the durable settings area that a migration converts next: b8 to b9 of the header (R398). -/
def migratePage (k : Keep) : Nat := keepNat k (settingsBase + 8) 2

/-- The commit that converts one page (R398): its bytes stand, since a newer format only uses bytes that older ones reserve, whose zero
coding is 0 (R470); the header records the progress, and with the last page the image's format (assumption 130). -/
def migrateCommit (d : Dev) : List Host.Cell :=
  let k := keepAhead d.keep
  let n := migratePage k
  let last := decide (15 ≤ n)
  let a := settingsBase + 128 * Nat.min n 15
  let from_ := if n = 0 then 16 else 0
  cellsAt (a + from_) (keepBytes k (a + from_) (128 - from_))
    ++ headed k settingsBase settingsLen (if last then durableFormat d else settingsFormat d k) (keepNat k (settingsBase + 4) 4 + 1)
      (cellsAt (settingsBase + 8) (le2 (if last then 0 else n + 1)))

/-- The commit that resets the tuning area to its defaults, or stores the interval in force (R398, Table 18-12). -/
def tuningCommit (hours : Half) (d : Dev) : List Host.Cell :=
  let k := keepAhead d.keep
  let body := cellsAt (tuningBase + 16) (le2 hours.toNat ++ List.replicate (tuningLen - 18) 0)
  headed k tuningBase tuningLen (tuningFormat d) (keepNat k (tuningBase + 4) 4 + 1) body

/-- The sequence of the copy taken of a dual-copy area, 0 where none is valid. -/
def takenSeq (k : Keep) (area : Nat) : Nat :=
  match copyTaken k (copyA area) (copyB area) (copyLen area) with
  | some b => keepNat k (b + 4) 4
  | none => 0

/-- The commits of copy A and copy B of an area's contents below the header (R399). -/
def copyCommits (d : Dev) (area : Nat) (content : Nat → List Host.Cell) : List Host.Cell × List Host.Cell :=
  let k := keepAhead d.keep
  let s := takenSeq k area + 1
  let mk := fun base => headed k base (copyLen area) (keptFormat k base (durableFormat d)) s (content base)
  (mk (copyA area), mk (copyB area))

/-- The tenant records below a copy's header (R492). -/
def tenantCells (d : Dev) (base : Nat) : List Host.Cell :=
  cellsAt (base + 16) ((List.range 64).flatMap fun t =>
    let r := tenantOf d t
    le2 r.cap.toNat ++ [r.prio, 0, 0, 0, 0, 0])

/-- The owner data below a copy's header. The spec gives its contents, not their places (R408; assumption 14). -/
def ownerCells (o : Owner) (base : Nat) : List Host.Cell :=
  cellsAt (base + 16) ((if o.key.length = 32 then o.key else List.replicate 32 0) ++ leBytes o.code.toNat 4
    ++ [BitVec.ofNat 8 o.policy.toNat, BitVec.ofNat 8 (pack [(0, b2n o.enrolled), (1, b2n o.fwlock)])])

/-- A whole copy taken over onto the other one, header and all (R399, R409). -/
def copyOver (k : Keep) (src dst len : Nat) : List Host.Cell := changedCells k (cellsAt dst (keepBytes k src len))

/-! ## Roster records (R391) -/

/-- The 16 bytes of a roster record in a format. -/
def rosterBytes (fmt : Nat) (r : RosterRec) : List Byte :=
  if r.state = 0 then List.replicate 16 0
  else
    euiBytes r.eui
    ++ [BitVec.ofNat 8 (pack [(0, r.cls.toNat), (2, r.tenant.toNat)]),
        BitVec.ofNat 8 (pack [(0, 1), (1, b2n r.calok), (2, b2n r.tempCap), (3, b2n r.calable),
          (4, fmt % 16)])]
    ++ le2 r.stored.toNat ++ [BitVec.ofNat 8 (pack [(0, r.mask.toNat), (4, r.storedLevel.toNat)]), 0]
    ++ le2 r.loopR.toNat ++ le2 r.vmin.toNat

/-- Address of a roster record. -/
def rosterAddr (p : PortId) (i : Nat) : Nat := 0x10000 + (p.toNat * 1024 + i) * 16

/-- The format in which a record is written: that of the running image, which never lowers the one a used record holds (R398). -/
def recordFormat (d : Dev) (k : Keep) (a : Nat) : Nat :=
  let b := keepNat k (a + 7) 1
  let f := (durableFormat d).toNat % 16
  if bit b 0 then Nat.max f (b / 16) else f

/-- The cells of the roster page that holds a record. -/
def rosterPageCells (d : Dev) (k : Keep) (p : PortId) (pg : Nat) : List Host.Cell :=
  let first := (pg - 512 - p.toNat * 128) * 8
  (List.range 8).flatMap fun j =>
    let a := rosterAddr p (first + j)
    cellsAt a (rosterBytes (recordFormat d k a) (rosterOf (d.port p) (first + j)))

/-- The commit of one roster page. -/
def rosterCommit (d : Dev) (p : PortId) (pg : Nat) : List Host.Cell :=
  let k := keepAhead d.keep
  let ws := rosterPageCells d k p pg
  let ch := changedCells k ws
  if ch.isEmpty then ws.take 1 else ch

/-- A roster record from its bytes; its ceiling follows from the resistance it carries (`storedCeiling`). -/
def rosterFrom (l : List Byte) : RosterRec :=
  let b := fun i => (l.getD i 0).toNat
  let h := fun i => BitVec.ofNat 16 (b i + 256 * b (i + 1))
  if bit (b 7) 0 then
    { state := 1, eui := payEui l 0, cls := BitVec.ofNat 2 (b 6), tenant := BitVec.ofNat 6 (b 6 / 4)
      calok := bit (b 7) 1, tempCap := bit (b 7) 2, calable := bit (b 7) 3, stored := h 8
      mask := BitVec.ofNat 4 (b 10), storedLevel := BitVec.ofNat 2 (b 10 / 16), loopR := h 12, vmin := h 14, temp := 0x8000 }
  else {}

/-- The roster of a port as Keep-E holds it. -/
def loadRoster (k : Keep) (p : PortId) : Sparse RosterRec :=
  ((List.range 1024).map fun i => (i, rosterFrom (keepBytes k (rosterAddr p i) 16))).filter fun (_, r) => r != {}

/-! ## Reading the areas at a start (R399, R490, R493) -/

/-- A value in a range, else its default. -/
def ranged (lo hi dflt v : Nat) : Nat := if lo ≤ v ∧ v ≤ hi then v else dflt

/-- A port's registers and settings from its block, with IFAST and ILIM reduced under R247. -/
def portFrom (b : List Byte) (q : Port) : Port :=
  let n := fun i k => leNat ((b.drop i).take k)
  let h := fun i => h16 (n i 2)
  clampFast { q with
    ctl := { q.ctl with lmax := BitVec.ofNat 2 (n 14 1), fixed := bit (n 14 1) 2, ps2 := bit (n 14 1) 3
                        term := BitVec.ofNat 2 (n 14 1 / 16), auto := bit (n 14 1) 6 }
    cfg := { q.cfg with
      shunt := BitVec.ofNat 32 (n 0 4), xfer := if bit (n 8 1) 0 then some (h 4, h 6) else none
      autoRole := (roleOfCode (BitVec.ofNat 2 (n 15 1))).getD .off, fixedF := h 22, hubReserve := h 24
      uncalCeil := h 26, rm := BitVec.ofNat 32 (n 28 4), segLen := h 32, ringLen := h 34
      ringOrient := if bit (n 36 1) 0 then some (bit (n 36 1) 1) else none }
    grd := { q.grd with ilim := h 10, ifast := h 12, auto := bit (n 16 1) 2 }
    rail := { q.rail with en := bit (n 16 1) 0 }
    ring := { q.ring with en := bit (n 16 1) 1 }
    drp := { q.drp with win := BitVec.ofNat 6 (n 17 1), stepCodes := BitVec.ofNat 6 (n 18 1), en := bit (n 16 1) 3 }
    line := { q.line with bper := BitVec.ofNat 7 (ranged 2 64 8 (n 19 1 % 128)), enr := BitVec.ofNat 2 (n 20 1) } }

/-- A bundle record from its bytes. -/
def bundleFrom (b : List Byte) (r : BundleRec) : BundleRec :=
  let h := fun i => h16 (leNat ((b.drop i).take 2))
  let m := (h 2).toNat
  { r with limit := h 0, m0 := bit m 0, m1 := bit m 1, en := bit m 15, len := h 4, wires := h 6, amb := h 8, tau := h 10 }

/-- A thermal point from its bytes. -/
def ntcFrom (b : List Byte) (r : NtcPoint) : NtcPoint :=
  { r with limit := h16 (leNat (b.take 2)), en := bit (leNat ((b.drop 2).take 1)) 0 }

/-- The pieces that a bitmap marks. -/
def piecesFrom (b : List Byte) : List Nat := (List.range 256).filter fun i => bit (b.getD (i / 8) 0).toNat (i % 8)

/-- Class caps of a port. -/
def capsFrom (k : Keep) (p : PortId) (q : Port) : Port :=
  let c := fun n => h16 (keepNat k (0x190A0 + 8 * p.toNat + 2 * n) 2)
  { q with cap0 := c 0, cap1 := c 1, cap2 := c 2, cap3 := c 3 }

/-- The device-wide settings. -/
def deviceFrom (k : Keep) (d : Dev) : Dev :=
  let n := fun a l => keepNat k a l
  let w := BitVec.ofNat 8 (n 0x19093 1)
  let torn := n 0x192C0 2
  { d with
    gl := { d.gl with shelf := h16 (n 0x19090 2) }
    gang := { d.gang with mode := BitVec.ofNat 2 (ranged 0 2 0 (n 0x19092 1 % 4)), id := BitVec.ofNat 4 (n 0x19092 1 / 4)
                          weight := if w = 0 then 1 else w }
    tb := { d.tb with
      ntcA0 := ntcFrom (keepBytes k 0x19104 4) d.tb.ntcA0, ntcB0 := ntcFrom (keepBytes k 0x19108 4) d.tb.ntcB0
      ntcA1 := ntcFrom (keepBytes k 0x1910C 4) d.tb.ntcA1, ntcB1 := ntcFrom (keepBytes k 0x19110 4) d.tb.ntcB1
      hotLimit := (List.range 16).foldl (fun s i => spSet 0x0118 s (16 + i) (h16 (n (0x19140 + 4 * i) 2))) d.tb.hotLimit
      bundles := (List.range 8).foldl (fun s g =>
        spSet {} s g (bundleFrom (keepBytes k (0x19180 + 16 * g) 12) (spGet {} s g))) d.tb.bundles }
    fwu := { d.fwu with
      vmin := h16 (n 0x19094 2), tHealth := h16 (n 0x19096 2), hostconf := bit (n 0x19098 1) 0
      header := if bit (n 0x192C2 1) 0 then keepBytes k 0x19200 160 else []
      held := if bit (n 0x192C2 1) 0 then piecesFrom (keepBytes k 0x192A0 32) else []
      torn := if torn = 0xFFFF then none else some torn, rx := bit (n 0x192C2 1) 0 } }

/-- The durable settings are taken from Keep-E (R493); a stale CRC is due for a rewrite. -/
def loadSettings (d : Dev) : Dev :=
  let k := d.keep
  if areaUnwritten k settingsBase settingsLen then d
  else
    let d1 := deviceFrom k ((d.modPort .p0 fun q => capsFrom k .p0 (portFrom (keepBytes k 0x19010 64) q)).modPort .p1
      fun q => capsFrom k .p1 (portFrom (keepBytes k 0x19050 64) q))
    if areaCrcOk k settingsBase settingsLen then d1 else dueSettings d1

/-- The scrub interval that the tuning area holds; an unwritten one, and a value out of range, leave the default (R493). -/
def tuningHours (k : Keep) : Half :=
  if areaUnwritten k tuningBase tuningLen then 24 else h16 (ranged 1 168 24 (keepNat k (tuningBase + 16) 2))

/-- The tuning settings are taken from Keep-E (R493). -/
def loadTuning (d : Dev) : Dev := { d with keep := { d.keep with scrubHours := tuningHours d.keep } }

/-! ## Migration (R398, R470) -/

/-- A copy of a dual-copy area is taken whose format is older than the image's. -/
def copyOlder (d : Dev) (area : Nat) : Bool :=
  match copyTaken d.keep (copyA area) (copyB area) (copyLen area) with
  | some b => decide (keepNat d.keep b 2 < (durableFormat d).toNat)
  | none => false

/-- The first roster page of a port with a used record of an older format. -/
def olderPage (d : Dev) (p : PortId) : Option Nat :=
  (List.range 128).find? fun i => (List.range 8).any fun j =>
    let b := keepNat d.keep (rosterAddr p (8 * i + j) + 7) 1
    bit b 0 && decide (b / 16 < (durableFormat d).toNat % 16)

/-- What of the durable settings is of an older format than the running image's: 0 the settings area, 1 and 2 the roster records of
the two ports, 3, 4 and 5 the dual-copy areas. -/
def olderArea (d : Dev) (a : Nat) : Bool :=
  match a with
  | 0 => !areaUnwritten d.keep settingsBase settingsLen && decide (keepNat d.keep settingsBase 2 < (durableFormat d).toNat)
  | 1 => (olderPage d .p0).isSome
  | 2 => (olderPage d .p1).isSome
  | _ => copyOlder d (a - 3)

/-- The tuning area's format differs from the running image's (R398). -/
def tuningDiffers (d : Dev) : Bool :=
  !areaUnwritten d.keep tuningBase tuningLen && decide (keepNat d.keep tuningBase 2 ≠ (tuningFormat d).toNat)

/-- The migration and the tuning reset that an image begins at its first start, and after a handover once the allocator has resumed
(R398, R470). -/
def beginMigration (d : Dev) : Dev :=
  { d with keep := { d.keep with
    due := d.keep.due ++ ((List.range 6).filter (olderArea d)).map Due.migrate ++ (if tuningDiffers d then [Due.tuningReset] else []) } }

/-- The tenants from the copy taken; none valid leaves the defaults (R399). -/
def loadTenants (d : Dev) : Dev :=
  let k := d.keep
  match copyTaken k (copyA 1) (copyB 1) (copyLen 1) with
  | none => d
  | some b =>
    { d with tb := { d.tb with tenants := (List.range 64).foldl (fun s t =>
        spSet {} s t { spGet {} s t with cap := h16 (keepNat k (b + 16 + 8 * t) 2)
                                         prio := BitVec.ofNat 8 (keepNat k (b + 18 + 8 * t) 1) }) d.tb.tenants } }

/-- The owner data from the copy taken; none valid reads as no owner enrolled. -/
def loadOwner (d : Dev) : Dev :=
  let k := d.keep
  match copyTaken k (copyA 2) (copyB 2) (copyLen 2) with
  | none => { d with gl := { d.gl with owner := {} } }
  | some b =>
    let fl := keepNat k (b + 53) 1
    { d with gl := { d.gl with owner :=
      { enrolled := bit fl 0, key := if bit fl 0 then keepBytes k (b + 16) 32 else []
        code := BitVec.ofNat 32 (keepNat k (b + 48) 4), policy := BitVec.ofNat 2 (keepNat k (b + 52) 1), fwlock := bit fl 1 } } }

/-- A copy of a dual-copy area is stale or invalid beside a valid one (R399). -/
def copyStale (k : Keep) (area : Nat) : Bool :=
  let va := copyValid k (copyA area) (copyLen area)
  let vb := copyValid k (copyB area) (copyLen area)
  (va || vb) && (!va || !vb || decide (keepNat k (copyA area + 4) 4 ≠ keepNat k (copyB area + 4) 4))

/-- The rewrites that a start owes (R399). -/
def dueCopies (d : Dev) : Dev :=
  { d with keep := { d.keep with due := d.keep.due ++ (([0, 1, 2].filter (copyStale d.keep)).map Due.copyFix) } }

/-- The dual-copy areas that have been written and of which no copy is valid: the firmware uses the defaults and posts
KEEP_POISON for their groups found poisoned (chapter 18, Edges). -/
def lostAreas (k : Keep) : List Nat :=
  ([0, 1, 2].filter fun a => copyTaken k (copyA a) (copyB a) (copyLen a) = none
      ∧ (areaBlank k (copyA a) = false ∨ areaBlank k (copyB a) = false)).flatMap
    fun a => (groupsOf (copyA a) (copyLen a) ++ groupsOf (copyB a) (copyLen a)).filter (groupPoisoned k)

/-- Everything that Keep gives registers and tables after ROMBOOT. -/
def loadKeep (d : Dev) : Dev :=
  let d1 := dueCopies (loadOwner (loadTenants (loadTuning (loadSettings d))))
  let k := d1.keep
  let ctl := leNat (readBytes k.e 0x3209 1)
  let bp := leNat (readBytes k.e 0x3208 1)
  let d2 := { d1 with keep := { k with bp := BitVec.ofNat 2 bp, pfch := BitVec.ofNat 4 ctl, pfen := bit ctl 4 } }
  d2.bothPorts fun p d => d.modPort p fun q =>
    { q with roster := (loadRoster k p).map fun (i, r) => (i, storedCeiling q r) }

/-! ## A KEEPWIN change of a setting (R493) -/

/-- A function applied where two values differ. -/
def onChange {α : Type} [DecidableEq α] (a b : α) (f : Dev → Dev) (d : Dev) : Dev := if a = b then d else f d

/-- A new ceiling below the current of the contract at LEVEL.CUR withdraws it (R290), which THROT.CEILING shows (R292). -/
def ceilingActs (p : PortId) (i : Idx) (d : Dev) : Dev :=
  let q := d.port p
  let c := contractOf q i.toNat
  if c.held ∧ withinMa c.power.toNat q.lev.cur (rosterOf q i.toNat).ceil.toNat = false then
    withdrawContract 3 p i (d.modPort p fun q => { q with ceilAt := some d.us })
  else d

/-- New ceilings for a port's endpoints: the changed records are due to Keep, and each ceiling acts (R285, R290, R291). -/
def newCeilings (p : PortId) (f : Port → RosterRec → RosterRec) (d : Dev) : Dev :=
  foldDev (fun x d =>
    let r := f (d.port p) x.2
    if r = x.2 then d
    else
      let i := BitVec.ofNat 10 x.1
      ceilingActs p i (dirtyPage p i (d.modPort p (setRoster x.1 r))))
    ((d.port p).roster.filter fun x => x.2.state != 0) d

/-- The uncalibrated ceiling of an endpoint whose CALOK is 0 (R285). -/
def uncalCeiling (q : Port) (r : RosterRec) : RosterRec := if r.calok then r else { r with ceil := q.cfg.uncalCeil }

/-- The changed fields of a port block, each as if its register had been written. -/
def applyPort (p : PortId) (old new : List Byte) (d : Dev) : Dev :=
  let o := portFrom old {}
  let n := portFrom new {}
  let cfg := fun (f : PortSet → PortSet) (d : Dev) => relieve (d.modPort p fun q => clampFast { q with cfg := f q.cfg })
  onChange o.ctl.lmax n.ctl.lmax (writeLmax p n.ctl.lmax) d
  |> onChange o.ctl.fixed n.ctl.fixed (writeFixed p n.ctl.fixed)
  |> onChange o.ctl.ps2 n.ctl.ps2 (writePs2 p n.ctl.ps2)
  |> onChange o.ctl.term n.ctl.term (fun d => d.modPort p fun q => { q with ctl := { q.ctl with term := n.ctl.term } })
  |> onChange o.ctl.auto n.ctl.auto (writeAuto p n.ctl.auto)
  |> onChange o.cfg.autoRole n.cfg.autoRole (cfg fun c => { c with autoRole := n.cfg.autoRole })
  |> onChange o.cfg.shunt n.cfg.shunt (cfg fun c => { c with shunt := n.cfg.shunt })
  |> onChange o.cfg.xfer n.cfg.xfer (cfg fun c => { c with xfer := n.cfg.xfer })
  |> onChange o.cfg.fixedF n.cfg.fixedF (cfg fun c => { c with fixedF := n.cfg.fixedF })
  |> onChange o.cfg.hubReserve n.cfg.hubReserve (cfg fun c => { c with hubReserve := n.cfg.hubReserve })
  |> onChange o.cfg.uncalCeil n.cfg.uncalCeil (newCeilings p uncalCeiling ∘ cfg fun c => { c with uncalCeil := n.cfg.uncalCeil })
  |> onChange o.cfg.rm n.cfg.rm (newCeilings p ringLoop ∘ cfg fun c => { c with rm := n.cfg.rm })
  |> onChange o.cfg.segLen n.cfg.segLen (cfg fun c => { c with segLen := n.cfg.segLen })
  |> onChange o.cfg.ringLen n.cfg.ringLen (newCeilings p ringLoop ∘ cfg fun c => { c with ringLen := n.cfg.ringLen })
  |> onChange o.cfg.ringOrient n.cfg.ringOrient (cfg fun c => { c with ringOrient := n.cfg.ringOrient })
  |> onChange o.grd.ifast n.grd.ifast (writeIfast p n.grd.ifast)
  |> onChange o.grd.ilim n.grd.ilim (writeIlim p n.grd.ilim)
  |> onChange o.grd.auto n.grd.auto (guardAuto n.grd.auto p)
  |> onChange o.rail.en n.rail.en (writeRailEn p n.rail.en)
  |> onChange o.ring.en n.ring.en (fun d => newCeilings p ringLoop (d.modPort p fun q => { q with ring := { q.ring with en := n.ring.en } }))
  |> onChange o.drp.win n.drp.win (fun d => d.modPort p fun q => { q with drp := { q.drp with win := n.drp.win } })
  |> onChange o.drp.stepCodes n.drp.stepCodes
      (fun d => d.modPort p fun q => { q with drp := { q.drp with stepCodes := n.drp.stepCodes } })
  |> onChange o.drp.en n.drp.en (fun d => d.modPort p fun q => { q with drp := { q.drp with en := n.drp.en } })
  |> onChange o.line.bper n.line.bper (fun d => d.modPort p fun q => { q with line := { q.line with bper := n.line.bper } })
  |> onChange o.line.enr n.line.enr (fun d => d.modPort p fun q => { q with line := { q.line with enr := n.line.enr } })

/-- GANG.MODE and ID take new values: a device that leaves mode 0 listens first, and one in mode 0 drives nothing (R320). -/
def gangModeAct (now : Nat) (old new : Gang) : Gang :=
  if new.mode = 0 then { new with phase := .silent, leader := false, alone := false, count := 0, modeIn := 0, kept := false }
  else if old.mode = 0 then { new with phase := .listening now 0, kept := false }
  else new

/-- What a field holds after a commit that took Keep-E's value for it from one to another: the new one where they differ,
else what is in force, a default among them (R490, R493). -/
def taken {α : Type} [DecidableEq α] (old new cur : α) : α := if old = new then cur else new

/-- The class caps of a port after a commit. -/
def takeCaps (o n q : Port) : Port :=
  { q with cap0 := taken o.cap0 n.cap0 q.cap0, cap1 := taken o.cap1 n.cap1 q.cap1
           cap2 := taken o.cap2 n.cap2 q.cap2, cap3 := taken o.cap3 n.cap3 q.cap3 }

/-- A thermal point after a commit. -/
def takeNtc (o n r : NtcPoint) : NtcPoint := { r with limit := taken o.limit n.limit r.limit, en := taken o.en n.en r.en }

/-- A bundle group after a commit. -/
def takeBundle (o n r : BundleRec) : BundleRec :=
  { r with limit := taken o.limit n.limit r.limit, m0 := taken o.m0 n.m0 r.m0, m1 := taken o.m1 n.m1 r.m1
           en := taken o.en n.en r.en, len := taken o.len n.len r.len, wires := taken o.wires n.wires r.wires
           amb := taken o.amb n.amb r.amb, tau := taken o.tau n.tau r.tau }

/-- The global tables after a commit. -/
def takeTables (o n t : Tables) : Tables :=
  { t with
    ntcA0 := takeNtc o.ntcA0 n.ntcA0 t.ntcA0, ntcB0 := takeNtc o.ntcB0 n.ntcB0 t.ntcB0
    ntcA1 := takeNtc o.ntcA1 n.ntcA1 t.ntcA1, ntcB1 := takeNtc o.ntcB1 n.ntcB1 t.ntcB1
    hotLimit := (List.range 16).foldl (fun s i =>
      spSet 0x0118 s (16 + i) (taken (spGet 0x0118 o.hotLimit (16 + i)) (spGet 0x0118 n.hotLimit (16 + i))
        (spGet 0x0118 s (16 + i)))) t.hotLimit
    bundles := (List.range 8).foldl (fun s g =>
      spSet {} s g (takeBundle (spGet {} o.bundles g) (spGet {} n.bundles g) (spGet {} s g))) t.bundles }

/-- Each field of the device is taken from Keep-E where a commit changed it. -/
def applyDevice (k0 k1 : Keep) (d : Dev) : Dev :=
  let o := deviceFrom k0 d
  let n := deviceFrom k1 d
  let g := { d.gang with mode := taken o.gang.mode n.gang.mode d.gang.mode, id := taken o.gang.id n.gang.id d.gang.id
                         weight := taken o.gang.weight n.gang.weight d.gang.weight }
  relieve
    { d with
      gl := { d.gl with shelf := taken o.gl.shelf n.gl.shelf d.gl.shelf }
      gang := if g = d.gang then d.gang else gangModeAct d.us d.gang g
      fwu := { d.fwu with vmin := taken o.fwu.vmin n.fwu.vmin d.fwu.vmin
                          tHealth := taken o.fwu.tHealth n.fwu.tHealth d.fwu.tHealth
                          hostconf := taken o.fwu.hostconf n.fwu.hostconf d.fwu.hostconf }
      p0 := takeCaps (capsFrom k0 .p0 d.p0) (capsFrom k1 .p0 d.p0) d.p0
      p1 := takeCaps (capsFrom k0 .p1 d.p1) (capsFrom k1 .p1 d.p1) d.p1
      tb := takeTables o.tb n.tb d.tb }

/-- Within 100 ms of a durable KEEPWIN commit, its changed settings act, and the header of a settings area it touched is
due for a rewrite (R493). -/
def keepwinApply (ws : List Host.Cell) (k0 : Keep) (d : Dev) : Dev :=
  let k1 := d.keep
  let touched := fun base len => ws.any fun (a, _) => decide (base ≤ a ∧ a < base + len)
  if touched settingsBase settingsLen then
    dueSettings (applyDevice k0 k1
      (applyPort .p1 (keepBytes k0 0x19050 64) (keepBytes k1 0x19050 64)
        (applyPort .p0 (keepBytes k0 0x19010 64) (keepBytes k1 0x19010 64) d)))
  else if touched tuningBase tuningLen then
    { d with keep := { k1 with scrubHours := h16 (ranged 1 168 24 (keepNat k1 (tuningBase + 16) 2)), due := k1.due ++ [.tuning] } }
  else d

end Sys2Proof.Machine
end

