-- ==== Sys2Proof/Machine/Park.lean ====
section
/-! DEFINITION. Keep-S stores (R48, R351, R405, R406, Table 18-5) and PARK (R98, R99, R337, Table 04-7). -/

namespace Sys2Proof.Machine

open Sys2Proof

/-! ## Keep-S -/

/-- An EMETER record of a port. -/
def emeterOf (q : Port) (i : Nat) : EmeterRec := spGet {} q.emeter i

/-- The bytes that the firmware puts into Keep-S at a store (R332, R351, Table 18-5); the places within the header are
the model's (assumption 15). -/
def storeImage (d : Dev) : List Host.Cell :=
  let seq := Nat.max d.keep.shadowA.seq d.keep.shadowB.seq + 1
  cellsAt 0 (leBytes seq 4 ++ leBytes (d.keep.snapNum.toNat + 1) 4 ++ leBytes (tally d.keep 1) 4
    ++ leBytes (shelfShare d) 4 ++ leBytes d.msCount.toNat 4)
  ++ ((List.range 2048).flatMap fun h =>
      cellsAt (0x40 + 6 * h) (leBytes (emeterOf (if h < 1024 then d.p0 else d.p1) (h % 1024)).mj.toNat 6))
  ++ ((List.range 64).flatMap fun t => cellsAt (0x3040 + 6 * t) (leBytes (tenantOf d t).mj.toNat 6))

/-- A store that cannot start, or whose bank is found unfinished (R406): SFAIL, tally 13, KEEP_SFAIL. -/
def storeFailed (d : Dev) : Dev :=
  postGlobal 0x33 0 0 true (setG gKeep { d with keep := tallyInc 13 { d.keep with sfail := true } })

/-- The bank that a store writes: the older one (R405). -/
def olderIsB (k : Keep) : Bool := decide (k.shadowB.seq < k.shadowA.seq)

/-- A store begins (R405): the SRAM as it stands goes into the older bank, marked BEGUN. -/
def beginStore (d : Dev) : Dev :=
  let s := writeCells d.keep.s (storeImage d)
  let b := olderIsB d.keep
  let mark := fun (x : Shadow) => { x with begun := true, done := false, data := s }
  let k := { d.keep with s := s, snapNum := d.keep.snapNum + 1, store := some (b, d.us) }
  { d with keep := if b then { k with shadowB := mark k.shadowB } else { k with shadowA := mark k.shadowA } }

/-- A request for a store: ignored while one runs, subject to R48. -/
def requestStore (d : Dev) : Dev :=
  if d.keep.store.isSome then d else if d.pw.sready then beginStore d else storeFailed d

/-- The bank of a store is marked DONE with a new store sequence (R405, R406). -/
def finishStore (k : Keep) : Keep :=
  match k.store with
  | none => k
  | some (b, _) =>
    let seq := Nat.max k.shadowA.seq k.shadowB.seq + 1
    let mark := fun (x : Shadow) => { x with done := true, seq := seq }
    let k1 := { k with store := none, sfail := false }
    tallyInc 12 (if b then { k1 with shadowB := mark k1.shadowB } else { k1 with shadowA := mark k1.shadowA })

/-- The copy pointer of a store, in bytes: one group every 3.8 µs after the BEGUN mark (R405). -/
def storePointer (start now : Nat) : Nat := ((now - start - 100) * 10 / 38) * 8

/-- A core write of Keep-S; a store that runs takes it where its pointer has not passed (R405). -/
def writeS (a : Nat) (l : List Byte) (now : Nat) (k : Keep) : Keep :=
  let k1 := { k with s := writeBytes k.s a l }
  match k.store with
  | some (b, t) =>
    if storePointer t now ≤ a then
      if b then { k1 with shadowB := { k1.shadowB with data := writeBytes k1.shadowB.data a l } }
      else { k1 with shadowA := { k1.shadowA with data := writeBytes k1.shadowA.data a l } }
    else k1
  | none => k1

/-! ## PARK (Table 04-7) -/

/-- Every ring feeder's swap of step 1 has ended. -/
def swapsDone (d : Dev) : Bool := !(d.p0.ringFeeder && d.p0.rail.swapReq) && !(d.p1.ringFeeder && d.p1.rail.swapReq)

/-- Every ring feeder has opened its path (step 2). -/
def handedOff (d : Dev) : Bool :=
  (!d.p0.ringFeeder || decide (d.p0.gate = .opened)) && (!d.p1.ringFeeder || decide (d.p1.gate = .opened))

/-- Step 3: each FEED port is taken to OFF under R95; the other ports wait for step 5. -/
def parkFeeds (d : Dev) : Dev :=
  d.bothPorts fun p d => if (d.port p).role = .feed then leaveRole p d else d

/-- Step 5: the DRAW port goes to OFF, the device is parked on the gang bus (R338), and PARKED is reported (R98, R99). -/
def parkFinish (d : Dev) : Dev :=
  let d1 := d.bothPorts leaveRole
  let d2 := { d1 with gl := { d1.gl with park := none }
                      gang := { d1.gang with parked := true, phase := .silent, leader := false, slotDue := false, kept := false } }
  postGlobal 0x05 (b2n d2.keep.sfail) 0 false (setG gParked d2)

/-- Step 4: once no commit is pending, the Keep-S store; if it cannot start, PARKED follows at once (R99). -/
def parkStore (d : Dev) : Dev :=
  if d.keep.run.isSome || d.keep.queue != [] || d.keep.store.isSome then d
  else
    let d1 := requestStore d
    if d1.keep.store.isSome then { d1 with gl := { d1.gl with park := some .storing } } else parkFinish d1

/-- Steps 3 and 4 begin once every ring feeder has handed its segment over. -/
def parkAfterHandOff (d : Dev) : Dev :=
  if handedOff d then
    let d1 := parkFeeds d
    parkStore { d1 with gl := { d1.gl with park := some .store } }
  else d

/-- PARK goes on as far as it can. -/
def parkAdvance (d : Dev) : Dev :=
  match d.gl.park with
  | none => d
  | some .rail =>
    if swapsDone d then parkAfterHandOff { d with gl := { d.gl with park := some (.handOff d.us) } } else d
  | some (.handOff _) => parkAfterHandOff d
  | some .store => parkStore d
  | some .storing => d

/-- Step 1: each ring feeder that supplies the tap rail asks for a swap (R238). -/
def parkRails (d : Dev) : Dev := d.bothPorts fun p d => if (d.port p).master then requestSwap p d else d

/-- A PARK that is not under way begins. -/
def beginPark (d : Dev) : Dev := parkAdvance (parkRails { d with gl := { d.gl with park := some .rail, parkWaits := false } })

/-- Writing MODE_REQ.PARK 1 (R98): in HANDOVER it waits; in SAFE, and while one is under way, it has no effect. -/
def writePark (d : Dev) : Dev :=
  if d.gl.safe || parking d then d
  else if d.fwu.hand.isSome then { d with gl := { d.gl with parkWaits := true } }
  else beginPark d

/-- PARK (R98). -/
def execPark (s : State) : Answer := onDev (fun d => byHost 3 writePark d) s

/-- A feeder's part in step 2 is over: 30 ms after its zero-budget PEER_REPORT (R337), or where no peer gap let it send one, at
95 ms, within the bound of Table 04-7 (assumption 131). -/
def handOffOver (d : Dev) (p : PortId) : Bool :=
  match (d.port p).ring.handOff, d.gl.park with
  | some t, _ => decide (t + 30000 ≤ d.us)
  | none, some (.handOff t) => (d.port p).ringFeeder && decide (t + 95000 ≤ d.us)
  | none, _ => false

/-- PARK_HANDOFF_TIMEOUT (R337). -/
def execParkHandoffTimeout (p : PortId) (s : State) : Answer :=
  onDev (fun d => guardDev (handOffOver d p) (fun d => parkAdvance (d.modPort p openPath)) d) s

/-- KEEP_CTL_STORE (R405). -/
def execKeepCtlStore (s : State) : Answer := onDev (fun d => byHost 19 requestStore d) s

/-- KEEP_S_STORE_DONE (R405): 7.6 ms after the start at the earliest; the store of PARK step 4 ends the PARK, and the end of
another store lets step 4 go on (R98). -/
def execKeepSStoreDone (s : State) : Answer :=
  onDev (fun d =>
    guardDev (match d.keep.store with | some (_, t) => decide (t + 7600 ≤ d.us) | none => false)
      (fun d =>
        let d1 := { d with keep := finishStore d.keep }
        match d1.gl.park with
        | some .storing => parkFinish d1
        | some .store => parkStore d1
        | _ => d1) d) s

/-- SREADY_CHANGE (R48). -/
def execSreadyChange (ready : Bool) (s : State) : Answer :=
  onDev (fun d => { d with pw := { d.pw with sready := ready } }) s

end Sys2Proof.Machine
end

