-- ==== Sys2Proof/Machine/Keep.lean ====
section
/-! DEFINITION. Keep's commands (chapter 18, R107, R313 to R315): issuing, starting and finishing commits, high temperature,
block protection, the scrubber, and the critical latch. -/

namespace Sys2Proof.Machine

open Sys2Proof

/-! ## What the end of a commit means to its issuer -/

/-- The outcome of the mailbox command that runs is known. -/
def mbxOutcome (r : Byte) (res : List Half) (d : Dev) : Dev :=
  { d with mbx := { d.mbx with outcome := some (r, res), waits := false } }

/-- The mailbox command that waits for a commit ends with an outcome; a command of another kind is left alone. -/
def mbxEnds (r : Byte) (res : List Half) (d : Dev) : Dev := if d.mbx.waits then mbxOutcome r res d else d

/-- The owner data take effect once copy B is durable (R408); an enrolment closes the lock. -/
def ownerApplies (o : Owner) (closes : Bool) (d : Dev) : Dev :=
  mbxEnds 0 [] { d with gl := { d.gl with owner := o, lockOpen := if closes then false else d.gl.lockOpen } }

/-- The end of a durable commit, by what it was for; a migration goes on with its next page (R398). -/
def commitEnds (c : Commit) (k0 : Keep) (d : Dev) : Dev :=
  match c.tag with
  | .keepwin => keepwinApply c.writes k0 { d with win := { d.win with busy := false, err := false, ecode := 0 } }
  | .ownerB o c => ownerApplies o c d
  | .mailbox => { d with mbx := { d.mbx with waits := false } }
  | .restore g => postGlobal 0x30 1 (h16 g) true d
  | .firmware => d
  | .due (.migrate a) => if olderArea d a then { d with keep := { d.keep with due := d.keep.due ++ [.migrate a] } } else d
  | .due _ => d
  | .ownerA _ => d

/-- The reception state and the scrub interval stand again as Keep-E will hold them (R457): their commit was refused. -/
def rereadReception (d : Dev) : Dev :=
  let k := keepAhead d.keep
  let n := if areaUnwritten k settingsBase settingsLen then ({} : Fwu) else (deviceFrom k d).fwu
  let h := tuningHours k
  { d with fwu := { d.fwu with header := n.header, held := n.held, torn := n.torn, rx := n.rx }
           keep := { d.keep with scrubHours := h } }

/-- A change is due again once KEEP_STAT.HOT clears (R107). -/
def dueLater (x : Due) (d : Dev) : Dev :=
  if d.keep.dueHot.contains x then d else { d with keep := { d.keep with dueHot := d.keep.dueHot ++ [x] } }

/-- A commit ends without being durable: its issuer learns of it. A KEEPWIN commit reads ECODE 8; TCTL.BUSY clears at once,
so that its bound of R104 holds (assumption 60). -/
def commitLost (d1 : Dev) (c : Commit) : Dev :=
  match c.tag with
  | .keepwin => { d1 with win := { d1.win with busy := false, err := true, ecode := 8 } }
  | .ownerA _ => mbxEnds 0x05 [] d1
  | .ownerB _ _ => mbxEnds 0x05 [] d1
  | .mailbox => mbxEnds 0x05 [] (rereadReception d1)
  | .due x => dueLater x d1
  | .restore g => postGlobal 0x30 0 (h16 g) true d1
  | .firmware => d1

/-- A commit is refused after it was queued (R393). -/
def commitRefused (d : Dev) (c : Commit) : Dev := commitLost (keepRefused 1 d) c

/-- The DONE header makes the running commit durable (R395). -/
def commitDurable (d : Dev) : Dev :=
  match d.keep.run with
  | none => d
  | some r =>
    let k0 := d.keep
    let k1 := cleanGroups r.commit.writes { commitWrites (commitLength r) r k0 with run := none, dseq := r.num.setWidth 8 }
    let d1 := setG gKeep <| raise 5 { d with keep := tallyInc 8 k1, fwu := { d.fwu with durable := d.fwu.durable || decide (d.fwu.durableFrom < r.num.toNat) } }
    parkAdvance (commitEnds r.commit k0 (postGlobal 0x31 0 (r.num.setWidth 16) false d1))

/-- KEEP_DURABLE (R395). -/
def execKeepDurable (s : State) : Answer := onDev commitDurable s

/-! ## Issue and start -/

/-- The commits of the queue besides a KEEPWIN commit, the one that runs among them (R393). -/
def queueUse (k : Keep) : Nat :=
  (k.queue.filter fun c => c.tag != .keepwin).length
    + (match k.run with | some r => b2n (r.commit.tag != .keepwin) | none => 0)

/-- The queue of four has room for n more commits of the firmware, which leaves the fourth place to a KEEPWIN commit: that
one waits behind three at most (R104, R393; assumption 60). -/
def queueRoom (n : Nat) (d : Dev) : Bool := decide (queueUse d.keep + n ≤ 3)

/-- KEEP_COMMIT_ISSUE (R392, R393): the firmware issues a closed commit where the queue has room. -/
def execKeepCommitIssue (writes : List (Nat × Byte)) (s : State) : Answer :=
  onDev (fun d =>
    guardDev (d.core.run && commitSized writes && queueRoom 1 d)
      (fun d => (issue ⟨writes, .firmware⟩ d).2) d) s

/-- The commit at the front of the queue starts (R393, R394); none starts while a rollback is unresolved (R397). -/
def startCommit (d : Dev) : Dev :=
  match d.keep.run, d.keep.rollback, d.keep.queue with
  | none, none, c :: t =>
    let num := d.keep.lastNum + 1
    let r : Running := { commit := c, num := num, pages := pagesOf c.writes [], hdr := d.keep.jptr }
    { d with keep := sysCommit num { d.keep with
        queue := t, run := some r, lastNum := num, jptr := (d.keep.jptr + 1 + 2 * r.pages.length) % 64 } }
  | _, _, _ => d

/-- KEEP_COMMIT_START (R394). -/
def execKeepCommitStart (s : State) : Answer := onDev (fun d => guardDev d.up startCommit d) s

/-! ## Changes due in Keep-E (R70, R107, R399, R400) -/


/-- A due change is issued as one commit or two; refused for HOT, it is due again once HOT clears (R107). -/
def issueDue (x : Due) (cs : List Commit) (d : Dev) : Dev :=
  if queueRoom cs.length d then
    let d0 := { d with keep := { d.keep with due := d.keep.due.erase x } }
    match cs with
    | [] => d0
    | c :: t =>
      let hot := d0.gl.crit && !commitProtected d0.keep.bp c.writes
      let (ok, d1) := issue c d0
      if ok then t.foldl (fun d c => (issue c d).2) d1
      else if hot then dueLater x d1 else d1
  else d

/-- The page of a roster record is written whole (R400). -/
def issueRosterPage (p : PortId) (pg : Nat) (x : Due) (d : Dev) : Dev :=
  let d1 := issueDue x [⟨rosterCommit d p pg, .due x⟩] d
  { d1 with keep := { d1.keep with pageDirty := d1.keep.pageDirty.filter (· != pg) } }

/-- The commit or the two that convert the next page of an older area (R398, R470). -/
def migrateCommits (a : Nat) (d : Dev) : List Commit :=
  let x := Due.migrate a
  let page := fun (p : PortId) =>
    match olderPage d p with
    | some i => [⟨rosterCommit d p (512 + p.toNat * 128 + i), .due x⟩]
    | none => []
  let two := fun (area : Nat) (content : Nat → List Host.Cell) =>
    let (u, v) := copyCommits d area content
    [⟨u, .due x⟩, ⟨v, .due x⟩]
  match a with
  | 0 => if olderArea d 0 then [⟨migrateCommit d, .due x⟩] else []
  | 1 => page .p0
  | 2 => page .p1
  | 3 => two 0 fun _ => []
  | 4 => two 1 (tenantCells d)
  | _ => two 2 (ownerCells d.gl.owner)

/-- The tuning area is reset to defaults in one commit (R398); a refused one leaves the image on the older format (R470). -/
def issueTuningReset (d : Dev) : Dev :=
  let n := d.keep.queue.length
  let d1 := issueDue .tuningReset [⟨tuningCommit 24 d, .due .tuningReset⟩] d
  if n < d1.keep.queue.length then { d1 with keep := { d1.keep with scrubHours := 24 } } else d1

/-- The commits that a due change needs, as the device stands. -/
def issueNext (d : Dev) : Dev :=
  match d.keep.due with
  | [] => d
  | x :: _ =>
    match x with
    | .roster p i => issueRosterPage p (rosterPage p i) x d
    | .tenant _ =>
      let (a, b) := copyCommits d 1 (tenantCells d)
      issueDue x [⟨a, .due x⟩, ⟨b, .due x⟩] d
    | .settings => issueDue x [⟨settingsCommit d, .due x⟩] d
    | .tuning => issueDue x [⟨tuningCommit d.keep.scrubHours d, .due x⟩] d
    | .tuningReset => issueTuningReset d
    | .migrate a => issueDue x (migrateCommits a d) d
    | .copyFix a =>
      let k := keepAhead d.keep
      match copyTaken k (copyA a) (copyB a) (copyLen a) with
      | none => issueDue x [] d
      | some src =>
        let dst := if src = copyA a then copyB a else copyA a
        let ws := copyOver k src dst (copyLen a)
        issueDue x (if ws.isEmpty then [] else [⟨ws, .due x⟩]) d

/-- TABLE_DURABLE_COMMIT (R107). -/
def execTableDurableCommit (s : State) : Answer := onDev (fun d => guardDev d.core.run issueNext d) s

/-- The first roster record of a page, whose rewrite is due where the page's commit is refused. -/
def pageDue (p : PortId) (page : BitVec 7) : Due := .roster p (BitVec.ofNat 10 (8 * page.toNat))

/-- ROSTER_PAGE_WRITE (R400): a page with a changed stored contract or calibration value, at most every 6 h; refused for
HOT, it is due again once HOT clears. -/
def execRosterPageWrite (p : PortId) (page : BitVec 7) (s : State) : Answer :=
  onDev (fun d =>
    let pg := 512 + p.toNat * 128 + page.toNat
    let free := match spFind d.keep.pageAt pg with | some t => decide (t + 21240000000 ≤ d.us) | none => true
    guardDev (d.core.run && d.keep.pageDirty.contains pg && free && queueRoom 1 d)
      (fun d =>
        let hot := d.gl.crit && !commitProtected d.keep.bp (rosterCommit d p pg)
        let d0 := (issue ⟨rosterCommit d p pg, .due (pageDue p page)⟩ d).2
        let d1 := if hot then dueLater (pageDue p page) d0 else d0
        { d1 with keep := { d1.keep with pageDirty := d1.keep.pageDirty.filter (· != pg), pageAt := spPut d1.keep.pageAt pg d.us } })
      d) s

/-! ## High temperature (R397, R312 to R315) -/

/-- KHOT_RISE (R397): the engine finishes the page it is writing; a commit whose DONE header is among the pages written is
complete. -/
def execKhotRise (pages : Nat) (s : State) : Answer :=
  onDev (fun d =>
    let d1 := { d with gl := { d.gl with khot := true } }
    match d1.keep.run with
    | none => d1
    | some r => if commitLength r ≤ pages then commitDurable d1
                else commitLost { d1 with keep := stopCommit pages r d1.keep } r.commit) s

/-- KHOT_CLEAR (R397): the held LOG entries go to the ring in order, then a rollback runs. -/
def execKhotClear (s : State) : Answer :=
  onDev (fun d =>
    guardDev d.gl.khot (fun d =>
      let k := { d.keep.held.foldl (fun k l => logRing l k) d.keep with held := [] }
      let k1 := match k.rollback with | some r => rollBack r k | none => k
      { d with gl := { d.gl with khot := false }, keep := k1 }) d) s

/-- A critical trip refuses every commit queued and not started (R393). -/
def refuseQueue (d : Dev) : Dev :=
  d.keep.queue.foldl commitRefused { d with keep := { d.keep with queue := [] } }

/-- A crossing of 140 °C that finds the latch clear (R312, R313). -/
def critTrip (d : Dev) : Dev :=
  let d1 := setG gCrit { d with gl := { d.gl with crit := true }, keep := sysCrit true (tallyInc 5 d.keep) }
  refuseQueue (enterSafe 5 d1)

/-- CRITICAL_TRIP (R312): with the latch set it sets GSTAT.CRIT again and does nothing else; in DORMANT nothing runs. -/
def execCriticalTrip (s : State) : Answer :=
  onDev (fun d => guardDev d.pw.supply (fun d => if d.gl.crit then setG gCrit d else critTrip d) d) s

/-- CCLR (R314, R315): the latch and its group clear, CRIT_CLEAR, changes held for HOT are due again (R107), and SAFE is
left where EOFF is clear. -/
def criticalClear (d : Dev) : Dev :=
  if d.gl.crit && d.gl.rel && d.keep.rollback.isNone then
    let k := sysCrit false d.keep
    let d1 := { d with gl := { d.gl with crit := false }, keep := { k with due := k.due ++ k.dueHot, dueHot := [] } }
    leaveSafe (postGlobal 0x04 0 0 true d1)
  else d

/-- CCLR (R314). -/
def execCclr (s : State) : Answer := onDev (fun d => byHost 3 criticalClear d) s

/-- THERM_REL_CHANGE (R314). -/
def execThermRelChange (rel : Bool) (s : State) : Answer :=
  onDev (fun d => { d with gl := { d.gl with rel := rel } }) s

/-- TDIE_UPDATE (R491). -/
def execTdieUpdate (temp : Half) (s : State) : Answer :=
  onDev (fun d => guardDev (d.up && decide (d.us % 1000 = 0)) (fun d => { d with gl := { d.gl with tdie := temp } }) d) s

/-! ## Block protection and the trigger (R389, R407) -/

/-- A write of KEEP_CTL.BP: raising always takes effect, lowering only with the owner lock open (Table 04-3, R407). -/
def writeBp (bp : BitVec 2) (d : Dev) : Dev :=
  if bp < d.keep.bp && !lockOpens d then bpRefused d
  else { d with keep := sysCtl { d.keep with bp := bp, bperr := false } }

/-- BLOCK_PROTECT_WRITE (R407). -/
def execBlockProtectWrite (bp : BitVec 2) (s : State) : Answer := onDev (fun d => byHost 19 (writeBp bp) d) s

/-- A comparator channel. -/
def chanOf (d : Dev) (c : Nat) : Chan := spGet {} d.cmp.chans c

/-- The tick runs: TICK.RUN, or a trigger is assigned (R378, R388). -/
def ticking (d : Dev) : Bool := d.cmp.run || d.keep.pfen

/-- TICK.PER in µs; 0 is treated as 1 (Table 04-3). -/
def tickPeriod (d : Dev) : Nat := Nat.max 1 d.cmp.per.toNat

/-- A tick that begins to run has its first tick one period later (R378; DESIGN CHOICE, assumption 29). -/
def tickFrom (d0 d : Dev) : Dev :=
  if ticking d && !ticking d0 then { d with cmp := { d.cmp with tickAt := d.us + tickPeriod d } } else d

/-- A write of PFEN and PFCH (R389): armed at once only where the channel's output is 0. -/
def assignTrigger (en : Bool) (ch : BitVec 4) (d : Dev) : Dev :=
  tickFrom d { d with
    keep := sysCtl { d.keep with pfen := en, pfch := ch }
    cmp := { d.cmp with armed := en && !(chanOf d ch.toNat).out, zeroAt := d.us, fired := false } }

/-- POWER_FAIL_TRIGGER_ASSIGN (R389). -/
def execPowerFailTriggerAssign (en : Bool) (ch : BitVec 4) (s : State) : Answer :=
  onDev (fun d => byHost 19 (assignTrigger en ch) d) s

/-- POWER_FAIL_TRIGGER (R389): the output rose while armed; a store starts, subject to R48, and the trigger disarms. -/
def execPowerFailTrigger (s : State) : Answer :=
  onDev (fun d =>
    guardDev (d.keep.pfen && d.cmp.fired)
      (fun d => requestStore { d with cmp := { d.cmp with armed := false, fired := false } }) d) s

/-- POWER_FAIL_REARM (R389): the output has read 0 at every decision for 1 s, low bound 0.99. -/
def execPowerFailRearm (s : State) : Answer :=
  onDev (fun d =>
    guardDev (d.keep.pfen && !d.cmp.armed && !d.cmp.fired && !(chanOf d d.keep.pfch.toNat).out
        && decide (d.cmp.zeroAt + 990000 ≤ d.us))
      (fun d => { d with cmp := { d.cmp with armed := true } }) d) s

/-! ## The scrubber (R409) -/

/-- Writing KEEP_CTL.SCRUB 1: the pass restarts at group 0 and runs within 10 s (R409). -/
def scrubRestart (d : Dev) : Dev := { d with keep := sysScrub 0 { d.keep with scrubFast := true, scrubLater := [] } }

/-- KEEP_CTL_SCRUB (R409). -/
def execKeepCtlScrub (s : State) : Answer := onDev (byHost 19 scrubRestart) s

/-- The dual-copy area a group lies in, with the copy's base. -/
def copyAround (g : Nat) : Option (Nat × Nat) :=
  let inside := fun b len => decide (b ≤ 8 * g ∧ 8 * g < b + len)
  ([0, 1, 2].find? fun a => inside (copyA a) (copyLen a) || inside (copyB a) (copyLen a)).map fun a =>
    (a, if inside (copyA a) (copyLen a) then copyA a else copyB a)

/-- An uncorrectable group (R409): poisoned and counted; restored from the other copy of a dual-copy area where that is
valid, and reported. -/
def scrubBad (g : Nat) (d : Dev) : Dev :=
  let k := { d.keep with bad := if d.keep.bad.contains g then d.keep.bad else d.keep.bad ++ [g] }
  let d1 := { d with keep := if (poisonEntries k).any (poisonHits · g) then k else poisonAdd g false k }
  let fix := match copyAround g with
    | some (a, base) =>
      let src := if base = copyA a then copyB a else copyA a
      if copyValid d1.keep src (copyLen a) then some (cellsAt base (keepBytes d1.keep src (copyLen a))) else none
    | none => none
  match fix with
  | some ws =>
    let (ok, d2) := issue ⟨ws, .restore g⟩ d1
    if ok then d2 else postGlobal 0x30 0 (h16 g) true d2
  | none => postGlobal 0x30 0 (h16 g) true d1

/-- What the scrubber does to one group; a corrected group holds the same data. -/
def scrubVisit (g : Nat) (r : EccResult) (d : Dev) : Dev :=
  match r with
  | .clean => d
  | .correctable => { d with keep := eWrite (8 * g) (readBytes d.keep.e (8 * g) 8) d.keep }
  | .uncorrectable => scrubBad g d

/-- A group lies in a page of the commit that runs. -/
def inRunning (k : Keep) (g : Nat) : Bool := match k.run with | some r => r.pages.contains (g / 16) | none => false

/-- The pass goes on to the next group. -/
def scrubNext (g : Nat) (d : Dev) : Dev :=
  let k := sysScrub ((g + 1) % 16384) d.keep
  { d with keep := { k with scrubFast := k.scrubFast && decide (g ≠ 16383), scrubAt := d.us } }

/-- The next group is due: a pass spreads its 16384 groups over the scrub interval; a requested pass, which is to end within
10 s, takes each as it comes (R409). -/
def scrubDue (d : Dev) : Bool :=
  d.keep.scrubFast || decide (d.keep.scrubAt + d.keep.scrubHours.toNat * 3600000000 / 16384 ≤ d.us)

/-- SCRUB_GROUP (R409): a group skipped for a running commit is visited after it; else the next of the pass when it is due. -/
def execScrubGroup (r : EccResult) (s : State) : Answer :=
  onDev (fun d =>
    guardDev d.up (fun d =>
      match d.keep.run, d.keep.scrubLater with
      | none, g :: t => scrubVisit g r { d with keep := { d.keep with scrubLater := t } }
      | _, _ =>
        let g := scrubPos d.keep
        if !scrubDue d then d
        else if inRunning d.keep g then scrubNext g { d with keep := { d.keep with scrubLater := d.keep.scrubLater ++ [g] } }
        else scrubNext g (scrubVisit g r d)) d) s

end Sys2Proof.Machine
end

