-- ==== Sys2Proof/Machine/Image.lean ====
section
/-! DEFINITION. Firmware images (R450 to R454): the header of an image, its verification, the delta format, the build, and
the status records of the banks. -/

namespace Sys2Proof.Machine

open Sys2Proof

/-! ## Image header (Table 21-3) -/

/-- A slice of some bytes. -/
def slice (l : List Byte) (i n : Nat) : List Byte := (l.drop i).take n

/-- T, the image length. -/
def imgT (l : List Byte) : Nat := bytesNat l 12 4
/-- The version word: [31:16] epoch, [15:0] build. -/
def imgVersion (l : List Byte) : Word := BitVec.ofNat 32 (bytesNat l 8 4)
/-- The epoch. -/
def imgEpoch (l : List Byte) : Nat := bytesNat l 10 2
/-- The code section. -/
def imgCode (l : List Byte) : List Byte := slice l (bytesNat l 16 4) (bytesNat l 20 4)
/-- The entry address. -/
def imgEntry (l : List Byte) : Nat := bytesNat l 24 4
/-- The two sequencer sections, one after the other. -/
def imgSeq (l : List Byte) : List Byte :=
  slice l (bytesNat l 28 4) (bytesNat l 32 4) ++ slice l (bytesNat l 36 4) (bytesNat l 40 4)
/-- b96 to b127, the digest of the sequencer microcode. -/
def imgSeqDigest (l : List Byte) : List Byte := slice l 96 32
/-- D as the header holds it. -/
def imgDigest (l : List Byte) : List Byte := slice l 128 32

/-- A section lies within 256 to T - 1. -/
def sectionIn (t off len : Nat) : Bool := decide (256 ≤ off ∧ off + len ≤ t)

/-- Two sections do not overlap. -/
def sectionsApart (o1 l1 o2 l2 : Nat) : Bool := decide (o1 + l1 ≤ o2 ∨ o2 + l2 ≤ o1 ∨ l1 = 0 ∨ l2 = 0)

/-- Magic, format, ranges and sections (R453). -/
def imageFields (l : List Byte) : Bool :=
  let t := imgT l
  let co := bytesNat l 16 4
  let cl := bytesNat l 20 4
  let ao := bytesNat l 28 4
  let al := bytesNat l 32 4
  let bo := bytesNat l 36 4
  let bl := bytesNat l 40 4
  decide (bytesNat l 0 4 = 0x4E534931) && decide (bytesNat l 4 2 = 1) && decide (bytesNat l 6 2 = 256)
    && decide (512 ≤ t ∧ t ≤ 262144 ∧ t % 4 = 0 ∧ t ≤ l.length)
    && decide (cl ≤ 131072 ∧ imgEntry l < cl ∧ al ≤ 16384 ∧ bl ≤ 16384) && decide (bytesNat l 48 1 ≤ 1)
    && sectionIn t co cl && sectionIn t ao al && sectionIn t bo bl
    && sectionsApart co cl ao al && sectionsApart co cl bo bl && sectionsApart ao al bo bl

/-- The digests match the image (R453). -/
def imageDigests (l : List Byte) : Bool :=
  decide (Config.sha256 (imgCode l) = slice l 64 32) && decide (Config.sha256 (imgSeq l) = imgSeqDigest l)
    && decide (Config.sha256 (slice l 0 128 ++ slice l 256 (imgT l - 256)) = imgDigest l)

/-- The key that a signing-key code names, where the owner's policy permits it (R453). -/
def signingKey (o : Owner) (code : Nat) : Option (List Byte) :=
  if code = 0 then (if o.enrolled = true ∧ o.policy = 1 then none else some Config.vendorKey)
  else if code = 1 then (if o.enrolled = true ∧ o.policy ≠ 2 then some o.key else none)
  else none

/-- A message is signed by a permitted key. -/
def signedBy (o : Owner) (code : Nat) (msg sig : List Byte) : Bool :=
  match signingKey o code with
  | some k => Config.ed25519Verify k msg sig
  | none => false

/-- Why an image fails verification (R453): none, REFUSE 6 for its epoch, 7 for anything else. -/
def imageFault (d : Dev) (l : List Byte) : Option (BitVec 3) :=
  if imageFields l && imageDigests l && signedBy d.gl.owner (bytesNat l 48 1) (imgDigest l) (slice l 160 64) then
    if imgEpoch l < tally d.keep 0 then some 6 else none
  else some 7

/-- An image passes verification. -/
def imageOk (d : Dev) (l : List Byte) : Bool := (imageFault d l).isNone

/-! ## Banks (R451, R452) -/

/-- The device's banks with one changed. -/
def modBank (b : Bool) (g : Bank → Bank) (d : Dev) : Dev :=
  { d with fwu := if b then { d.fwu with bankB := g d.fwu.bankB } else { d.fwu with bankA := g d.fwu.bankA } }

/-- The valid record with the highest sequence is the newest. -/
def bankState (b : Bank) : BitVec 3 := match b.status with | r :: _ => r.st | [] => 0

/-- Its sequence. -/
def bankSeq (b : Bank) : Nat := match b.status with | r :: _ => r.seq | [] => 0

/-- Appends a status record with the next sequence of both banks (R451). -/
def addRecord (b : Bool) (st : BitVec 3) (d : Dev) : Dev :=
  let seq := Nat.max (bankSeq d.fwu.bankA) (bankSeq d.fwu.bankB) + 1
  modBank b (fun x => { x with status := ⟨st, seq, imgVersion x.image⟩ :: x.status }) d

/-- CONFIRMED or RECOVERED: a bank that a start may select (R452). -/
def bankQualifies (b : Bank) : Bool := decide (bankState b = 3) || decide (bankState b = 5)

/-- The bank that ROMBOOT selects (R452, R66). -/
def selectBank (f : Fwu) : Option Bool :=
  match bankQualifies f.bankA, bankQualifies f.bankB with
  | true, true => some (decide (bankSeq f.bankA < bankSeq f.bankB))
  | true, false => some false
  | false, true => some true
  | false, false => none

/-- FWU_STAT.OTHER: the inactive bank holds a verified image (Table 04-3, R466). -/
def otherHolds (d : Dev) : Bool :=
  let b := bankOf d.fwu (!d.fwu.active)
  decide (bankState b ≠ 0) && decide (bankState b ≠ 4) && imageOk d b.image

/-! ## Delta header (Table 21-4) -/

def deltaN (h : List Byte) : Nat := bytesNat h 6 2
def deltaL (h : List Byte) : Nat := bytesNat h 8 4
def deltaT (h : List Byte) : Nat := bytesNat h 20 4
def deltaEpoch (h : List Byte) : Nat := bytesNat h 18 2

/-- Every field of a delta header lies in its range, and N, L and T agree (R455). -/
def deltaFields (h : List Byte) : Bool :=
  decide (bytesNat h 0 4 = 0x4E534432) && decide (bytesNat h 4 2 = 1) && decide (1 ≤ deltaN h ∧ deltaN h ≤ 252)
    && decide (1024 * (deltaN h - 1) + 1 ≤ deltaL h ∧ deltaL h ≤ 1024 * deltaN h)
    && decide (512 ≤ deltaT h ∧ deltaT h ≤ 262144 ∧ deltaT h % 4 = 0) && decide (bytesNat h 24 1 ≤ 1)

/-- Bytes of piece i of a delta (R454). -/
def pieceLen (h : List Byte) (i : Nat) : Nat := if i + 1 = deltaN h then deltaL h - 1024 * (deltaN h - 1) else 1024

/-- The body of a delta from its pieces. -/
def deltaBody (b : Bank) (n : Nat) : List Byte := (List.range n).flatMap fun i => (spFind b.delta i).getD []

/-- The build of R454, operation by operation; `fuel` counts operations, at most one for each 8 bytes of the body. -/
def buildFrom (src : List Byte) (t : Nat) : Nat → List Byte → List Byte → Option (List Byte)
  | 0, _, _ => none
  | fuel + 1, body, out =>
    if body.length < 8 then none
    else
      let op := bytesNat body 0 1
      let n := bytesNat body 1 3
      let off := bytesNat body 4 4
      let rest := body.drop 8
      if op = 1 then
        if src.length < off + n ∨ t < out.length + n then none else buildFrom src t fuel rest (out ++ slice src off n)
      else if op = 2 then
        let pad := (n + 3) / 4 * 4
        if rest.length < pad ∨ t < out.length + n then none else buildFrom src t fuel (rest.drop pad) (out ++ rest.take n)
      else if op = 3 then
        if rest = [] ∧ out.length = t ∧ n = 0 ∧ off = 0 then some out else none
      else none

/-- The target image of a delta. -/
def buildTarget (src body : List Byte) (t : Nat) : Option (List Byte) := buildFrom src t (body.length / 8 + 1) body []

end Sys2Proof.Machine
end

