-- ==== Sys2Proof/Machine/Firmware.lean ====
section
/-! DEFINITION. The mailbox (R91, Table 04-5) and its commands: ECHO, the update commands FWU_BEGIN, FWU_PIECE, FWU_APPLY
and FWU_CANCEL (R455 to R463), and the owner and Keep commands (R408). -/

namespace Sys2Proof.Machine

open Sys2Proof

/-! ## The mailbox -/

/-- A mode of Table 04-5 accepts a command. No rule says what becomes of an OP that the table does not list: as it is
accepted in no mode, it ends in ERROR with 0x01 (the model's choice, assumption 62). -/
def mbxAccepts (op : Byte) (mode : Nat) : Bool :=
  if op = 0x01 then decide (2 ≤ mode ∧ mode ≤ 11)
  else if op = 0x10 ∨ op = 0x11 ∨ op = 0x12 then decide (3 ≤ mode ∧ mode ≤ 9)
  else if op = 0x13 then decide (3 ≤ mode ∧ mode ≤ 10)
  else if op = 0x18 then decide (mode = 2)
  else if op = 0x20 ∨ op = 0x21 ∨ op = 0x22 then decide (3 ≤ mode ∧ mode ≤ 11)
  else if op = 0x28 then decide (mode = 3)
  else false

/-- The mailbox can be reached: in RECOVERY too (R28). -/
def mbxReach (d : Dev) : Bool := busLive d && (d.up || decide (d.pw.phase = .recovery))

/-- A command begins (R91): an overrun ends it with 0x03, a wrong mode with 0x01. -/
def beginMbx (v : Half) (d : Dev) : Dev :=
  let op : Byte := v.setWidth 8
  let m := { d.mbx with op := op, tag := (v >>> 8).setWidth 8, state := 1, results := [], waits := false, overrun := false }
  { d with mbx := { m with outcome :=
    if d.mbx.overrun then some (0x03, []) else if mbxAccepts op (modeOf d) then none else some (0x01, []) } }

/-- MBX_DONE (R91): STATE, RESULT and the results; GSTAT.MBX; the event. -/
def mbxDone (r : Byte) (res : List Half) (d : Dev) : Dev :=
  let st : BitVec 2 := if r = 0 then 2 else 3
  let m := { d.mbx with state := st, result := r, results := res.take 63, outcome := none, args := [] }
  postGlobal 0x06 st.toNat (BitVec.ofNat 16 (d.mbx.tag.toNat * 256 + r.toNat)) false (setG gMbx { d with mbx := m })

/-- A build is abandoned: FWU_STAT.APPLY clears; its bank was emptied when it began (R462). -/
def abandonBuild (d : Dev) : Dev := { d with fwu := { d.fwu with apply := none } }

/-- A write of MBX_CMD (R91): ignored while BUSY, but for FWU_CANCEL during a build, which ends the FWU_APPLY in progress with 0x14 and
runs itself (R461; assumption 129). -/
def writeMbxCmd (v : Half) (d : Dev) : Dev :=
  if d.mbx.state = 1 then
    (if d.fwu.apply.isSome ∧ v.setWidth 8 = (0x13 : Byte) then beginMbx v (mbxDone 0x14 [] (abandonBuild d)) else d)
  else beginMbx v d

/-- A write of MBX_ARG (R91). -/
def writeMbxArg (v : Half) (d : Dev) : Dev :=
  if d.mbx.state = 1 then d
  else if d.mbx.args.length < 1024 then { d with mbx := { d.mbx with args := d.mbx.args ++ [v] } }
  else { d with mbx := { d.mbx with overrun := true } }

/-- MBX_ARG_WRITE (R91). -/
def execMbxArgWrite (v : Half) (s : State) : Answer := onDev (fun d => guardDev (mbxReach d) (writeMbxArg v) d) s

/-- A read of MBX_ARG: the next result word; 0x0000 before the first command since reset, while STATE is IDLE (Table 04-3);
with no result of a command left the spec states no value (assumption 5). -/
def readMbxArg (d : Dev) : Half × Dev :=
  match d.mbx.results with
  | w :: t => (w, { d with mbx := { d.mbx with results := t } })
  | [] => if d.mbx.state = 0 then (0, d) else let (x, d1) := takeFree d; (x.setWidth 16, d1)

/-- What a read drives onto the data pins. -/
def drive (x : Half × Dev) : Dev := { x.2 with pw := { x.2.pw with rdata := some x.1 } }

/-- A host read (R28, R82): it drives the word it returns, and 0x0000 where the mode does not let the register be
reached. -/
def hostRead (reach : Bool) (f : Dev → Half × Dev) (d : Dev) : Dev :=
  if busLive d then drive (if reach then f d else (0, d)) else d

/-- MBX_ARG_READ (R91, R28). -/
def execMbxArgRead (s : State) : Answer := onDev (fun d => hostRead (mbxReach d) readMbxArg d) s

/-- The mailbox serves commands: not while a core restart runs (R368). -/
def mbxServes (d : Dev) : Bool := d.core.restart.isNone && (d.up || decide (d.pw.phase = .recovery))

/-- A command of this opcode runs and has no outcome yet. -/
def mbxRuns (op : Byte) (d : Dev) : Bool :=
  mbxServes d && decide (d.mbx.state = 1) && d.mbx.op == op && d.mbx.outcome.isNone && !d.mbx.waits

/-- MBX_DONE (R91). -/
def execMbxDone (s : State) : Answer :=
  onDev (fun d =>
    match d.mbx.outcome with
    | some (r, res) => guardDev (mbxServes d && decide (d.mbx.state = 1) && !d.mbx.waits) (mbxDone r res) d
    | none => d) s

/-- ECHO (R91). -/
def execEcho (s : State) : Answer :=
  onDev (fun d => guardDev (mbxRuns 0x01 d)
    (fun d => if d.mbx.args.length ≤ 63 then mbxOutcome 0 d.mbx.args d else mbxOutcome 0x03 [] d) d) s

/-- The bytes of argument words: byte 2k in [7:0] of word k (R455). -/
def argBytes (l : List Half) : List Byte := l.flatMap fun w => le2 w.toNat

/-! ## Reception (R457 to R461) -/

/-- A refusal ends the command with 0x10 (R456). -/
def refuseUpdate (r : BitVec 3) (d : Dev) : Dev := mbxOutcome 0x10 [] (fwuRefused r d)

/-- LOCK.FWLOCK holds the firmware (Table 21-7, 5). -/
def fwLocked (d : Dev) : Bool := d.gl.owner.fwlock && !lockOpens d

/-- On hold-up (Table 21-7, 4). -/
def onHoldUp (d : Dev) : Bool := d.keep.pfen && !d.cmp.armed

/-- FWU_STAT.PROG (R459). -/
def fwuProg (f : Fwu) : Nat :=
  if f.rx then Nat.min 255 (256 * f.held.length / deltaN f.header) else 0

/-- A new reception state is committed before the result that depends on it (R457): the command waits for it, or ends with
0x05 and nothing changed. A change of FWU_STAT.RX or PROG sets GSTAT.FWU (Table 04-3). -/
def commitReception (f : Fwu) (r : Byte) (res : List Half) (after : Dev → Dev) (d : Dev) : Dev :=
  let d1 := { d with fwu := f }
  let (ok, d2) := issue ⟨settingsCommit d1, .mailbox⟩ d1
  if ok then
    let d3 := if (fwuProg f, f.rx) = (fwuProg d.fwu, d.fwu.rx) then d2 else setG gFwu d2
    after { d3 with mbx := { d3.mbx with outcome := some (r, res), waits := true } }
  else mbxOutcome 0x05 [] { d2 with fwu := d.fwu }

/-- FWU_BEGIN (R458). -/
def fwuBegin (storeOk : Bool) (d : Dev) : Dev :=
  let h := argBytes d.mbx.args
  if d.mbx.args.length ≠ 80 ∨ deltaFields h = false then mbxOutcome 0x03 [] d
  else if d.gl.safe then refuseUpdate 2 d
  else if fwLocked d then refuseUpdate 5 d
  else if deltaEpoch h < tally d.keep 0 then refuseUpdate 6 d
  else if signedBy d.gl.owner (bytesNat h 24 1) (h.take 96) (slice h 96 64) = false then refuseUpdate 7 d
  else if slice h 32 32 ≠ imgDigest (runningImage d) then mbxOutcome 0x11 [] d
  else if d.fwu.rx = true ∧ slice d.fwu.header 64 32 = slice h 64 32 then
    mbxOutcome 0 [h16 d.fwu.held.length, h16 (deltaN d.fwu.header)] d
  else if d.fwu.pend then mbxOutcome 0x16 [] d
  else if !storeOk then mbxOutcome 0x15 [] d
  else
    let d1 := modBank (!d.fwu.active) (fun b => { b with delta := [] }) d
    commitReception { d1.fwu with header := h, held := [], torn := none, rx := true } 0 [0, h16 (deltaN h)] (postFwu 0) d1

/-- FWU_BEGIN (R458). -/
def execFwuBegin (storeOk : Bool) (s : State) : Answer :=
  onDev (fun d => guardDev (mbxRuns 0x10 d && queueRoom 1 d) (fwuBegin storeOk) d) s

/-- The arguments of a piece command: index, length, prefix, data; none where they are malformed (R455). -/
def pieceArgs (l : List Half) : Option (Nat × List Byte × List Byte) :=
  let i := (l.getD 0 0).toNat
  let n := (l.getD 1 0).toNat
  if 1 ≤ n ∧ n ≤ 1024 ∧ l.length = 6 + (n + 1) / 2 then
    some (i, argBytes ((l.drop 2).take 4), (argBytes (l.drop 6)).take n)
  else none

/-- The first 8 bytes of the SHA-256 of the data match (R459). -/
def prefixOk (pre data : List Byte) : Bool := decide ((Config.sha256 data).take 8 = pre)

/-- A new piece (R459 step 4): the torn index is committed, the piece programmed, then the bitmap committed. -/
def storePiece (i : Nat) (data : List Byte) (storeOk : Bool) (d : Dev) : Dev :=
  let f := d.fwu
  let d1 := { d with fwu := { f with torn := some i } }
  let (ok, d2) := issue ⟨settingsCommit d1, if storeOk then .due .settings else .mailbox⟩ d1
  if !ok then mbxOutcome 0x05 [] { d2 with fwu := f }
  else if !storeOk then { d2 with mbx := { d2.mbx with outcome := some (0x15, []), waits := true } }
  else
    let d3 := modBank (!f.active) (fun b => { b with delta := spPut b.delta i data }) d2
    let held := f.held ++ [i]
    commitReception { d3.fwu with torn := none, held := held } 0 [h16 held.length]
      (fun d => if held.length = deltaN f.header then postFwu 1 d else d) d3

/-- FWU_PIECE (R459). -/
def fwuPiece (vin : Nat) (storeOk : Bool) (d : Dev) : Dev :=
  match pieceArgs d.mbx.args with
  | none => mbxOutcome 0x03 [] d
  | some (i, pre, data) =>
    if vin < d.fwu.vmin.toNat then refuseUpdate 3 d
    else if onHoldUp d then refuseUpdate 4 d
    else if !d.fwu.rx then mbxOutcome 0x12 [] d
    else if deltaN d.fwu.header ≤ i ∨ data.length ≠ pieceLen d.fwu.header i then mbxOutcome 0x03 [] d
    else if !prefixOk pre data then mbxOutcome 0x13 [] d
    else if d.fwu.held.contains i then mbxOutcome 0 [h16 d.fwu.held.length] d
    else if d.fwu.pend then mbxOutcome 0x16 [] d
    else storePiece i data storeOk d

/-- FWU_PIECE (R459). -/
def execFwuPiece (vin : Nat) (storeOk : Bool) (s : State) : Answer :=
  onDev (fun d => guardDev (mbxRuns 0x11 d && queueRoom 2 d) (fwuPiece vin storeOk) d) s


/-- Reception is closed (R461): header and bitmap clear, RX 0. -/
def closedReception (f : Fwu) : Fwu := { f with header := [], held := [], torn := none, rx := false }

/-- FWU_CANCEL outside HANDOVER (R461). -/
def cancelReception (d : Dev) : Dev :=
  if d.fwu.rx then commitReception (closedReception d.fwu) 0 [] (setG gFwu) d else mbxOutcome 0 [] d

/-- FWU_CANCEL (R461): in HANDOVER it acts when HANDOVER ends. -/
def execFwuCancel (s : State) : Answer :=
  onDev (fun d => guardDev (mbxRuns 0x13 d && queueRoom 1 d) (fun d =>
    if d.mbx.args ≠ [] then mbxOutcome 0x03 [] d
    else if d.fwu.hand.isSome then { d with fwu := { d.fwu with cancelDue := true }, mbx := { d.mbx with waits := true } }
    else cancelReception d) d) s

/-! ## Apply (R462, R463) -/

/-- A handover to the BUILT bank is asked for. -/
def askHandover (waits : Bool) (d : Dev) : Dev := { d with fwu := { d.fwu with handReq := some (d.us, waits) } }

/-- The inactive bank holds a BUILT image. -/
def hasBuilt (d : Dev) : Bool := decide (bankState (bankOf d.fwu (!d.fwu.active)) = 1)

/-- The body of the delta received. -/
def receivedBody (d : Dev) : List Byte := deltaBody (bankOf d.fwu (!d.fwu.active)) (deltaN d.fwu.header)

/-- Steps 4 to 6 of R462: the target built and verified, BUILT recorded, and reception closed. A failure leaves the bank empty. -/
def buildBank (w0 : Half) (storeOk : Bool) (d : Dev) : Dev :=
  let b := !d.fwu.active
  let d1 := abandonBuild d
  if !storeOk then mbxOutcome 0x15 [] d1
  else match buildTarget (runningImage d) (receivedBody d) (deltaT d.fwu.header) with
    | none => refuseUpdate 7 d1
    | some img =>
      match imageFault d img with
      | some r => refuseUpdate r d1
      | none =>
        let d2 := addRecord b 1 (modBank b (fun x => { x with image := img }) d1)
        commitReception { closedReception d2.fwu with other := true } 0 []
          (fun d => let d1 := postFwu 2 d; if w0 = 0 then askHandover false d1 else d1) d2

/-- FWU_APPLY with w0 0 or 1 (R462), steps 2 and 3: the body verified, FWU_STAT.APPLY set, the status sector and the image area
erased. -/
def applyBuild (w0 : Half) (storeOk : Bool) (d : Dev) : Dev :=
  if slice d.fwu.header 64 32 ≠ Config.sha256 (receivedBody d) then
    let d1 := fwuRefused 7 d
    commitReception { d1.fwu with held := [] } 0x10 [] id d1
  else
    let d1 := modBank (!d.fwu.active) (fun x => { x with status := [], image := [] }) { d with fwu := { d.fwu with other := false } }
    if storeOk then { d1 with fwu := { d1.fwu with apply := some w0 } } else mbxOutcome 0x15 [] d1

/-- A build goes on: VIN and the hold-up are checked again, and refuse it or it ends (Table 21-7, R462; assumption 65). -/
def applyGoesOn (w0 : Half) (vin : Nat) (storeOk : Bool) (d : Dev) : Dev :=
  if vin < d.fwu.vmin.toNat then refuseUpdate 3 d
  else if onHoldUp d then refuseUpdate 4 d
  else buildBank w0 storeOk d

/-- The start of an FWU_APPLY (R462): its arguments, the image that awaits confirmation, what it needs, refusals 2 to 5. -/
def fwuApplyStart (vin : Nat) (storeOk : Bool) (d : Dev) : Dev :=
  let w0 := d.mbx.args.getD 0 0
  if d.mbx.args.length ≠ 1 ∨ 2 < w0 then mbxOutcome 0x03 [] d
  else if d.fwu.pend then mbxOutcome 0x16 [] d
  else if w0 = 2 ∧ hasBuilt d = false then mbxOutcome 0x12 [] d
  else if w0 ≠ 2 ∧ (d.fwu.rx = false ∨ d.fwu.held.length ≠ deltaN d.fwu.header) then mbxOutcome 0x12 [] d
  else if d.gl.safe then refuseUpdate 2 d
  else if vin < d.fwu.vmin.toNat then refuseUpdate 3 d
  else if onHoldUp d then refuseUpdate 4 d
  else if fwLocked d then refuseUpdate 5 d
  else if w0 = 2 then { askHandover true d with mbx := { d.mbx with waits := true } }
  else applyBuild w0 storeOk d

/-- FWU_APPLY (R462): its start; where its build runs, the end of the build. -/
def fwuApply (vin : Nat) (storeOk : Bool) (d : Dev) : Dev :=
  match d.fwu.apply with
  | some w0 => applyGoesOn w0 vin storeOk d
  | none => fwuApplyStart vin storeOk d

/-- FWU_APPLY (R462). -/
def execFwuApply (vin : Nat) (storeOk : Bool) (s : State) : Answer :=
  onDev (fun d => guardDev (mbxRuns 0x12 d && queueRoom 1 d) (fwuApply vin storeOk) d) s

/-- HANDOVER_BUSY_TIMEOUT (R456): LEVEL.BUSY held on a port for 500 ms refuses the handover. -/
def execHandoverBusyTimeout (s : State) : Answer :=
  onDev (fun d =>
    match d.fwu.handReq with
    | none => d
    | some (t, waits) =>
      guardDev (decide (t + 500000 ≤ d.us) && (d.p0.lev.step.isSome || d.p1.lev.step.isSome) && !parking d) (fun d =>
        let d1 := fwuRefused 1 { d with fwu := { d.fwu with handReq := none } }
        if waits then mbxEnds 0x10 [] d1 else d1) d) s

/-! ## Owner and Keep commands (R408, Table 18-7) -/

/-- Copy A and then copy B of new owner data are committed; DONE comes with copy B. -/
def commitOwner (o : Owner) (closes : Bool) (d : Dev) : Dev :=
  let (a, b) := copyCommits d 2 (ownerCells o)
  let (ok, d1) := issue ⟨a, .ownerA o⟩ d
  if !ok then mbxOutcome 0x05 [] d1
  else
    let (ok2, d2) := issue ⟨b, .ownerB o closes⟩ d1
    if ok2 then { d2 with mbx := { d2.mbx with waits := true } } else mbxOutcome 0x05 [] d2

/-- OWNER_ENROL (Table 18-7). -/
def ownerEnrol (d : Dev) : Dev :=
  let w := d.mbx.args
  let hi := w.getD 16 0
  let pol := w.getD 18 0
  let removal := w.all (· == 0)
  if w.length ≠ 19 ∨ (removal = false ∧ (hi = 0 ∨ 2 < pol)) then mbxOutcome 0x03 [] d
  else if d.gl.owner.enrolled = true ∧ lockOpens d = false then mbxOutcome 0x04 [] d
  else if removal then commitOwner {} true d
  else commitOwner
    { enrolled := true, key := argBytes (w.take 16), code := BitVec.ofNat 32 (hi.toNat * 65536 + (w.getD 17 0).toNat)
      policy := pol.setWidth 2, fwlock := d.gl.owner.fwlock } true d

/-- OWNER_ENROL (R408). -/
def execOwnerEnrol (s : State) : Answer := onDev (fun d => guardDev (mbxRuns 0x20 d && queueRoom 2 d) ownerEnrol d) s

/-- FWLOCK_SET (Table 18-7). -/
def fwlockSet (d : Dev) : Dev :=
  if d.gl.owner.enrolled then commitOwner { d.gl.owner with fwlock := true } false d else mbxOutcome 0x06 [] d

/-- FWLOCK_SET (R408). -/
def execFwlockSet (s : State) : Answer := onDev (fun d => guardDev (mbxRuns 0x21 d && queueRoom 2 d) fwlockSet d) s

/-- FWLOCK_CLEAR (Table 18-7). -/
def fwlockClear (d : Dev) : Dev :=
  if lockOpens d then commitOwner { d.gl.owner with fwlock := false } false d else mbxOutcome 0x04 [] d

/-- FWLOCK_CLEAR (R408). -/
def execFwlockClear (s : State) : Answer := onDev (fun d => guardDev (mbxRuns 0x22 d && queueRoom 2 d) fwlockClear d) s

/-- KEEP_DEFAULTS (Table 18-7). -/
def keepDefaults (d : Dev) : Dev :=
  let (ok, d1) := issue ⟨tuningCommit 24 d, .mailbox⟩ d
  if ok then { d1 with keep := { d1.keep with scrubHours := 24 }
                       mbx := { d1.mbx with outcome := some (0, []), waits := true } }
  else mbxOutcome 0x05 [] d1

/-- KEEP_DEFAULTS (R408). -/
def execKeepDefaults (s : State) : Answer := onDev (fun d => guardDev (mbxRuns 0x28 d && queueRoom 1 d) keepDefaults d) s

/-! ## Confirming (R466) -/

/-- The running image is confirmed (R466). -/
def confirmImage (d : Dev) : Dev :=
  if d.fwu.pend then
    let k := tallyInc 14 (tallyAdvance 0 (imgEpoch (runningImage d)) d.keep)
    let d1 := addRecord d.fwu.active 3 { d with keep := k, fwu := { d.fwu with pend := false, confirmed := true } }
    let d2 := { d1 with fwu := { d1.fwu with other := otherHolds d1 } }
    postFwu 5 d2
  else d

/-- CONFIRM (R466): while HOSTCONF is 1, a core write is ignored. -/
def execConfirm (byCore : Bool) (s : State) : Answer :=
  onDev (fun d => if byCore then guardDev (d.core.run && !d.fwu.hostconf) confirmImage d else byHost 21 confirmImage d) s

/-- What R467 asks since step 5; a port leaves its role only by a host write or SAFE, both of which count as kept. -/
def selfChecked (d : Dev) : Bool :=
  decide (d.fwu.healthAt + 10000000 ≤ d.us) && !d.fwu.trapped && !d.fwu.passLate && d.fwu.durable
    && (match d.fwu.info with | some i => !i.gangHeard || d.fwu.gleadSeen | none => true)

/-- HEALTH_SELF_CHECK (R467). -/
def execHealthSelfCheck (s : State) : Answer :=
  onDev (fun d => guardDev (d.core.run && !d.fwu.hostconf && selfChecked d) confirmImage d) s

end Sys2Proof.Machine
end

