-- ==== Sys2Proof/Machine/Attach.lean ====
section
/-! DEFINITION. Attach, orientation and detach (chapter 06), the contention pause (R224), a DRAW port's joining and its
silence timeout (R136, R137), and the tap-rail switch's over-current (R221). -/

namespace Sys2Proof.Machine

open Sys2Proof

/-! ## Classification of a probe cycle (R124 to R129) -/

/-- What one wire shows in a cycle. -/
inductive WireBand where
  | rail
  | liveFault
  | opened
  | fault
  | terminated
  | low
  deriving DecidableEq, Repr

/-- The band of a wire (R124, Table 06-2); 2.2 V, which two bands name, is taken as terminated. -/
def wireBand (live : Nat) (v330 : Int) : WireBand :=
  if 3300 < live then (if 4500 ≤ live ∧ live ≤ 5500 then .rail else .liveFault)
  else if 2600 < v330 then .opened
  else if 2200 < v330 then .fault
  else if 350 ≤ v330 then .terminated
  else .low

/-- 250 times the intercept of a wire, mV (R125). -/
def intercept250 (v80 v330 : Int) : Int := 330 * v80 - 80 * v330

/-- The slope Rs of a wire, Ω: the difference of the two levels over 250 µA (R125). -/
def slopeOhm (v80 v330 : Int) : Nat := (4 * (v330 - v80)).toNat

/-- ATTACH.ICPT of an intercept: 10 mV units, a negative one reads 0 (R129). The spec does not say what an intercept above
2.55 V reads: 255 is the model's choice (assumption 113). -/
def icptCode (n : Int) : Byte := BitVec.ofNat 8 (Nat.min 255 (n.toNat / 2500))

/-- The markers of two terminated wires (R127): the absolute test, else the relative one. -/
def markers (a b : Int) : Bool × Bool :=
  if 50000 ≤ a ∨ 50000 ≤ b then (decide (50000 ≤ a), decide (50000 ≤ b))
  else (decide (15000 ≤ a ∧ 15000 ≤ a - b), decide (15000 ≤ b ∧ 15000 ≤ b - a))

/-- Two terminated wires (Table 06-3). -/
def classTerminated (q : Port) (a b : Int) : ProbeClass :=
  match markers a b with
  | (true, false) => .endCap true
  | (false, true) => .endCap false
  | (true, true) => .fault
  | (false, false) =>
    match q.cfg.ringOrient with
    | some o => if q.ring.en then .endCap o else .fault
    | none => .fault

/-- A wire stayed above 1.0 V for the whole of a peer window (R128). -/
def wireHigh (mv : Nat) : Bool := decide (1000 < mv)

/-- The classification of a cycle (Table 06-3). One live rail whose other wire is above 1.0 V in the window while its own band is
a fault or low meets two rows of the table, and two live rails meet none: peer head and fault are the model's choice (assumption
113). -/
def classify (q : Port) (r : ProbeReading) : ProbeClass :=
  match wireBand r.liveA r.a330, wireBand r.liveB r.b330 with
  | .rail, .rail => .fault
  | .rail, .liveFault => .fault
  | .rail, _ => if q.ring.en && wireHigh r.winB then .peerHead true else .fault
  | .liveFault, .rail => .fault
  | _, .rail => if q.ring.en && wireHigh r.winA then .peerHead false else .fault
  | .opened, .opened => .nothing
  | .terminated, .terminated => classTerminated q (intercept250 r.a80 r.a330) (intercept250 r.b80 r.b330)
  | _, _ => .fault

/-- ICPT: the intercept of the wire taken as rail wire, else the larger one (R129). -/
def probeIcpt (c : ProbeClass) (r : ProbeReading) : Byte :=
  let a := intercept250 r.a80 r.a330
  let b := intercept250 r.b80 r.b330
  icptCode (match c with
    | .endCap sigB => if sigB then a else b
    | .peerHead sigB => if sigB then a else b
    | _ => if a < b then b else a)

/-! ## Probing -/

/-- A port with RING.EN 1 and a stored orientation that has not attached since it entered FEED (R224). -/
def pauses (q : Port) : Bool := q.ring.en && q.cfg.ringOrient.isSome && !q.att.everAttached

/-- A cycle that found an end cap or a peer head (R130). -/
def probeFound (c : ProbeClass) (window : Bool) (now : Nat) (a : Attach) : Attach :=
  let same := match a.debounce with | some (c0, _) => c0 == c | none => false
  { a with state := .debouncing, faultSince := none, fruitless := 0, nextProbe := now + 10000
           debounce := if same then a.debounce else some (c, now)
           windows := (if same then a.windows else 0) + b2n window }

/-- A cycle that found nothing or a fault (R130, R132, R224). R132 does not say whether a cycle that finds nothing attached takes
STATE 5 back to 1: it keeps STATE 5 and its one cycle per second, which is the model's choice (assumption 114). -/
def probeMissed (fault pausing : Bool) (now : Nat) (a : Attach) : Attach :=
  let since := if fault then some (a.faultSince.getD now) else none
  let full := match since with | some t => decide (t + 100000 ≤ now) | none => false
  let st : AttachState := if !pausing && (a.state = .fault || full) then .fault else .probing
  { a with state := st, debounce := none, windows := 0, faultSince := since, fruitless := a.fruitless + 10
           nextProbe := now + (if st = .fault then 1000000 else 10000) }

/-- The cycle's result on the port. -/
def probeResult (r : ProbeReading) (now : Nat) (q : Port) : Port :=
  let c := classify q r
  let a := { q.att with icpt := probeIcpt c r }
  { q with att := match c with
      | .endCap sigB => { probeFound c false now a with slope := if sigB then slopeOhm r.b80 r.b330 else slopeOhm r.a80 r.a330 }
      | .peerHead _ => probeFound c true now a
      | .nothing => probeMissed false (pauses q) now a
      | .fault => probeMissed true (pauses q) now a }

/-- A pseudo-random place for a peer window: a free draw below a bound (R123, R133). -/
def drawBelow (n : Nat) (d : Dev) : Nat × Dev :=
  let (v, d1) := takeFree d
  (v.toNat % n, d1)

/-- The peer window of the next cycle starts 4.0 to 9.0 ms into it (R123). -/
def nextWindow (p : PortId) (d : Dev) : Dev :=
  let (n, d1) := drawBelow 5001 d
  d1.modPort p fun q => { q with att := { q.att with windowOff := 4000 + n } }

/-- A probe cycle ends: its result, and on a port with RING.EN 1 the place of the next window (R123). -/
def probeEnds (p : PortId) (r : ProbeReading) (d : Dev) : Dev :=
  let d1 := d.modPort p (probeResult r d.us)
  if (d.port p).ring.en then nextWindow p d1 else d1

/-- PROBE_CYCLE (R123). -/
def execProbeCycle (p : PortId) (r : ProbeReading) (s : State) : Answer :=
  onDev (fun d => guardDev (probes (d.port p) && decide ((d.port p).att.nextProbe ≤ d.us)) (probeEnds p r) d) s

/-- The orientation found is stored on a port with RING.EN 1 (R131). -/
def storeOrient (p : PortId) (sigB : Bool) (d : Dev) : Dev :=
  if (d.port p).ring.en ∧ (d.port p).cfg.ringOrient ≠ some sigB then
    dueSettings (d.modPort p fun q => { q with cfg := { q.cfg with ringOrient := some sigB } })
  else d

/-- ATTACH registers, the flag and the event (R131 steps 1 and 2). -/
def noteAttach (p : PortId) (st : AttachState) (typ : BitVec 2) (sigB : Bool) (d : Dev) : Dev :=
  let d1 := d.modPort p fun q => setPevt eAttach { q with
    att := { q.att with
      state := st, typ := typ, orient := sigB, att := true, everAttached := true, debounce := none, fruitless := 0
      windows := 0 }
    met := { q.met with cwOut := 0, railLow := 0 } }
  storeOrient p sigB (postPort 0x10 (b2n sigB) p (typ.setWidth 16) false d1)

/-- The next peer window of an attached ring feeder without a peer: at a pseudo-random time of the next 100 ms (R133). -/
def nextPeerWindow (p : PortId) (d : Dev) : Dev :=
  let (n, d1) := drawBelow 99000 d
  d1.modPort p fun q => { q with att := { q.att with windowAt := (d.us / 100000 + 1) * 100000 + n } }

/-- The path is to close 0.4 ms after the rail, unless the latch is held (R131 step 4). -/
def attachClose (p : PortId) (d : Dev) : Dev :=
  d.modPort p fun q => { q with att := { q.att with closeAt := if q.grd.latch then none else some (d.us + 400) } }

/-- A microsecond of a path that is to close after an attach: a latch set meanwhile leaves it to R256, and a transfer that has
not been measured is waited for (R131, R204). -/
def tickClose (now : Nat) (q : Port) : Port :=
  match q.att.closeAt with
  | some t =>
    if q.grd.latch then { q with att := { q.att with closeAt := none } }
    else if t ≤ now ∧ q.cfg.xfer.isSome = true then startClosing now { q with att := { q.att with closeAt := none } }
    else q
  | none => q

/-- An end-cap attach (R131, R222). -/
def attachEndCap (p : PortId) (sigB : Bool) (d : Dev) : Dev :=
  let d1 := noteAttach p .attached 1 sigB d
  let d2 := if (d1.port p).rail.en then railOn p d1 else d1
  let d3 := attachClose p (d2.modPort p fun q => { q with line := { q.line with silent := false, factor := firstFactor q.att.slope } })
  if (d.port p).ring.en then nextPeerWindow p d3 else d3

/-- A peer-head attach (R131): the path stays open and joining begins (R225). -/
def attachPeer (p : PortId) (sigB : Bool) (d : Dev) : Dev :=
  (noteAttach p .peerHead 2 sigB d).modPort p fun q =>
    { q with ring := { q.ring with join := .hello 0 0 }, line := { q.line with silent := false } }

/-- ATTACH (R130, R131): 150 ms after debouncing began, low bound 100. -/
def execAttach (p : PortId) (s : State) : Answer :=
  onDev (fun d =>
    let q := d.port p
    match q.att.debounce with
    | some (c, t) =>
      guardDev (probes q && decide (t + 100000 ≤ d.us)) (fun d =>
        match c with
        | .endCap sigB => attachEndCap p sigB d
        | .peerHead sigB => if 3 ≤ q.att.windows then attachPeer p sigB d else d
        | _ => d) d
    | none => d) s

/-- A peer window of an attached port finds a peer head: on the wire that its own rail does not supply, or on either where it
supplies none (R128). -/
def windowHigh (q : Port) (winA winB : Nat) : Bool :=
  if q.rail.sw = .on then wireHigh (if q.att.orient then winB else winA) else wireHigh winA || wireHigh winB

/-- A peer window of R133 may end: its 1.0 ms has passed, outside frames and enrol windows (R128). -/
def windowEnds (now : Nat) (q : Port) : Bool :=
  seeksPeer q && decide (q.att.windowAt + 1000 ≤ now) && q.line.window.isNone && idleFor 1000 now q

/-- PEER_WINDOW (R133): an attached ring feeder without a peer runs one in every 100 ms. -/
def execPeerWindow (p : PortId) (winA winB : Nat) (s : State) : Answer :=
  onDev (fun d => guardDev (windowEnds d.us (d.port p)) (fun d =>
    nextPeerWindow p (d.modPort p fun q =>
      { q with att := { q.att with windows := if windowHigh q winA winB then q.att.windows + 1 else 0 } })) d) s

/-- CONTENTION_PAUSE (R224): 200 to 1000 ms after 100 ms of fruitless probing. -/
def execContentionPause (p : PortId) (ms : Nat) (s : State) : Answer :=
  onDev (fun d => d.modPort p fun q =>
    if probes q = true ∧ pauses q = true ∧ 100 ≤ q.att.fruitless ∧ 200 ≤ ms ∧ ms ≤ 1000 then
      { q with att := { q.att with pause := some (d.us + 1000 * ms), fruitless := 0, debounce := none, faultSince := none } }
    else q) s

/-- CONTENTION_PAUSE_END (R224). -/
def execContentionPauseEnd (p : PortId) (s : State) : Answer :=
  onDev (fun d => d.modPort p fun q =>
    match q.att.pause with
    | some t => if t ≤ d.us then { q with att := { q.att with pause := none, nextProbe := d.us + 10000 } } else q
    | none => q) s

/-! ## Detach (R134, R135) -/

/-- A detach condition of an attached FEED port has lasted 10 ms, low bound 8, of counted samples (R134). -/
def detachHolds (q : Port) : Bool :=
  decide (q.role = .feed) && q.att.att && (decide (8000 ≤ q.met.cwOut) || (!q.ring.en && q.master && decide (8000 ≤ q.met.railLow)))

/-- A FEED port leaves its segment (R135): the run, the path, DETACH trailing the run, then the rail; probing resumes 100 ms
later. -/
def detachPort (p : PortId) (d : Dev) : Dev :=
  let d1 := (abortRun 2 5 p d).modPort p fun q => setPevt eDetach (openPath q)
  let d2 := railOff p (postPort 0x11 0 p 0 false d1)
  relieve (d2.modPort p fun q =>
    let r := unattach q
    { r with att := { r.att with resumeAt := some (d.us + 100000) } })

/-- DETACH (R135). -/
def execDetach (p : PortId) (s : State) : Answer :=
  onDev (fun d => guardDev (detachHolds (d.port p)) (detachPort p) d) s

/-- PROBE_RESUME (R135). -/
def execProbeResume (p : PortId) (s : State) : Answer :=
  onDev (fun d => d.modPort p fun q =>
    match q.att.resumeAt with
    | some t =>
      if t ≤ d.us ∧ q.role = .feed then
        { q with att := { q.att with resumeAt := none, state := .probing, nextProbe := d.us + 10000 } }
      else q
    | none => q) s

/-! ## DRAW ports (R136, R137) -/

/-- A DRAW port joins with the pin of its beacons as signal wire (R136). -/
def drawJoins (p : PortId) (pinB : Bool) (d : Dev) : Dev :=
  noteAttach p .attached 3 pinB (d.modPort p fun q => { q with drw := { q.drw with joined := true, heardAt := d.us } })

/-- DRAW_JOIN (R136): two valid beacons on one pin; beacons on both pins set STATE 5, and the port listens on from none: that it
can still join is the model's choice (assumption 119). -/
def execDrawJoin (p : PortId) (s : State) : Answer :=
  onDev (fun d =>
    let q := d.port p
    if decide (q.role = .draw) && q.ctl.en && !q.drw.joined then
      if 1 ≤ q.drw.pinA ∧ 1 ≤ q.drw.pinB then
        d.modPort p fun q => { q with att := { q.att with state := .fault }, drw := { q.drw with pinA := 0, pinB := 0 } }
      else guardDev (decide (2 ≤ q.drw.pinA ∨ 2 ≤ q.drw.pinB)) (drawJoins p (decide (2 ≤ q.drw.pinB))) d
    else d) s

/-- A joined DRAW port loses its head: the path opens, DETACH, and it listens again (R137). -/
def drawLeave (p : PortId) (d : Dev) : Dev :=
  let d1 := d.modPort p fun q => setPevt eDetach (openPath q)
  relieve ((postPort 0x11 0 p 0 false d1).modPort p unattach)

/-- UPSTREAM_SILENCE (R137): 3.5 s, low bound 3.3. -/
def execUpstreamSilence (p : PortId) (s : State) : Answer :=
  onDev (fun d =>
    let q := d.port p
    guardDev (decide (q.role = .draw) && q.drw.joined && decide (q.drw.heardAt + 3300000 ≤ d.us)) (drawLeave p) d) s

/-! ## Tap-rail over-current (R221) -/

/-- RAIL_OC (R221): 1 ms in current limit. -/
def execRailOc (p : PortId) (s : State) : Answer :=
  onDev (fun d =>
    let q := d.port p
    guardDev (q.master && !q.rail.oc && decide (1000 ≤ q.met.railLim)) (fun d =>
      postPort 0x19 3 p 0 false (d.modPort p fun q => setPevt eRail { q with rail := { q.rail with oc := true } })) d) s

/-- RAIL_OC_OFF (R221): 20 ms of continuous limiting; RAIL.OC stays, and a retry is due after a second. -/
def execRailOcOff (p : PortId) (s : State) : Answer :=
  onDev (fun d =>
    let q := d.port p
    guardDev (q.master && decide (20000 ≤ q.met.railLim)) (fun d =>
      postPort 0x19 1 p 0 false (d.modPort p fun q => setPevt eRail
        { q with rail := { q.rail with sw := .off, retryAt := some (d.us + 1000000) } })) d) s

/-- RAIL_RETRY (R221). -/
def execRailRetry (p : PortId) (s : State) : Answer :=
  onDev (fun d =>
    match (d.port p).rail.retryAt with
    | some t =>
      guardDev (decide (t ≤ d.us) && (d.port p).rail.en) (fun d =>
        postPort 0x19 0 p 0 false (d.modPort p fun q => setPevt eRail
          { q with rail := { q.rail with sw := .on, retryAt := none }, met := { q.met with railLim := 0, railOk := 0 } })) d
    | none => d) s

/-- RAIL_OC_CLEAR (R221): ON and out of limit for 10 ms. -/
def execRailOcClear (p : PortId) (s : State) : Answer :=
  onDev (fun d => d.modPort p fun q =>
    if q.rail.oc = true ∧ q.rail.sw = .on ∧ 10000 ≤ q.met.railOk then { q with rail := { q.rail with oc := false } } else q) s

end Sys2Proof.Machine
end

