-- ==== Sys2Proof/Machine/Admission.lean ====
section
/-! DEFINITION. A REQUEST at the head (R180 to R188, R266 to R268), the allocator's pass (R269 to R279), what the engine
accepts from the allocator (R274, R424), and forecasts (R302, R303). -/

namespace Sys2Proof.Machine

open Sys2Proof

/-! ## The line's side of an endpoint's frame -/

/-- A frame from a roster index reaches a head that knows it. -/
def headHears (d : Dev) (p : PortId) (i : Idx) : Bool :=
  (d.port p).isHead && decide ((rosterOf (d.port p) i.toNat).state ≠ 0)

/-- An endpoint that has answered is present (R74, R174). -/
def nowPresent (now : Nat) (i : Idx) (q : Port) : Port :=
  let r := rosterOf q i.toNat
  if r.state = 1 ∨ r.state = 3 then setRoster i.toNat (setRate 50 now { r with state := 2, calDue := r.calDue || (r.calable && !r.calok) }) q else q

/-- The bit HELD of a POLL that is on the line (Table 08-2). -/
def pollHeld (f : Frame) : Bool := bit (payByte f.payload 1) 4

/-- An answer of an endpoint ends the POLL that is under way to it (R151); a POLL acknowledged with HELD 0 ends what an
undelivered WITHDRAW reserved (Table 08-6). -/
def pollAnswered (p : PortId) (i : Idx) (d : Dev) : Dev :=
  match (d.port p).line.out with
  | o :: _ =>
    match o.kind with
    | .poll _ =>
      if o.idx = i ∧ o.sent = true then
        dropFront p (d.modPort p fun q =>
          let q1 := nowPresent d.us i q
          if pollHeld o.frame then q1 else { q1 with line := { q1.line with resv := spErase q1.line.resv i.toNat } })
      else d
    | _ => d
  | [] => d

/-- A frame that is acknowledged but not acted on again (R149). -/
def ackAgain (p : PortId) (i : Idx) (h : FrameTag) (d : Dev) : Dev :=
  pollAnswered p i (d.modPort p fun q => answerShort false h.seq (hears d.us q))

/-- A frame that is answered with NAK (R148, R180). -/
def nakFrame (p : PortId) (i : Idx) (h : FrameTag) (d : Dev) : Dev :=
  pollAnswered p i (d.modPort p fun q => answerShort true h.seq (hears d.us q))

/-- A frame that is accepted: its SEQ, its ACK (R148, R149). -/
def ackFrame (p : PortId) (i : Idx) (h : FrameTag) (d : Dev) : Dev :=
  pollAnswered p i (d.modPort p fun q => answerShort false h.seq (hears d.us (noteSeq i h q)))

/-! ## Fast conditions (R267) -/

/-- A heat cause of THROT is present on a port. -/
def heatCause (d : Dev) (p : PortId) : Bool := !(heatLimits (d.port p)).isEmpty

/-- The allocator is running: not in HANDOVER, not in a core restart (R268). -/
def allocRuns (d : Dev) : Bool := d.tb.alloc && d.fwu.hand.isNone && d.core.restart.isNone

/-- The level of a speculative ACCEPT, where every fast condition holds (R267). -/
def fastLevel (d : Dev) (p : PortId) (i : Idx) (req : RequestMsg) : Option Level :=
  let q := d.port p
  let r := rosterOf q i.toNat
  let delta := req.power.toNat - heldPower q i.toNat
  match grantLevel d p req.mask delta 0 with
  | none => none
  | some l =>
    if 0 < delta ∧ r.calok = true ∧ withinMa req.power.toNat l r.ceil.toNat = true ∧ (delta : Int) ≤ headroom d p
        ∧ q.drp.shed = false ∧ heatCause d p = false ∧ allocRuns d = true then some l
    else none

/-- TxHOLD is set (R155). -/
def txHold (q : Port) : Bool := (q.line.first.isSome && q.line.window.isNone) || q.lev.step.isSome || q.drp.hold

/-- A REQUEST is malformed (R182). -/
def requestMalformed (r : RequestMsg) : Bool :=
  decide (r.power = 0 ∨ 600 < r.power ∨ r.power < r.floor ∨ r.mask = 0)

/-- Every acceptable level lies above PCTL.LMAX (R182). -/
def aboveLmax (q : Port) (r : RequestMsg) : Bool := allLevels.all fun l => !r.mask.getLsbD l.toNat || decide (q.ctl.lmax < l)

/-! ## REQUEST -/

/-- The READY that resynchronises an endpoint (R79, R176, R190): no ACCEPT, no event, no slot. -/
def resendReady (p : PortId) (i : Idx) (d : Dev) : Dev :=
  let c := contractOf (d.port p) i.toNat
  sendTo p i (.ready c.level) 0x0D 0
    (payReady ⟨c.power, c.level, (rosterOf (d.port p) i.toNat).cls, false, c.grant⟩) none d

/-- A REQUEST for the READY contract's power with no higher floor resynchronises (R176, R190). -/
def resyncs (q : Port) (i : Idx) (r : RequestMsg) : Bool :=
  let c := contractOf q i.toNat
  decide (c.state = 2) && r.power == c.power && decide (r.floor ≤ c.floor)

/-- The arrival time of a REQUEST: a repeat at the same or a lower power keeps that of the pending request (R186). -/
def arrivalOf (q : Port) (i : Idx) (r : RequestMsg) (now : Nat) : Nat :=
  match pendOf q i with
  | some x => if r.power ≤ x.req.power then x.arrival else now
  | none => now

/-- A pending request whose arrival time a REQUEST does not keep ends (R279). -/
def dropOlder (i : Idx) (r : RequestMsg) (q : Port) : Port :=
  match pendOf q i with
  | some x => if r.power ≤ x.req.power then q else dropPending i q
  | none => q

/-- The level at which a REQUEST at or below the present contract is served (R182): the level of R207; where there is none, that of
the present contract if it is acceptable, else the lowest acceptable one from LEVEL.CUR to PCTL.LMAX, else the highest acceptable
one. R182 serves such a REQUEST always and R207 names no level then: the order is the model's choice (assumption 122). -/
def lowerLevel (d : Dev) (p : PortId) (i : Idx) (mask : BitVec 4) : Level :=
  let q := d.port p
  let c := contractOf q i.toNat
  let ok := allLevels.filter fun l => mask.getLsbD l.toNat
  match grantLevel d p mask 0 0 with
  | some l => l
  | none =>
    if mask.getLsbD c.level.toNat then c.level
    else ((ok.find? fun l => decide (q.lev.cur ≤ l ∧ l ≤ levelTop q)).or ok.getLast?).getD c.level

/-- The engine serves a REQUEST at or below the present contract (R182, R276). -/
def serveLower (p : PortId) (k : Nat) (s : Slot) (i : Idx) (d : Dev) : Dev :=
  confirmSlot p k s i (lowerLevel d p i s.req.mask) d

/-- A REQUEST with an increment, in its slot: a grant, or the allocator's decision (R181, R267, R269). -/
def postRequest (p : PortId) (k : Nat) (s : Slot) (i : Idx) (d : Dev) : Dev :=
  let d1 := d.modPort p (dropPending i)
  match fastLevel d1 p i s.req with
  | some l => sendAccept p i k { s with state := 2, posted := true } l true d1
  | none => d1.modPort p (putSlot k { s with posted := true })

/-- A REQUEST that has its slot (R182, R187, R238, R268): one at or below the present contract is served even while a swap is
pending or the allocator is stopped. -/
def answerRequest (p : PortId) (k : Nat) (s : Slot) (i : Idx) (d : Dev) : Dev :=
  let q := d.port p
  if requestMalformed s.req then sendReject p i (some k) 9 d
  else if aboveLmax q s.req then sendReject p i (some k) 1 d
  else if (contractOf q i.toNat).held ∧ s.req.power.toNat ≤ heldPower q i.toNat then serveLower p k s i d
  else if q.rail.swap ≠ .none then sendWaitPlain p i (some k) 10 d
  else if !allocRuns d then sendWaitPlain p i (some k) 50 d
  else if txHold q then sendWaitPlain p i (some k) 10 d
  else postRequest p k s i d

/-- A REQUEST that the head acknowledges (R180, R181, R186, R194). R187 gives WAIT while all slots are busy and R182 MALFORMED to a
bad REQUEST, and neither says which comes first: with all slots busy nothing is validated, the model's choice (assumption 117). -/
def onRequest (p : PortId) (i : Idx) (h : FrameTag) (r : RequestMsg) (d : Dev) : Dev :=
  let q := d.port p
  if duplicateFrom q i h then ackAgain p i h d
  else if resyncs q i r && !requestMalformed r then resendReady p i (ackFrame p i h d)
  else if (slotOf q i).isSome then nakFrame p i h d
  else
    let arrival := arrivalOf q i r d.us
    let d1 := (ackFrame p i h d).modPort p (dropOlder i r)
    match freeSlot (d1.port p) with
    | none => sendWaitPlain p i none 20 d1
    | some k =>
      let s : Slot := { state := 1, mtype := 0x08, idx := some i, req := r, since := d.us, arrival := arrival
                        issue := (d1.port p).issue }
      answerRequest p k s i (d1.modPort p (takeSlot k s))

/-- An endpoint's frame at a head: one from an index that the roster does not hold is not acted on (R147, R148). -/
def fromEndpoint (p : PortId) (i : Idx) (h : FrameTag) (act : Dev → Dev) (d : Dev) : Dev :=
  if headHears d p i then act d else guardDev (d.port p).isHead (nakFrame p i h) d

/-- REQUEST (R181). -/
def execRequest (p : PortId) (i : Idx) (h : FrameTag) (r : RequestMsg) (s : State) : Answer :=
  onDev (fromEndpoint p i h (onRequest p i h r)) s

/-! ## Table 12-2 -/

/-- A limit as reservations name it (R272, R303). -/
inductive LimitKey where
  | port (p : PortId)
  | cls (p : PortId) (c : Cls)
  | tenant (t : Tenant)
  deriving DecidableEq, Repr

/-- A reservation of the pass: its limit, its class, its Δ (R272). -/
structure Hold where
  key : LimitKey
  cls : Cls
  delta : Nat
  deriving DecidableEq, Repr

/-- A request that a pass decides. -/
structure Candidate where
  p : PortId
  idx : Idx
  req : RequestMsg
  arrival : Nat
  /-- Its slot; none for a pending request. -/
  slot : Option (Nat × Slot)
  deriving DecidableEq, Repr

/-- What Table 12-2 makes of a request. -/
inductive Verdict where
  | pass (l : Level)
  | reject (code : Nat) (check4 : Bool)
  | wait (code bit : Nat) (key : LimitKey) (check4 : Bool)
  deriving DecidableEq, Repr

/-- The reservations of a pass against a request of a class (R272). -/
def heldBack (hs : List Hold) (key : LimitKey) (c : Cls) : Nat :=
  sumNat ((hs.filter fun h => h.key == key && decide (h.cls < c)).map (·.delta))

/-- A forecast reservation is in force. -/
def hintActive (now : Nat) (h : Reservation) : Bool := decide (h.holdAt ≤ now ∧ now < h.endAt)

/-- The forecasts of a port, against a request of a class on a limit (R303). -/
def hintsOn (d : Dev) (p : PortId) (counts : RosterRec → Bool) (c : Cls) : Nat :=
  let q := d.port p
  sumNat ((q.hints.filter fun h =>
    let r := rosterOf q h.idx.toNat
    hintActive d.us h && counts r && decide (r.cls < c)).map (·.delta))

/-- Everything reserved in a limit against a request of a class: forecasts of lower classes only, so never its own. -/
def reserved (d : Dev) (hs : List Hold) (key : LimitKey) (c : Cls) : Nat :=
  heldBack hs key c + (match key with
    | .port p => hintsOn d p (fun _ => true) c
    | .cls p c0 => hintsOn d p (fun r => r.cls == c0) c
    | .tenant t => hintsOn d .p0 (fun r => r.tenant == t) c + hintsOn d .p1 (fun r => r.tenant == t) c)

/-- Checks 5 and 6 of Table 12-2. -/
def partCheck (d : Dev) (hs : List Hold) (x : Candidate) (delta : Nat) : Option Verdict :=
  let q := d.port x.p
  let r := rosterOf q x.idx.toNat
  let cc := classCap q r.cls
  let tc := (tenantOf d r.tenant.toNat).cap
  let power := x.req.power.toNat
  if cc ≠ 0xFFFF ∧ cc.toNat < classTotal q r.cls + reserved d hs (.cls x.p r.cls) r.cls + delta then
    some (if cc.toNat < power then .reject 3 false else .wait 3 1 (.cls x.p r.cls) false)
  else if tc ≠ 0xFFFF ∧ tc.toNat < tenantBoth d r.tenant + reserved d hs (.tenant r.tenant) r.cls + delta then
    some (if tc.toNat < power then .reject 2 false else .wait 2 1 (.tenant r.tenant) false)
  else none

/-- A level above LEVEL.TGT can be reached: no wait after an aborted step up, on a ring within both caps (R94, R215,
R230). -/
def canRaise (d : Dev) (q : Port) (l : Level) : Bool :=
  decide (l ≤ q.lev.tgt) || (!q.lev.hold && decide (l ≤ levelTop q) && raiseAllowed d.us q)

/-- Check 4 fails: REJECT or WAIT with the code of the lowest limit (Table 12-2); a shed class has no room (chapter 12,
Edges). -/
def portFailure (d : Dev) (x : Candidate) : Verdict :=
  let q := d.port x.p
  let (code, bit) := if q.drp.shed then (1, 3) else match lowest (portLimits d x.p) with
    | some l => (l.code, l.bit)
    | none => (1, 0)
  if admissionBudget d x.p < x.req.power.toNat then .reject code true else .wait code bit (.port x.p) true

/-- The room of a port for a request (Table 12-2). -/
def portRoom (d : Dev) (hs : List Hold) (x : Candidate) : Int :=
  (admissionBudget d x.p : Int) - admitSum (d.port x.p) - reserved d hs (.port x.p) (rosterOf (d.port x.p) x.idx.toNat).cls

/-- The power of a request's own grant among the SPEC slots. -/
def ownSpec (x : Candidate) : Nat := match x.slot with | some (_, s) => if s.state = 2 then s.req.power.toNat else 0 | none => 0

/-- Only LEVEL.HOLD keeps a request out: without it there is a level, and port room (R94). -/
def holdBars (d : Dev) (hs : List Hold) (x : Candidate) (delta : Nat) : Bool :=
  let free := d.modPort x.p fun q => { q with lev := { q.lev with hold := false } }
  (d.port x.p).lev.hold && !(d.port x.p).drp.shed && (grantLevel free x.p x.req.mask delta (ownSpec x)).isSome
    && decide ((delta : Int) ≤ portRoom free hs x)

/-- Check 4 fails. A request that would need a higher level than the one held waits (R94), also where the limit of R210 makes
Table 12-2 or R207 name a REJECT: the model's choice between the rules (assumption 120). -/
def portRefusal (d : Dev) (hs : List Hold) (x : Candidate) (delta : Nat) : Verdict :=
  if holdBars d hs x delta then .wait 1 7 (.port x.p) false else portFailure d x

/-- Table 12-2 (R271). -/
def verdict (d : Dev) (hs : List Hold) (x : Candidate) : Verdict :=
  let q := d.port x.p
  let r := rosterOf q x.idx.toNat
  let power := x.req.power.toNat
  let delta := power - heldPower q x.idx.toNat
  let opens := openLevels d x.p x.req.mask
  let lvl := grantLevel d x.p x.req.mask delta (ownSpec x)
  let ceil := if r.calok then r.ceil.toNat else q.cfg.uncalCeil.toNat
  let tooHot := match lvl.or opens.head? with | some l => !withinMa power l ceil | none => false
  if classCap q r.cls = 0 ∨ (tenantOf d r.tenant.toNat).cap = 0 then .reject 7 false
  else if tooHot then .reject 5 false
  else if heatCause d x.p then .reject 6 false
  else if opens.isEmpty then .reject 1 false
  else if opens.all (levelCapped d x.p) then .wait 1 7 (.port x.p) false
  else if q.drp.shed ∨ portRoom d hs x < (delta : Int) then portRefusal d hs x delta
  else match lvl with
    | none => portRefusal d hs x delta
    | some l =>
      match partCheck d hs x delta with
      | some v => v
      | none => if canRaise d q l then .pass l else .wait 1 7 (.port x.p) false

/-- Only check 4 fails. -/
def onlyPort : Verdict → Bool
  | .reject _ b => b
  | .wait _ _ _ b => b
  | .pass _ => false

/-- The device without some contracts of a port. -/
def without (p : PortId) (vs : List Idx) (d : Dev) : Dev :=
  vs.foldl (fun d i => d.modPort p fun q => setContract i.toNat { admissions := (contractOf q i.toNat).admissions } q) d

/-- A request passes without some contracts. -/
def passesWithout (d : Dev) (hs : List Hold) (x : Candidate) (vs : List Idx) : Bool :=
  match verdict (without x.p vs d) hs x with | .pass _ => true | _ => false

/-- The shortest beginning of a list of contracts without which a request passes. -/
def victims (d : Dev) (hs : List Hold) (x : Candidate) : List Idx → List Idx → Option (List Idx)
  | acc, [] => if passesWithout d hs x acc then some acc else none
  | acc, i :: t => if passesWithout d hs x acc then some acc else victims d hs x (acc ++ [i]) t

/-- The contracts that a SAFETY request may displace, in shed order: CONVENIENCE, then COMFORT, of its port (R273). -/
def displaceable (d : Dev) (p : PortId) (own : Idx) : List Idx :=
  ((shedOrder d).filter fun (q, i) => decide (q = p) && i != own && decide (2 ≤ (rosterOf (d.port p) i.toNat).cls.toNat)).map
    (·.2)

/-- A request has a slot to be served in (R279). -/
def canServe (d : Dev) (x : Candidate) : Bool := x.slot.isSome || (freeSlot (d.port x.p)).isSome

/-- The contracts that a SAFETY request displaces (R273); one that finds no slot is not confirmed, and displaces nothing (R279). -/
def displaces (d : Dev) (hs : List Hold) (x : Candidate) (v : Verdict) : Option (List Idx) :=
  if onlyPort v ∧ (rosterOf (d.port x.p) x.idx.toNat).cls = 0 ∧ canServe d x = true then victims d hs x [] (displaceable d x.p x.idx) else none

/-! ## A pass (R269 to R273, R279) -/

/-- A decision on the way: the device and the reservations made so far. -/
abbrev PassState := Dev × List Hold

/-- A confirmed request takes its slot, or the slot it has; none free leaves it pending (R275, R279). -/
def passConfirm (x : Candidate) (l : Level) (vs : List Idx) (d : Dev) : Dev :=
  let note := fun (s : Slot) => { s with displaced := vs }
  match x.slot with
  | some (k, s) => confirmSlot x.p k (note s) x.idx (if s.state = 2 then s.level else l) d
  | none =>
    match freeSlot (d.port x.p) with
    | none => d
    | some k =>
      let s : Slot := note { state := 1, mtype := 0x08, idx := some x.idx, req := x.req, since := d.us, arrival := x.arrival
                             issue := (d.port x.p).issue }
      confirmSlot x.p k s x.idx l (d.modPort x.p (takeSlot k s))

/-- A pending request keeps its place with the cause of its last test (R264, R278, R279). -/
def noteCause (i : Idx) (code bit : Nat) (q : Port) : Port :=
  { q with pend := q.pend.map fun r => if r.idx = i then { r with cause := BitVec.ofNat 4 code, bit := bit } else r }

/-- A request that fails (R271): a grant is withdrawn with reason 1; a pending request stays pending. -/
def passFail (x : Candidate) (v : Verdict) (d : Dev) : Dev :=
  match x.slot with
  | some (k, s) =>
    if s.state = 2 then withdrawGrant 1 x.p k d
    else match v with
      | .reject code _ => sendReject x.p x.idx (some k) code d
      | .wait code bit _ _ => sendWait x.p x.idx (some k) x.req x.arrival code bit d
      | .pass _ => d
  | none =>
    match v with
    | .wait code bit _ _ => d.modPort x.p (noteCause x.idx code bit)
    | .reject code _ => d.modPort x.p (noteCause x.idx code (causeBit d x.p code))
    | .pass _ => d

/-- The limit on which a request failed; none for a check that is of no limit with a total (Table 12-2). -/
def failedOn (d : Dev) (x : Candidate) (v : Verdict) : Option LimitKey :=
  let r := rosterOf (d.port x.p) x.idx.toNat
  match v with
  | .wait _ _ key _ => some key
  | .reject code check4 =>
    if check4 then some (.port x.p) else if code = 3 then some (.cls x.p r.cls) else if code = 2 then some (.tenant r.tenant) else none
  | .pass _ => none

/-- The request is pending after the test: it was, or it gets WAIT and holds no grant (R271, R279). -/
def staysPending (x : Candidate) (v : Verdict) : Bool :=
  match x.slot, v with
  | none, _ => true
  | some (_, s), .wait _ _ _ _ => decide (s.state ≠ 2)
  | some _, _ => false

/-- The reservation that a request leaves behind (R272): one that is pending, in the limit on which it failed. -/
def passHold (d : Dev) (x : Candidate) (v : Verdict) : List Hold :=
  match failedOn d x v with
  | some key =>
    if staysPending x v then [⟨key, (rosterOf (d.port x.p) x.idx.toNat).cls, incrementOf (d.port x.p) x.idx x.req.power.toNat⟩] else []
  | none => []

/-- One request of a pass. -/
def passOne (st : PassState) (x : Candidate) : PassState :=
  let d := st.1
  let v := verdict d st.2 x
  match v with
  | .pass l => (passConfirm x l [] d, st.2)
  | _ =>
    match displaces d st.2 x v with
    | some vs =>
      let d1 := foldDev (fun i d => withdrawContract 3 x.p i d) vs d
      match verdict d1 st.2 x with
      | .pass l => (passConfirm x l vs d1, st.2)
      | _ => (d1, st.2)
    | none => (passFail x v d, st.2 ++ passHold d x v)

/-- A slot whose request the allocator may still decide: BUSY and posted, or SPEC before tSpecConfirm (R274). -/
def slotOpen (now : Nat) (s : Slot) : Bool :=
  (decide (s.state = 1) && s.posted) || (decide (s.state = 2) && decide (now < s.since + 20000))

/-- The requests of a port that a pass decides: those posted, and every pending one (R269); a grant that has reached tSpecConfirm takes
no decision (R274). A master whose swap is pending stops admitting (R238). -/
def candidatesOf (d : Dev) (p : PortId) : List Candidate :=
  let q := d.port p
  if q.isHead && decide (q.rail.swap = .none) then
    (q.slots.filterMap fun (k, s) =>
      match s.idx with
      | some i => if s.mtype = 0x08 ∧ s.posted = true ∧ slotOpen d.us s = true then some ⟨p, i, s.req, s.arrival, some (k, s)⟩ else none
      | none => none)
    ++ q.pend.map fun r => ⟨p, r.idx, r.req, r.arrival, none⟩
  else []

/-- A request that was posted when the swap became pending: it gets the WAIT of R238, a grant is withdrawn as denied. R238 speaks
of the REQUESTs that come after that moment; for those posted before it this is read from "stops admitting" (assumption 123). -/
def swapStops (p : PortId) (x : Nat × Slot) (d : Dev) : Dev :=
  match x.2.idx with
  | some i =>
    if x.2.mtype = 0x08 ∧ x.2.posted = true then
      if x.2.state = 2 then withdrawGrant 1 p x.1 d
      else if x.2.state = 1 then sendWaitPlain p i (some x.1) 10 d else d
    else d
  | none => d

/-- The same for every slot of a master whose swap is pending. -/
def swapHolds (p : PortId) (d : Dev) : Dev :=
  if (d.port p).isHead ∧ (d.port p).rail.swap ≠ .none then foldDev (swapStops p) (d.port p).slots d else d

/-- Every request of a pass in admission order (R270). -/
def candidates (d : Dev) : List Candidate :=
  sortBy (fun a b => lexLt (admissionKey d a.p a.idx a.arrival) (admissionKey d b.p b.idx b.arrival))
    (candidatesOf d .p0 ++ candidatesOf d .p1)

/-- Contracts that await a level above LEVEL.TGT raise it once it may rise again (R208, R215). -/
def raiseAwaiting (p : PortId) (d : Dev) : Dev :=
  d.modPort p fun q => beginStep d.us (q.slots.foldl (fun q x => if x.2.awaits then raiseTgt x.2.level d.us q else q) q)

/-- A gang share that came since the last pass applies (R330). -/
def applyShare (d : Dev) : Dev :=
  match d.gang.shareNext with
  | some v => relieve { d with gang := { d.gang with share := some v, shareNext := none } }
  | none => d

/-- One pass of the allocator. -/
def allocatorPass (d : Dev) : Dev :=
  let d0 := applyShare { d with tb := { d.tb with passAt := d.us }
                                fwu := { d.fwu with passLate := d.fwu.passLate || decide (d.tb.passAt + 8200 < d.us) } }
  let d1 := ((candidates d0).foldl passOne (d0, [])).1
  relieve (raiseAwaiting .p1 (raiseAwaiting .p0 (d1.bothPorts swapHolds)))

/-- ALLOCATOR_PASS (R269): every 4 ms, low bound 3.8. -/
def execAllocatorPass (s : State) : Answer :=
  onDev (fun d => guardDev (d.core.run && allocRuns d && decide (d.tb.passAt + 3800 ≤ d.us)) allocatorPass d) s

/-! ## What the engine accepts (R274, R371, R424) -/

/-- The level at which a store by the core confirms a request: that of its ACCEPT, else that of R207. -/
def confirmLevel (d : Dev) (p : PortId) (s : Slot) (i : Idx) : Option Level :=
  if s.state = 2 then some s.level
  else grantLevel d p s.req.mask (s.req.power.toNat - heldPower (d.port p) i.toNat) 0

/-- A core store that confirms a slot (R274, R424). No ACCEPT can carry a level where R207 gives none, and the spec does not say what
such a store does: it is discarded, the model's choice (assumption 124). -/
def coreConfirm (p : PortId) (k : Nat) (d : Dev) : Dev :=
  match spFind (d.port p).slots k with
  | some s =>
    match s.idx, confirmLevel d p s ((s.idx).getD 0) with
    | some i, some l =>
      if s.mtype = 0x08 ∧ slotOpen d.us s = true ∧ (d.port p).rail.swap = .none then confirmSlot p k s i l d else d
    | _, _ => d
  | none => d

/-- ENGINE_CONFIRM (R274). -/
def execEngineConfirm (p : PortId) (slot : BitVec 7) (s : State) : Answer :=
  onDev (fun d => guardDev d.core.run (coreConfirm p slot.toNat) d) s

/-- A core store that denies a slot's grant (R424). -/
def coreDeny (p : PortId) (k : Nat) (reason : Nat) (d : Dev) : Dev :=
  match spFind (d.port p).slots k with
  | some s => if s.state = 2 then withdrawGrant reason p k d else d
  | none => d

/-- ENGINE_DENY (R424). -/
def execEngineDeny (p : PortId) (slot : BitVec 7) (reason : Byte) (s : State) : Answer :=
  onDev (fun d => guardDev d.core.run (coreDeny p slot.toNat reason.toNat) d) s

/-- A core store that withdraws a contract (R424). -/
def coreWithdraw (p : PortId) (i : Idx) (reason : Nat) (d : Dev) : Dev :=
  if (contractOf (d.port p) i.toNat).held then withdrawContract reason p i d else d

/-- ENGINE_WITHDRAW (R424). -/
def execEngineWithdraw (p : PortId) (i : Idx) (reason : BitVec 4) (s : State) : Answer :=
  onDev (fun d => guardDev d.core.run (coreWithdraw p i reason.toNat) d) s

/-- SPEC_CONFIRM_EXPIRY (R274). -/
def execSpecConfirmExpiry (p : PortId) (slot : BitVec 7) (s : State) : Answer :=
  onDev (fun d =>
    match spFind (d.port p).slots slot.toNat with
    | some x => guardDev (decide (x.state = 2 ∧ x.since + 20000 ≤ d.us)) (withdrawGrant 2 p slot.toNat) d
    | none => d) s

/-- BUSY_SLOT_EXPIRY (R371): WAIT, and no request left pending. -/
def execBusySlotExpiry (p : PortId) (slot : BitVec 7) (s : State) : Answer :=
  onDev (fun d =>
    match spFind (d.port p).slots slot.toNat with
    | some x =>
      match x.idx with
      | some i => guardDev (decide (x.state = 1 ∧ x.posted = true ∧ x.since + 20000 ≤ d.us))
          (sendWaitPlain p i (some slot.toNat) 50) d
      | none => d
    | none => d) s

/-! ## READY (R183, R184, R275) -/

/-- The endpoint's contract becomes READY: its stored contract, its rate, its energy record (R184, R344, R391, R400). -/
def makeReady (p : PortId) (i : Idx) (d : Dev) : Dev :=
  let c := contractOf (d.port p) i.toNat
  dirtyPage p i (d.modPort p fun q =>
    let r := rosterOf q i.toNat
    let e := spGet {} q.emeter i.toNat
    let r1 := setRate (c.power.toNat * 100) d.us { r with stored := c.power, storedLevel := c.level, lastCount := none, consent := false }
    let done := (q.hints.find? fun h => h.idx == i).elim false fun h => decide (h.forecast ≤ c.power)
    let q1 := setRoster i.toNat r1 (setContract i.toNat { c with state := 2 } q)
    let q2 := { q1 with emeter := spSet {} q1.emeter i.toNat { e with nocal := true } }
    if done then dropHint i q2 else q2)

/-- READY may go: the level is reached, and what was displaced for it has ended (R208, R273). -/
def readyDue (now : Nat) (s : Slot) : Bool :=
  decide (s.state = 3 ∨ s.state = 4) && s.reached && !s.readySent && decide (s.displaced = []) && decide (s.readyFrom ≤ now)

/-- READY (R275). -/
def sendReady (p : PortId) (k : Nat) (s : Slot) (i : Idx) (d : Dev) : Dev :=
  let d1 := makeReady p i (d.modPort p (putSlot k { s with readySent := true }))
  let c := contractOf (d1.port p) i.toNat
  sendTo p i (.ready c.level) 0x0D 0
    (payReady ⟨c.power, c.level, (rosterOf (d1.port p) i.toNat).cls, false, c.grant⟩) (some (BitVec.ofNat 7 k)) d1

/-- READY (R275). -/
def execReady (p : PortId) (slot : BitVec 7) (s : State) : Answer :=
  onDev (fun d =>
    match spFind (d.port p).slots slot.toNat with
    | some x =>
      match x.idx with
      | some i => guardDev (readyDue d.us x && (d.port p).isHead) (sendReady p slot.toNat x i) d
      | none => d
    | none => d) s

/-! ## Forecasts (R302, R303) -/

/-- A HINT is malformed, or the port holds 64 reservations. -/
def hintRefused (q : Port) (m : HintMsg) : Bool :=
  decide (600 < m.power ∨ m.durS = 0 ∨ 3600 < m.durS ∨ 64 ≤ q.hints.length)

/-- The reservation of a HINT. -/
def hintOf (q : Port) (i : Idx) (m : HintMsg) (now : Nat) : Reservation :=
  let start := now + m.startMs.toNat * 1000
  { idx := i, forecast := m.power, delta := m.power.toNat - heldPower q i.toNat, startAt := start
    holdAt := Nat.max now (start - 1000000), endAt := start + m.durS.toNat * 1000000 }

/-- A HINT that is accepted replaces the endpoint's reservation. -/
def takeHint (i : Idx) (m : HintMsg) (now : Nat) (q : Port) : Port :=
  let h := hintOf q i m now
  let q1 := dropHint i q
  if m.power = 0 ∨ h.delta = 0 then q1 else { q1 with hints := q1.hints ++ [h] }

/-- HINT (R302). -/
def execHint (p : PortId) (i : Idx) (h : FrameTag) (m : HintMsg) (s : State) : Answer :=
  onDev (fromEndpoint p i h fun d =>
    if duplicateFrom (d.port p) i h then ackAgain p i h d
    else if hintRefused (d.port p) m then nakFrame p i h d
    else (ackFrame p i h d).modPort p (takeHint i m d.us)) s

/-- The level that a forecast needs (R303). -/
def hintLevel (q : Port) (delta : Nat) : Option Level :=
  allLevels.find? fun l => decide (l ≤ q.ctl.lmax) && decide (admitSum q + delta ≤ levelCapacity q l)

/-- HINT_LEVEL_RAISE (R303): from 200 ms before the forecast start. -/
def execHintLevelRaise (p : PortId) (i : Idx) (s : State) : Answer :=
  onDev (fun d =>
    match (d.port p).hints.find? fun h => h.idx == i with
    | some h =>
      guardDev (d.core.run && (d.port p).isHead && decide (h.startAt ≤ d.us + 200000) && decide (d.us < h.endAt))
        (fun d => d.modPort p fun q =>
          match hintLevel q h.delta with
          | some l => if levelCapped d p l then q else beginStep d.us (raiseTgt (clampTop q l) d.us q)
          | none => q) d
    | none => d) s

/-- HINT_RESERVATION_END (R302). -/
def execHintReservationEnd (p : PortId) (i : Idx) (s : State) : Answer :=
  onDev (fun d => d.modPort p fun q =>
    match q.hints.find? fun h => h.idx == i with
    | some h => if h.endAt ≤ d.us then dropHint i q else q
    | none => q) s

end Sys2Proof.Machine
end

