-- ==== Sys2Proof/Machine/Line.lean ====
section
/-! DEFINITION. What the head sends of its own accord: beacons and adverts (R158 to R160, R173), POLLs (R73, R174), the
answers to ENROLLs (R161, R162, R178, R179), and the first second with its level decision and restore (R71 to R80). -/

namespace Sys2Proof.Machine

open Sys2Proof

/-! ## Beacons and adverts -/

/-- The head beacons at the lonely rate (R159). -/
def lonely (q : Port) : Bool := q.line.first.isNone && q.roster.all fun (_, r) => r.state != 2 && r.state != 4

/-- The content of an ADVERT but for ADVSEQ (Table 08-2). -/
def advertOf (d : Dev) (p : PortId) : AdvertMsg :=
  let q := d.port p
  { advseq := 0, lmax := q.ctl.lmax, ps2 := q.ctl.ps2, fixed := q.ctl.fixed, spec := true, ring := q.ring.peer
    budget := sat16 (budget d p), headroom := sat16 (budget d p - admitSum q), largest := 600, floorMw := 50
    bper := q.line.bper.setWidth 8, enr := q.line.enr.setWidth 8 + 1, version := 0x0100 }

/-- Two ADVERTs differ in a field other than b4-b5 (R173). -/
def advertBumps (a b : AdvertMsg) : Bool :=
  { a with advseq := 0, headroom := 0 } != { b with advseq := 0, headroom := 0 }

/-- The ADVSEQ in force for a content, and whether an ADVERT is due after this beacon (R173). The spec does not say whether an
ADVERT sent for a change restarts the count to the one after every 16th beacon: it does, the model's choice (assumption 116). -/
def advertDue (l : Line) (a : AdvertMsg) : Byte × Bool :=
  match l.lastAdvert with
  | none => (l.advseq, true)
  | some b =>
    (if advertBumps a b then l.advseq + 1 else l.advseq,
     { a with advseq := 0 } != { b with advseq := 0 } || decide (16 ≤ l.sinceAdvert + 1))

/-- A restore POLL is under way or waits. -/
def restorePolls (q : Port) : Bool := q.line.out.any fun o => o.kind == .poll 1

/-- This beacon carries ENRW (R75, R159, R160): in the first second once the last exchange of the roster pass has ended. -/
def opensWindow (q : Port) (now : Nat) : Bool :=
  match q.line.first with
  | some t0 =>
    ((q.line.pass == some [] && !restorePolls q) || decide (t0 + 400000 ≤ now)) && decide (4 ≤ q.line.sinceWindow + 1)
  | none => lonely q || decide (q.line.enr.toNat + 1 ≤ q.line.sinceWindow + 1)

/-- The roster pass begins at the second beacon (R73): every index of the roster, in class, priority and index order. -/
def passOrder (d : Dev) (p : PortId) : List Idx :=
  let l := ((d.port p).roster.filter fun (_, r) => r.state != 0).map fun (i, _) =>
    (admissionKey d p (BitVec.ofNat 10 i) 0, BitVec.ofNat 10 i)
  (sortBy (fun a b => lexLt a.1 b.1) l).map (·.2)

/-- The interval from this beacon to the next, µs (R71, R158, R159): no beacon of the configured period comes before t0 + 1 s. -/
def beaconPeriod (q : Port) : Nat :=
  match q.line.first with
  | some t0 =>
    if q.line.due + 32000 ≤ t0 + 1000000 then 32000
    else Nat.max (1000 * q.line.bper.toNat) (t0 + 1000000 - q.line.due)
  | none => if lonely q then 1000000 else 1000 * q.line.bper.toNat

/-- The setting of the signal wire's source that the line calls for (R155). Where a level step or a droop hold runs in an enrol
window, R155 names both TxHOLD and TxENROLL: the window's setting is the model's choice (assumption 111). -/
def lineSetting (now : Nat) (q : Port) : PullUp :=
  if !q.isHead then .off
  else if q.line.window.isSome || (decide (q.line.due ≠ 0) && decide (q.line.due ≤ now + 1000) && opensWindow q q.line.due) then
    .enroll
  else if q.line.first.isSome || q.lev.step.isSome || q.drp.hold then .hold
  else .ok

/-- A microsecond of the signal wire's source: its setting follows the line (R155). -/
def tickSource (now : Nat) (q : Port) : Port :=
  let s := lineSetting now q
  if s = q.line.src then q else { q with line := { q.line with src := s, srcAt := now } }

/-- The setting has stood for 1 ms, so that the level has settled (R155). -/
def sourceSettled (now : Nat) (q : Port) : Bool := decide (q.line.srcAt + 1000 ≤ now)

/-- The common factor at a beacon: once per beacon interval from the level of the idle line (R118). -/
def beaconFactor (now : Nat) (q : Port) : Nat :=
  if idleFor 12 now q && sourceSettled now q then nextFactor q.line.src q.line.factor (signalMv q q.met.last) else q.line.factor

/-- The beacon that a port sends at this moment. -/
def beaconOf (q : Port) (advseq : Byte) : BeaconMsg :=
  { eui := Config.headEui, cur := q.lev.cur, tgt := q.lev.tgt, busy := q.lev.step.isSome, shed := q.drp.shed
    advseq := advseq, count := q.line.bcount
    bper := if lonely q then 0 else if q.line.first.isSome then 32 else q.line.bper.setWidth 8
    enrw := false, lonely := lonely q, first := q.line.first.isSome, peer := false }

/-- A BEACON lasts 374 µs; its enrol window ends tE + 4 ms after it (R142, R160). -/
def windowEnd (now : Nat) : Nat := now + 374 + 20 + 4000

/-- The peer gap before a beacon with an even count has passed, with or without a report of the follower (R228, R236). -/
def noteGap (count : Byte) (due : Nat) (q : Port) : Port :=
  if q.ring.peer ∧ count.toNat % 2 = 0 then
    { q with ring := { q.ring with missed := if q.ring.reportDue = due then 0 else q.ring.missed + 1 } }
  else q

/-- BEACON (R158): the beacon, the ADVERT that is due, the window, the next due time; an endpoint released by its SHED 0
returns (R297). -/
def sendBeacon (p : PortId) (d : Dev) : Dev :=
  let q0 := d.port p
  let start := match q0.line.first with | some t0 => decide (t0 + 34000 ≤ q0.line.due) && q0.line.pass.isNone | none => false
  let order := passOrder d p
  let a0 := advertOf d p
  d.modPort p fun q =>
    let enrw := opensWindow q d.us
    let (seq, due) := advertDue q.line a0
    let a := { a0 with advseq := seq }
    let flags := (if enrw then flEnrw else 0) ||| (if lonely q then flLonely else 0) ||| (if q.line.first.isSome then flFirst else 0)
    let q1 := sendGroup 0x3FF 0x01 flags (payBeacon (beaconOf q seq)) q
    let hush := swapSilences q.rail.swap || (q.line.reloadDue && !enrw)
    let due := due && !hush
    let q2 := if due then sendGroup 0x3FF 0x02 0 (payAdvert a) q1 else q1
    let w := if enrw then some (windowEnd d.us) else none
    let next := q.line.due + beaconPeriod q
    let q3 := { q2 with line := { q2.line with
      bcount := q.line.bcount + 1, advseq := seq, lastAdvert := if due then some a else q.line.lastAdvert
      sinceAdvert := if due then 0 else q.line.sinceAdvert + 1
      factor := beaconFactor d.us q, beaconEnd := d.us + 374, beaconEnrw := enrw
      sinceWindow := if enrw then 0 else q.line.sinceWindow + 1, window := w, polled := 0, pulses := 0
      due := match w with | some t => Nat.max next (t + 500) | none => next
      pass := if start then some order else q.line.pass } }
    let q4 := noteGap q.line.bcount q.line.due q3
    if q.drp.shed then q4 else releaseRates (d.us + 374) q4

/-- A frame of the queue is on the line or awaits its answer. -/
def exchangeRuns (q : Port) : Bool := q.line.out.any fun o => o.sent

/-- A beacon is due: the head originates, its time has come, no window or reload is under way, and nobody else speaks (R153,
R158, R167). -/
def beaconDue (q : Port) (now : Nat) : Bool :=
  q.isHead && decide (q.line.due ≠ 0) && decide (q.line.due ≤ now) && q.line.window.isNone && q.line.reloadAt.isNone
    && idleFor 12 now q && !exchangeRuns q

/-- BEACON (R158). -/
def execBeacon (p : PortId) (s : State) : Answer :=
  onDev (fun d => guardDev (beaconDue (d.port p) d.us) (sendBeacon p) d) s

/-! ## POLL (R73, R174, R176) -/

/-- The POLL that shows an endpoint the head's view of its contract (R176, R190). -/
def pollOf (q : Port) (i : Idx) (kind : BitVec 2) : PollMsg :=
  let r := rosterOf q i.toNat
  let c := contractOf q i.toNat
  if kind = 1 then
    { kind := 1, level := r.storedLevel, cls := r.cls, held := decide (r.stored ≠ 0), rdy := false, power := r.stored
      ceil := sentCeil r, grant := 0, advseq := q.line.advseq }
  else
    { kind := kind, level := if c.held then c.level else 0, cls := r.cls, held := c.held, rdy := decide (c.state = 2)
      power := if c.held then c.power else 0, ceil := sentCeil r, grant := if c.held then c.grant else 0
      advseq := q.line.advseq }

/-- Sends a POLL. -/
def sendPoll (p : PortId) (kind : BitVec 2) (i : Idx) (d : Dev) : Dev :=
  let d1 := d.modPort p fun q =>
    let q1 := { q with line := { q.line with
      polled := q.line.polled + (if kind = 1 then 1 else 0), pass := if kind = 1 then q.line.pass.map (·.tail) else q.line.pass } }
    if kind = 0 ∨ kind = 3 then setRoster i.toNat { rosterOf q1 i.toNat with polledAt := d.us } q1 else q1
  sendTo p i (.poll kind) 0x03 0 (payPoll (pollOf (d.port p) i kind)) none d1

/-- A reset that is due takes the place of a GENERAL POLL (R191, R194, Table 08-6). -/
def sendReset (p : PortId) (i : Idx) (hard : Bool) (reason : Byte) (k : Nat) (d : Dev) : Dev :=
  let mt : BitVec 6 := if hard then 0x1F else 0x1E
  let s : Slot := { state := 1, mtype := mt, idx := some i, since := d.us, issue := (d.port p).issue }
  sendTo p i .reset mt 0 [reason, 0] (some (BitVec.ofNat 7 k)) (d.modPort p (takeSlot k s))

/-- A GENERAL POLL, or the reset that takes its place; none to an endpoint that holds a slot (R191). -/
def pollGeneral (p : PortId) (i : Idx) (d : Dev) : Dev :=
  let q := d.port p
  match (rosterOf q i.toNat).resetDue, freeSlot q with
  | some (hard, reason), some k =>
    if (slotOf q i).isSome then sendPoll p 0 i d else sendReset p i hard reason k d
  | _, _ => sendPoll p 0 i d

/-- The line is free for a POLL of the head: nothing is queued, it has been idle for 12 µs, the pull-up band has settled, and the
sequence is over before the next beacon, on a ring before the peer gap (R153, R155, R156, R158, R167, R241). -/
def lineFree (now : Nat) (q : Port) : Bool :=
  q.isHead && q.line.out.isEmpty && q.line.window.isNone && q.line.reloadAt.isNone && idleFor 12 now q && sourceSettled now q
    && !swapSilences q.rail.swap && endsInTime 1226 now q

/-- A POLL of a kind may go to an index (R73, R174, R286). -/
def pollAllowed (q : Port) (kind : BitVec 2) (i : Idx) (now : Nat) : Bool :=
  let r := rosterOf q i.toNat
  let here := decide (r.state = 2) || decide (r.state = 4)
  if kind = 0 then here && q.line.first.isNone
  else if kind = 1 then (match q.line.pass with | some (j :: _) => j == i && decide (q.line.polled < 64) | _ => false)
  else if kind = 2 then here
  else decide (r.state = 3) && decide (r.polledAt + 60000000 ≤ now)

/-- POLL (R174). -/
def execPoll (p : PortId) (kind : BitVec 2) (i : Idx) (s : State) : Answer :=
  onDev (fun d =>
    guardDev (lineFree d.us (d.port p) && pollAllowed (d.port p) kind i d.us)
      (fun d => if kind = 0 then pollGeneral p i d else sendPoll p kind i d) d) s

/-! ## Enrolment (R161, R162, R178, R179) -/

/-- ENROLL (R161): an intact one in the window is recorded. -/
def execEnroll (p : PortId) (slot : BitVec 3) (m : EnrollMsg) (s : State) : Answer :=
  onDev (fun d => d.modPort p fun q =>
    if q.isHead ∧ q.line.window.any (fun t => decide (d.us ≤ t)) = true then
      hears d.us { q with line := { q.line with enrolls := q.line.enrolls ++ [(slot, m)] } }
    else q) s

/-- The roster index of an EUI-48. -/
def findEui (q : Port) (e : Eui) : Option (Nat × RosterRec) := q.roster.find? fun (_, r) => r.state != 0 && r.eui == e

/-- The lowest free index from one on; the roster lists only records in use. -/
def freeIndexFrom : Sparse RosterRec → Nat → Option Nat
  | [], k => if k < 1024 then some k else none
  | (a, r) :: t, k =>
    if a = k ∧ r.state ≠ 0 then freeIndexFrom t (k + 1) else if k < 1024 then some k else none

/-- The lowest free index. -/
def freeIndex (q : Port) : Option Nat := freeIndexFrom (q.roster.filter fun (_, r) => r.state != 0) 0

/-- What an ENROLL declares is kept with the roster record (R285, R391). -/
def declare_ (m : EnrollMsg) (r : RosterRec) : RosterRec :=
  { r with mask := m.mask, vmin := m.vmin, tempCap := m.temp, calable := m.calable }

/-- The slot of an intact ENROLL (R194). -/
def enrolSlot (q : Port) (now : Nat) : Slot := { state := 1, mtype := 0x04, since := now, issue := q.issue }

/-- A broadcast REJECT for an ENROLL: it takes its slot and frees it as the REJECT is sent (R179, R194). -/
def rejectEnroll (k reason detail : Nat) (e : Eui) (now : Nat) (q : Port) : Port :=
  dropSlot k (broadcast 0x0B 0 (payRejectBc ⟨BitVec.ofNat 8 reason, BitVec.ofNat 8 detail, e⟩) (takeSlot k (enrolSlot q now) q))

/-- DUPLICATE (R179): PEVT.DUP, DUPSEEN, the event, the REJECT. -/
def enrollDuplicate (p : PortId) (k : Nat) (slot : BitVec 3) (i : Nat) (r : RosterRec) (m : EnrollMsg) (d : Dev) : Dev :=
  let d1 := d.modPort p fun q => notePDup (setRoster i { r with dupseen := true } q)
  (postEndpoint 0x21 slot.toNat p (BitVec.ofNat 10 i) false d1).modPort p (rejectEnroll k 8 slot.toNat m.eui d.us)

/-- Sends ASSIGN for a slot taken (R178). -/
def sendAssign (p : PortId) (i k : Nat) (fresh : Bool) (d : Dev) : Dev :=
  let r := rosterOf (d.port p) i
  let s := enrolSlot (d.port p) d.us
  sendTo p (BitVec.ofNat 10 i) (.assign fresh) 0x05 0 (payAssign ⟨r.eui, r.cls, r.tenant, !fresh, decide (r.stored ≠ 0)⟩)
    (some (BitVec.ofNat 7 k)) (d.modPort p (takeSlot k s))

/-- The record of a new endpoint (R178). -/
def freshRecord (q : Port) (m : EnrollMsg) : RosterRec :=
  ringLoop q (declare_ m { state := 1, eui := m.eui, cls := if m.cfgd then m.cls else 3, tenant := if m.cfgd then m.tenant else 0
                           temp := 0x8000, ceil := q.cfg.uncalCeil })

/-- The answer to one intact ENROLL; without a free slot there is none (R194). What a known endpoint declares anew renews its
ceiling (R289; assumption 134). -/
def answerEnroll (p : PortId) (x : BitVec 3 × EnrollMsg) (d : Dev) : Dev :=
  let q := d.port p
  match freeSlot q with
  | none => d
  | some k =>
    match findEui q x.2.eui with
    | some (i, r) =>
      if r.state = 2 ∨ r.state = 4 then enrollDuplicate p k x.1 i r x.2 d
      else sendAssign p i k false (d.modPort p fun q => setRoster i (storedCeiling q (declare_ x.2 r)) q)
    | none =>
      match freeIndex q with
      | none => d.modPort p (rejectEnroll k 1 1 x.2.eui d.us)
      | some i => sendAssign p i k true (d.modPort p fun q => setRoster i (freshRecord q x.2) q)

/-- The ENROLLs of a window in minislot order; each intact one is answered (R162, R178). -/
def enrollOrder (l : List (BitVec 3 × EnrollMsg)) : List (BitVec 3 × EnrollMsg) := sortBy (fun a b => decide (a.1 < b.1)) l

/-- ENROL_WINDOW_END (R162). -/
def execEnrolWindowEnd (p : PortId) (s : State) : Answer :=
  onDev (fun d =>
    guardDev ((d.port p).isHead && (d.port p).line.window.any fun t => decide (t ≤ d.us)) (fun d =>
      let l := enrollOrder (d.port p).line.enrolls
      foldDev (answerEnroll p) l (d.modPort p fun q => { q with line := { q.line with window := none, enrolls := [] } })) d) s

/-- An ASSIGN is acknowledged (R178): the endpoint is enrolled, present, and its record is to be stored (R107, R391). -/
def enrolled (p : PortId) (i : Idx) (d : Dev) : Dev :=
  let d1 := d.modPort p fun q =>
    let r := rosterOf q i.toNat
    setPevt eEnrol (setRoster i.toNat (setRate 50 d.us { r with state := 2, enrolMs := d.msCount, seqRx := none, calDue := r.calable }) q)
  let d2 := postEndpoint 0x20 (rosterOf (d1.port p) i.toNat).cls.toNat p i false d1
  { d2 with keep := { d2.keep with due := if d2.keep.due.contains (.roster p i) then d2.keep.due else d2.keep.due ++ [.roster p i] } }

/-! ## The first second (R71 to R80) -/

/-- No endpoint has consented to anything yet. -/
def clearConsents (q : Port) : Port :=
  q.roster.foldl (fun q x => if x.2.consent then setRoster x.1 { x.2 with consent := false } q else q) q

/-- FIRST_SECOND_START (R71): VSEG enters the L0 window after the gate drive started. -/
def execFirstSecondStart (p : PortId) (s : State) : Answer :=
  onDev (fun d => d.modPort p fun q =>
    if q.isHead ∧ q.lev.driveAt.isSome = true ∧ inBand 0 q.met.last.vseg = true then
      let q1 := clearConsents q
      { q1 with lev := { q1.lev with driveAt := none }
                line := { q1.line with first := some d.us, pass := none, decided := false, polled := 0, restored := []
                                       due := d.us + 2000, sinceWindow := 3, window := none, enrolls := [] } }
    else q) s

/-- FIRST_SECOND_END (R71). -/
def execFirstSecondEnd (p : PortId) (s : State) : Answer :=
  onDev (fun d => d.modPort p fun q =>
    match q.line.first with
    | some t0 =>
      if t0 + 1000000 ≤ d.us then { q with line := { q.line with first := none, pass := none, decided := false } } else q
    | none => q) s

/-- The stored contract of a consenting endpoint as a request; its floor is the keep-alive floor (R190). -/
def restoreReq (r : RosterRec) : RequestMsg := ⟨r.stored, 0, r.mask⟩

/-- The indices that have consented to a stored contract, in admission order (R77). -/
def consenting (d : Dev) (p : PortId) : List Idx :=
  (passOrder d p).filter fun i =>
    let r := rosterOf (d.port p) i.toNat
    r.consent && decide (r.state = 2) && decide (r.stored ≠ 0)

/-- The levels that a restore may use: at or above CUR, within LMAX, a held target and the gang level, and in the mask of
every contract (R77, R94, R207). -/
def restoreLevels (d : Dev) (p : PortId) : List Level :=
  let q := d.port p
  allLevels.filter fun l => decide (q.lev.cur ≤ l) && decide (l ≤ levelTop q) && !levelCapped d p l
    && (decide (l ≤ q.lev.tgt) || raiseAllowed d.us q) && (contracts q).all fun (_, c) => c.mask.getLsbD l.toNat

/-- What keeps a consented contract from being admitted (R77, R265): its code and its THROT bit, or none. -/
def restoreFailure (d : Dev) (p : PortId) (i : Idx) : Option Verdict :=
  let q := d.port p
  let r := rosterOf q i.toNat
  let power := r.stored.toNat
  let x : Candidate := ⟨p, i, restoreReq r, d.us, none⟩
  if classCap q r.cls = 0 ∨ (tenantOf d r.tenant.toNat).cap = 0 then some (.reject 7 false)
  else if q.drp.shed ∨ admissionBudget d p < admitSum q + power then some (portFailure d x)
  else if ((restoreLevels d p).filter fun l => r.mask.getLsbD l.toNat && decide (admitSum q + power ≤ levelCapacity q l)).isEmpty then
    some (.wait 1 (if q.lev.hold then 7 else 0) (.port p) true)
  else partCheck d [] x power

/-- A consented contract that does not fit: REJECT where its cap is locked, else WAIT (R78, R265). -/
def restoreWaits (p : PortId) (i : Idx) (v : Verdict) (d : Dev) : Dev :=
  let d1 := d.modPort p fun q => setRoster i.toNat { rosterOf q i.toNat with consent := false } q
  let req := restoreReq (rosterOf (d.port p) i.toNat)
  match v with
  | .reject 7 _ => sendReject p i none 7 d1
  | .reject code _ => sendWait p i none req d.us code (causeBit d p code) d1
  | .wait code bit _ _ => sendWait p i none req d.us code bit d1
  | .pass _ => d1

/-- One consented contract is decided: admitted at the level in force, which the decision then moves (R77). -/
def restoreOne (p : PortId) (i : Idx) (d : Dev) : Dev :=
  match restoreFailure d p i with
  | some v => restoreWaits p i v d
  | none =>
    let req := restoreReq (rosterOf (d.port p) i.toNat)
    let d1 := d.modPort p fun q =>
      let q1 := writeContract i req q.lev.cur 0 d.timebase q
      { q1 with line := { q1.line with restored := q1.line.restored ++ [i] } }
    postEndpoint 0x23 0 p i false d1

/-- The lowest level at which the admitted total fits the port's cap (R77). -/
def restoreTarget (d : Dev) (p : PortId) : Level :=
  let q := d.port p
  let ls := restoreLevels d p
  match ls.find? fun l => decide (admitSum q ≤ levelCapacity q l) with
  | some l => l
  | none => ls.getLast?.getD q.lev.cur

/-- The level decision (R77). -/
def levelDecision (p : PortId) (d : Dev) : Dev :=
  let d1 := foldDev (restoreOne p) (consenting d p) (d.modPort p fun q => { q with line := { q.line with decided := true } })
  let l := restoreTarget d1 p
  d1.modPort p fun q =>
    let q1 := q.line.restored.foldl (fun q i => let c := contractOf q i.toNat
      setContract i.toNat { c with level := l, cur := sat16 (currentOf c.power.toNat l) } q) q
    beginStep d.us (if q.lev.hold then q1 else { q1 with lev := { q1.lev with tgt := l } })

/-- The level decision is due: at the first beacon from t0 + 600 ms on, with the allocator running (R77). A beacon that starts then
ends 374 µs later at the earliest. -/
def decisionDue (d : Dev) (p : PortId) : Bool :=
  let q := d.port p
  q.isHead && allocRuns d && !q.line.decided && (match q.line.first with
    | some t0 => decide (t0 + 600374 ≤ q.line.beaconEnd)
    | none => !(consenting d p).isEmpty)

/-- LEVEL_DECISION (R77). -/
def execLevelDecision (p : PortId) (s : State) : Answer :=
  onDev (fun d => guardDev (decisionDue d p) (levelDecision p) d) s

/-- A restored contract no longer fits the level that was reached (chapter 03, Edges): it ends, and waits. -/
def restoreDrops (p : PortId) (i : Idx) (d : Dev) : Dev :=
  let d1 := d.modPort p fun q => { q with line := { q.line with restored := q.line.restored.filter (· != i) } }
  restoreWaits p i (.wait 1 0 (.port p) true) (endContract 3 p i d1)

/-- A restored contract fits the level in force beside the others that are kept. -/
def restoreFits (q : Port) (i : Idx) : Bool :=
  (contractOf q i.toNat).mask.getLsbD q.lev.cur.toNat && decide (admitSum q ≤ levelCapacity q q.lev.cur)

/-- Restored contracts that do not fit the level reached, from the last in admission order. -/
def restoreTrim (p : PortId) (d : Dev) : Dev :=
  foldDev (fun i d => if (contractOf (d.port p) i.toNat).held ∧ restoreFits (d.port p) i = false then restoreDrops p i d else d)
    (d.port p).line.restored.reverse d

/-- A class READY broadcast, sent twice, 1 ms apart: the second copy carries the same SEQ with RETRY 1 (R79). -/
def classReady (now : Nat) (c : Cls) (q : Port) : Port :=
  let pay := payReady ⟨0, q.lev.cur, c, true, 0⟩
  let copy : TxItem := .full ⟨0x0D, 0x3FF, q.line.bseq, flBc ||| flRetry, pay⟩
  broadcast 0x0D 0 pay { q with line := { q.line with repeats := q.line.repeats ++ [(now + 1000, copy)] } }

/-- Second copies whose time has come go out (R79). -/
def tickRepeats (now : Nat) (q : Port) : Port :=
  if q.line.repeats = [] then q
  else
    let go := q.line.repeats.filter fun x => decide (x.1 ≤ now)
    go.foldl (fun q x => emit x.2 q) { q with line := { q.line with repeats := q.line.repeats.filter fun x => decide (now < x.1) } }

/-- A restored contract is READY at the level reached. -/
def restoreReady (p : PortId) (i : Idx) (d : Dev) : Dev :=
  if (contractOf (d.port p) i.toNat).state = 1 then
    let d1 := d.modPort p fun q =>
      let c := contractOf q i.toNat
      setContract i.toNat { c with level := q.lev.cur, cur := sat16 (currentOf c.power.toNat q.lev.cur) } q
    let d2 := makeReady p i d1
    postEndpoint 0x24 (d2.port p).lev.cur.toNat p i false d2
  else d

/-- The broadcasts and events of R79. -/
def restoreBroadcast (p : PortId) (d : Dev) : Dev :=
  let ids := (d.port p).line.restored
  let holds := fun (q : Port) (c : Cls) => ids.any fun i => (rosterOf q i.toNat).cls == c && decide ((contractOf q i.toNat).state = 1)
  let d1 := d.modPort p fun q => [0, 1, 2, 3].foldl (fun q c => if holds q c then classReady d.us c q else q) q
  (foldDev (restoreReady p) ids d1).modPort p fun q => { q with line := { q.line with restored := [] } }

/-- The last step of the restore is over, and the WAITs of R78 are sent. -/
def restoreSettled (q : Port) : Bool :=
  q.isHead && decide (q.line.restored ≠ []) && q.lev.step.isNone && q.line.out.all fun o => o.kind != .wait

/-- RESTORE_READY_BROADCAST (R79): contracts that no longer fit wait first. -/
def execRestoreReadyBroadcast (p : PortId) (s : State) : Answer :=
  onDev (fun d =>
    guardDev (restoreSettled (d.port p)) (fun d =>
      let d1 := restoreTrim p d
      if restoreSettled (d1.port p) then restoreBroadcast p d1 else d1) d) s

/-- A consent to a restore (R74): after the level decision, the contract waits (R78). -/
def consents (p : PortId) (i : Idx) (d : Dev) : Dev :=
  if (rosterOf (d.port p) i.toNat).stored = 0 then d
  else
    let d1 := d.modPort p fun q => setRoster i.toNat { rosterOf q i.toNat with consent := true } q
    if (d.port p).line.decided then restoreWaits p i (.wait 1 0 (.port p) true) d1 else d1

/-- A restore is declined (R74): the stored contract is deleted. -/
def declines (p : PortId) (i : Idx) (d : Dev) : Dev :=
  if (rosterOf (d.port p) i.toNat).stored = 0 then d
  else dirtyPage p i (d.modPort p fun q =>
    setRoster i.toNat { rosterOf q i.toNat with stored := 0, storedLevel := 0, consent := false } q)

end Sys2Proof.Machine
end

