-- ==== Sys2Proof/Machine/Calib.lean ====
section
/-! DEFINITION. REPORTs (R191, R192, R300, R305, R344) and the loop-resistance calibration (R193, R286 to R292). -/

namespace Sys2Proof.Machine

open Sys2Proof

/-! ## Endpoint temperatures (R305) -/

/-- Hotter first; the lower handle on a tie. -/
def hotterThan (a b : HotReport) : Bool :=
  decide (b.temp.toInt < a.temp.toInt) || (a.temp == b.temp && decide (a.handle < b.handle))

/-- The sixteen highest of the reports of the last 10 min. -/
def rankReports (now : Nat) (t : Tables) : Tables :=
  let l := t.reports.filter fun r => decide (now < r.at_ + 600000000)
  { t with reports := l, hot := (sortBy hotterThan l).take 16 }

/-- A REPORT's temperature replaces the endpoint's earlier one; 0x8000 removes it. -/
def takeTemp (p : PortId) (i : Idx) (temp : Half) (now : Nat) (t : Tables) : Tables :=
  let h : BitVec 11 := (handleOf p i).setWidth 11
  let l := t.reports.filter fun r => r.handle != h
  rankReports now { t with reports := if temp = 0x8000 then l else l ++ [⟨h, temp, now⟩] }

/-! ## What a REPORT changes (R191, R285, R300, R344) -/

/-- The rate that two REPORTs give, mW, clamped to 0 and 1.1 × the contract power (R344). -/
def reportedRate (c0 c1 : Word) (us power : Nat) : Nat :=
  if us = 0 then 0 else Nat.min ((c1 - c0).toNat * 1000000 / us) (power * 110)

/-- The draw is more than 10 % above the contract (R191). -/
def overDraws (m : ReportMsg) (power : Nat) : Bool := decide (power * 110 * 1000 < m.volt.toNat * m.cur.toNat)

/-- The terminal voltage is low (R286, R300). -/
def reportsLow (m : ReportMsg) (r : RosterRec) : Bool := m.lowv || decide (m.volt.toNat < r.vmin.toNat + 300)

/-- The roster record after a REPORT: temperature, lowest voltage, count, over-draw (R191, R285, R344). -/
def reportRecord (m : ReportMsg) (c : ContractRec) (now : Nat) (r : RosterRec) : RosterRec :=
  let ready := decide (c.state = 2)
  let r1 := rateTo (now / 1000) r
  let r2 := match r.lastCount with
    | some (c0, t0) => if ready then { r1 with rate := reportedRate c0 m.count (now - t0) c.power.toNat } else r1
    | none => r1
  let n := if ready && overDraws m c.power.toNat then r.overdraw + 1 else 0
  { r2 with
    temp := m.temp, lastCount := if ready then some (m.count, now) else none
    lowV := if c.held ∧ (r.lowV = 0 ∨ m.volt < r.lowV) then m.volt else r.lowV
    overdraw := if 2 ≤ n then 0 else n
    resetDue := if 2 ≤ n ∧ r.resetDue = none then some (false, 1) else r.resetDue
    calDue := r.calDue || (r.calable && reportsLow m r) }

/-- EMETER NOCAL clears with the first rate from counts (R344). -/
def reportCal (i : Idx) (hadCount ready : Bool) (q : Port) : Port :=
  if hadCount && ready then
    let e := spGet {} q.emeter i.toNat
    { q with emeter := spSet {} q.emeter i.toNat { e with nocal := false } }
  else q

/-- A low voltage under a READY contract sets the droop limit to 95 % of ADMIT; a lower one is kept (R300). -/
def lowLimit (now : Nat) (q : Port) : Port :=
  let v := admitSum q * 95 / 100
  { q with drp := { q.drp with
      limit := some (capBy v q.drp.limit)
      limitPrev := if q.drp.hold then some (capBy v q.drp.limitPrev) else q.drp.limitPrev
      at_ := if q.drp.hold then q.drp.at_ else now } }

/-! ## The calibration pulse (R193, R286) -/

/-- A KIND 2 POLL to an index is still to be answered. -/
def pollsReport (q : Port) (f : Idx → Bool) : Bool :=
  q.line.out.any fun o => (match o.kind with | .poll 2 => true | _ => false) && f o.idx

/-- The pulse goes on: a drawer that was polled without a usable report ends it with CODE 1 (R287); the slot is freed after
the last REPORT POLL (R194). -/
def calProgress (p : PortId) (d : Dev) : Dev :=
  let d1 := match (d.port p).line.cal with
    | some (i, _, _, none) =>
      if pollsReport (d.port p) (· == i) then d
      else postEndpoint 0x2A 1 p i false (d.modPort p fun q => { q with line := { q.line with cal := none } })
    | _ => d
  match (d1.port p).line.calSlot with
  | some k =>
    if pollsReport (d1.port p) (fun _ => true) then d1
    else d1.modPort p fun q => let q1 := dropSlot k.toNat q; { q1 with line := { q1.line with cal := none, calSlot := none } }
  | none => d1

/-- A loop resistance is taken for an endpoint, and its ceiling with it. -/
def takeLoop (p : PortId) (i : Idx) (rLoop : Nat) (d : Dev) : Dev :=
  ceilingActs p i (dirtyPage p i (d.modPort p fun q =>
    setRoster i.toNat (setLoop rLoop q.grd.ilim.toNat (rosterOf q i.toNat)) q))

/-- (ΔV + 10 mV) / ΔI in mΩ, rounded up (R287); a quotient below 0 counts as 0 (assumption 133). -/
def loopOf (dv : Int) (di : Nat) : Nat := (((dv + 10) * 1000 + di - 1) / di).toNat

/-- The report of the drawer (R287). -/
def drawerReport (p : PortId) (i : Idx) (want stepMa : Nat) (dv : Int) (cid : Byte) (d : Dev) : Dev :=
  if 2 * stepMa < want ∨ stepMa = 0 then
    postEndpoint 0x2A 1 p i false (d.modPort p fun q => { q with line := { q.line with cal := none } })
  else
    let d1 := takeLoop p i (loopOf dv stepMa) d
    postEndpoint 0x2A 0 p i false
      (d1.modPort p fun q => { q with line := { q.line with cal := some (i, cid, want, some (stepMa, dv)) } })

/-- The report of an endpoint that is not the drawer: only one measurably nearer the head counts (R288). -/
def otherReport (p : PortId) (i : Idx) (di : Nat) (dvd dv : Int) (d : Dev) : Dev :=
  if (dv + 10) * 1000 + 50 * di ≤ (dvd - 10) * 1000 then takeLoop p i (loopOf dv di) d else d

/-- A REPORT's calibration pair, which counts only with CALV and the pulse's CAL_ID (R286). -/
def calReport (p : PortId) (i : Idx) (m : ReportMsg) (stepMa : Nat) (d : Dev) : Dev :=
  match (d.port p).line.cal with
  | none => d
  | some (dr, cid, want, seen) =>
    let dv : Int := (m.calBefore.toNat : Int) - m.calDuring.toNat
    let r := rosterOf (d.port p) i.toNat
    if m.calv = false ∨ m.calId ≠ cid then d
    else match seen with
      | none => if i = dr then drawerReport p i want stepMa dv cid d else d
      | some (di, dvd) => if i ≠ dr ∧ r.calable = false ∧ r.calok = false then otherReport p i di dvd dv d else d

/-- A REPORT that is accepted (R192). -/
def onReport (p : PortId) (i : Idx) (m : ReportMsg) (stepMa : Nat) (d : Dev) : Dev :=
  let q := d.port p
  let r := rosterOf q i.toNat
  let c := contractOf q i.toNat
  let ready := decide (c.state = 2)
  let d1 := d.modPort p fun q =>
    let q1 := reportCal i r.lastCount.isSome ready (setRoster i.toNat (reportRecord m c d.us r) q)
    if ready && reportsLow m r then lowLimit d.us q1 else q1
  let d2 := { d1 with tb := takeTemp p i m.temp d.us d1.tb }
  relieve (calProgress p (calReport p i m stepMa d2))

/-- REPORT (R192). -/
def execReport (p : PortId) (i : Idx) (h : FrameTag) (m : ReportMsg) (stepMa : Nat) (s : State) : Answer :=
  onDev (fromEndpoint p i h fun d =>
    if duplicateFrom (d.port p) i h then calProgress p (ackAgain p i h d)
    else onReport p i m stepMa (ackFrame p i h d)) s

/-- The limit of a drawer for its step, mW (R193). -/
def drawLimitMw (q : Port) (i : Idx) : Nat := if (contractOf q i.toNat).state = 2 then heldPower q i.toNat * 100 else 50

/-- The step that R193 allows: at most half of the limit current over 1 ms, and within a calibrated ceiling's room, which
is at least 20 mA. -/
def stepAllowed (q : Port) (i : Idx) (stepMa dur : Nat) : Bool :=
  let r := rosterOf q i.toNat
  let used := heldPower q i.toNat * 100000 / nominalMv q.lev.cur
  decide (20 ≤ dur ∧ dur ≤ 100 ∧ 1 ≤ stepMa ∧ stepMa * dur * 2 * nominalMv q.lev.cur ≤ drawLimitMw q i * 1000000)
    && (!r.calok || (decide (used + 20 ≤ r.ceil.toNat) && decide (used + stepMa ≤ r.ceil.toNat)))

/-- A calibration occasion of an endpoint (R286). -/
def calOccasion (q : Port) (i : Idx) (now : Nat) : Bool :=
  let r := rosterOf q i.toNat
  r.calable && (decide (r.state = 2) || decide (r.state = 4)) &&
    (match q.line.first with
     | some _ => !r.calok && q.line.pass == some [] && !q.line.decided
     | none => r.calDue || decide (r.calAt + 86400000000 ≤ now))

/-- A pulse may go (R193, R286). -/
def mayPulse (d : Dev) (p : PortId) (i : Idx) (stepMa dur : Nat) : Bool :=
  let q := d.port p
  d.core.run && allocRuns d && lineFree d.us q && q.lev.step.isNone && !q.drp.hold && !q.drp.shed && !q.ring.peer && !q.ring.en
    && q.line.cal.isNone && q.line.calSlot.isNone && decide (q.line.pulses < 16) && calOccasion q i d.us && stepAllowed q i stepMa dur

/-- The endpoints that are polled beside the drawer: present, not CALABLE, CALOK 0, at most four (R286). -/
def calOthers (q : Port) (i : Idx) : List Idx :=
  ((q.roster.filter fun (j, r) => decide (j ≠ i.toNat) && (r.state == 2 || r.state == 4) && !r.calable && !r.calok).take 4).map
    fun (j, _) => BitVec.ofNat 10 j

/-- CAL_PULSE (R286): its slot, the broadcast, and the REPORT POLLs. -/
def sendPulse (p : PortId) (i : Idx) (stepMa dur k : Nat) (d : Dev) : Dev :=
  let cid := (d.port p).line.calId
  let s : Slot := { state := 1, mtype := 0x16, idx := some i, since := d.us, issue := (d.port p).issue }
  let d1 := d.modPort p fun q =>
    let q1 := takeSlot k s (setRoster i.toNat { rosterOf q i.toNat with calDue := false, calAt := d.us } q)
    broadcast 0x16 0 (payCal ⟨i, cid, BitVec.ofNat 8 dur, sat16 stepMa⟩) { q1 with line := { q1.line with
      cal := some (i, cid, stepMa, none), calSlot := some (BitVec.ofNat 7 k), calId := cid + 1, pulses := q.line.pulses + 1 } }
  foldDev (fun j d => sendPoll p 2 j d) (i :: calOthers (d.port p) i) d1

/-- CAL_PULSE (R286). -/
def execCalPulse (p : PortId) (i : Idx) (stepMa : Nat) (dur : Nat) (s : State) : Answer :=
  onDev (fun d =>
    match freeSlot (d.port p) with
    | some k => guardDev (mayPulse d p i stepMa dur) (sendPulse p i stepMa dur k) d
    | none => d) s

/-- CEILING_THROT_CLEAR (R292): 10 s after the last such refusal or withdrawal, low bound 9.9. -/
def execCeilingThrotClear (p : PortId) (s : State) : Answer :=
  onDev (fun d => d.modPort p fun q =>
    match q.ceilAt with
    | some t => if t + 9900000 ≤ d.us then { q with ceilAt := none } else q
    | none => q) s

/-- THERMAL_REPORT_EXPIRY (R305). -/
def execThermalReportExpiry (s : State) : Answer := onDev (fun d => { d with tb := rankReports d.us d.tb }) s

end Sys2Proof.Machine
end

