-- ==== Sys2Proof/Machine/Ring.lean ====
section
/-! DEFINITION. Ring feeding (chapter 10): the exchanges of the peer gap (R228), joining (Table 10-1), the follower's mirror
(R227), the shared level and load (R230 to R232), rail swaps (R238 to R241), and the loss of a peer (R235 to R237). -/

namespace Sys2Proof.Machine

open Sys2Proof

/-! ## The peer gap (R156, R228) -/


/-- A frame addressed to 0x3FE is acted on only by a feeder with RING.EN 1 that is attached (R168). -/
def peerHears (q : Port) : Bool := decide (q.role = .feed) && q.ring.en && q.att.att

/-- A frame from the other feeder repeats the last one accepted (R149). -/
def peerDuplicate (q : Port) (h : FrameTag) : Bool := h.retry && decide (q.ring.seqRx = some h.seq)

/-- A frame of the other feeder is accepted and acknowledged; its exchange is the gap's (R148, R149, R228). A follower mirrors the
SEQ of the master's group frames (R227). -/
def peerAck (h : FrameTag) (now : Nat) (q : Port) : Port :=
  let q1 := if q.follower then { q with line := { q.line with bseq := h.seq + 1 } } else q
  answerShort false h.seq (hears now
    { q1 with ring := { q1.ring with seqRx := some h.seq, heardAt := now, gapDue := q.line.due } })

/-- A frame of the other feeder that is not acted on (R148). -/
def peerNak (h : FrameTag) (now : Nat) (q : Port) : Port := answerShort true h.seq (hears now q)

/-- A frame of the other feeder, once (R148, R149, R168): one that needs a peer is not acted on while there is none. -/
def peerFrame (p : PortId) (h : FrameTag) (needsPeer : Bool) (act : Dev → Dev) (d : Dev) : Dev :=
  guardDev (peerHears (d.port p)) (fun d =>
    if needsPeer && !(d.port p).ring.peer then d.modPort p (peerNak h d.us)
    else if peerDuplicate (d.port p) h then d.modPort p fun q => answerShort false h.seq (hears d.us q)
    else act d) d


/-- All slots of the port are free (R238). -/
def slotsFree (q : Port) : Bool := decide (q.slots = [])

/-- The swap that this feeder is to request in the gap at hand is decided on (R238, R240). -/
def swapDecided (q : Port) : Bool :=
  match q.rail.swap with
  | .pending _ => decide (q.rail.swapFrom + 1000 ≤ q.line.due) && (!q.master || slotsFree q)
  | _ => false

/-- Its own swap is outstanding (R240). -/
def swapOutstanding (q : Port) : Bool := decide (q.rail.swap = .outstanding) || swapDecided q

/-- The protocol version 1.0 (R173, R226). -/
def protocolVersion : Half := 0x0100

/-- A feeder's PEER_HELLO (Table 08-2). -/
def helloOf (q : Port) : HelloMsg :=
  { eui := Config.headEui, cur := q.lev.cur, lmax := q.ctl.lmax, orient := q.att.orient
    sup := q.master && decide (q.rail.sw = .on), entries := h16 (q.roster.filter fun (_, r) => r.state != 0).length
    version := protocolVersion }

/-- A feeder's PEER_REPORT (Table 08-2). -/
def reportOf (d : Dev) (p : PortId) : PeerReportMsg :=
  let q := d.port p
  { vseg := q.met.vseg, iseg := q.met.iseg, trim := BitVec.ofInt 8 q.ring.trim, cur := q.lev.cur, busy := q.lev.step.isSome
    shed := q.drp.shed, budget := sat16 (budget d p), admitSum := sat16 (admitSum q), irail := q.met.irail.setWidth 16 }


/-- Sends PEER_HELLO. -/
def sendHello (p : PortId) (d : Dev) : Dev :=
  sendPeer p .peerHello 0x1A (payHello (helloOf (d.port p)))
    (d.modPort p fun q => useGap { q with ring := { q.ring with helloDue := false } })

/-- Sends RAIL_SWAP_REQ (R238). -/
def sendSwapReq (p : PortId) (d : Dev) : Dev :=
  let takes := !(d.port p).master
  sendPeer p .swapReq 0x18 (paySwapReq Config.headEui takes)
    (d.modPort p fun q => useGap { q with rail := { q.rail with swap := .outstanding } })

/-- Sends RAIL_SWAP_ACK. -/
def sendSwapAck (p : PortId) (refused : Bool) (d : Dev) : Dev :=
  sendPeer p (.swapAck refused) 0x19 [BitVec.ofNat 8 (b2n refused), 0] (d.modPort p useGap)

/-- The gap is of this feeder's parity: the follower's before an even beacon count, the master's before an odd one (R228). -/
def ownParity (q : Port) : Bool := decide (q.line.bcount.toNat % 2 = b2n q.master)

/-- A PARK hands the segment over (R337): a ring feeder holds its BUDGET at 0 from its next report on. R337 speaks of a feeder that has
given the rail away; one whose swap of step 1 was refused does the same, the model's choice (assumption 131). -/
def beginHandOff (p : PortId) (d : Dev) : Dev :=
  match d.gl.park with
  | some (.handOff _) =>
    if (d.port p).ringFeeder ∧ (d.port p).ring.handOff = none ∧ ownParity (d.port p) = true then
      d.modPort p fun q => { q with ring := { q.ring with handOff := some d.us } }
    else d
  | _ => d

/-- Sends PEER_REPORT. -/
def sendReport (p : PortId) (d : Dev) : Dev :=
  let d1 := beginHandOff p d
  sendPeer p .peerReport 0x1B (payPeerReport (reportOf d1 p)) (d1.modPort p useGap)

/-- A PEER_HELLO is due: a joiner's, after two beacons (Table 10-1 step 2), or after a change of PCTL.LMAX (R228). -/
def helloWanted (q : Port) : Bool :=
  match q.ring.join with
  | .hello n _ => decide (2 ≤ n)
  | _ => q.ring.peer && q.ring.helloDue

/-- A follower's request that was held until the slots are free is answered (R238). -/
def heldReady (q : Port) : Bool :=
  match q.rail.swap with
  | .held _ => slotsFree q
  | _ => false

/-- The swap is over without a change: RAIL.SWAP clears, RAIL CODE 2 (R239); PARK step 1 goes on. -/
def swapRefused (p : PortId) (d : Dev) : Dev :=
  parkAdvance (postPort 0x19 2 p 0 false (d.modPort p fun q =>
    setPevt eRail { q with rail := { q.rail with swapReq := false, swap := .none, crossed := false, nakAt := none } }))

/-- A request that is decided on goes out; a follower whose own RAIL.EN is 0 would be a taker that R239 refuses, and no frame shows
the peer its RAIL.EN: it refuses itself, the model's reading (assumption 125). -/
def askSwap (p : PortId) (d : Dev) : Dev :=
  let q := d.port p
  if !q.master && !q.rail.en then swapRefused p d else sendSwapReq p d

/-- The exchange of a gap (R228, R238). -/
def gapExchange (p : PortId) (d : Dev) : Dev :=
  let q := d.port p
  let fresh := decide (q.ring.gapDue ≠ q.line.due)
  if fresh && helloWanted q then sendHello p d
  else if q.ring.peer && swapDecided q && (fresh || q.rail.crossed) then askSwap p d
  else if fresh && heldReady q then
    sendSwapAck p false (d.modPort p fun q => { q with rail := { q.rail with swap := .accepted false } })
  else if fresh && q.ring.peer && ownParity q then sendReport p d
  else d

/-- The peer gap is free for a new exchange: nothing is under way, no frame of the gap waits to go again, and the line has been idle
for 12 µs, before a master's frame for 24 µs (R156, R228). -/
def gapFree (q : Port) (now : Nat) : Bool :=
  (q.line.out.all fun o => !o.sent && !o.kind.peer) && q.line.reloadAt.isNone && inGap q now
    && idleFor (if q.master then 24 else 12) now q

/-- PEER_GAP (R228). -/
def execPeerGap (p : PortId) (s : State) : Answer :=
  onDev (fun d =>
    let q := d.port p
    guardDev (peerHears q && gapFree q d.us && !swapSilences q.rail.swap) (gapExchange p) d) s

/-! ## Joining (Table 10-1, R225, R226) -/

/-- Step 4 of Table 10-1: RING.PEER, PSTAT.RINGF, PEVT.RING, RING CODE 0; MODE follows (R29). -/
def postPeerFound (p : PortId) (d : Dev) : Dev :=
  postPort 0x1A 0 p 0 false (d.modPort p fun q => setPevt eRing { q with ring := { q.ring with peer := true, mism := false } })

/-- The master takes the joiner as its peer: the level is bounded by both caps (R230). -/
def masterFindsPeer (p : PortId) (d : Dev) : Dev :=
  followTop p (postPeerFound p (d.modPort p fun q =>
    { q with ring := { q.ring with synced := false, joinAt := some d.us, missed := 0, report := none, heardAt := d.us } }))

/-- The joiner takes the master as its peer: its previous roster makes room for the mirror (R227), and it applies the
starting code of the ring level (step 5). -/
def joinerFindsPeer (p : PortId) (d : Dev) : Dev :=
  postPeerFound p (d.modPort p fun q =>
    { q with roster := [], contract := [], pend := [], hints := [], slots := []
             line := { q.line with silent := false, resv := [] }
             lev := { q.lev with code := startCode q (segmentLevel q) }
             ring := { q.ring with join := .trimming d.us, synced := false, missed := 0, report := none, trim := 0
                                   reqs := [], blocks := [], heldOpen := false, heardAt := d.us } })

/-- What a PEER_HELLO says of its sender. -/
def noteHello (m : HelloMsg) (q : Port) : Port :=
  { q with ring := { q.ring with peerEui := m.eui, peerLmax := m.lmax, loc := decide (m.eui = Config.headEui)
                                 verBad := decide (m.version.toNat / 256 ≠ 1) } }

/-- A PEER_HELLO that is accepted (Table 10-1 steps 2 to 4, R228, R230). A master answers one with its own also where RING.PEER is
still 1, so that a follower can join again (R234). -/
def onHello (p : PortId) (m : HelloMsg) (d : Dev) : Dev :=
  let d1 := d.modPort p (noteHello m)
  let q := d.port p
  if q.ring.peer then
    if q.follower then d1 else sendHello p (followTop p d1)
  else match q.ring.join with
    | .hello _ _ => if (d1.port p).ring.verBad then d1 else joinerFindsPeer p d1
    | _ => if q.isHead then sendHello p d1 else d1

/-- PEER_HELLO (R225). -/
def execPeerHello (p : PortId) (h : FrameTag) (m : HelloMsg) (s : State) : Answer :=
  onDev (peerFrame p h false fun d => onHello p m (d.modPort p (peerAck h d.us))) s

/-- The own PEER_HELLO is acknowledged: for the master this completes step 3. A master with RING.MISM 1 whose RING.PEER is still 1
takes a follower that joins again as its peer anew (R234), which is read from Table 10-1 (assumption 126). -/
def helloAcked (p : PortId) (d : Dev) : Dev :=
  let q := d.port p
  if q.isHead ∧ (q.ring.peer = false ∨ q.ring.mism = true) ∧ q.ring.join = .none ∧ q.ring.verBad = false then masterFindsPeer p d
  else d

/-- The own PEER_HELLO is still unanswered after its three retransmissions in later peer gaps (R226). -/
def helloFailed (p : PortId) (d : Dev) : Dev :=
  d.modPort p fun q =>
    match q.ring.join with
    | .hello n _ => { q with ring := { q.ring with join := .hello n 4 } }
    | _ => { q with ring := { q.ring with helloDue := q.ring.peer } }

/-- RING_JOIN_TRIM (R225 steps 5 and 6): matched for 5 ms, within 200 ms of step 4. -/
def execRingJoinTrim (p : PortId) (s : State) : Answer :=
  onDev (fun d => d.modPort p fun q =>
    match q.ring.join with
    | .trimming t =>
      if q.ring.peer ∧ 5000 ≤ q.met.match2 ∧ d.us ≤ t + 200000 ∧ q.grd.latch = false ∧ q.cfg.xfer.isSome = true then
        let q1 := startClosing d.us q
        { q1 with ring := { q1.ring with join := .joined }
                  rail := { q1.rail with sw := if q1.rail.en then .backup else .off } }
      else q
    | _ => q) s

/-- The join has failed for a reason (R226). -/
def joinFails (q : Port) (now : Nat) : JoinFailure → Bool
  | .trim => match q.ring.join with | .trimming t => decide (t + 200000 < now) | _ => false
  | .noAnswer => match q.ring.join with | .hello _ n => decide (4 ≤ n) | _ => false
  | .version => match q.ring.join with | .hello _ _ => q.ring.verBad | _ => false

/-- RING_JOIN_FAIL (R226): path open, ATTACH.STATE 5, RING.MISM, RING CODE 2; again after 10 s, low bound 9.9. -/
def execRingJoinFail (p : PortId) (why : JoinFailure) (s : State) : Answer :=
  onDev (fun d =>
    guardDev (joinFails (d.port p) d.us why) (fun d =>
      mismatch p (d.modPort p fun q =>
        let o := openPath q
        { o with att := { o.att with state := .fault }
                 ring := { o.ring with peer := false, synced := false, join := .failed (d.us + 9900000) } })) d) s

/-- RING_JOIN_RETRY (R226, R234). -/
def execRingJoinRetry (p : PortId) (s : State) : Answer :=
  onDev (fun d => d.modPort p fun q =>
    match q.ring.join with
    | .failed t =>
      if t ≤ d.us ∧ q.role = .feed ∧ q.att.att = true then
        { q with att := { q.att with state := .peerHead }
                 rail := { q.rail with sw := .off }
                 ring := { q.ring with join := .hello 0 0, peer := false, synced := false, heldOpen := false, verBad := false
                                       joinAt := none, block := false, blocks := [] } }
      else q
    | _ => q) s

/-- RING_SYNCHRONISED (R227): 2.5 s after step 1. -/
def execRingSynchronised (p : PortId) (s : State) : Answer :=
  onDev (fun d => d.modPort p fun q =>
    match q.ring.joinAt with
    | some t => if q.ring.peer ∧ t + 2500000 ≤ d.us then { q with ring := { q.ring with synced := true } } else q
    | none => q) s

/-! ## PEER_REPORT (R231, R232, R234, R337) -/

/-- The direction of the follower's trim (R231): the share of current against the share of budget, 0.05 apart. -/
def trimStep (b bp : Nat) (i ip : Int) : Int :=
  let bt : Int := b + bp
  let it := i + ip
  if bt ≤ 0 ∨ it ≤ 0 then 0
  else
    let diff := 20 * (i * bt - b * it)
    if it * bt < diff then -1 else if it * bt < -diff then 1 else 0

/-- One step of the trim: RING.TRIM in -32 to +32, VFEED within the settle band of LEVEL.CUR, held during a step (R231). -/
def applyTrim (t : Int) (q : Port) : Port :=
  let slope : Int := match q.cfg.xfer with | some (_, s) => s.toNat | none => 0
  let v := (q.met.last.vfeed : Int) + t * slope / 1000
  let n := q.ring.trim + t
  if q.lev.step.isNone ∧ q.gate = .closed ∧ t ≠ 0 ∧ -32 ≤ n ∧ n ≤ 32 ∧ (settleLow q.lev.cur : Int) ≤ v ∧ v ≤ settleHigh q.lev.cur then
    { q with ring := { q.ring with trim := n }
             lev := { q.lev with code := Nat.min ((q.lev.code : Int) + t).toNat (upperCode q q.lev.cur) } }
  else q

/-- The follower's trim at a report (R231). -/
def followTrim (p : PortId) (m : PeerReportMsg) (d : Dev) : Dev :=
  if (d.port p).follower then
    d.modPort p fun q => applyTrim (trimStep (budget d p) m.budget.toNat q.met.iseg.toInt m.iseg.toInt) q
  else d

/-- The report shows another level outside a transition (R234). A feeder whose own path is open reads L0 (R213) and makes
no such test. -/
def levelsDiffer (q : Port) (m : PeerReportMsg) : Bool :=
  decide (q.gate = .closed) && q.lev.step.isNone && !m.busy && decide (m.cur ≠ q.lev.cur) && !q.ring.mism

/-- RING.MISM by a report (R234): a follower opens its path and joins again. -/
def reportMismatch (p : PortId) (m : PeerReportMsg) (d : Dev) : Dev :=
  if levelsDiffer (d.port p) m then (if (d.port p).follower then stopReclosing p d else mismatch p d) else d

/-- Step 3 of R337: the master's report shows ADMIT at or below its BUDGET. -/
def handOffDone (p : PortId) (m : PeerReportMsg) (d : Dev) : Dev :=
  if (d.port p).ring.handOff.isSome ∧ (d.port p).follower ∧ m.admitSum ≤ m.budget then parkAdvance (d.modPort p openPath) else d

/-- A PEER_REPORT that is accepted. -/
def onPeerReport (p : PortId) (m : PeerReportMsg) (d : Dev) : Dev :=
  let d1 := d.modPort p fun q => { q with ring := { q.ring with report := some m, missed := 0, reportDue := q.line.due } }
  relieve (handOffDone p m (reportMismatch p m (followTrim p m d1)))

/-- PEER_REPORT (R231). -/
def execPeerReport (p : PortId) (h : FrameTag) (m : PeerReportMsg) (s : State) : Answer :=
  onDev (peerFrame p h true fun d => onPeerReport p m (d.modPort p (peerAck h d.us))) s

/-! ## Rail swap (R238 to R241) -/

/-- t0 of Table 10-2: the taker's switch goes ON (step 1). -/
def startSwap (taker : Bool) (p : PortId) (d : Dev) : Dev :=
  d.modPort p fun q => { q with rail := { q.rail with
    swap := .running d.us taker, crossed := false, nakAt := none, sw := if taker && q.rail.en then .on else q.rail.sw } }

/-- The own EUI-48 is the lower of the two; on a tie the feeder on port 0 (R169, R240). -/
def ownLower (p : PortId) (e : Eui) : Bool :=
  decide (Config.headEui < e) || (decide (Config.headEui = e) && decide (p = .p0))

/-- A crossing is known at the time the own NAK came (R240). -/
def resolveCrossing (p : PortId) (t : Nat) (q : Port) : Port :=
  { q with rail := { q.rail with
      swap := .pending t, crossed := false, nakAt := none
      swapFrom := t + (if ownLower p q.ring.peerEui then 2000 else 10000) } }

/-- The own request was answered with NAK (R240). -/
def swapNaked (p : PortId) (d : Dev) : Dev :=
  d.modPort p fun q =>
    if q.rail.crossed then resolveCrossing p d.us q
    else { q with rail := { q.rail with swap := .pending d.us, swapFrom := d.us + 10000, nakAt := some d.us } }

/-- The own NAK came within the gap at hand, so a request that follows it has crossed (R240). -/
def nakedHere (q : Port) : Option Nat :=
  match q.rail.nakAt with
  | some t => if q.line.due ≤ t + 1000 then some t else none
  | none => none

/-- Why the receiver refuses (R239): a step on either side, its own RAIL.EN 0 as the taker, a follower that is not
synchronised. -/
def swapRefusal (q : Port) (takes : Bool) : Bool :=
  q.lev.step.isSome || (match q.ring.report with | some r => r.busy | none => false) || (!takes && !q.rail.en) || !q.ring.synced

/-- A request that is accepted or refused (R238, R239). -/
def answerSwap (p : PortId) (takes : Bool) (d : Dev) : Dev :=
  let q := d.port p
  if swapRefusal q takes then swapRefused p (sendSwapAck p true d)
  else if takes && !slotsFree q then d.modPort p fun q => { q with rail := { q.rail with swap := .held d.us } }
  else sendSwapAck p false (d.modPort p fun q => { q with rail := { q.rail with swap := .accepted (!takes) } })

/-- A RAIL_SWAP_REQ (R239, R240). -/
def onSwapReq (p : PortId) (h : FrameTag) (takes : Bool) (d : Dev) : Dev :=
  let q := d.port p
  if takes ≠ q.master then d.modPort p (peerNak h d.us)
  else if swapOutstanding q then
    d.modPort p fun q => peerNak h d.us (useGap { q with rail := { q.rail with crossed := true } })
  else match nakedHere q with
    | some t => d.modPort p fun q => resolveCrossing p t (peerNak h d.us q)
    | none => answerSwap p takes (d.modPort p (peerAck h d.us))

/-- RAIL_SWAP_REQ (R239). -/
def execRailSwapReq (p : PortId) (h : FrameTag) (_eui : Eui) (takes : Bool) (s : State) : Answer :=
  onDev (peerFrame p h true (onSwapReq p h takes)) s

/-- A RAIL_SWAP_ACK to the own request (R239, R241). -/
def onSwapAck (p : PortId) (refused : Bool) (d : Dev) : Dev :=
  if refused then swapRefused p d else startSwap (!(d.port p).master) p d

/-- The own request awaits its RAIL_SWAP_ACK. -/
def awaitsSwapAck (q : Port) : Bool := decide (q.rail.swap = .asked) || decide (q.rail.swap = .outstanding)

/-- RAIL_SWAP_ACK (R241). -/
def execRailSwapAck (p : PortId) (h : FrameTag) (refused : Bool) (s : State) : Answer :=
  onDev (peerFrame p h true fun d =>
    let d1 := d.modPort p (peerAck h d.us)
    if awaitsSwapAck (d.port p) then onSwapAck p refused d1 else d1) s

/-- The own RAIL_SWAP_ACK is acknowledged: an acceptance starts the swap (Table 10-2). -/
def swapAckAcked (p : PortId) (refused : Bool) (d : Dev) : Dev :=
  match (d.port p).rail.swap with
  | .accepted taker => if refused then d else startSwap taker p d
  | _ => d

/-- The own RAIL_SWAP_ACK was not delivered: no swap has begun. -/
def swapAckFailed (p : PortId) (d : Dev) : Dev :=
  match (d.port p).rail.swap with
  | .accepted _ => swapRefused p d
  | _ => d

/-- SWAP_GIVER_BACKUP (R241): 0.9 ms after t0 at the earliest. -/
def execSwapGiverBackup (p : PortId) (s : State) : Answer :=
  onDev (fun d => d.modPort p fun q =>
    match q.rail.swap with
    | .running t false =>
      if t + 900 ≤ d.us ∧ q.rail.sw = .on then { q with rail := { q.rail with sw := .backup } } else q
    | _ => q) s

/-- Step 4a: mastership passes to the taker, whose RING.TRIM reads 0 (R231); the giver is the joined follower from here on. -/
def swapCompletes (taker : Bool) (p : PortId) (d : Dev) : Dev :=
  postPort 0x19 (b2n !taker) p 0 false (d.modPort p fun q0 =>
    let q := if taker then dropTrim q0 else q0
    setPevt eRail { q with
      rail := { q.rail with swap := .none, swapReq := false, sw := if taker then q.rail.sw else if q.rail.en then .backup else .off }
      ring := { q.ring with join := if taker then .none else .joined, missed := 0, heardAt := d.us } })

/-- Step 4b: the giver goes back to ON, the taker to BACKUP; a switch with RAIL.EN 0 is OFF (R222). -/
def swapAbandoned (taker : Bool) (p : PortId) (d : Dev) : Dev :=
  swapRefused p (d.modPort p fun q =>
    { q with rail := { q.rail with sw := if q.rail.en then (if taker then .backup else .on) else .off } })

/-- RAIL_SWAP_END (R241): 2 ms after t0. -/
def execRailSwapEnd (p : PortId) (conducted : Nat) (s : State) : Answer :=
  onDev (fun d =>
    match (d.port p).rail.swap with
    | .running t taker =>
      guardDev (decide (t + 2000 ≤ d.us)) (fun d =>
        if 50 < conducted then swapAbandoned taker p d else relieve (parkAdvance (swapCompletes taker p d))) d
    | _ => d) s

/-- SWAP_SLOT_TIMEOUT (R239): 200 ms. -/
def execSwapSlotTimeout (p : PortId) (s : State) : Answer :=
  onDev (fun d =>
    match (d.port p).rail.swap with
    | .held t => guardDev (decide (t + 200000 ≤ d.us)) (fun d => swapRefused p (sendSwapAck p true d)) d
    | _ => d) s

/-! ## Losing the peer (R235 to R237) -/

/-- A feeder without a peer has no ring level: an open path reads and directs L0, and a step that ran ends (R213). -/
def ringEnds (p : PortId) (d : Dev) : Dev :=
  if (d.port p).gate = .opened then
    (levelEnds p d).modPort p fun q => { q with lev := { q.lev with tgt := 0, tgtNext := none, ringCur := 0 } }
  else d

/-- R237: the peer is gone, the ring budget is the own one, and peer windows begin again. A path left open closes again under
R256. -/
def losePeer (p : PortId) (d : Dev) : Dev :=
  let d1 := (ringEnds p d).modPort p fun q0 =>
    let q := dropTrim q0
    setPevt eRing { q with
      ring := { q.ring with peer := false, report := none, synced := false, join := .none, joinAt := none, block := false
                            blocks := [], heldOpen := false, missed := 0, helloDue := false, polls := none }
      rail := { q.rail with swapReq := false, swap := .none, crossed := false, nakAt := none }
      grd := { q.grd with reclose := q.grd.reclose || (decide (q.gate = .opened) && !q.grd.latch && q.ring.handOff.isNone) } }
  relieve (parkAdvance (nextPeerWindow p (postPort 0x1A 1 p 0 false d1)))

/-- FOLLOWER_LOST (R236): four follower gaps without a report. -/
def execFollowerLost (p : PortId) (s : State) : Answer :=
  onDev (fun d =>
    let q := d.port p
    guardDev (decide (q.role = .feed) && q.ring.peer && q.master && decide (4 ≤ q.ring.missed)) (losePeer p) d) s

/-- The master has been silent for three beacon periods and 1 ms (R235). -/
def masterSilent (q : Port) (now : Nat) : Bool :=
  let period := if q.ring.peerBper = 0 then 1000000 else 1000 * q.ring.peerBper.toNat
  decide (q.ring.heardAt + 3 * period + 1000 ≤ now)

/-- The due time of the mirrored schedule that comes next: the beacons that did not come keep their places (R235). -/
def nextDue (now : Nat) (q : Port) : Nat :=
  let per := if q.ring.peerBper = 0 then 1000000 else 1000 * q.ring.peerBper.toNat
  if q.line.due = 0 ∨ now ≤ q.line.due then q.line.due else q.line.due + (now - q.line.due + per - 1) / per * per

/-- FOLLOWER_TAKEOVER (R235): the switch goes ON, RAIL CODE 0 and RING CODE 1; the next beacon has its place in the mirrored
schedule; the mirrored contracts stay READY. -/
def execFollowerTakeover (p : PortId) (backupUs : Nat) (s : State) : Answer :=
  onDev (fun d =>
    let q := d.port p
    guardDev (q.follower && (decide (1000 ≤ backupUs) || masterSilent q d.us)) (fun d =>
      losePeer p (railOn p (d.modPort p fun q =>
        { q with rail := { q.rail with swap := .none }, line := { q.line with due := nextDue d.us q } }))) d) s

/-! ## Two heads on one segment (R157) -/

/-- The feeder that falls silent on a ring leaves the segment to the other one and joins it (chapter 10, Edges). -/
def yieldSegment (p : PortId) (d : Dev) : Dev :=
  let on := decide ((d.port p).rail.sw = .on)
  let d1 := (abortRun 2 5 p d).modPort p fun q =>
    let o := openPath q
    { o with rail := { o.rail with sw := if o.rail.en then .backup else .off }
             att := { o.att with state := .peerHead }
             ring := { o.ring with join := .hello 0 0, verBad := false } }
  if on then postPort 0x19 1 p 0 false (d1.modPort p (setPevt eRail)) else d1

/-- FOREIGN_BEACON (R157): the feeder with the higher EUI-48 originates nothing further. -/
def execForeignBeacon (p : PortId) (eui : Eui) (s : State) : Answer :=
  onDev (fun d =>
    guardDev ((d.port p).isHead && !ownLower p eui) (fun d =>
      let d1 := d.modPort p fun q => notePLine { q with line := { q.line with silent := true } }
      if (d.port p).ring.en then yieldSegment p d1 else d1) d) s

/-! ## The follower's mirror (R227, R230) -/

/-- A mirrored frame of the master advances the SEQ of its index (R227). -/
def mirrorSeq (f : Frame) (q : Port) : Port :=
  if f.index.toNat < 0x3FE ∨ f.flags &&& flBc = 0 then setRoster f.index.toNat { rosterOf q f.index.toNat with seqTx := f.seq + 1 } q
  else { q with line := { q.line with bseq := f.seq + 1 } }

/-- A REQUEST payload. -/
def parseRequest (l : List Byte) : RequestMsg := ⟨h16 (payHalf l 0), h16 (payHalf l 2), BitVec.ofNat 4 (payByte l 4)⟩

/-- A HINT payload. -/
def parseHint (l : List Byte) : HintMsg := ⟨h16 (payHalf l 0), h16 (payHalf l 2), h16 (payHalf l 4)⟩

/-- A REPORT payload. -/
def parseReport (l : List Byte) : ReportMsg :=
  { volt := h16 (payHalf l 0), cur := h16 (payHalf l 2), temp := h16 (payHalf l 4)
    count := BitVec.ofNat 32 (payHalf l 6 + 65536 * payHalf l 8), calBefore := h16 (payHalf l 10), calDuring := h16 (payHalf l 12)
    calId := BitVec.ofNat 8 (payByte l 14), calv := bit (payByte l 15) 0, hot := bit (payByte l 15) 1, lowv := bit (payByte l 15) 2 }

/-- An ADVERT payload. -/
def parseAdvert (l : List Byte) : AdvertMsg :=
  { advseq := BitVec.ofNat 8 (payByte l 0), lmax := BitVec.ofNat 2 (payByte l 1), ps2 := bit (payByte l 1) 2
    fixed := bit (payByte l 1) 3, spec := bit (payByte l 1) 4, ring := bit (payByte l 1) 5, budget := h16 (payHalf l 2)
    headroom := h16 (payHalf l 4), largest := h16 (payHalf l 6), floorMw := h16 (payHalf l 8), bper := BitVec.ofNat 8 (payByte l 10)
    enr := BitVec.ofNat 8 (payByte l 11), version := h16 (payHalf l 12) }

/-- The master has marked an endpoint ABSENT (R151, R227). -/
def mirrorAbsent (i : Idx) (now : Nat) (q : Port) : Port :=
  let q1 := dropPending i (if (contractOf q i.toNat).held then clearContract i q else q)
  setRoster i.toNat (setRate 0 now { rosterOf q1 i.toNat with state := 3, consent := false }) q1

/-- The POLL that a frame of the master begins or repeats; a fourth transmission that no answer followed has left its endpoint
ABSENT by the time of the master's next frame (R151, R227). -/
def mirrorPolls (f : Frame) (now : Nat) (q : Port) : Port :=
  let seen := q.ring.polls
  let same := f.mtype == 0x03 && f.flags &&& flRetry != 0 && seen.map (·.1) == some f.index
  let q1 := match seen with
    | some (i, n) => if 4 ≤ n ∧ same = false then mirrorAbsent i now q else q
    | none => q
  let next := if f.mtype = 0x03 then
      some (f.index, (match seen with | some (i, n) => if i = f.index ∧ f.flags &&& flRetry ≠ 0 then n + 1 else 1 | none => 1))
    else none
  { q1 with ring := { q1.ring with polls := next } }

/-- The joiner has decoded one more beacon (Table 10-1 step 1). -/
def countBeacon (now : Nat) (r : Ring) : Ring :=
  match r.join with
  | .hello n t => { r with join := .hello (n + 1) t, joinAt := if n + 1 = 2 then some now else r.joinAt }
  | _ => r

/-- A BEACON of the master: the schedule, ADVSEQ and the ring level (R227, Table 10-1 step 1). A BEACON ends 374 µs after
its start (R142). -/
def mirrorBeacon (f : Frame) (now : Nat) (q : Port) : Port :=
  let l := f.payload
  let per := if payByte l 9 = 0 then 1000000 else 1000 * payByte l 9
  let enrw := decide (f.flags &&& flEnrw ≠ 0)
  let next := now - 374 + per
  let due := if enrw then Nat.max next (now + 20 + 4000 + 500) else next
  { q with
    line := { q.line with bcount := BitVec.ofNat 8 (payByte l 8 + 1), advseq := BitVec.ofNat 8 (payByte l 7), due := due
                          sinceWindow := if enrw then 0 else q.line.sinceWindow + 1, sinceAdvert := q.line.sinceAdvert + 1 }
    ring := countBeacon now { q.ring with peerBper := BitVec.ofNat 8 (payByte l 9) }
    lev := { q.lev with
      tgt := if q.lev.step.isSome then q.lev.tgt else BitVec.ofNat 2 (payByte l 6 / 4)
      ringCur := if q.gate = .opened ∧ q.lev.step.isNone = true then BitVec.ofNat 2 (payByte l 6) else q.lev.ringCur } }

/-- An ADVERT of the master. -/
def mirrorAdvert (f : Frame) (q : Port) : Port :=
  let a := parseAdvert f.payload
  { q with line := { q.line with advseq := a.advseq, lastAdvert := some a, sinceAdvert := 0 } }

/-- A contract that a frame of the master shows, with what the follower decoded of its REQUEST. -/
def mirrorContract (i : Idx) (st : BitVec 2) (power : Half) (l : Level) (grant : Byte) (now : Nat) (q : Port) : Port :=
  let c := contractOf q i.toNat
  let same := c.held && c.grant == grant && c.power == power
  let req := spFind q.ring.reqs i.toNat
  let c1 : ContractRec :=
    { c with state := st, power := power, level := l, cur := sat16 (currentOf power.toNat l), grant := grant
             mask := if same then c.mask else (match req with | some r => r.mask | none => 0xF)
             floor := if same then c.floor else (match req with | some r => r.floor | none => 0)
             admitAt := if same then c.admitAt else BitVec.ofNat 32 now
             admissions := if same then c.admissions else c.admissions + 1 }
  let r0 := rosterOf q i.toNat
  let r := { r0 with grantCtr := if r0.grantCtr = 0 then grant else r0.grantCtr }
  let r1 := if st = 2 ∧ ¬(same ∧ c.state = 2) then
      setRate (power.toNat * 100) now { r with stored := power, storedLevel := l, lastCount := none } else r
  dropPending i (setRoster i.toNat { r1 with state := 4 } (setContract i.toNat c1 q))

/-- A POLL of the master shows an endpoint's contract, or its stored one (Table 08-3, R176). -/
def mirrorPoll (f : Frame) (now : Nat) (q : Port) : Port :=
  let l := f.payload
  let i := f.index
  let kind := payByte l 0 % 4
  let held := bit (payByte l 1) 4
  let power := h16 (payHalf l 2)
  let lvl : Level := BitVec.ofNat 2 (payByte l 1)
  let r := rosterOf q i.toNat
  let ceil := h16 (payHalf l 4)
  let r1 := { r with cls := BitVec.ofNat 2 (payByte l 1 / 4), ceil := if ceil = 0 then r.ceil else ceil, calok := decide (ceil ≠ 0)
                     polledAt := now }
  if kind = 1 then
    setRoster i.toNat { r1 with stored := if held then power else 0, storedLevel := lvl, state := if r.state = 0 then 1 else r.state } q
  else
    let q1 := setRoster i.toNat { r1 with state := if kind = 3 then 3 else if held then 4 else 2 } q
    if held then mirrorContract i (if bit (payByte l 1) 5 then 2 else 1) power lvl (BitVec.ofNat 8 (payByte l 6)) now q1
    else if (contractOf q1 i.toNat).held then rateFor i 50 now (clearContract i q1) else q1

/-- An ASSIGN of the master (R178). -/
def mirrorAssign (f : Frame) (d : Dev) (q : Port) : Port :=
  let l := f.payload
  let r := rosterOf q f.index.toNat
  setRoster f.index.toNat
    (setRate 50 d.us { r with state := 2, eui := payEui l 0, cls := BitVec.ofNat 2 (payByte l 6), tenant := BitVec.ofNat 6 (payByte l 6 / 4)
                              enrolMs := d.msCount, seqRx := none }) q

/-- A WAIT of the master leaves a request pending (R186). -/
def mirrorWait (p : PortId) (f : Frame) (d : Dev) (q : Port) : Port :=
  let l := f.payload
  let now := d.us
  match spFind q.ring.reqs f.index.toNat with
  | some r =>
    if payHalf l 2 = 0 then q
    else { dropPending f.index q with pend := (dropPending f.index q).pend ++
      [{ idx := f.index, req := r, arrival := arrivalOf q f.index r now, cause := BitVec.ofNat 4 (payByte l 4)
         bit := causeBit d p (payByte l 4)
         qpos := h16 (payHalf l 2), retryMs := h16 (payHalf l 0), retryAt := now + 1000 * payHalf l 0 }] }
  | none => q

/-- The contracts of some classes end in the mirror. -/
def mirrorEndClasses (classes now : Nat) (q : Port) : Port :=
  (contracts q).foldl (fun q x =>
    let i : Idx := BitVec.ofNat 10 x.1
    if bit classes (rosterOf q x.1).cls.toNat then rateFor i 50 now (clearContract i q) else q) q

/-- A WITHDRAW, a READY or a reset of the master in its addressed or broadcast form. -/
def mirrorEnd (f : Frame) (now : Nat) (classes : Nat) (q : Port) : Port :=
  if f.flags &&& flBc ≠ 0 then mirrorEndClasses classes now q
  else if (contractOf q f.index.toNat).held then rateFor f.index 50 now (clearContract f.index q) else q

/-- A class READY of the master (R79): its class's admitted contracts are READY. -/
def mirrorClassReady (c : Cls) (l : Level) (now : Nat) (q : Port) : Port :=
  (contracts q).foldl (fun q x =>
    if (rosterOf q x.1).cls = c ∧ x.2.state = 1 then mirrorContract (BitVec.ofNat 10 x.1) 2 x.2.power l 0 now q else q) q

/-- A READY of the master. -/
def mirrorReady (f : Frame) (now : Nat) (q : Port) : Port :=
  let l := f.payload
  let lvl : Level := BitVec.ofNat 2 (payByte l 2)
  if f.flags &&& flBc ≠ 0 then mirrorClassReady (BitVec.ofNat 2 (payByte l 2 / 4)) lvl now q
  else
    let g := BitVec.ofNat 8 (payByte l 3)
    let r := rosterOf q f.index.toNat
    mirrorContract f.index 2 (h16 (payHalf l 0)) lvl g now (if g = 0 then q else setRoster f.index.toNat { r with grantCtr := g } q)

/-- A LEVEL_NOTICE of the master starts the follower's own ramp (R230); the notice began 278 µs before its EOF. -/
def mirrorNotice (f : Frame) (now : Nat) (q : Port) : Port :=
  let b := payByte f.payload 0
  { q with lev := { q.lev with step := some ⟨BitVec.ofNat 2 b, BitVec.ofNat 2 (b / 4), .noticed (now - 278) (payByte f.payload 1), 0⟩ } }

/-- A frame of an endpoint that the follower decodes: REQUEST, HINT, REPORT (R227). -/
def mirrorEndpoint (f : Frame) (now : Nat) (q : Port) : Port :=
  let i := f.index
  let q1 := noteSeq i ⟨f.seq, false⟩ { q with ring := { q.ring with polls := none } }
  match f.mtype.toNat with
  | 0x08 => { q1 with ring := { q1.ring with reqs := spPut q1.ring.reqs i.toNat (parseRequest f.payload) } }
  | 0x14 => if hintRefused q1 (parseHint f.payload) then q1 else takeHint i (parseHint f.payload) now q1
  | 0x15 => setRoster i.toNat (reportRecord (parseReport f.payload) (contractOf q1 i.toNat) now (rosterOf q1 i.toNat)) q1
  | _ => q1

/-- A frame of the master in the follower's mirror (R227, R230). -/
def mirrorHead (p : PortId) (f : Frame) (d : Dev) (q : Port) : Port :=
  let q1 := mirrorSeq f (mirrorPolls f d.us { q with ring := { q.ring with heardAt := d.us } })
  match f.mtype.toNat with
  | 0x01 => mirrorBeacon f d.us q1
  | 0x02 => mirrorAdvert f q1
  | 0x03 => mirrorPoll f d.us q1
  | 0x05 => mirrorAssign f d q1
  | 0x09 =>
    setRoster f.index.toNat { rosterOf q1 f.index.toNat with grantCtr := BitVec.ofNat 8 (payByte f.payload 3) } q1
  | 0x0A => mirrorWait p f d q1
  | 0x0B => if f.flags &&& flBc = 0 then dropPending f.index q1 else q1
  | 0x0C => mirrorEnd f d.us (payByte f.payload 1) q1
  | 0x0D => mirrorReady f d.us q1
  | 0x10 => mirrorNotice f d.us q1
  | 0x1E => mirrorEnd f d.us 0xF q1
  | 0x1F =>
    let q2 := mirrorEnd f d.us 0xF q1
    if f.flags &&& flBc ≠ 0 then { q2 with roster := [] }
    else setRoster f.index.toNat { rosterOf q2 f.index.toNat with state := 1 } q2
  | _ => q1

/-- An aborted LEVEL_DONE of the master ends the follower's step too (R214, R230). -/
def mirrorDone (p : PortId) (f : Frame) (d : Dev) : Dev :=
  if f.mtype = 0x11 ∧ bit (payByte f.payload 0) 2 = true then abortStep p d else d

/-- The frames that a feeder decodes: a follower every one, a joiner the master's beacons (R225, R227). -/
def mirrors (q : Port) (f : Frame) : Bool :=
  q.follower || (decide (q.role = .feed) && decide (f.mtype = 0x01) && (match q.ring.join with | .hello _ _ => true | _ => false))

/-- RING_FRAME_MIRROR (R227). -/
def execRingFrameMirror (p : PortId) (f : Frame) (s : State) : Answer :=
  onDev (fun d =>
    guardDev (mirrors (d.port p) f && decide (f.flags &&& flPeer = 0) && !discarded f) (fun d =>
      let d1 := d.modPort p (hears d.us)
      if f.flags &&& flDir ≠ 0 then d1.modPort p (mirrorEndpoint f d.us)
      else mirrorDone p f (d1.modPort p (mirrorHead p f d))) d) s

end Sys2Proof.Machine
end

