-- ==== Sys2Proof/Machine/Draw.lean ====
section
/-! DEFINITION. A joined DRAW port as an endpoint of its upstream head: what it decodes (R136, R173, R176, R184 to R193, R295,
R297), what it answers (R151, R152, R154, R175) and how it enrols (R161 to R163, R178, R179). -/

namespace Sys2Proof.Machine

open Sys2Proof

/-! ## Hearing and answering -/

/-- The port is an endpoint that listens to its head: joined DRAW (R136). -/
def drawHears (q : Port) : Bool := decide (q.role = .draw) && q.ctl.en && q.drw.joined

/-- It holds a roster index, so an addressed frame can name it. -/
def drawNamed (q : Port) : Bool := drawHears q && q.drw.idx.isSome

/-- It may transmit: two beacons heard, and on the internal oscillator two of them measured (R72, R478). -/
def drawSpeaks (d : Dev) (q : Port) : Bool := decide (2 ≤ q.drw.beacons) && (d.pw.pllLocked || decide (2 ≤ q.drw.bits.length))

/-- A valid frame has been decoded: it is heard, and the line was busy until its end (R137, R141). -/
def drawHeard (now : Nat) (q : Port) : Port := hears now { q with drw := { q.drw with heardAt := now } }

/-- An addressed or a broadcast frame repeats the last one accepted (R149). -/
def drawDuplicate (q : Port) (h : FrameTag) (bc : Bool) : Bool :=
  h.retry && decide ((if bc then q.drw.seqRxBc else q.drw.seqRx) = some h.seq)

/-- The port's short answer, once it may transmit (R72, R148). -/
def drawShort (d : Dev) (nak : Bool) (h : FrameTag) (q : Port) : Port := if drawSpeaks d q then answerShort nak h.seq q else q

/-- A frame is accepted: its SEQ, and the ACK of an addressed one (R148, R149). -/
def drawAccept (d : Dev) (h : FrameTag) (bc : Bool) (q : Port) : Port :=
  if bc then { q with drw := { q.drw with seqRxBc := some h.seq } }
  else drawShort d false h { q with drw := { q.drw with seqRx := some h.seq } }

/-- A frame of the head that a DRAW port acts on once: addressed ones name it (R148, R149). A malformed one gets NAK when it is
addressed and is discarded when it is broadcast (R170). -/
def drawFrame (p : PortId) (h : FrameTag) (bc bad : Bool) (act : Dev → Dev) (d : Dev) : Dev :=
  if (if bc then drawHears (d.port p) else drawNamed (d.port p)) then
    let d1 := d.modPort p (drawHeard d.us)
    if bad then (if bc then d1 else d1.modPort p (drawShort d true h))
    else if drawDuplicate (d.port p) h bc then (if bc then d1 else d1.modPort p (drawShort d false h))
    else act (d1.modPort p (drawAccept d h bc))
  else d

/-- A full frame of the port: its own index and SEQ, DIR 1 (R149, R168); it awaits its ACK (R152). -/
def drawSend (mt : BitVec 6) (pay : List Byte) (q : Port) : Port :=
  let f : Frame := ⟨mt, q.drw.idx.getD 0, q.drw.seq, flDir, pay⟩
  emit (.full f) { q with drw := { q.drw with seq := q.drw.seq + 1, reply := some f } }

/-! ## Contracts (R20, R176, R184, R189, R295) -/

/-- The contract's floor in mW; that of a restored contract is the keep-alive floor (R295). -/
def contractFloorMw (w : Draw) : Nat :=
  match w.contract with
  | some (_, _, fl, g) => if g = 0 then 50 else fl.toNat * 100
  | none => 50

/-- The contract in mW, while the port may draw up to it; else the keep-alive floor (R20). -/
def contractMw (w : Draw) : Nat :=
  match w.contract with
  | some (pw, _, _, _) => if w.ready then pw.toNat * 100 else 50
  | none => 50

/-- The contract ends: the keep-alive floor (R189, R191). -/
def drawFalls (w : Draw) : Draw := { w with contract := none, ready := false, limitMw := 50 }

/-- The contract, the grant and the requests all end (R189, R191). -/
def drawEnds (w : Draw) : Draw :=
  { drawFalls w with grant := none, open_ := none, waiting := none, consent := none, waited := false }

/-- A contract is taken (R184); a shed holds the limit where it is until it is released (R295). -/
def adopt (power : Half) (l : Level) (floor : Half) (grant : Byte) (w : Draw) : Draw :=
  let w1 := { w with contract := some (power, l, floor, grant), ready := true, grant := none, open_ := none, waiting := none
                     consent := none, waited := false }
  { w1 with limitMw := if w.shed then w.limitMw else contractMw w1 }

/-- A ceiling applies 5 ms after the frame that carries it (R284). -/
def takeCeil (c : Half) (now : Nat) (w : Draw) : Draw :=
  if c = w.ceil then w
  else { w with ceilPrev := if now < w.ceilFrom then w.ceilPrev else w.ceil, ceil := c, ceilFrom := now + 5000 }

/-- The ceiling in force (R284). -/
def ceilNow (w : Draw) (now : Nat) : Nat := if now < w.ceilFrom then w.ceilPrev.toNat else w.ceil.toNat

/-- The path of a DRAW port closes after READY, unless a latch holds it (R136, R255); the PLL is asked for (R67). -/
def drawCloses (p : PortId) (d : Dev) : Dev :=
  pllNeed (d.modPort p fun q => if q.gate = .opened ∧ q.grd.latch = false ∧ q.grd.reclose = false then startClosing d.us q else q)

/-! ## Beacons and adverts -/

/-- A BEACON lasts 374 µs, so one that ends now started after the tone (R142, R297). -/
def beaconAfterTone (w : Draw) (now : Nat) : Bool := decide (w.toneAt + 374 < now)

/-- An attempt to enrol is lost at the second beacon after its window (R162); an attempt counts the windows to skip from a
free draw (R163). -/
def enrolLost (p : PortId) (d : Dev) : Dev :=
  match (d.port p).drw.tried with
  | some n =>
    if 1 ≤ n then
      let (v, d1) := takeFree d
      d1.modPort p fun q =>
        let a := q.drw.lost + 1
        { q with drw := { q.drw with tried := none, lost := a, skip := v.toNat % 2 ^ Nat.min a 6 } }
    else d.modPort p fun q => { q with drw := { q.drw with tried := some (n + 1) } }
  | none => d

/-- The window of this beacon may be used, or is one that is skipped (R163). -/
def enrolWindow (enrw : Bool) (w : Draw) : Draw :=
  if enrw then (if w.skip = 0 then { w with enrw := true } else { w with enrw := false, skip := w.skip - 1 })
  else { w with enrw := false }

/-- The shed is released by a beacon with SHED 0 that started after the tone (R297). -/
def shedReleased (m : BeaconMsg) (now : Nat) (w : Draw) : Draw :=
  if w.shed ∧ m.shed = false ∧ beaconAfterTone w now = true ∧ w.restoreAt = none then
    { w with restoreAt := some (now + 2000 * w.cls.toNat) }
  else w

/-- A DRAW port decodes a beacon on a pin: on both while it listens, on its signal wire once it has joined (R136). -/
def hearsBeacon (q : Port) (pinB : Bool) : Bool :=
  decide (q.role = .draw) && q.ctl.en && (!q.drw.joined || q.att.orient == pinB)

/-- What a beacon leaves with the port: its counts, its SEQ, ADVSEQ, its bit time and its end (R72, R136, R149, R160, R173,
R478). -/
def noteBeacon (pinB : Bool) (h : FrameTag) (m : BeaconMsg) (bitNs now : Nat) (w : Draw) : Draw :=
  { w with
    segCur := m.cur, segTop := if m.busy && decide (m.cur < m.tgt) then m.cur + 1 else m.cur
    beacons := w.beacons + 1, beaconAdv := m.advseq, bits := (bitNs :: w.bits).take 2, seqRxBc := some h.seq, winAt := now
    pinA := if w.joined || pinB then w.pinA else w.pinA + 1
    pinB := if w.joined || !pinB then w.pinB else w.pinB + 1 }

/-- LEVEL.CUR of a DRAW port is the level of the segment above while its path is not open (Table 04-6, assumption 128). -/
def drawLevel (q : Port) : Port := if q.gate = .opened then q else { q with lev := { q.lev with cur := q.drw.segCur } }

/-- BEACON_RECEIVED (R136, R149, R173, R297, R478). -/
def execBeaconReceived (p : PortId) (pinB : Bool) (h : FrameTag) (m : BeaconMsg) (bitNs : Nat) (s : State) : Answer :=
  onDev (fun d =>
    guardDev (hearsBeacon (d.port p) pinB) (fun d =>
      if drawDuplicate (d.port p) h true then d.modPort p (drawHeard d.us)
      else (enrolLost p d).modPort p fun q =>
        drawLevel <| drawHeard d.us { q with drw := shedReleased m d.us (enrolWindow m.enrw (noteBeacon pinB h m bitNs d.us q.drw)) }) d) s

/-- ADVERT_RECEIVED (R173). -/
def execAdvertReceived (p : PortId) (h : FrameTag) (m : AdvertMsg) (s : State) : Answer :=
  onDev (drawFrame p h true false fun d => d.modPort p fun q => { q with drw := { q.drw with advert := some m } }) s

/-! ## POLL (R151, R152, R175, R176) -/

/-- What the head's view of the contract does to the port (R176). -/
def alignDraw (m : PollMsg) (w : Draw) : Draw :=
  if !m.held then (if w.contract.isSome then drawFalls w else w)
  else match w.contract with
    | some (pw, _, fl, g) =>
      if m.power < pw then
        let w1 := { w with contract := some (m.power, m.level, if m.power < fl then m.power else fl, g) }
        { w1 with limitMw := Nat.min w.limitMw (contractMw w1) }
      else w
    | none => w

/-- The head holds a READY contract whose READY this port has not received (R176). -/
def missesReady (m : PollMsg) (w : Draw) : Bool :=
  m.held && m.rdy && !(w.ready && (match w.contract with | some (_, _, _, g) => g == m.grant | none => false))

/-- The band of the signal wire in mV (R119): 0 HOLD, 1 OK, 2 ENROLL; a border zone may be read as either. -/
def bandOf (mv : Nat) (d : Dev) : Nat × Dev :=
  if mv < 550 then (0, d)
  else if mv < 650 then (b2n (Config.borderUpper d.free), { d with free := d.free + 1 })
  else if mv ≤ 1250 then (1, d)
  else if mv ≤ 1350 then (1 + b2n (Config.borderUpper d.free), { d with free := d.free + 1 })
  else (2, d)

/-- The port may send a new REQUEST (R173, R180, R185, R186, R188). -/
def mayRequest (w : Draw) (r : RequestMsg) (now : Nat) : Bool :=
  w.open_.isNone && w.grant.isNone
    && (match w.advert with | some a => a.advseq == w.beaconAdv | none => false)
    && (match w.waiting with | some (_, t) => decide (t ≤ now) | none => true)
    && (match w.barred with | some (pw, t) => decide (r.power < pw) || decide (t ≤ now) | none => true)

/-- Sends a REQUEST; for less than the contract the draw falls first (R182). -/
def drawRequest (r : RequestMsg) (now : Nat) (q : Port) : Port :=
  drawSend 0x08 (payRequest r) { q with drw := { q.drw with
    open_ := some (r, now), reqFloor := r.floor, lastPower := r.power
    limitMw := if q.drw.ready then Nat.min q.drw.limitMw (r.power.toNat * 100) else q.drw.limitMw } }

/-- The resynchronising REQUEST of R176: it opens no request. -/
def drawResync (m : PollMsg) (q : Port) : Port :=
  let floor := if m.power < q.drw.reqFloor ∨ m.grant = 0 then 0 else q.drw.reqFloor
  drawSend 0x08 (payRequest ⟨m.power, floor, BitVec.ofNat 4 (2 ^ m.level.toNat)⟩) q

/-- What the port itself makes of a REPORT: no temperature where its ENROLL declared none (R192), LOWV below its declared lowest
input voltage (R201), and the calibration pair that is held (R193). -/
def reportWith (m : ReportMsg) (q : Port) : ReportMsg :=
  let m1 := { m with
    temp := if q.drw.tempCap then m.temp else 0x8000
    lowv := m.lowv || decide (q.met.vseg < q.drw.vmin) }
  match q.drw.cal with
  | some (c, a, b) => { m1 with calId := c, calBefore := a, calDuring := b, calv := true }
  | none => { m1 with calv := false }

/-- Sends a REPORT (R192, R193, R201). -/
def drawReport (m : ReportMsg) (q : Port) : Port :=
  drawSend 0x15 (payReport (reportWith m q)) { q with drw := { q.drw with cal := none } }

/-- The answer to a GENERAL POLL (Table 08-3, R154, R176). -/
def answerGeneral (d : Dev) (h : FrameTag) (m : PollMsg) (hold : Bool) (reply : PollReply) (q : Port) : Port :=
  match reply with
  | .report x => if missesReady m q.drw && !hold then drawResync m q else drawReport x q
  | .request r =>
    if hold then drawShort d false h q
    else if missesReady m q.drw then drawResync m q
    else if mayRequest q.drw r d.us then drawRequest r d.us q else drawShort d false h q
  | .hint x =>
    if hold then drawShort d false h q
    else if missesReady m q.drw then drawResync m q else drawSend 0x14 (payHint x) q
  | _ => if missesReady m q.drw && !hold then drawResync m q else drawShort d false h q

/-- The answer to a restore POLL: consent, or a refusal (R74). -/
def answerRestore (d : Dev) (h : FrameTag) (m : PollMsg) (reply : PollReply) (q : Port) : Port :=
  if reply = .decline then drawShort d true h { q with drw := { q.drw with consent := none } }
  else drawShort d false h { q with drw := { q.drw with consent := if m.held then some m else none, waited := false } }

/-- A POLL permits a full frame as its reply, in the band that is read (Table 08-3, R154). -/
def pollPermits (kind : BitVec 2) (hold : Bool) (f : Frame) : Bool :=
  if f.mtype = 0x15 then decide (kind = 0 ∨ kind = 2) else decide (kind = 0) && !hold

/-- The short answer where the port has no full frame to send, or may not send the one it holds: a restore POLL is answered as its
first copy was, a REPORT POLL with NAK, any other with ACK (Table 08-3, R149). -/
def pollShort (d : Dev) (h : FrameTag) (m : PollMsg) (q : Port) : Port :=
  drawShort d (decide (m.kind = 2) || (decide (m.kind = 1) && q.drw.consent.isNone)) h q

/-- The answer of the port to a POLL that names it: first a reply that had no ACK, with RETRY 1 (R152). R152 names no exception,
and R154 and R175 permit no REQUEST or HINT in the HOLD band, nor to a POLL of another KIND: there the reply waits for the next
POLL that permits it, the model's choice (assumption 115). A duplicate is acknowledged and not acted on again (R149). -/
def answerPoll (d : Dev) (h : FrameTag) (m : PollMsg) (hold dup : Bool) (reply : PollReply) (q : Port) : Port :=
  match q.drw.reply with
  | some f =>
    if pollPermits m.kind hold f then emit (.full { f with flags := f.flags ||| flRetry }) q
    else if m.kind = 1 ∧ dup = false then answerRestore d h m reply q
    else pollShort d h m q
  | none =>
    if dup then pollShort d h m q
    else if m.kind = 0 then answerGeneral d h m hold reply q
    else if m.kind = 1 then answerRestore d h m reply q
    else if m.kind = 2 then (match reply with | .report x => drawReport x q | _ => drawShort d true h q)
    else drawShort d false h q

/-- What a POLL that names the port leaves with it: its SEQ, the head's view, the ceiling (R149, R176, R284). -/
def notePoll (h : FrameTag) (m : PollMsg) (dup : Bool) (now : Nat) (q : Port) : Port :=
  drawHeard now (if dup then q else { q with drw := takeCeil m.ceil now (alignDraw m { q.drw with seqRx := some h.seq }) })

/-- POLL_RECEIVED (R149, R176). -/
def execPollReceived (p : PortId) (h : FrameTag) (m : PollMsg) (reply : PollReply) (mv : Nat) (s : State) : Answer :=
  onDev (fun d =>
    guardDev (drawNamed (d.port p)) (fun d =>
      let dup := drawDuplicate (d.port p) h false
      let (band, d1) := bandOf mv d
      let d2 := d1.modPort p (notePoll h m dup d.us)
      relieve (if drawSpeaks d2 (d2.port p) then d2.modPort p (answerPoll d2 h m (decide (band = 0)) dup reply) else d2)) d) s

/-! ## The head's answers (R184 to R189) -/

/-- ACCEPT_RECEIVED (R184): it permits no draw. -/
def execAcceptReceived (p : PortId) (h : FrameTag) (m : AcceptMsg) (s : State) : Answer :=
  onDev (drawFrame p h false false fun d => d.modPort p fun q =>
    { q with drw := takeCeil m.ceil d.us { q.drw with grant := some (m, d.us), open_ := none, waiting := none } }) s

/-- A class READY of the restore is for this port (R79, R190). -/
def takesRestore (m : ReadyMsg) (w : Draw) : Bool := m.restore && decide (m.cls = w.cls) && w.consent.isSome && !w.waited

/-- READY_RECEIVED (R184, R190). -/
def execReadyReceived (p : PortId) (h : FrameTag) (bc : Bool) (m : ReadyMsg) (s : State) : Answer :=
  onDev (drawFrame p h bc false fun d =>
    if bc then
      match (d.port p).drw.consent with
      | some c =>
        if takesRestore m (d.port p).drw then
          relieve (drawCloses p (d.modPort p fun q => { q with drw := adopt c.power c.level 0 0 q.drw }))
        else d
      | none => d
    else
      relieve (drawCloses p (d.modPort p fun q => { q with drw := adopt m.power m.level (if m.grant = 0 then 0 else q.drw.reqFloor) m.grant q.drw }))) s

/-- An addressed WITHDRAW ends the contract or the open grant; a REQUEST that has no answer yet stays open, and the port may request
again at its next GENERAL POLL (R180, R189). -/
def drawWithdrawn (w : Draw) : Draw := { drawFalls w with grant := none, waiting := none }

/-- WITHDRAW_RECEIVED (R189): a broadcast one where its class bit is set; the FEED port's budget falls with it (R23). -/
def execWithdrawReceived (p : PortId) (h : FrameTag) (bc : Bool) (m : WithdrawMsg) (s : State) : Answer :=
  onDev (drawFrame p h bc (withdrawBad m.reason.toNat) fun d =>
    let w := (d.port p).drw
    if bc && !m.classes.getLsbD w.cls.toNat then d
    else relieve (d.modPort p fun q => { q with drw := if bc then drawEnds q.drw else drawWithdrawn q.drw })) s

/-- WAIT_RECEIVED (R186, R187): the REQUEST is closed and may come again after retry_after; a restore waits (R78). -/
def execWaitReceived (p : PortId) (h : FrameTag) (m : WaitMsg) (s : State) : Answer :=
  onDev (drawFrame p h false (waitBad m.retryMs.toNat m.cause.toNat) fun d => d.modPort p fun q =>
    let again := d.us + 1000 * m.retryMs.toNat
    { q with drw := { q.drw with
        waiting := match q.drw.open_ with
          | some (r, _) => some (r, again)
          | none => (match q.drw.consent with | some c => some (⟨c.power, 0, BitVec.ofNat 4 (2 ^ c.level.toNat)⟩, again) | none => q.drw.waiting)
        open_ := none, waited := q.drw.consent.isSome } }) s

/-- The power that a REJECT refuses: that of the open REQUEST, of a restore consented to, of a request that waits, else of the
REQUEST last sent (R78, R185, R188). -/
def refusedPower (w : Draw) : Half :=
  match w.open_, w.consent, w.waiting with
  | some (r, _), _, _ => r.power
  | none, some c, _ => c.power
  | none, none, some (r, _) => r.power
  | none, none, none => w.lastPower

/-- A REJECT ends the request, and bars the same or a greater power for 10 s (R188). -/
def drawRefused (now : Nat) (w : Draw) : Draw :=
  let pw := refusedPower w
  { w with open_ := none, waiting := none, barred := if pw = 0 then w.barred else some (pw, now + 10000000) }

/-- REJECT_RECEIVED (R188); a broadcast one ends an ENROLL attempt that carries this EUI-48 (R179). -/
def execRejectReceived (p : PortId) (h : FrameTag) (bc : Bool) (m : RejectMsg) (s : State) : Answer :=
  onDev (drawFrame p h bc (rejectBad m.reason.toNat m.detail.toNat) fun d => d.modPort p fun q =>
    if bc then
      if m.eui = Config.headEui then
        { q with drw := { q.drw with tried := none, enrolFrom := if m.reason = 8 ∨ m.reason = 9 then d.us + 60000000 else q.drw.enrolFrom } }
      else q
    else { q with drw := drawRefused d.us q.drw }) s

/-- An ASSIGN is for the port: a port without a roster index examines every one, an enrolled port the one that carries its INDEX
(R147). -/
def assignHere (q : Port) (idx : Idx) : Bool := drawHears q && (q.drw.idx.isNone || decide (q.drw.idx = some idx))

/-- ASSIGN_RECEIVED (R178): only the EUI-48 that is its own; an enrolled port answers one that carries another with NAK (R148). -/
def execAssignReceived (p : PortId) (h : FrameTag) (idx : Idx) (m : AssignMsg) (s : State) : Answer :=
  onDev (fun d =>
    guardDev (assignHere (d.port p) idx) (fun d => d.modPort p fun q =>
      if m.eui = Config.headEui then
        let dup := drawDuplicate q h false && decide (q.drw.idx = some idx)
        let q1 := drawHeard d.us (drawAccept d h false q)
        if dup then q1
        else { q1 with drw := { q1.drw with idx := some idx, cls := m.cls, tenant := m.tenant, lost := 0, skip := 0, tried := none } }
      else if q.drw.idx.isSome then drawShort d true h (drawHeard d.us q) else drawHeard d.us q) d) s

/-! ## The shed tone, resets, calibration -/

/-- A shed tone at an endpoint: it falls to its contract floor until R297 releases it (R295). -/
def drawShed (now : Nat) (w : Draw) : Draw :=
  { w with shed := true, toneAt := now, restoreAt := none, limitMw := Nat.min w.limitMw (contractFloorMw w) }

/-- SHED_TONE_RECEIVED (R165, R295): a frame that the port is sending ends; an ENROLL cut so is no lost attempt (R163). -/
def execShedToneReceived (p : PortId) (s : State) : Answer :=
  onDev (fun d => d.modPort p fun q =>
    if drawHears q then
      let q1 := drawHeard d.us (toneCuts d.us q)
      { q1 with drw := drawShed d.us q1.drw }
    else q) s

/-- SOFT_RESET_RECEIVED (R191): the contract ends; the index and SEQ stay. -/
def execSoftResetReceived (p : PortId) (h : FrameTag) (bc : Bool) (s : State) : Answer :=
  onDev (drawFrame p h bc false fun d => relieve (d.modPort p fun q => { q with drw := drawEnds q.drw })) s

/-- HARD_RESET_RECEIVED (R191): the index, class, tenant and SEQ are forgotten too, and two beacons are heard again. -/
def execHardResetReceived (p : PortId) (h : FrameTag) (bc : Bool) (s : State) : Answer :=
  onDev (drawFrame p h bc false fun d => relieve (d.modPort p fun q =>
    { q with drw := { drawEnds q.drw with
        idx := none, cls := 0, tenant := 0, seq := 0, seqRx := none, seqRxBc := none, beacons := 0, reply := none, tried := none } })) s

/-- The energy drawn in 1 ms at the present draw, µW µs: the last ten sums of 100 µs, as far as there are ten (R172). -/
def msDraw (m : Meter) : Nat := if m.blocks = [] then 0 else sumNat m.blocks * 10 / m.blocks.length

/-- The drawer can make the step (R193): the mean power over the 1 ms that ends with it, the present draw and the step together,
lies within its limit, and the current within its ceiling. -/
def canStep (q : Port) (m : CalPulseMsg) (now : Nat) : Bool :=
  let v := q.met.vseg.toNat
  let i := q.met.iseg.toInt.natAbs
  let c := ceilNow q.drw now
  decide (msDraw q.met + m.stepMa.toNat * v * m.dur.toNat ≤ q.drw.limitMw * 1000000)
    && (decide (c = 0) || decide (i + m.stepMa.toNat ≤ c))

/-- CAL_PULSE_RECEIVED (R193). -/
def execCalPulseReceived (p : PortId) (h : FrameTag) (m : CalPulseMsg) (vBefore vDuring : Half) (s : State) : Answer :=
  onDev (drawFrame p h true (pulseBad m.dur.toNat) fun d => d.modPort p fun q =>
    { q with drw := { q.drw with cal := some (m.calId, vBefore, vDuring)
                                 stepped := decide (q.drw.idx = some m.drawer) && canStep q m d.us } }) s

/-! ## Enrolment and timeouts -/

/-- An ENROLL is a broadcast with DIR 1 (R161, R168). -/
def sendEnroll (m : EnrollMsg) (q : Port) : Port :=
  emit (.full ⟨0x04, 0x3FF, q.drw.seq, flBc ||| flDir, payEnroll { m with eui := Config.headEui }⟩)
    { q with drw := { q.drw with seq := q.drw.seq + 1, vmin := m.vmin, tempCap := m.temp } }

/-- The port may try to enrol in the window at hand (R161, R163, R179). -/
def mayEnrol (d : Dev) (q : Port) : Bool :=
  drawHears q && q.drw.idx.isNone && q.drw.enrw && q.drw.tried.isNone && decide (q.drw.enrolFrom ≤ d.us) && drawSpeaks d q

/-- The moment of an ENROLL in minislot k with jitter j, behind the beacon of its window (R160, R161). -/
def minislotAt (w : Draw) (k j : BitVec 3) : Nat := w.winAt + 20 + 500 * k.toNat + 20 + 4 * j.toNat

/-- ENROLL_MINISLOT (R161): in the ENROLL band; a line that is not idle leaves the ENROLL withheld, which counts as an attempt
(R162). -/
def execEnrollMinislot (p : PortId) (k j : BitVec 3) (m : EnrollMsg) (mv : Nat) (idle : Bool) (s : State) : Answer :=
  onDev (fun d =>
    guardDev (mayEnrol d (d.port p) && decide (d.us = minislotAt (d.port p).drw k j)) (fun d =>
      let (band, d1) := bandOf mv d
      if band = 2 then
        d1.modPort p fun q =>
          let q1 := { q with drw := { q.drw with tried := some 0, enrw := false } }
          if idle then sendEnroll m q1 else q1
      else d1) d) s

/-- GRANT_TIMEOUT (R185): 400 ms after the ACCEPT, or after the acknowledgement of a REQUEST without an answer. -/
def execGrantTimeout (p : PortId) (s : State) : Answer :=
  onDev (fun d => d.modPort p fun q =>
    let g := match q.drw.grant with | some (_, t) => decide (t + 400000 ≤ d.us) | none => false
    let o := match q.drw.open_ with | some (_, t) => q.drw.reply.isNone && decide (t + 400000 ≤ d.us) | none => false
    { q with drw := { q.drw with grant := if g then none else q.drw.grant, open_ := if o then none else q.drw.open_ } }) s

end Sys2Proof.Machine
end

