-- ==== Sys2Proof/Machine/Exchange.lean ====
section
/-! DEFINITION. How an exchange of the line ends: acknowledged, refused or undelivered (R148 to R152, R196, Table 08-6), the
frames that are not acted on (R148, R170), and the reload of a sequencer (R167). -/

namespace Sys2Proof.Machine

open Sys2Proof

/-! ## What the end of an exchange does -/

/-- The slot that a frame serves is freed if it still serves that endpoint (R194). -/
def freeSlotFor (o : OutFrame) (q : Port) : Port :=
  match o.slot with
  | some k =>
    (match spFind q.slots k.toNat with
     | some s => if s.idx = some o.idx then dropSlot k.toNat q else q
     | none => q)
  | none => q

/-- Contracts displaced for a slot's READY that have all ended start its 5 ms (R273). -/
def displacedEnds (i : Idx) (now : Nat) (q : Port) : Port :=
  { q with slots := q.slots.map fun (k, s) =>
      if s.displaced.contains i then
        let l := s.displaced.filter (· != i)
        (k, { s with displaced := l, readyFrom := if l.isEmpty then now + 5000 else s.readyFrom })
      else (k, s) }

/-- A WITHDRAW was not delivered: its power stays reserved (Table 08-6). -/
def reserve (i : Idx) (w : Half) (q : Port) : Port :=
  { q with line := { q.line with resv := spSet 0 q.line.resv i.toNat w } }

/-- READY is delivered, or its delivery has failed: the READY event, and the slot (R184, R194); the READY that resynchronises an
endpoint serves no slot and posts nothing (R176). -/
def readyDone (p : PortId) (o : OutFrame) (l : Level) (d : Dev) : Dev :=
  if o.slot.isSome then
    post { typ := 0x24, port := portBit p, handle := true, code := l.toNat, word1 := handleOf p o.idx, ms := some o.firstMs }
      (d.modPort p (freeSlotFor o))
  else d.modPort p (freeSlotFor o)

/-- A reset is delivered (R191): the contract ends with WITHDRAWN CODE 3, and HARD_RESET takes the endpoint off the line. -/
def resetDone (p : PortId) (o : OutFrame) (d : Dev) : Dev :=
  let i := o.idx
  let hard := decide (o.frame.mtype = 0x1F)
  let d1 := d.modPort p fun q => setRoster i.toNat { rosterOf q i.toNat with resetDue := none, overdraw := 0 } (freeSlotFor o q)
  let d2 := if (contractOf (d1.port p) i.toNat).held then endContract 3 p i d1 else d1.modPort p (dropPending i)
  if hard then d2.modPort p fun q => setRoster i.toNat { rosterOf q i.toNat with state := 1, seqRx := none } q else d2

/-- A POLL was acknowledged or refused: the endpoint is present; KIND 1 consents or declines (R74, R174). -/
def pollDone (p : PortId) (o : OutFrame) (kind : BitVec 2) (acked : Bool) (d : Dev) : Dev :=
  let d1 := d.modPort p fun q =>
    let q1 := nowPresent d.us o.idx q
    if acked && !pollHeld o.frame then { q1 with line := { q1.line with resv := spErase q1.line.resv o.idx.toNat } } else q1
  if kind = 1 then (if acked then consents p o.idx d1 else declines p o.idx d1) else d1

/-- A new index returns to free where its ASSIGN is not taken (Table 08-6). -/
def assignLost (p : PortId) (o : OutFrame) (fresh : Bool) (d : Dev) : Dev :=
  if fresh then d.modPort p (setRoster o.idx.toNat {}) else d

/-- The endpoint is ABSENT (R73, R151, Table 08-6): PEVT.ABSENT, the event, and its contract or grant ends with WITHDRAWN CODE 5;
nothing is pending. -/
def absent (p : PortId) (i : Idx) (d : Dev) : Dev :=
  let q := d.port p
  let had := (contractOf q i.toNat).held || (match slotOf q i with | some (_, s) => s.state == 2 | none => false)

  let d1 := d.modPort p fun q =>
    let r := rosterOf q i.toNat
    let q1 := setRoster i.toNat (setRate 0 d.us { r with state := 3, resetDue := none, overdraw := 0, consent := false }) q
    let q2 := { q1 with slots := q1.slots.filter fun (_, s) => s.idx != some i
                        sig := q1.sig || q1.slots.any fun (_, s) => s.idx == some i
                        line := { q1.line with resv := spErase q1.line.resv i.toNat } }
    notePAbsent q2
  let d2 := postEndpoint 0x22 0 p i false d1
  let d3 := if had then endContract 5 p i d2 else d2.modPort p fun q => dropHint i (dropPending i q)
  d3.modPort p fun q => setRoster i.toNat { setRate 0 d.us (rosterOf q i.toNat) with state := 3 } q

/-- An exchange ended with an ACK, or with a NAK, after which a frame is not sent again (R148). -/
def exchangeDone (p : PortId) (o : OutFrame) (acked : Bool) (d : Dev) : Dev :=
  match o.kind with
  | .poll k => pollDone p o k acked d
  | .assign fresh => if acked then enrolled p o.idx d else assignLost p o fresh d
  | .accept => d
  | .wait => d.modPort p (freeSlotFor o)
  | .reject => d.modPort p (freeSlotFor o)
  | .withdraw w => d.modPort p fun q =>
      let q1 := displacedEnds o.idx d.us (freeSlotFor o q)
      if acked then q1 else reserve o.idx w q1
  | .ready l => readyDone p o l d
  | .reset => if acked then resetDone p o d else d.modPort p (freeSlotFor o)
  | .peerHello => if acked then helloAcked p d else d
  | .peerReport => d
  | .swapReq =>
    if acked then d.modPort p fun q => if q.rail.swap = .outstanding then { q with rail := { q.rail with swap := .asked } } else q
    else if (d.port p).rail.swap = .outstanding then swapNaked p d else d
  | .swapAck refused => if acked then swapAckAcked p refused d else swapAckFailed p d

/-- A message that is not delivered (R150, R196): LINE_FAIL, PEVT.LINE, and the state of Table 08-6. -/
def exchangeFails (p : PortId) (o : OutFrame) (d : Dev) : Dev :=
  let d1 := postEndpoint 0x29 (o.frame.mtype.toNat % 16) p o.idx false (d.modPort p notePLine)
  match o.kind with
  | .poll _ => absent p o.idx d1
  | .assign fresh => assignLost p o fresh d1
  | .accept => d1
  | .wait => d1.modPort p (freeSlotFor o)
  | .reject => d1.modPort p (freeSlotFor o)
  | .withdraw w => d1.modPort p fun q => reserve o.idx w (displacedEnds o.idx d.us (freeSlotFor o q))
  | .ready l => readyDone p o l d1
  | .reset => d1.modPort p (freeSlotFor o)
  | .peerHello => helloFailed p d1
  | .peerReport => d1
  | .swapReq => if (d1.port p).rail.swap = .outstanding then swapNaked p d1 else d1
  | .swapAck _ => swapAckFailed p d1

/-- The answer to the exchange under way: it is over, and a calibration pulse goes on (R153, R194). -/
def answerFront (p : PortId) (acked : Bool) (d : Dev) : Dev :=
  match (d.port p).line.out with
  | o :: _ => if o.sent then calProgress p (relieve (exchangeDone p o acked (dropFront p d))) else d
  | [] => d

/-! ## ACK and NAK -/

/-- The answer to a DRAW port's own frame (R148, R152, R180, R185). -/
def drawAnswered (acked : Bool) (now : Nat) (q : Port) : Port :=
  match q.drw.reply with
  | some f =>
    let w := { q.drw with reply := none, heardAt := now }
    { q with drw := if f.mtype = 0x08 then
        { w with open_ := if acked then w.open_.map fun (r, _) => (r, now) else none } else w }
  | none => q

/-- A short answer on a port: to its head's exchange, or on a DRAW port to its own frame. -/
def onAnswer (p : PortId) (acked : Bool) (d : Dev) : Dev :=
  let d1 := d.modPort p (hears d.us)
  if (d.port p).role = .draw then d1.modPort p (drawAnswered acked d.us)
  else answerFront p acked (d1.modPort p fun q => { q with ring := { q.ring with polls := none } })

/-- ACK (R148). -/
def execAck (p : PortId) (_seq : BitVec 3) (s : State) : Answer := onDev (onAnswer p true) s

/-- NAK (R148). -/
def execNak (p : PortId) (_seq : BitVec 3) (s : State) : Answer := onDev (onAnswer p false) s

/-! ## No answer (R150, R151, R226) -/

/-- The frame is to go again with RETRY 1 and its SEQ (R149, R150). -/
def again (o : OutFrame) : OutFrame :=
  { o with retries := o.retries + 1, sent := false, whole := true, frame := { o.frame with flags := o.frame.flags ||| flRetry } }

/-- It goes at once where the line allows it (R150, R158). -/
def resend (o : OutFrame) (now : Nat) (q : Port) : Port :=
  launchOn now { q with line := { q.line with out := again o :: q.line.out.tail } }

/-- An answer is missing: the frame under way is sent again up to three times, then its delivery has failed. -/
def answerMissing (p : PortId) (o : OutFrame) (d : Dev) : Dev :=
  if o.retries < 3 then d.modPort p (resend o d.us)
  else if o.kind = .peerHello then helloFailed p (dropFront p d)
  else calProgress p (relieve (exchangeFails p o (dropFront p d)))

/-- ACK_MISSING (R150, R226): 48 µs after the end of the frame's EOF at the earliest. -/
def execAckMissing (p : PortId) (s : State) : Answer :=
  onDev (fun d =>
    match (d.port p).line.out with
    | o :: _ => guardDev (o.sent && idleFor 48 d.us (d.port p)) (answerMissing p o) d
    | [] => d) s

/-! ## Frames that are not acted on (R148, R170) -/

/-- A field of a message lies outside its range (R170, Tables 08-2 to 08-5); REQUEST is exempt. -/
def fieldBad (f : Frame) : Bool :=
  let b := payByte f.payload
  match f.mtype.toNat with
  | 0x03 => decide (3 < b 0)
  | 0x0A => waitBad (payHalf f.payload 0) (b 4)
  | 0x0B => rejectBad (b 0) (b 1)
  | 0x0C => withdrawBad (b 0)
  | 0x16 => pulseBad (b 3)
  | 0x18 => decide (1 < b 6)
  | 0x19 => decide (1 < b 0)
  | 0x1E => decide (2 < b 0)
  | 0x1F => decide (2 < b 0)
  | _ => false

/-- A frame of unknown MTYPE, or malformed (R148, R170). -/
def frameBad (f : Frame) : Bool :=
  match minLen f.mtype (decide (f.flags &&& flBc ≠ 0)) with
  | none => true
  | some n => decide (f.payload.length < n) || fieldBad f

/-- A frame is addressed to this port and answered by it: an endpoint's frame to a head, a head's frame to the DRAW port it
names, or a frame to the other feeder (R144, R148, R168). -/
def addressed (d : Dev) (p : PortId) (f : Frame) : Bool :=
  let q := d.port p
  if f.flags &&& flBc ≠ 0 then decide (f.index = 0x3FE) && peerHears q
  else if f.flags &&& flDir ≠ 0 then q.isHead
  else drawNamed q && decide (q.drw.idx = some f.index)

/-- The messages that a party acts on when they are addressed to it (Table 08-1). -/
def actsOn (f : Frame) : Bool :=
  let n := f.mtype.toNat
  if f.flags &&& flBc ≠ 0 then decide (0x18 ≤ n ∧ n ≤ 0x1B)
  else if f.flags &&& flDir ≠ 0 then n == 0x08 || n == 0x14 || n == 0x15
  else n == 0x03 || n == 0x05 || n == 0x09 || n == 0x0A || n == 0x0B || n == 0x0C || n == 0x0D || n == 0x1E || n == 0x1F


/-- The NAK of a frame: to an endpoint it also ends the POLL that it answers (R151). -/
def nakBad (p : PortId) (f : Frame) (d : Dev) : Dev :=
  if (d.port p).role = .draw then d.modPort p (drawShort d true ⟨f.seq, false⟩)
  else if f.flags &&& flBc ≠ 0 then d.modPort p (answerShort true f.seq)
  else nakFrame p f.index ⟨f.seq, false⟩ d

/-- A valid frame that is not this port's to act on: the line was busy until its end, and a joined DRAW port has decoded it
(R137, R141). -/
def frameHeard (now : Nat) (q : Port) : Port := hears now (if drawHears q then drawHeard now q else q)

/-- UNKNOWN_FRAME (R144, R147, R148, R170): an intact frame that the port does not act on: a NAK if it is addressed, and otherwise
nothing more. -/
def execUnknownFrame (p : PortId) (f : Frame) (s : State) : Answer :=
  onDev (fun d => guardDev (!discarded f) (fun d =>
    let d1 := d.modPort p (frameHeard d.us)
    if (frameBad f || !actsOn f) && addressed d p f then nakBad p f d1 else d1) d) s

/-! ## Reload of a sequencer (R167) -/

/-- The moment at which a reload may begin: on a head that beacons, at the end of the EOF of a beacon without ENRW and before
anything else; on another port at any time (R167). -/
def reloadMoment (now : Nat) (q : Port) : Bool :=
  q.line.reloadDue && q.line.reloadAt.isNone && q.line.window.isNone
    && (!q.isHead || decide (q.line.due = 0)
        || (!q.line.beaconEnrw && decide (q.line.beaconEnd ≤ now ∧ now ≤ q.line.beaconEnd + 12) && q.line.out.all fun o => !o.sent))

/-- SEQUENCER_RELOAD (R167). -/
def execSequencerReload (p : PortId) (s : State) : Answer :=
  onDev (fun d => d.modPort p fun q =>
    if reloadMoment d.us q then
      { q with line := { q.line with reloadDue := false, reloadAt := some d.us, seqRun := false } }
    else q) s

/-- A reload is over: the port originates again, first what the reload held back. -/
def reloadEnds (q : Port) : Port := flushLater { q with line := { q.line with reloadAt := none, seqRun := true } }

/-- SEQUENCER_RELOAD_DONE (R167). -/
def execSequencerReloadDone (p : PortId) (s : State) : Answer :=
  onDev (fun d => d.modPort p fun q => if q.line.reloadAt.isSome then reloadEnds q else q) s

/-- A reload lasts at most 1.5 ms (R167). -/
def tickReload (now : Nat) (q : Port) : Port :=
  match q.line.reloadAt with
  | some t => if t + 1500 ≤ now then reloadEnds q else q
  | none => q

end Sys2Proof.Machine
end

