-- ==== Sys2Proof/Machine/Gang.lean ====
section
/-! DEFINITION. The gang bus (chapter 14): membership and leadership (R320 to R326), the leader's shares (R327 to R332), the
gang level (R333, R334) and what the device reports (R335). -/

namespace Sys2Proof.Machine

open Sys2Proof

/-- The device may drive the gang bus (R320, R338). -/
def gangDrives (d : Dev) : Bool := d.up && decide (d.gang.mode ≠ 0) && !d.gang.parked

/-! ## What the device reports (R335) -/

/-- The mode in force: that of the gang while the device is a member. -/
def gangModeNow (d : Dev) : BitVec 2 := if gangMember d then d.gang.modeIn else 0

/-- The shelf budget against which shares are compared: the leader's. -/
def gangS (d : Dev) : Nat := if d.gang.leader then d.gl.shelf.toNat else d.gang.s.toNat

/-- A share has moved by more than a part of S. -/
def moved (a b s part : Nat) : Bool := decide (s < part * (a - b) ∨ s < part * (b - a))

/-- GSTAT.GANG and GANG where something of R335 has changed. -/
def gangTell (d : Dev) : Dev :=
  let now := (d.gang.leaderId, d.gang.count, gangModeNow d, d.gang.leader, d.gang.alone)
  let shareMoved := moved (shelfShare d) d.gang.toldShare.toNat (gangS d) 20
  if now.2 ≠ d.gang.told.2 ∨ shareMoved then
    let d1 := setG gGang { d with gang := { d.gang with told := now, toldShare := sat16 (shelfShare d) } }
    postGlobal 0x07 d.gang.mode.toNat (h16 (pack [(0, d.gang.leaderId.toNat), (4, d.gang.count.toNat)])) false d1
  else d

/-- The share that a cell of the gang share ring holds, with its number (R332). -/
def shareCell (k : Keep) (i : Nat) : Nat × Nat := (keepNat k (0x3280 + 8 * i) 2, keepNat k (0x3284 + 8 * i) 4)

/-- The newest cell's number. -/
def shareNum (k : Keep) : Nat := (List.range 32).foldl (fun n i => Nat.max n (shareCell k i).2) 0

/-- The share in force is stored when it has moved by more than 10 % of S, at most once per 10 min (R332). -/
def storeShare (d : Dev) : Dev :=
  match d.gang.share with
  | none => d
  | some v =>
    let due := match d.gang.stored with | some w => moved v.toNat w.toNat (gangS d) 10 | none => true
    let may := match d.gang.storedAt with | some t => decide (t + 600000000 ≤ d.us) | none => true
    if due && may && !d.gl.khot then
      let n := shareNum d.keep + 1
      { d with keep := eWrite (0x3280 + 8 * (n % 32)) (le2 v.toNat ++ [0, 0] ++ leBytes n 4) d.keep
               gang := { d.gang with stored := some v, storedAt := some d.us } }
    else d

/-! ## GMEM (R327, R333, R334, R338) -/

/-- The part of a ring's ADMIT that a feeder counts (R327). -/
def ringPart (d : Dev) (p : PortId) : Nat :=
  let q := d.port p
  if q.ring.peer then
    if q.ring.loc then (if q.master then admitSum q else 0)
    else
      let b := budget d p
      let o := match q.ring.report with | some r => r.budget.toNat | none => 0
      if b + o = 0 then admitSum q else admitSum q * b / (b + o)
  else admitSum q

/-- F: the ports with PCTL.FIXED 1 (R310, R327). -/
def gmemFixed (d : Dev) (q : Port) : Nat := if q.ctl.fixed then Nat.max (fixedLimit d q) (admitSum q) else 0

/-- A: the ADMIT of the other ports (R327). -/
def gmemAdmit (d : Dev) (p : PortId) : Nat := if (d.port p).ctl.fixed then 0 else ringPart d p

/-- The unmet demand of some classes: pending requests whose WAIT carried cause 4 (R327). -/
def unmet (q : Port) (low : Bool) : Nat :=
  sumNat ((q.pend.filter fun r => decide (r.cause = 4) && (decide ((rosterOf q r.idx.toNat).cls < 2) == low)).map fun r =>
    incrementOf q r.idx r.req.power.toNat)

/-- The highest level that every contract of a port accepts (R333). -/
def acceptsTop (q : Port) : Level :=
  (allLevels.filter fun l => (contracts q).all fun (_, c) => c.mask.getLsbD l.toNat).foldl (fun a l => if a < l then l else a) 0

/-- A FEED port's wanted level, level cap, and whether it is idle (R333, R334). -/
def gmemPort (d : Dev) (q : Port) : Level × Level × Bool :=
  if q.role = .feed then
    (q.lev.tgt, (if q.ctl.lmax < acceptsTop q then q.ctl.lmax else acceptsTop q),
     match q.lev.idleSince with | some t => decide (t + 9900000 ≤ d.us) | none => false)
  else (0, 3, true)

/-- The device's GMEM; parking and SAFE report F and A as 0 (R338, chapter 14 Edges). -/
def ownGmem (d : Dev) : GmemMsg :=
  let out := parking d || d.gl.safe
  let a := gmemPort d d.p0
  let b := gmemPort d d.p1
  { id := d.gang.id, mode := d.gang.mode, parking := parking d, safe := d.gl.safe, weight := d.gang.weight
    fixedRes := if out then 0 else sat16 (gmemFixed d d.p0 + gmemFixed d d.p1)
    admitted := if out then 0 else sat16 (gmemAdmit d .p0 + gmemAdmit d .p1)
    u01 := sat16 (unmet d.p0 true + unmet d.p1 true), u23 := sat16 (unmet d.p0 false + unmet d.p1 false)
    want := if a.1 < b.1 then b.1 else a.1, cap := if a.2.1 < b.2.1 then a.2.1 else b.2.1, idle := a.2.2 && b.2.2
    frame := d.gang.frame }

/-! ## Messages (R318, R319) -/

/-- The payload of a GLEAD (Table 14-1). -/
def gleadPayload (m : GleadMsg) : List Byte :=
  [BitVec.ofNat 8 (pack [(0, m.leader.toNat), (4, m.mode.toNat)]), m.frame,
   BitVec.ofNat 8 (pack [(0, m.level.toNat), (2, b2n m.allIdle)]), 0]
  ++ le2 m.budget.toNat ++ le2 m.bitmap.toNat ++ (List.range 16).flatMap fun i => le2 (m.shares.getD i 0).toNat

/-- The payload of a GMEM (Table 14-1). -/
def gmemPayload (m : GmemMsg) : List Byte :=
  [BitVec.ofNat 8 (pack [(0, m.id.toNat), (4, m.mode.toNat), (6, b2n m.parking), (7, b2n m.safe)]), m.weight]
  ++ le2 m.fixedRes.toNat ++ le2 m.admitted.toNat ++ le2 m.u01.toNat ++ le2 m.u23.toNat
  ++ [BitVec.ofNat 8 (pack [(0, m.want.toNat), (2, m.cap.toNat), (4, b2n m.idle)]), m.frame, 0, 0, 0, 0]

/-- A gang message as bytes: TYPE, LEN, the payload and the CRC-32 over them (R318). -/
def gangBytes (typ : Byte) (payload : List Byte) : List Byte :=
  let body := typ :: BitVec.ofNat 8 payload.length :: payload
  body ++ leBytes (crc32 body).toNat 4

/-- How long GDAT is held low in each bit, in µs: 2 for a 1 and 6 for a 0, least significant bit first (R318). -/
def gdatLows (l : List Byte) : List Nat := l.flatMap fun b => (List.range 8).map fun i => if b.getLsbD i then 2 else 6

/-- A message starts 50 µs into its slot (R317). -/
def driveGdat (slot : Nat) (typ : Byte) (payload : List Byte) (g : Gang) : Gang :=
  { g with gdat := (g.edgeAt + slot + 50, gangBytes typ payload) :: g.gdat }

/-! ## The leader's shares (Table 14-2, R328, R329) -/

/-- One step of Table 14-2: what is left of the pool is divided in proportion to the claims, none beyond its claim. -/
def shareStep (claims : List Nat) (st : List Nat × Nat) : List Nat × Nat :=
  let (held, pool) := st
  let total := sumNat claims
  if total ≤ pool then (List.zipWith (· + ·) held claims, pool - total)
  else (List.zipWith (fun h c => h + pool * c / total) held claims, 0)

/-- The target shares of the members, in 0.1 W, in their order; the steps count in units of 0.1 W / ΣW. Step 0 states no share where no
member has admitted anything, and none below 0: the model takes F_i, and 0 (assumption 132). -/
def targetShares (s : Nat) (level : Bool) (ms : List GmemMsg) : List Nat :=
  let f := ms.map (·.fixedRes.toNat)
  let a := ms.map (·.admitted.toNat)
  let w := ms.map (·.weight.toNat)
  let sf := sumNat f
  let sa := sumNat a
  let sw := sumNat w
  if s < sf + sa then List.zipWith (fun (fi ai : Nat) => (if sa = 0 then (fi : Int) else fi + (ai * ((s : Int) - sf)) / sa).toNat) f a
  else
    let floors := List.zipWith (fun fi ai => (fi + ai) * sw) f a
    let bases := List.zipWith (fun fi wi => fi * sw + (s - sf) * wi) f w
    let st0 := (floors, (s - sf - sa) * sw)
    let st1 := if level then st0 else shareStep (ms.map (·.u01.toNat * sw)) st0
    let st2 := shareStep (List.zipWith (· - ·) bases st1.1) st1
    let st3 := if level then st2 else shareStep (ms.map (·.u23.toNat * sw)) st2
    let rest := w.map fun wi => if sw = 0 then 0 else st3.2 * wi / sw
    (List.zipWith (· + ·) st3.1 rest).map fun v => if sw = 0 then 0 else v / sw

/-- The sum of the shares of the last GLEAD. -/
def sumShares (l : Sparse Half) : Nat := sumNat (l.map fun (_, v) => v.toNat)

/-- Increases are cut back until Σ max(new, previous) fits S (R329). -/
def cutBack (s : Nat) (prev : Sparse Half) (new : List (Nat × Nat)) : Sparse Half :=
  let inc := fun (x : Nat × Nat) => x.2 - (spGet 0 prev x.1).toNat
  let total := sumNat (new.map inc)
  let room := s - sumShares prev
  new.foldl (fun t x =>
    let p := (spGet 0 prev x.1).toNat
    let v := if total ≤ room then x.2 else if inc x = 0 then x.2 else p + inc x * room / total
    spSet 0 t x.1 (sat16 v)) []

/-- The members as the leader counts them: itself and those heard, by rising ID. -/
def gangReports (d : Dev) : List GmemMsg :=
  sortBy (fun a b => decide (a.id < b.id)) (ownGmem d :: d.gang.members.map (·.last))

/-- The shares of a frame: those of the last GLEAD until every member of its bitmap has been heard (R331), a share kept alone
(R325), else Table 14-2. -/
def frameShares (d : Dev) : Sparse Half :=
  let g := d.gang
  if g.alone then spSet 0 [] g.id.toNat (sat16 (shelfShare d))
  else if g.awaiting ≠ [] then g.shares
  else
    let ms := gangReports d
    cutBack d.gl.shelf.toNat g.shares
      ((ms.map (·.id.toNat)).zip (targetShares d.gl.shelf.toNat (decide (g.mode = 1)) ms))

/-- The gang level: the highest wanted one, clamped to the lowest cap (R333). -/
def gangLevelOf (ms : List GmemMsg) : Level :=
  let want := ms.foldl (fun (a : Level) m => if a < m.want then m.want else a) 0
  ms.foldl (fun a m => if m.cap < a then m.cap else a) want

/-- The members' bits: the leader, those heard, and those still awaited. -/
def gangBitmap (g : Gang) : List (BitVec 4) := g.id :: (g.members.map (·.last.id) ++ g.awaiting)

/-- IDs as a bitmap. -/
def bitmapOf (l : List (BitVec 4)) : Half := l.foldl (fun b i => b ||| BitVec.ofNat 16 (2 ^ i.toNat)) 0

/-- Every FEED port raises its target to the gang level in GANG-LEVEL (R333). -/
def followLevel (d : Dev) : Dev :=
  if gangMember d ∧ d.gang.modeIn = 1 then
    d.bothPorts fun p d => d.modPort p fun q =>
      if q.isHead then beginStep d.us (raiseTgt (clampTop q d.gang.level) d.us q) else q
  else d

/-! ## Frames of the leader (R317, R321, R325) -/

/-- The frame before is over: a member without a GMEM in three frames goes, and with none at all the leader is alone. -/
def closeFrame (g : Gang) : Gang :=
  let ms := (g.members.filter fun m => decide (m.missed < 3)).map fun m => { m with missed := m.missed + 1 }
  let alone := decide (3 ≤ g.noGmem)
  let aw := if 3 ≤ g.electFrames then [] else g.awaiting
  { g with members := if alone then [] else ms, noGmem := g.noGmem + 1, alone := alone
           awaiting := aw, electFrames := g.electFrames + 1
           share := if alone ∧ g.heardOther = false then none else g.share
           count := if alone then 0 else BitVec.ofNat 4 (gangBitmap { g with members := ms, awaiting := aw }).eraseDups.length - 1 }

/-- The GLEAD of a frame. -/
def gleadOf (d : Dev) (shares : Sparse Half) : GleadMsg :=
  let ms := gangReports d
  { leader := d.gang.id, mode := d.gang.mode, frame := d.gang.frame, level := gangLevelOf ms, allIdle := ms.all (·.idle)
    budget := d.gl.shelf, bitmap := bitmapOf (gangBitmap d.gang), shares := (List.range 16).map fun i => spGet 0 shares i }

/-- A frame of the leader: GSYNC, the shares, GLEAD (R317, R328). -/
def leadFrame (d : Dev) : Dev :=
  let d1 := { d with gang := { closeFrame d.gang with edgeAt := d.us, frame := d.gang.frame + 1, leaderId := d.gang.id, modeIn := d.gang.mode } }
  let shares := frameShares d1
  let m := gleadOf d1 shares
  let own := ownGmem d1
  let v := spGet 0 shares d1.gang.id.toNat
  let d2 := { d1 with gang := { driveGdat 100 0x01 (gleadPayload m) d1.gang with
    shares := shares, level := m.level, allIdle := m.allIdle, txLead := m :: d1.gang.txLead
    shareNext := if d1.gang.alone then none else some v
    shedShare := !d1.gang.alone && decide (v.toNat < own.fixedRes.toNat + own.admitted.toNat) } }
  gangTell (storeShare (followLevel d2))

/-- GANG_FRAME (R317): every 40 ms, 0.5 % early at most. -/
def execGangFrame (s : State) : Answer :=
  onDev (fun d => guardDev (gangDrives d && decide (d.gang.phase = .leader) && decide (d.gang.edgeAt + 39800 ≤ d.us)) leadFrame d) s

/-- GSYNC_EDGE (R322, R323): a frame starts from an edge that the device did not drive. -/
def execGsyncEdge (s : State) : Answer :=
  onDev (fun d =>
    guardDev d.up (fun d =>
      let g := d.gang
      { d with gang := { g with
          edgeAt := d.us, slotDue := false, foreign := decide (g.phase = .leader)
          phase := match g.phase with
            | .listening t n => .listening t (if g.slotDue then n else 0)
            | ph => ph } }) d) s

/-- What a GLEAD tells every device that decodes it. -/
def noteGlead (m : GleadMsg) (g : Gang) : Gang :=
  let ids := ((List.range 16).filter fun i => m.bitmap.getLsbD i).map fun i => (BitVec.ofNat 4 i)
  { g with
    leaderId := m.leader, frame := m.frame, s := m.budget, heardOther := true, slotDue := true, foreign := false
    shares := (m.shares.zipIdx.foldl (fun t (v, i) => spSet 0 t i v) []), awaiting := ids.filter (· != g.id) }

/-- A member takes GLEAD: mode, level, ALLIDLE, COUNT, and its share if it is one of the bitmap (R326, R330, R333). -/
def takeGlead (m : GleadMsg) (d : Dev) : Dev :=
  let own := ownGmem d
  let v := m.shares.getD d.gang.id.toNat 0
  let inMap := m.bitmap.getLsbD d.gang.id.toNat
  let n := ((List.range 16).filter fun i => m.bitmap.getLsbD i).length
  let d1 := { d with
    fwu := { d.fwu with gleadSeen := true }
    gang := { noteGlead m d.gang with
      modeIn := m.mode, level := m.level, allIdle := m.allIdle, alone := false, leader := false, count := BitVec.ofNat 4 (n - 1)
      shareNext := if inMap then some v else d.gang.shareNext
      shedShare := if inMap then decide (v.toNat < own.fixedRes.toNat + own.admitted.toNat) else d.gang.shedShare } }
  gangTell (storeShare (followLevel d1))

/-- A frame on the gang bus raises interrupt source 6 of a device that listens to it (Table 19-3). -/
def hearGang (d : Dev) : Dev := if d.gang.phase = .silent then d else raise 6 d

/-- GLEAD (R320, R323, R330). -/
def execGlead (m : GleadMsg) (s : State) : Answer :=
  onDev (fun d =>
    guardDev d.up (fun d0 =>
      let d := hearGang d0
      match d.gang.phase with
      | .silent => d
      | .backedOff _ => d
      | .listening t n => { d with gang := { noteGlead m d.gang with phase := .listening t (n + 1) } }
      | .member => takeGlead m d
      | .leader =>
        if d.gang.foreign ∧ m.leader < d.gang.id then takeGlead m { d with gang := { d.gang with phase := .member, members := [] } }
        else d) d) s

/-- GMEM (R321): the leader takes a member's report. -/
def execGmem (m : GmemMsg) (s : State) : Answer :=
  onDev (fun d =>
    guardDev d.up (fun d => guardDev (decide (d.gang.phase = .leader) && decide (m.id ≠ d.gang.id)) (fun d =>
      let g := d.gang
      { d with gang := { g with
          members := g.members.filter (fun x => x.last.id != m.id) ++ [⟨m, 0⟩], noGmem := 0, heardOther := true
          alone := false, awaiting := g.awaiting.filter (· != m.id) } }) (hearGang d)) d) s

/-- MEMBER_SLOT (R317, R327): after the frame's GLEAD; the readback is counted (R324). -/
def execMemberSlot (readbackOk : Bool) (s : State) : Answer :=
  onDev (fun d =>
    guardDev (gangDrives d && decide (d.gang.phase = .member) && d.gang.slotDue
        && decide (d.gang.edgeAt + 3500 + 2000 * d.gang.id.toNat ≤ d.us)) (fun d =>
      { d with gang := { driveGdat (3500 + 2000 * d.gang.id.toNat) 0x02 (gmemPayload (ownGmem d)) d.gang with
                                     slotDue := false, txMem := ownGmem d :: d.gang.txMem
                                     badReads := if readbackOk then 0 else d.gang.badReads + 1 } }) d) s

/-! ## Joining, election, withdrawal (R320, R322, R324, R325) -/

/-- GSYNC has been idle for 120 ms, low bound 115. -/
def gsyncIdle (d : Dev) (since more : Nat) : Bool := decide (Nat.max since d.gang.edgeAt + 115000 + more ≤ d.us)

/-- GANG_JOIN (R320): two GLEADs in a row, or silence, which counts from here for an election too (R322). -/
def execGangJoin (s : State) : Answer :=
  onDev (fun d =>
    match d.gang.phase with
    | .listening t n =>
      guardDev (gangDrives d && (decide (2 ≤ n) || gsyncIdle d t 0)) (fun d =>
        gangTell { d with gang := { d.gang with phase := .member, alone := false, leader := false, badReads := 0
                                                kept := false, edgeAt := Nat.max t d.gang.edgeAt, modeIn := d.gang.mode } }) d
    | _ => d) s

/-- GANG_ELECTION (R322): silence, then 2 ms × GANG.ID; the first frame follows at once. -/
def execGangElection (s : State) : Answer :=
  onDev (fun d =>
    guardDev (gangDrives d && decide (d.gang.phase = .member) && gsyncIdle d 0 (2000 * d.gang.id.toNat)) (fun d =>
      leadFrame { d with gang := { d.gang with phase := .leader, leader := true, members := [], noGmem := 0, electFrames := 0
                                               foreign := false, alone := false } }) d) s

/-- GANG_READBACK_FAULT (R324): it stops driving and acts as alone (R325); again after 10 s, low bound 9.9. -/
def execGangReadbackFault (s : State) : Answer :=
  onDev (fun d =>
    guardDev (decide (3 ≤ d.gang.badReads) && decide (d.gang.phase = .member)) (fun d =>
      gangTell { d with gang := { d.gang with phase := .backedOff (d.us + 9900000), alone := true, leader := true, count := 0
                                              share := if d.gang.heardOther then d.gang.share else none
                                              shareNext := none, badReads := 0, slotDue := false, members := [] } }) d) s

/-- GANG_RETRY (R324). -/
def execGangRetry (s : State) : Answer :=
  onDev (fun d =>
    match d.gang.phase with
    | .backedOff t => guardDev (gangDrives d && decide (t ≤ d.us)) (fun d => { d with gang := { d.gang with phase := .listening d.us 0 } }) d
    | _ => d) s

/-- A host write of SHELF.BUDGET (R26, R325): a device that leads alone takes it as its share. -/
def writeShelf (v : Half) (d : Dev) : Dev :=
  relieve { d with gl := { d.gl with shelf := v }
                   gang := if d.gang.alone then { d.gang with share := none } else d.gang }

/-- A host write of GANG: MODE 3 is ignored (Table 04-3, R320). -/
def writeGang (v : Half) (d : Dev) : Dev :=
  let m : BitVec 2 := v.setWidth 2
  let g := { d.gang with id := (v >>> 2).setWidth 4, mode := if m = 3 then d.gang.mode else m }
  relieve (gangTell { d with gang := if d.gang.parked then { g with phase := .silent } else gangModeAct d.us d.gang g })

end Sys2Proof.Machine
end

