-- ==== Sys2Proof/Machine/Cmp.lean ====
section
/-! DEFINITION. The comparator bank (chapter 17): the configuration and level writes, the tick with its decisions, the
capture FIFO, and the power-fail trigger's firing. -/

namespace Sys2Proof.Machine

open Sys2Proof

/-! ## Fields of CMP_CFG (Table 04-3) -/

/-- CMP_CFG.INPUT. -/
def ChanCfg.input (c : ChanCfg) : Nat := fld c.cfg.toNat 0 4
/-- CMP_CFG.REF: the DAC. -/
def ChanCfg.dac (c : ChanCfg) : Bool := c.cfg.getLsbD 4
/-- CMP_CFG.WIN. -/
def ChanCfg.win (c : ChanCfg) : Bool := c.cfg.getLsbD 5
/-- CMP_CFG.POL. -/
def ChanCfg.pol (c : ChanCfg) : Bool := c.cfg.getLsbD 6
/-- CMP_CFG.EDGE. -/
def ChanCfg.edge (c : ChanCfg) : Nat := fld c.cfg.toNat 7 2
/-- CMP_CFG.IRQ. -/
def ChanCfg.irq (c : ChanCfg) : Bool := c.cfg.getLsbD 9
/-- CMP_CFG.WAKE. -/
def ChanCfg.wake (c : ChanCfg) : Bool := c.cfg.getLsbD 10
/-- CMP_CFG.CAP. -/
def ChanCfg.cap (c : ChanCfg) : Bool := c.cfg.getLsbD 11
/-- CMP_CFG.EN. -/
def ChanCfg.en (c : ChanCfg) : Bool := c.cfg.getLsbD 12
/-- CMP_CFG.RANGE. -/
def ChanCfg.range (c : ChanCfg) : Nat := fld c.cfg.toNat 13 2

/-- The fields whose change is a range change: INPUT, RANGE, REF, WIN and POL (R385). -/
def ChanCfg.rangeBits (c : ChanCfg) : BitVec 15 := c.cfg &&& 0x607F

/-! ## Writes (R384, R387, R388) -/

/-- A channel with a write of its registers under way. -/
def chanWrite (now : Nat) (f : ChanCfg → ChanCfg) (c : Chan) : Chan :=
  { c with reg := f c.reg, writes := c.writes ++ [(now, f c.reg)] }

/-- A change of one channel. -/
def modChan (n : Nat) (f : Chan → Chan) (d : Dev) : Dev :=
  { d with cmp := { d.cmp with chans := spSet {} d.cmp.chans n (f (chanOf d n)) } }

/-- A write of CMP_CFG to the channel that CMP_SEL names; EN 0 is ignored on the trigger channel (R388). -/
def writeCmpCfg (v : Half) (d : Dev) : Dev :=
  let n := d.cmp.ch.toNat
  let keepEn := d.keep.pfen && decide (d.keep.pfch = d.cmp.ch) && !v.getLsbD 12
  modChan n (chanWrite d.us fun c =>
    { c with cfg := if keepEn then v.setWidth 15 ||| (c.cfg &&& 0x1000) else v.setWidth 15 }) d

/-- A write of CMP_LVL to the level that CMP_SEL names (R376). -/
def writeCmpLvl (v : Half) (d : Dev) : Dev :=
  modChan d.cmp.ch.toNat (chanWrite d.us fun c =>
    if d.cmp.lsel then { c with hi := v.setWidth 10 } else { c with lo := v.setWidth 10 }) d

/-- CMP_CFG_WRITE (R384, R385). -/
def execCmpCfgWrite (v : Half) (s : State) : Answer := onDev (byHost 24 (writeCmpCfg v)) s

/-- CMP_LVL_WRITE (R384). -/
def execCmpLvlWrite (v : Half) (s : State) : Answer := onDev (byHost 25 (writeCmpLvl v)) s

/-- A write of TICK (R378, R388): while a trigger is assigned, a 0 to RUN is ignored. -/
def writeTick (v : Half) (d : Dev) : Dev :=
  let run := v.getLsbD 15 || (d.cmp.run && d.keep.pfen)
  tickFrom d { d with cmp := { d.cmp with per := v.setWidth 12, run := run } }

/-! ## What a channel decides (R375 to R377) -/

/-- The full scale of a range, in µV (R375). -/
def fullScale (c : ChanCfg) : Nat := 1200000 * 4 ^ c.range

/-- The sample, in µV, is at or above a level (R376). -/
def atLevel (c : ChanCfg) (v : Nat) (lvl : BitVec 10) : Bool :=
  if c.dac then decide (lvl.toNat * fullScale c ≤ v * 1024)
  else decide (lvl.toNat % 64 * fullScale c ≤ v * 64)

/-- The output that a sample gives: the raw output of the mode, inverted by POL (R377). -/
def sampleOut (c : ChanCfg) (v : Nat) : Bool :=
  let raw := atLevel c v c.lo && (!c.win || !atLevel c v c.hi)
  raw != c.pol

/-! ## Configuration changes (R384 to R386) -/

/-- One write reaches the channel; the flag says that a RANGECHG is due. -/
def reachChan (n : ChanCfg) (x : Chan × Bool) : Chan × Bool :=
  let (c, mark) := x
  let o := c.eff
  let c1 := { c with eff := n }
  if !n.en then ({ c1 with out := false, settle := none }, false)
  else if !o.en then ({ c1 with settle := some none }, false)
  else if n.rangeBits ≠ o.rangeBits then ({ c1 with settle := some none }, true)
  else if n.lo ≠ o.lo ∨ n.hi ≠ o.hi then ({ c1 with settle := c.settle.map fun _ => none }, mark)
  else (c1, mark)

/-- The writes that a tick at `now` is the first to follow by at least 1 µs reach the channel, in order. -/
def reachAll (now : Nat) : List (Nat × ChanCfg) → Chan × Bool → Chan × Bool
  | [], x => ({ x.1 with writes := [] }, x.2)
  | (t, n) :: w, x =>
    if t + 1 ≤ now then reachAll now w (reachChan n x) else ({ x.1 with writes := (t, n) :: w }, x.2)

/-! ## Where an output goes (R381 to R383, R389) -/

/-- An entry for the capture FIFO; a full one drops it (R381). -/
def capture (ch kind : Nat) (d : Dev) : Dev :=
  let b := d.cmp
  if 32 ≤ b.fifo.length then { d with cmp := { b with dropped := true } }
  else { d with cmp := { b with
    fifo := b.fifo ++ [⟨BitVec.ofNat 4 ch, BitVec.ofNat 2 kind, b.dropped, d.timebase⟩], dropped := false } }

/-- WAKE sets the core's EVR.WAKE, which is also interrupt source 3 while it stands (R383, R427). -/
def wakeCore (c : ChanCfg) (d : Dev) : Dev :=
  if c.wake then { d with core := { d.core with evr := d.core.evr ||| 0x10 } } else d

/-- A marker for a range change that a tick is the first to follow (R385 step 2). -/
def rangeMark (ch : Nat) (c : ChanCfg) (d : Dev) : Dev :=
  let d1 := if c.cap then capture ch 3 d else d
  if c.irq then postGlobal 0x08 3 (h16 ch) false d1 else d1

/-- A CMP edge event: at most one per channel and millisecond (R382). -/
def postEdge (ch kind : Nat) (d : Dev) : Dev :=
  let ms := d.us / 1000
  if (chanOf d ch).evMs = some ms then d
  else modChan ch (fun c => { c with evMs := some ms }) (postGlobal 0x08 kind (h16 ch) false d)

/-- A selected edge: capture, interrupt and wake (R381 to R383). -/
def onEdge (ch kind : Nat) (c : ChanCfg) (d : Dev) : Dev :=
  let d1 := if c.cap then capture ch kind d else d
  let d2 := if c.irq then postEdge ch kind (setG gCmp d1) else d1
  wakeCore c d2

/-- What follows a decision: a selected edge, or with EDGE 0 each output of 1 (R381, R382). -/
def afterDecision (ch : Nat) (c : ChanCfg) (was is : Bool) (d : Dev) : Dev :=
  let kind := if is then 1 else 2
  if c.edge = 0 then
    if is then wakeCore c (if c.irq then setG gCmp d else d) else d
  else if was ≠ is ∧ (c.edge >>> (kind - 1)) % 2 = 1 then onEdge ch kind c d
  else d

/-- The trigger channel's decision: it fires while armed, and an output of 1 puts re-arming off (R389). -/
def watchTrigger (ch : Nat) (was is : Bool) (d : Dev) : Dev :=
  if d.keep.pfen && decide (d.keep.pfch.toNat = ch) then
    let fires := d.cmp.armed && !was && is
    { d with cmp := { d.cmp with fired := d.cmp.fired || fires, armed := d.cmp.armed && !fires
                                 zeroAt := if is then d.us else d.cmp.zeroAt } }
  else d

/-- The output and the settling after a sample: two agreeing samples end a settling (R385 step 3). -/
def settleSample (c : Chan) (s : Bool) : Chan :=
  match c.settle with
  | none => { c with out := s }
  | some (some l) => if l = s then { c with out := s, settle := none } else { c with settle := some (some s) }
  | some none => { c with settle := some (some s) }

/-- One channel at a tick: the writes that reach it, the sample, the decision, and what follows. -/
def tickChan (inputs : List Nat) (ch : Nat) (d : Dev) : Dev :=
  let c0 := chanOf d ch
  let (c1, mark) := reachAll d.us c0.writes (c0, false)
  if c1.eff.en then
    let d1 := if mark then rangeMark ch c1.eff d else d
    let c2 := settleSample c1 (sampleOut c1.eff (inputs.getD c1.eff.input 0))
    let d2 := modChan ch (fun _ => { c2 with evMs := (chanOf d1 ch).evMs }) d1
    watchTrigger ch c1.out c2.out (afterDecision ch c1.eff c1.out c2.out d2)
  else watchTrigger ch false false (modChan ch (fun _ => c1) d)

/-- One tick: the sixteen channels in ascending order, and the next tick's time (R378). -/
def tickBank (inputs : List Nat) (d : Dev) : Dev :=
  let d1 := { d with cmp := { d.cmp with tickAt := d.us + tickPeriod d } }
  foldDev (tickChan inputs) (List.range 16) d1

/-- CMP_TICK (R378): the voltages of the sixteen inputs in µV, by CMP_CFG.INPUT. -/
def execCmpTick (inputs : List Nat) (s : State) : Answer :=
  onDev (fun d => guardDev (d.up && ticking d && decide (d.cmp.tickAt ≤ d.us)) (tickBank inputs) d) s

/-! ## The capture FIFO (R381, Table 19-1) -/

/-- The kind word of an entry. -/
def captureWord (e : Capture) : Word :=
  BitVec.ofNat 32 (pack [(0, e.ch.toNat), (4, e.kind.toNat), (15, b2n e.dropped)])

/-- A core read of word 0: the oldest entry leaves and its time is latched; of an empty FIFO no rule states the word. -/
def captureRead (d : Dev) : Word × Dev :=
  match d.cmp.fifo with
  | e :: t => (captureWord e, { d with cmp := { d.cmp with fifo := t, capTime := e.time } })
  | [] => let (v, d1) := takeFree d; (v.setWidth 32, d1)

/-- CAPTURE_FIFO_READ (R381): the row is the core's read of word 0; the loads of the core make the same read. -/
def execCaptureFifoRead (s : State) : Answer :=
  onDev (fun d => guardDev d.core.run (fun d => (captureRead d).2) d) s

/-- CMP_STAT: the outputs at the last decision, channel c in bit c (R380). -/
def cmpStat (d : Dev) : Half := h16 (pack ((List.range 16).map fun c => (c, b2n (chanOf d c).out)))

end Sys2Proof.Machine
end

