-- ==== Sys2Proof/Machine/Thermal.lean ====
section
/-! DEFINITION. Heat (R304 to R308): the throttle limits of die and NTC points, the bundle model, and what it throttles. -/

namespace Sys2Proof.Machine

open Sys2Proof

/-! ## Points (Table 13-3) -/

/-- A temperature in 0.25 °C, signed (R8). -/
def tempOf (h : Half) : Int := h.toInt

/-- THERMAL w1 of the die (Table 13-3). -/
def dieLimit : Half := 0x01F4

/-- An NTC reading as its point reports it: above 1.180 V open, below 10 mV shorted (R47). -/
def readNtc (r : NtcReading) (n : NtcPoint) : NtcPoint :=
  let o := decide (1180 < r.mv)
  let s := decide (r.mv < 10)
  { n with opn := o, shorted := s, temp := if o || s then 0x8000 else r.temp }

/-- A point as its throttle limit sees it: enabled, its temperature in 0.25 °C, and its limit; an open or shorted point
reads as at its limit (R47). -/
def pointSeen (d : Dev) (i : Nat) : Bool × Int × Int :=
  if i = 0 then (true, tempOf d.gl.tdie, tempOf dieLimit)
  else
    let n := ntcPoint d i
    (n.en, if n.opn || n.shorted then tempOf n.limit else tempOf n.temp, tempOf n.limit)

/-- The points of a port (Table 13-3). -/
def pointsOf (p : PortId) : List Nat := if p = .p0 then [0, 1, 2] else [0, 3, 4]

/-- A share of the port cap in hundredths, in 0.1 W rounded down (R306, R308). -/
def capShare (q : Port) (percent : Nat) : Nat := portCap q * percent / 100

/-- One point's throttle limit, once per second (R306). -/
def pointStep (d : Dev) (p : PortId) (i : Nat) (q : Port) : Port :=
  let (en, t, lim) := pointSeen d i
  let put := fun v => { q with thermal := spPut q.thermal i v }
  let drop := { q with thermal := spErase q.thermal i }
  if !en then drop
  else match spFind q.thermal i with
    | none => if lim ≤ t then put (admitSum (d.port p)) else q
    | some v =>
      if lim < t then put (v - capShare q 5)
      else if lim - 20 < t then q
      else if portCap q < v + capShare q 5 then drop
      else put (v + capShare q 5)

/-- A point at its limit begins its cause, with its limit for the port at ADMIT (R306). -/
def pointBegin (d : Dev) (q : Port) (i : Nat) : Port :=
  let (en, t, lim) := pointSeen d i
  if en ∧ lim ≤ t ∧ spFind q.thermal i = none then { q with thermal := spPut q.thermal i (admitSum q) } else q

/-- The points that reached their limits while the allocator did not run begin their causes as it resumes (R306). -/
def pointBegins (d : Dev) : Dev :=
  d.bothPorts fun p d => d.modPort p fun q => (pointsOf p).foldl (pointBegin d) q

/-- Every point of a port. -/
def pointSteps (d : Dev) (p : PortId) (q : Port) : Port := (pointsOf p).foldl (fun q i => pointStep d p i q) q

/-- The readings of the four NTC points. -/
def readPoints (a0 b0 a1 b1 : NtcReading) (d : Dev) : Dev :=
  { d with tb := { d.tb with ntcA0 := readNtc a0 d.tb.ntcA0, ntcB0 := readNtc b0 d.tb.ntcB0
                             ntcA1 := readNtc a1 d.tb.ntcA1, ntcB1 := readNtc b1 d.tb.ntcB1 } }

/-- The throttle limits of both ports move once (R306). -/
def throttleStep (d : Dev) : Dev :=
  relieve { d with p0 := pointSteps d .p0 d.p0, p1 := pointSteps d .p1 d.p1, tb := { d.tb with thermalAt := d.us } }

/-- THERMAL_THROTTLE_UPDATE (R47, R306): the readings; the limits move once per second, low bound 0.99, and only while the
firmware runs. -/
def execThermalThrottleUpdate (a0 b0 a1 b1 : NtcReading) (s : State) : Answer :=
  onDev (fun d =>
    guardDev d.up (fun d =>
      guardDev (allocRuns d && decide (d.tb.thermalAt + 990000 ≤ d.us)) throttleStep (readPoints a0 b0 a1 b1 d)) d) s

/-! ## The bundle model (R307) -/

/-- 45.0 °C in 0.25 °C. -/
def ambDefault : Int := 180

/-- The ambient temperature of a group in 0.25 °C: that of its THERMAL point, or 45.0 °C where the point is disabled, open or
shorted, or an endpoint report older than 10 min (R307). -/
def ambient (d : Dev) (w5 : Nat) : Int :=
  if w5 = 0 then tempOf d.gl.tdie
  else if 1 ≤ w5 ∧ w5 ≤ 4 then
    let n := ntcPoint d w5
    if n.en && !n.opn && !n.shorted then tempOf n.temp else ambDefault
  else if 8 ≤ w5 ∧ w5 ≤ 15 then
    let b := bundleOf d (w5 - 8)
    if b.en then tempOf b.temp else ambDefault
  else if 16 ≤ w5 ∧ w5 ≤ 31 then
    match d.tb.hot[w5 - 16]? with
    | some h => if d.us ≤ h.at_ + 600000000 then tempOf h.temp else ambDefault
    | none => ambDefault
  else ambDefault

/-- A temperature in 0.25 °C as the model's µ°C. -/
def microDeg (t : Int) : Int := t * 250000

/-- The model's µ°C as a temperature in 0.25 °C, rounded down. -/
def quarterDeg (t : Int) : Half := BitVec.ofInt 16 (t / 250000)

/-- A group starts at its ambient temperature (R307). -/
def bundleBegin (d : Dev) (b : BundleRec) : BundleRec :=
  let t := microDeg (ambient d b.amb.toNat)
  { b with tb := t, temp := quarterDeg t, begun := true }

/-- The mean ISEG of a port over the last second, mA. -/
def meanIseg (q : Port) : Int := if q.met.secN = 0 then 0 else q.met.secI / (q.met.secN : Int)

/-- The mean power of a port over the last second, 0.1 W. -/
def meanPower (q : Port) : Nat := if q.met.secN = 0 then 0 else q.met.secP / q.met.secN / 100000

/-- A member port of a group counts while it is in FEED (R307; chapter 13, Edges). -/
def bundleMember (member : Bool) (q : Port) : Bool := member && decide (q.role = .feed)

/-- The heat of a group's member ports, in pW/m: mA² times µΩ/m (R307). -/
def bundleHeat (d : Dev) (b : BundleRec) : Nat :=
  let h := fun (q : Port) => (meanIseg q * meanIseg q).toNat * q.cfg.rm.toNat
  (if bundleMember b.m0 d.p0 then h d.p0 else 0) + (if bundleMember b.m1 d.p1 then h d.p1 else 0)

/-- The steady state of a group in µ°C: theta is 0.6 times the heated conductors (R307). -/
def bundleSteady (d : Dev) (b : BundleRec) : Int :=
  microDeg (ambient d b.amb.toNat) + ((6 * b.wires.toNat * bundleHeat d b / 10000000 : Nat) : Int)

/-- The step of a group's temperature towards its steady state (R307). -/
def bundleMove (tss : Int) (b : BundleRec) : Int :=
  b.tb + (tss - b.tb) * (4294967296 - (Config.expNegInv b.tau.toNat : Int)) / 4294967296

/-! ## Bundle throttling (R308) -/

/-- The integer square root, from a power of two down. -/
def isqrtFrom (n : Nat) : Nat → Nat → Nat
  | 0, r => r
  | k + 1, r => let t := r + 2 ^ k; isqrtFrom n k (if t * t ≤ n then t else r)

/-- The integer square root of a number below 2^128. -/
def isqrt (n : Nat) : Nat := isqrtFrom n 64 0

/-- The limit f × P that a group asks of a member port, in 0.1 W: f is 0 where q_a is not above 0; where theta or q is 0 the
spec states no quotient, so the value is free (R308; assumption 5). -/
def bundleAsk (b : BundleRec) (tamb : Int) (heat power : Nat) (d : Dev) : Nat × Dev :=
  let above := microDeg (tempOf b.limit) - 2000000 - tamb
  if b.wires = 0 then let (v, d1) := takeFree d; (v.toNat, d1)
  else if above ≤ 0 then (0, d)
  else if heat = 0 then let (v, d1) := takeFree d; (v.toNat, d1)
  else (isqrt (above.toNat * 10000000 * power * power / (6 * b.wires.toNat * heat)), d)

/-- A throttling group's limit on one member port: it rises by at most 2 % of the port cap per second (R308). -/
def bundleLimit (g : Nat) (b : BundleRec) (tamb : Int) (heat : Nat) (member : Bool) (p : PortId) (d : Dev) : Dev :=
  if bundleMember member (d.port p) then
    let (ask, d1) := bundleAsk b tamb heat (meanPower (d.port p)) d
    d1.modPort p fun q =>
      let v := match spFind q.bundle g with
        | some old => Nat.min ask (old + capShare q 2)
        | none => ask
      { q with bundle := spPut q.bundle g v }
  else d.modPort p fun q => { q with bundle := spErase q.bundle g }

/-- A group's limit on a port, where it is a member, exceeds the port cap. -/
def bundleClears (g : Nat) (member : Bool) (q : Port) : Bool :=
  !bundleMember member q || (match spFind q.bundle g with | some v => decide (portCap q < v) | none => true)

/-- The limits of a group leave both ports. -/
def bundleDrop (g : Nat) (d : Dev) : Dev :=
  d.bothPorts fun p d => d.modPort p fun q => { q with bundle := spErase q.bundle g }

/-- Writes a bundle group. -/
def setBundle (g : Nat) (b : BundleRec) (d : Dev) : Dev :=
  { d with tb := { d.tb with bundles := spSet {} d.tb.bundles g b } }

/-- One enabled group, once (R307, R308). -/
def bundleStep (g : Nat) (d : Dev) : Dev :=
  let b0 := bundleOf d g
  if !b0.en then bundleDrop g (if b0.throttling then setBundle g { b0 with throttling := false } d else d)
  else
    let b1 := if b0.begun then b0 else bundleBegin d b0
    let tamb := microDeg (ambient d b1.amb.toNat)
    let tss := bundleSteady d b1
    let tb := bundleMove tss b1
    let b := { b1 with tb := tb, temp := quarterDeg tb }
    let lb := microDeg (tempOf b.limit)
    let begins := decide (lb ≤ tb) || (decide (lb - 5000000 ≤ tb) && decide (lb - 2000000 < tss))
    if b0.throttling || begins then
      let heat := bundleHeat d b
      let d1 := bundleLimit g b tamb heat b.m1 .p1 (bundleLimit g b tamb heat b.m0 .p0 d)
      if b0.throttling && bundleClears g b.m0 d1.p0 && bundleClears g b.m1 d1.p1 && decide (tb ≤ lb - 5000000) then
        bundleDrop g (setBundle g { b with throttling := false } d1)
      else setBundle g { b with throttling := true } d1
    else setBundle g b d

/-- A port's sums over the last second start again. -/
def secondDone (q : Port) : Port := { q with met := { q.met with secI := 0, secP := 0, secN := 0 } }

/-- Every group, in order; then what the limits shed (R281). -/
def bundleModel (d : Dev) : Dev :=
  let d1 := foldDev bundleStep (List.range 8) d
  relieve { (d1.modPort .p0 secondDone).modPort .p1 secondDone with tb := { d1.tb with bundleAt := d.us } }

/-- BUNDLE_MODEL (R307): once per second, low bound 0.99, while the firmware runs. -/
def execBundleModel (s : State) : Answer :=
  onDev (fun d => guardDev (allocRuns d && decide (d.tb.bundleAt + 990000 ≤ d.us)) bundleModel d) s

/-- THERM.BUND: a group throttles either port (Table 04-3, R308). -/
def bundleThrottles (d : Dev) : Bool := d.tb.bundles.any fun (_, b) => b.throttling

end Sys2Proof.Machine
end

