-- ==== Sys2Proof/Machine/Tables.lean ====
section
/-! DEFINITION. The tables of Tables 05-2 and 05-3 as words, the table window (R100 to R106), and the commits that the host
makes through it (R105, R107, Table 05-1). -/

namespace Sys2Proof.Machine

open Sys2Proof

/-! ## Records (Table 05-3) -/

/-- A number as `n` words, low word first (R108). -/
def words (v : Nat) : Nat → List Half
  | 0 => []
  | n + 1 => h16 v :: words (v / 65536) n

/-- A ROSTER record; the EUI-48 has its high word first. -/
def rosterWords (r : RosterRec) : List Half :=
  (words r.eui.toNat 3).reverse
  ++ [h16 (pack [(0, r.state.toNat), (3, r.cls.toNat), (5, r.tenant.toNat), (11, b2n r.dupseen), (12, b2n r.calok)]),
      r.stored, r.ceil, r.lowV, r.loopR, r.temp]
  ++ words r.enrolMs.toNat 2 ++ List.replicate 5 0

/-- CONTRACT w0 [1:0]: a contract's state, else 3 while a request is pending. -/
def contractState (q : Port) (i : Nat) : Nat :=
  let c := contractOf q i
  if c.held then c.state.toNat else if (pendOf q (BitVec.ofNat 10 i)).isSome then 3 else 0

/-- A CONTRACT record. -/
def contractWords (q : Port) (i : Nat) : List Half :=
  let c := contractOf q i
  let r := pendOf q (BitVec.ofNat 10 i)
  [h16 (pack [(0, contractState q i), (2, c.level.toNat)]), c.power, c.cur] ++ words c.admitAt.toNat 2
  ++ [(r.map (·.qpos)).getD 0, (r.map (·.retryMs)).getD 0, c.admissions]

/-- A TENANT record. -/
def tenantWords (d : Dev) (t : Nat) : List Half :=
  let r := tenantOf d t
  let n := BitVec.ofNat 6 t
  [r.cap, h16 (pack [(0, r.prio.toNat), (15, b2n r.wrap)]), sat16 (tenantTotal d.p0 n), sat16 (tenantTotal d.p1 n)
  , h16 (tenantEnrolled d n)] ++ words r.mj.toNat 3

/-- An EMETER record. -/
def emeterWords (q : Port) (i : Nat) : List Half :=
  let r := emeterOf q i
  words r.mj.toNat 3 ++ [h16 (pack [(0, b2n r.wrap), (1, b2n r.nocal)])]

/-- A THROTLOG record of a counted flag. -/
def occWords (o : Occ) (active : Bool) : List Half :=
  words o.total.toNat 2 ++ [0, h16 (pack [(0, o.occ.toNat), (4, b2n active), (15, b2n o.sat)])]

/-- A THROTLOG record. -/
def throtWords (d : Dev) (p : PortId) (i : Nat) : List Half :=
  let q := d.port p
  if i ≤ 10 then
    let r := spGet {} q.throtLog i
    words r.ms.toNat 2 ++ [r.onsets, h16 (pack [(4, b2n (q.throt.getLsbD i)), (15, b2n r.sat)])]
  else if i = 16 then occWords q.occTrip (q.pevt.getLsbD eTrip)
  else if i = 17 then occWords q.occDroop (q.pevt.getLsbD eDroop)
  else if i = 18 then occWords q.occAbsent (q.pevt.getLsbD eAbsent)
  else if i = 19 then occWords q.occDup (q.pevt.getLsbD eDup)
  else if i = 20 then occWords q.occLine (q.pevt.getLsbD eLine)
  else if i = 21 then occWords d.gl.ovfOcc (d.gl.gstat.getLsbD gOvf)
  else [0, 0, 0, 0]

/-- THERMAL w3. -/
def thermFlags (en opn shorted throttling : Bool) (port : Nat) : Half :=
  h16 (pack [(0, b2n en), (1, b2n opn), (2, b2n shorted), (3, b2n throttling), (4, port)])

/-- A point throttles a port. -/
def pointThrottles (q : Port) (i : Nat) : Bool := (spFind q.thermal i).isSome

/-- The ports of a bundle group: 0, 1, or 2 for both. -/
def bundlePorts (b : BundleRec) : Nat := if b.m0 && b.m1 then 2 else if b.m1 then 1 else 0

/-- A THERMAL record. -/
def thermalWords (d : Dev) (i : Nat) : List Half :=
  if i = 0 then [d.gl.tdie, dieLimit, 0, thermFlags true false false (pointThrottles d.p0 0 || pointThrottles d.p1 0) 2]
  else if i ≤ 4 then
    let n := ntcPoint d i
    let p := if i ≤ 2 then 0 else 1
    [n.temp, n.limit, 0, thermFlags n.en n.opn n.shorted (pointThrottles (if p = 0 then d.p0 else d.p1) i) p]
  else if i < 8 then [0, 0, 0, 0]
  else if i < 16 then
    let b := bundleOf d (i - 8)
    [b.temp, b.limit, 0, thermFlags b.en false false b.throttling (bundlePorts b)]
  else
    let lim := thermLimit d i
    match d.tb.hot[i - 16]? with
    | some h => [h.temp, lim, h.handle.setWidth 16,
        thermFlags true false false (decide (tempOf lim ≤ tempOf h.temp)) (h.handle.toNat / 1024)]
    | none => [0x8000, lim, 0, 0]

/-- A SLOTS record; a slot that serves no enrolled endpoint shows 0xFFFF, as its event does (R364). -/
def slotWords (p : PortId) (q : Port) (i : Nat) : List Half :=
  match spFind q.slots i with
  | some s => [h16 (pack [(0, s.state.toNat), (3, s.mtype.toNat)]), (s.idx.map (handleOf p)).getD 0xFFFF, s.req.power, s.issue]
  | none => [0, 0, 0, 0]

/-- First byte of a KEEPWIN record. -/
def keepwinAddr (p i : Nat) : Nat := (p * 2048 + i) * 32

/-- The owner areas, which KEEPWIN reads as 0 and no KEEPWIN commit may touch (R391). -/
def ownerArea (a : Nat) : Bool := decide (0x18C00 ≤ a ∧ a < 0x19000)

/-- A KEEPWIN record. -/
def keepwinWords (d : Dev) (p i : Nat) : List Half :=
  let a := keepwinAddr p i
  if ownerArea a then List.replicate 16 0
  else (List.range 16).map fun k => h16 (keepNat d.keep (a + 2 * k) 2)

/-- A LOG record, index 0 the newest; an entry that the ring does not hold reads 0. -/
def logRecord (d : Dev) (i : Nat) : List Half :=
  match d.keep.log[i]? with
  | some l => logWords l
  | none => List.replicate 8 0

/-- A BUNDLE record. -/
def bundleWords (b : BundleRec) : List Half :=
  [b.temp, b.limit, h16 (bundleW2 b), b.len, b.wires, b.amb, b.tau, h16 (b2n b.throttling)]

/-- A CLASS record. Chapters 05, 07, 08, 12 and 13 do not say which classes a shed covers: w4 [0] SHED shows PSTAT.SHED of
the port in each of the four records (the model's choice, assumption 110). -/
def classWords (q : Port) (n : Nat) : List Half :=
  let c := BitVec.ofNat 2 n
  [classCap q c, sat16 (classTotal q c), h16 (classHeld q c), h16 (classPending q c), h16 (b2n q.drp.shed), 0, 0, 0]

/-- How many records a table has (Table 05-2). -/
def tableRecords (t : Nat) : Nat :=
  match t with
  | 0 => 1024 | 1 => 1024 | 2 => 64 | 3 => 1026 | 4 => 32 | 5 => 32 | 6 => 128 | 7 => 2048 | 8 => 1024 | 9 => 8 | 10 => 4
  | _ => 0

/-- How many words a record of a table has; TABLE 11 to 15 selects a record of one word (Table 05-2, R106). -/
def tableWords (t : Nat) : Nat :=
  match t with
  | 0 => 16 | 1 => 8 | 2 => 8 | 3 => 4 | 4 => 4 | 5 => 4 | 6 => 4 | 7 => 16 | 8 => 8 | 9 => 8 | 10 => 8
  | _ => 1

/-- The words of a record as the device stands; an index beyond the table reads 0 (R106). -/
def recordWords (d : Dev) (t : Nat) (p : PortId) (i : Nat) : List Half :=
  if tableRecords t ≤ i then List.replicate (tableWords t) 0
  else match t with
    | 0 => rosterWords (rosterOf (d.port p) i)
    | 1 => contractWords (d.port p) i
    | 2 => tenantWords d i
    | 3 => emeterWords (d.port p) i
    | 4 => throtWords d p i
    | 5 => thermalWords d i
    | 6 => slotWords p (d.port p) i
    | 7 => keepwinWords d p.toNat i
    | 8 => logRecord d i
    | 9 => bundleWords (bundleOf d i)
    | _ => classWords (d.port p) i

/-! ## Snapshots (R101, R112) -/

/-- A KEEPWIN snapshot contains a poisoned group (R112). -/
def snapPoisoned (d : Dev) (t p i : Nat) : Bool :=
  decide (t = 7 ∧ i < 2048) && (groupsOf (keepwinAddr p i) 32).any (groupPoisoned d.keep)

/-- KEEP_STAT.POISON follows the last snapshot, and a change of it sets GSTAT.KEEP (Table 04-3, R112). -/
def notePoison (v : Bool) (d : Dev) : Dev :=
  if d.keep.poison = v then d else setG gKeep { d with keep := { d.keep with poison := v } }

/-- The WRAP flags that a host's snapshot clears (R352). -/
def clearWrap (t : Nat) (p : PortId) (i : Nat) (d : Dev) : Dev :=
  if t = 3 ∧ (emeterOf (d.port p) i).wrap = true then
    d.modPort p fun q => { q with emeter := spSet {} q.emeter i { emeterOf q i with wrap := false } }
  else if t = 2 ∧ (tenantOf d i).wrap = true then
    { d with tb := { d.tb with tenants := spSet {} d.tb.tenants i { tenantOf d i with wrap := false } } }
  else d

/-- The port that a TSEL.PORT bit names. -/
def portOf (b : Bool) : PortId := if b then .p1 else .p0

/-- The host takes a snapshot of the selected record, unless one is in force (R101, R484). -/
def hostSnap (d : Dev) : List Half × Dev :=
  match d.win.snap with
  | some ws => (ws, d)
  | none =>
    let t := d.win.table.toNat
    let p := portOf d.win.port
    let i := d.win.index.toNat
    let ws := recordWords d t p i
    let d1 := notePoison (snapPoisoned d t p.toNat i) (clearWrap t p i d)
    (ws, { d1 with win := { d1.win with snap := some ws } })

/-- WIDX after one more word; back at 0 it ends the snapshot (R101). -/
def advanceWidx (w : Window) : Window :=
  let n := w.widx.toNat + 1
  if tableWords w.table.toNat ≤ n then { w with widx := 0, snap := none } else { w with widx := BitVec.ofNat 4 n }

/-- A read of TDATA (R101). -/
def readTdata (d : Dev) : Half × Dev :=
  let (ws, d1) := hostSnap d
  (ws.getD d1.win.widx.toNat 0, { d1 with win := advanceWidx d1.win })

/-- A read whose strobe rises while RDY is low: the snapshot stands, WIDX stays, and no rule states the data (R484). -/
def earlyTdata (d : Dev) : Half × Dev :=
  let (v, d1) := takeFree (hostSnap d).2
  (v.setWidth 16, d1)

/-- TDATA_READ (R101, R484). -/
def execTdataRead (early : Bool) (s : State) : Answer :=
  onDev (fun d => hostRead d.up (fun d => if early then earlyTdata d else readTdata d) d) s

/-! ## Selection and staging (R100, R103, R104) -/

/-- A write of TSEL. -/
def writeTsel (v : Half) (d : Dev) : Dev :=
  if d.win.busy then d
  else { d with win := { d.win with table := v.setWidth 4, port := v.getLsbD 4, widx := 0, staged := [], snap := none } }

/-- A write of TIDX. -/
def writeTidx (v : Half) (d : Dev) : Dev :=
  if d.win.busy then d else { d with win := { d.win with index := v.setWidth 11, widx := 0, staged := [], snap := none } }

/-- A write of TDATA stages its word. -/
def writeTdata (v : Half) (d : Dev) : Dev :=
  if d.win.busy then d
  else { d with win := advanceWidx { d.win with staged := spPut d.win.staged d.win.widx.toNat v } }

/-- TSEL_WRITE (R100). -/
def execTselWrite (v : Half) (s : State) : Answer := onDev (byHost 8 (writeTsel v)) s

/-- TIDX_WRITE (R100). -/
def execTidxWrite (v : Half) (s : State) : Answer := onDev (byHost 9 (writeTidx v)) s

/-- TDATA_WRITE (R103). -/
def execTdataWrite (v : Half) (s : State) : Answer := onDev (byHost 10 (writeTdata v)) s

/-! ## Commits (R105, Table 05-1) -/

/-- The bits of a word that a host commit changes (Table 05-2). -/
def committable (t i w : Nat) : Nat :=
  match t with
  | 0 => if w = 3 then 0x07F8 else 0
  | 2 => if w = 0 then 0xFFFF else if w = 1 then 0x00FF else 0
  | 5 =>
    if 1 ≤ i ∧ i ≤ 4 then (if w = 1 then 0xFFFF else if w = 3 then 1 else 0)
    else if 16 ≤ i ∧ w = 1 then 0xFFFF else 0
  | 7 => 0xFFFF
  | 9 => if w = 2 then 0x8003 else if 1 ≤ w ∧ w ≤ 6 then 0xFFFF else 0
  | 10 => if w = 0 then 0xFFFF else 0
  | _ => 0

/-- The tables that take host commits. -/
def takesCommit (t : Nat) : Bool := [0, 2, 5, 7, 9, 10].contains t

/-- A staged value lies outside its field's range: only BUNDLE w5 names a THERMAL index, 0 to 31. -/
def outOfRange (t : Nat) (st : Sparse Half) : Bool := decide (t = 9 ∧ 31 < (spGet 0 st 5).toNat)

/-- CLASS and TENANT that a staged ROSTER w3 asks for. -/
def stagedIdent (st : Sparse Half) (r : RosterRec) : Cls × Tenant :=
  match spFind st 3 with
  | some v => (BitVec.ofNat 2 (fld v.toNat 3 2), BitVec.ofNat 6 (fld v.toNat 5 6))
  | none => (r.cls, r.tenant)

/-- A ROSTER commit changes an endpoint that holds a contract or a slot (R105, 6). -/
def rosterBusy (q : Port) (i : Nat) (st : Sparse Half) : Bool :=
  let r := rosterOf q i
  decide (stagedIdent st r ≠ (r.cls, r.tenant))
    && ((contractOf q i).held || (slotOf q (BitVec.ofNat 10 i)).isSome)

/-- The bytes that a KEEPWIN commit writes. -/
def keepwinCells (p i : Nat) (st : Sparse Half) : List Host.Cell :=
  st.flatMap fun (k, v) => cellsAt (keepwinAddr p i + 2 * k) (le2 v.toNat)

/-- A KEEPWIN commit touches a protected or closed area (R391, Table 05-1). -/
def keepwinClosed (d : Dev) (p i : Nat) (st : Sparse Half) : Bool :=
  ownerArea (keepwinAddr p i) || commitProtected d.keep.bp (keepwinCells p i st)

/-- The refusal of a commit of the staged words, in the order of R105; none where it is accepted. -/
def commitRefusal (d : Dev) : Option Nat :=
  let w := d.win
  let t := w.table.toNat
  let i := w.index.toNat
  let p := portOf w.port
  if 11 ≤ t then some 2
  else if !takesCommit t then some 1
  else if tableRecords t ≤ i then some 2
  else if w.staged.any (fun (k, _) => committable t i k == 0) then some 3
  else if outOfRange t w.staged then some 4
  else if t = 0 ∧ rosterBusy (d.port p) i w.staged = true then some 7
  else if t ≠ 7 then none
  else if !lockOpens d then some 6
  else if keepwinClosed d p.toNat i w.staged then some 5
  else if d.gl.crit then some 8
  else none

/-- A durable change that is due, once (R107). -/
def dueOnce (x : Due) (d : Dev) : Dev :=
  if d.keep.due.contains x then d else { d with keep := { d.keep with due := d.keep.due ++ [x] } }

/-- CLASS and TENANT of a roster record: an endpoint that is present is due a HARD_RESET with reason 0 (R191). -/
def commitRoster (p : PortId) (i : Nat) (st : Sparse Half) (d : Dev) : Dev :=
  let r := rosterOf (d.port p) i
  let n := stagedIdent st r
  if n = (r.cls, r.tenant) then d
  else
    let r1 := { r with cls := n.1, tenant := n.2, resetDue := if 2 ≤ r.state.toNat ∧ r.state ≠ 3 then some (true, 0) else r.resetDue }
    let d1 := d.modPort p (setRoster i r1)
    if r.state = 0 then d1 else dueOnce (.roster p (BitVec.ofNat 10 i)) d1

/-- Cap and priority of a tenant (R111). -/
def commitTenant (t : Nat) (st : Sparse Half) (d : Dev) : Dev :=
  let r := tenantOf d t
  let r1 := { r with cap := (spFind st 0).getD r.cap, prio := match spFind st 1 with | some v => v.setWidth 8 | none => r.prio }
  relieve (dueOnce (.tenant (BitVec.ofNat 6 t)) { d with tb := { d.tb with tenants := spSet {} d.tb.tenants t r1 } })

/-- Limit and EN of an NTC point. -/
def commitNtc (st : Sparse Half) (n : NtcPoint) : NtcPoint :=
  { n with limit := (spFind st 1).getD n.limit, en := match spFind st 3 with | some v => v.getLsbD 0 | none => n.en }

/-- A THERMAL commit; a point that is disabled ends its cause at once (chapter 13, Edges). -/
def commitThermal (i : Nat) (st : Sparse Half) (d : Dev) : Dev :=
  let tb := d.tb
  let tb1 := if i = 1 then { tb with ntcA0 := commitNtc st tb.ntcA0 }
    else if i = 2 then { tb with ntcB0 := commitNtc st tb.ntcB0 }
    else if i = 3 then { tb with ntcA1 := commitNtc st tb.ntcA1 }
    else if i = 4 then { tb with ntcB1 := commitNtc st tb.ntcB1 }
    else { tb with hotLimit := spSet 0x0118 tb.hotLimit i ((spFind st 1).getD (spGet 0x0118 tb.hotLimit i)) }
  let d1 := dueSettings { d with tb := tb1 }
  if 1 ≤ i ∧ i ≤ 4 ∧ (ntcPoint d1 i).en = false then
    d1.bothPorts fun p d => d.modPort p fun q => { q with thermal := spErase q.thermal i }
  else d1

/-- A BUNDLE commit; a group that is enabled starts at its ambient temperature, and one
that is disabled stops throttling (R307, R308). -/
def commitBundle (g : Nat) (st : Sparse Half) (d : Dev) : Dev :=
  let b := bundleOf d g
  let w := fun k (dflt : Half) => (spFind st k).getD dflt
  let w2 := (w 2 (h16 (bundleW2 b))).toNat
  let b1 := { b with limit := w 1 b.limit, m0 := bit w2 0, m1 := bit w2 1, en := bit w2 15, len := w 3 b.len
                     wires := w 4 b.wires, amb := w 5 b.amb, tau := w 6 b.tau }
  if !b1.en then dueSettings (bundleDrop g (setBundle g { b1 with throttling := false } d))
  else dueSettings (setBundle g (if b.en then b1 else bundleBegin d b1) d)

/-- A CLASS cap (R111). -/
def commitClass (p : PortId) (n : Nat) (st : Sparse Half) (d : Dev) : Dev :=
  match spFind st 0 with
  | none => d
  | some v => relieve (dueSettings (d.modPort p fun q =>
      match n with
      | 0 => { q with cap0 := v }
      | 1 => { q with cap1 := v }
      | 2 => { q with cap2 := v }
      | _ => { q with cap3 := v }))

/-- A KEEPWIN commit is queued and holds BUSY until it is durable (R104). -/
def commitKeepwin (p i : Nat) (st : Sparse Half) (d : Dev) : Dev :=
  { d with keep := { d.keep with bperr := false, queue := d.keep.queue ++ [⟨keepwinCells p i st, .keepwin⟩] }
           win := { d.win with busy := true } }

/-- The staged words act as one change (R103). -/
def applyCommit (t : Nat) (p : PortId) (i : Nat) (st : Sparse Half) (d : Dev) : Dev :=
  match t with
  | 0 => commitRoster p i st d
  | 2 => commitTenant i st d
  | 5 => commitThermal i st d
  | 7 => commitKeepwin p.toNat i st d
  | 9 => commitBundle i st d
  | _ => commitClass p i st d

/-- A write of TCTL.COMMIT (R103, R105). -/
def commitStaged (d : Dev) : Dev :=
  let w := d.win
  let clear := { d with win := { w with staged := [], err := false } }
  if w.busy then d
  else if w.staged = [] then clear
  else match commitRefusal d with
    | some c =>
      let d1 := { d with win := { w with staged := [], err := true, ecode := BitVec.ofNat 4 c } }
      if c = 5 then bpRefused d1 else d1
    | none =>
      applyCommit w.table.toNat (portOf w.port) w.index.toNat w.staged { clear with win := { clear.win with ecode := 0 } }

/-- COMMIT (R105). -/
def execCommit (s : State) : Answer := onDev (byHost 11 commitStaged) s

/-- A write of TCTL.ABORT, alone or with COMMIT (R103). -/
def abortStaged (d : Dev) : Dev := if d.win.busy then d else { d with win := { d.win with staged := [] } }

/-- A write of TCTL. -/
def writeTctl (v : Half) (d : Dev) : Dev :=
  if v.getLsbD 1 then abortStaged d else if v.getLsbD 0 then commitStaged d else d

/-- ABORT (R103): alone, or written with COMMIT. -/
def execAbort (withCommit : Bool) (s : State) : Answer :=
  onDev (byHost 11 (writeTctl (if withCommit then 3 else 2))) s

end Sys2Proof.Machine
end

