-- ==== Sys2Proof/Machine/Start.lean ====
section
/-! DEFINITION. Starts and restarts: supply, the cold-start latch, RESET# and PRESENT# (R30, R57 to R64), ROMBOOT
(Table 03-2), RECOVERY (R469), the Fedora watchdog and the core restart (R367 to R373), and HANDOVER (R463 to R468). -/

namespace Sys2Proof.Machine

open Sys2Proof

/-! ## What a reset leaves -/

/-- PRESENT#'s delay as the µs count starts again from 0. -/
def Present.rebase (us : Nat) : Present → Present
  | .waiting t => .waiting (t - us)
  | p => p

/-- Every register at its Reset value (R62). The pins, the critical latch and the comparators beside it (R63, R312, R314),
Keep-E, Keep-S and the image store keep what they hold; what the data RAM and IRAM held is lost. -/
def freshDev (d : Dev) : Dev :=
  { free := d.free
    pw := { supply := d.pw.supply, latchArmed := d.pw.latchArmed, resetLow := d.pw.resetLow, coldHeld := d.pw.coldHeld
            present := d.pw.present.rebase d.us, vio := d.pw.vio, sready := d.pw.sready }
    gl := { crit := d.gl.crit, rel := d.gl.rel, khot := d.gl.khot }
    keep := { e := d.keep.e, bad := d.keep.bad, s := d.keep.s, shadowA := d.keep.shadowA, shadowB := d.keep.shadowB
              logPos := d.keep.logPos }
    fwu := { bankA := d.fwu.bankA, bankB := d.fwu.bankB }
    core := { ramEpoch := d.core.ramEpoch + 1, keptEpoch := d.core.keptEpoch + 1 } }

/-- A running commit has written some of its pages and stops; a Keep-S store that runs completes from VHOLD (R61, R62,
R394; chapter 03, Edges). -/
def stopKeep (pages : Nat) (d : Dev) : Dev :=
  let k := match d.keep.run with
    | none => d.keep
    | some r =>
      if commitLength r ≤ pages then
        tallyInc 8 (cleanGroups r.commit.writes { commitWrites (commitLength r) r d.keep with run := none })
      else interruptCommit pages d.keep
  { d with keep := finishStore k }

/-! ## Reading Keep-E back at a start -/

/-- The header and the entries of an energy-ring page, where its CRC passes (R403). -/
def energyPage (k : Keep) (i : Nat) : Option (Nat × List (Nat × Nat)) :=
  let b := keepBytes k (0x8000 + 128 * i) 128
  if leNat (b.drop 124) = (crc32 (b.take 124)).toNat ∧ leNat (b.take 4) ≠ 0 then
    some (leNat (b.take 4), (List.range 15).map fun j => (bytesNat b (4 + 8 * j) 2, bytesNat b (6 + 8 * j) 6))
  else none

/-- The value of a subject in a page's entries. -/
def entryOf (subject : Nat) (l : List (Nat × Nat)) : Option Nat := (l.find? fun e => e.1 == subject).map (·.2)

/-- The newest snapshot number and value that some pages hold for a subject; number 0 where none does. -/
def ringValue (subject : Nat) : List (Nat × List (Nat × Nat)) → Nat × Nat
  | [] => (0, 0)
  | (n, es) :: t =>
    let r := ringValue subject t
    match entryOf subject es with
    | some v => if r.1 < n then (n, v) else r
    | none => r

/-- The pages of the ring whose CRC passes, with their places. -/
def energyPages (k : Keep) : List (Nat × Nat × List (Nat × Nat)) :=
  (List.range 256).filterMap fun i => (energyPage k i).map fun p => (i, p)

/-- The page after the last one that the newest snapshot wrote (R403). -/
def ringNext (ps : List (Nat × Nat × List (Nat × Nat))) (newest : Nat) : Nat :=
  let mine := fun i => ps.any fun p => p.1 == i && p.2.1 == newest
  match (List.range 256).find? fun i => mine i && !mine ((i + 1) % 256) with
  | some i => (i + 1) % 256
  | none => 0

/-- The energy of a subject (R351, R403): the newer of the ring and Keep-S. -/
def energyAtStart (ps : List (Nat × List (Nat × Nat))) (sNum : Nat) (s : Sparse Byte) (subject addr : Nat) : BitVec 48 :=
  let r := ringValue subject ps
  BitVec.ofNat 48 (if r.1 < sNum then leNat (readBytes s addr 6) else r.2)

/-- EMETER and TENANT energies as they stand at a start, those of a free record 0 (R350), and where the ring goes on. -/
def loadEnergy (d : Dev) : Dev :=
  let ps := energyPages d.keep
  let es := ps.map (·.2)
  let sNum := leNat (readBytes d.keep.s 4 4)
  let newest := es.foldl (fun n p => Nat.max n p.1) 0
  let meters := fun (base : Nat) (q : Port) => { q with emeter := (List.range 1024).foldl (fun m i =>
    if (rosterOf q i).state = 0 then m
    else spSet {} m i { spGet {} m i with mj := energyAtStart es sNum d.keep.s (base + i) (0x40 + 6 * (base + i)) }) q.emeter }
  let d1 := (d.modPort .p0 (meters 0)).modPort .p1 (meters 1024)
  { d1 with
    tb := { d1.tb with tenants := (List.range 64).foldl (fun m t =>
      spSet {} m t { spGet {} m t with mj := energyAtStart es sNum d.keep.s (0x8000 + t) (0x3040 + 6 * t) }) d1.tb.tenants }
    keep := { d1.keep with snapNum := BitVec.ofNat 32 (Nat.max newest sNum), ringPage := if newest = 0 then 0 else ringNext ps newest } }

/-- The event in the first eight bytes of a LOG entry (Tables 05-3 and 05-4). -/
def eventFrom (b : List Byte) : Event :=
  let w := bytesNat b 0 2
  { typ := BitVec.ofNat 8 w, port := bit w 8, subj := bit w 9, restart := bit w 10, logged := bit w 11
    code := BitVec.ofNat 4 (w / 4096), word1 := h16 (bytesNat b 2 2), seq := h16 (bytesNat b 4 2), ms := h16 (bytesNat b 6 2) }

/-- The LOG ring as Keep-E holds it, newest first; an entry with VALID 0 is skipped (R404). -/
def loadLog (k : Keep) : List LogEntry :=
  (List.range 1024).filterMap fun j =>
    let b := keepBytes k (0x4000 + 16 * ((k.logPos + 1023 - j) % 1024)) 16
    if bit (bytesNat b 14 2) 0 then
      some { ev := eventFrom b, boot := h16 (bytesNat b 8 2), ms := BitVec.ofNat 32 (bytesNat b 10 4) }
    else none

/-- The gang share in force at a start is the one stored last (R332). -/
def loadShare (d : Dev) : Dev :=
  let n := shareNum d.keep
  let share := if n = 0 then none else some (h16 (shareCell d.keep (n % 32)).1)
  let g := { d.gang with stored := share, share := share, phase := if d.gang.mode = 0 then .silent else .listening 0 0 }
  let d1 := { d with gang := g }
  { d1 with gang := { d1.gang with toldShare := sat16 (shelfShare d1) } }

/-! ## Entering an image -/

/-- The code section as IRAM holds it from its load on (Table 03-2, step 7); the bytes beyond it keep what they were. -/
def loadIram (img : List Byte) (m : Sparse Byte) : Sparse Byte := putBytes m 0 (imgCode img)

/-- The ROM enters an image (R432). IRAM holds its code; data RAM, the window and the watchdog's history are as given. -/
def enterImage (img : List Byte) (d : Dev) : Dev :=
  let c := d.core
  let m := loadIram img c.iram
  { d with core := { run := true, pc := BitVec.ofNat 32 (imgEntry img), iram := m, iramFetch := m, ram := c.ram
                     ramEpoch := c.ramEpoch, keptEpoch := c.keptEpoch, fires := c.fires, wdAt := d.us }
           p0 := { d.p0 with sig := false }, p1 := { d.p1 with sig := false } }

/-! ## ROMBOOT (Table 03-2) -/

/-- Keep-S RECALL (R406): the DONE bank with the higher store sequence, or zeros. -/
def recallStore (k : Keep) : Keep :=
  { k with s :=
    if k.shadowA.done && (!k.shadowB.done || decide (k.shadowB.seq < k.shadowA.seq)) then k.shadowA.data
    else if k.shadowB.done then k.shadowB.data else [] }

/-- A bank has been marked BEGUN and is not DONE (R406). -/
def storeUnfinished (k : Keep) : Bool := (k.shadowA.begun && !k.shadowA.done) || (k.shadowB.begun && !k.shadowB.done)

/-- What the steps before the firmware find, for its first events. -/
structure Found where
  sfail : Bool := false
  done : Option Nat := none
  poisoned : List Nat := []
  fallback : Bool := false
  deriving DecidableEq, Repr

/-- Steps 2 to 4: the recall of a cold start, the journal, the tallies, the critical latch (R313) and everything Keep holds. -/
def bootKeep (cold : Bool) (d : Dev) : Found × Dev :=
  let fail := cold && storeUnfinished d.keep
  let r := resolveJournal (if cold then recallStore d.keep else d.keep)
  let k := tallyInc 1 r.keep
  let k1 := if cold then tallyInc 2 k else k
  let k2 := if fail then tallyInc 13 { k1 with sfail := true } else k1
  let crit := decide (spGet 0 k2.e 0x3200 = 0xC5)
  let d1 := loadKeep { d with keep := { k2 with log := loadLog k2 }, gl := { d.gl with crit := crit } }
  ({ sfail := fail, done := r.done, poisoned := r.poisoned }, loadShare (loadEnergy d1))

/-- A bank found PENDING receives a FAILED record (R452). -/
def failPending (b : Bool) (x : Found × Dev) : Found × Dev :=
  if bankState (bankOf x.2.fwu b) = 2 then
    ({ x.1 with fallback := true }, addRecord b 4 (countUp 15 x.2))
  else x

/-- The bank whose image runs (R66): the selected one, else the other one, if it passes. -/
def bootBank (d : Dev) : Option Bool :=
  match selectBank d.fwu with
  | none => none
  | some b =>
    if imageOk d (bankOf d.fwu b).image then some b
    else if imageOk d (bankOf d.fwu (!b)).image then some (!b) else none

/-- The torn piece of a reception: the bits of its sector's pieces clear, and the index (R460). -/
def clearTorn (d : Dev) : Dev :=
  match d.fwu.torn with
  | none => d
  | some i =>
    let lost := fun j => j / 4 == i / 4
    let d1 := modBank (!d.fwu.active) (fun b => { b with delta := b.delta.filter fun x => !lost x.1 }) d
    dueSettings { d1 with fwu := { d1.fwu with torn := none, held := d1.fwu.held.filter fun j => !lost j } }

/-- The events that follow BOOT (R396, R406, R452; chapter 18, Edges). -/
def bootEvents (f : Found) (d : Dev) : Dev :=
  let d1 := if f.sfail then postGlobal 0x33 0 0 true (setG gKeep d) else d
  let d2 := match f.done with | some n => postGlobal 0x31 0 (h16 n) false (setG gKeep d1) | none => d1
  let poison := fun (g : Nat) (d : Dev) => postGlobal 0x30 0 (h16 g) true d
  let d3 := foldDev (fun pg => poison (16 * pg)) f.poisoned d2
  let d4 := foldDev poison (lostAreas d3.keep) d3
  if f.fallback then postFwu 6 d4 else d4

/-- Auto-start (R70): the stored role with PCTL.EN 1, subject to R93; the device's own role change stores nothing. -/
def autoStart (p : PortId) (d : Dev) : Dev :=
  let q := d.port p
  if q.ctl.auto ∧ q.cfg.autoRole ≠ .off then
    let d1 := d.modPort p fun q => { q with ctl := { q.ctl with en := true } }
    match roleRefusal d p q.cfg.autoRole true with
    | some code => denyRole p code d1
    | none => putRole p q.cfg.autoRole d1
  else d

/-- Steps 7 and 8 with the image of a bank: what it finds of an older format is due for its migration (R398); IRAM and sequencers loaded, BOOT (R68), then IDLE with auto-start (R70), or SAFE
where the critical latch is set. -/
def startFirmware (cause : BitVec 2) (b : Bool) (f : Found) (d : Dev) : Dev :=
  let d0 := { d with fwu := { d.fwu with active := b } }
  let d1 := enterImage (runningImage d0)
    { d0 with fwu := { d0.fwu with other := otherHolds d0 }, pw := { d0.pw with phase := .running, cause := cause }
              gl := { d0.gl with safe := d0.gl.crit }, tb := { d0.tb with alloc := true } }
  let d2 := d1.bothPorts fun p d => d.modPort p fun q => { q with line := { q.line with seqRun := true } }
  let d3 := beginMigration (bootEvents f (postGlobal 0x01 0 (h16 cause.toNat) true (setG gBoot (clearTorn d2))))
  if d3.gl.safe then d3 else d3.bothPorts autoStart

/-- ROMBOOT (R65, R66, Table 03-2) on a device whose registers are at their Reset values: it ends in IDLE, SAFE or RECOVERY.
The model gives its steps no time (assumption 3). -/
def romboot (cause : BitVec 2) (cold recovery : Bool) (d : Dev) : Dev :=
  let (f, d1) := failPending true (failPending false (bootKeep cold { d with us := 0, pw := { d.pw with present := d.pw.present.rebase d.us } }))
  match if recovery then none else bootBank d1 with
  | some b => startFirmware cause b f d1
  | none => { d1 with pw := { d1.pw with phase := .recovery, cause := cause } }

/-! ## Supply, latch, RESET# and PRESENT# -/

/-- SUPPLY_LOST (R30, R61): the logic has failed; the first pages of a running commit are on the cells. -/
def execSupplyLost (pages : Nat) (s : State) : Answer :=
  onDev (fun d => guardDev d.pw.supply (fun d =>
    let d1 := freshDev (stopKeep pages d)
    { d1 with pw := { d1.pw with supply := false, phase := .dormant, sready := false, coldHeld := none }
              keep := { d1.keep with s := [] } }) d) s

/-- LATCH_REARM (R58): VCORE has fallen below 0.3 V, which it does only without a supply. -/
def execLatchRearm (s : State) : Answer :=
  onDev (fun d => guardDev (!d.pw.supply) (fun d => { d with pw := { d.pw with latchArmed := true } }) d) s

/-- COLD_START (R57, R39): the armed latch releases the core, which samples BOOTSEL and starts, or where RESET# is low keeps
the sample for the ROMBOOT that the release of RESET# starts. -/
def execColdStart (bootsel : Bool) (s : State) : Answer :=
  onDev (fun d => guardDev d.pw.latchArmed (fun d =>
    let d1 := freshDev { d with pw := { d.pw with supply := true, latchArmed := false } }
    if d1.pw.resetLow then { d1 with pw := { d1.pw with coldHeld := some bootsel } } else romboot 0 true bootsel d1) d) s

/-- RESET# has been low for 1 µs (R62), or the device watchdog acts as if it had been (R373): paths, ports and registers are
at their Reset values. -/
def resetDev (pages : Nat) (d : Dev) : Dev := freshDev (stopKeep pages d)

/-- RESET_ASSERT (R62). -/
def execResetAssert (pages : Nat) (s : State) : Answer :=
  onDev (fun d =>
    let d0 := { d with pw := { d.pw with resetLow := true, rdata := none } }
    if d.pw.supply && !d.pw.latchArmed then resetDev pages d0 else d0) s

/-- RESET_RELEASE (R62, R63, R39): ROMBOOT without a recall and without sampling BOOTSEL. Where the latch released the core
while RESET# was low, this ROMBOOT is the cold start's: with its recall, and with the sample taken at the latch (R57). -/
def execResetRelease (s : State) : Answer :=
  onDev (fun d =>
    let d1 := { d with pw := { d.pw with resetLow := false, coldHeld := none } }
    if d.pw.resetLow && d.pw.supply && !d.pw.latchArmed then
      match d.pw.coldHeld with
      | some bootsel => romboot 0 true bootsel d1
      | none => romboot 1 false false d1
    else d1) s

/-- PRESENT_LOW (R64): the 10 ms delay, low bound 9.8, begins; a seated card has VIO (R474). -/
def execPresentLow (s : State) : Answer :=
  onDev (fun d =>
    if d.pw.present = .high then { d with pw := { d.pw with present := .waiting (d.us + 9800), vio := true } }
    else { d with pw := { d.pw with vio := true } }) s

/-- BUS_LIVE (R64). -/
def execBusLive (s : State) : Answer :=
  onDev (fun d =>
    match d.pw.present with
    | .waiting t => if t ≤ d.us then { d with pw := { d.pw with present := .live } } else d
    | _ => d) s

/-- PRESENT_HIGH (R64): every host output floats. -/
def execPresentHigh (s : State) : Answer :=
  onDev (fun d => { d with pw := { d.pw with present := .high, rdata := none } }) s

/-- VIO_ABSENT (R474): the host pins float; the device runs on. -/
def execVioAbsent (s : State) : Answer :=
  onDev (fun d => { d with pw := { d.pw with vio := false, rdata := none } }) s

/-! ## RECOVERY (R469) -/

/-- The bank a download writes: the one R452 does not select, or the one with the lower sequence; bank B beside a selected
bank A, bank A where none is selected. -/
def recoveryBank (f : Fwu) : Bool :=
  match selectBank f with
  | some b => !b
  | none => false

/-- The pieces an image needs, 0 until piece 0 is held. -/
def recoveryNeed (ps : Sparse (List Byte)) : Nat :=
  match spFind ps 0 with
  | some h => (imgT h + 1023) / 1024
  | none => 0

/-- A piece that cannot be one of the image: an index beyond it, or a length that is not that of its place, as far as piece 0 tells (R455,
R469). -/
def recoveryMisfits (ps : Sparse (List Byte)) (i len : Nat) : Bool :=
  match spFind ps 0 with
  | some h => decide (recoveryNeed ps ≤ i ∨ len ≠ Nat.min 1024 (imgT h - 1024 * i))
  | none => decide (255 < i)

/-- Every piece is held. -/
def recoveryFull (ps : Sparse (List Byte)) : Bool :=
  decide (0 < recoveryNeed ps) && (List.range (recoveryNeed ps)).all fun i => (spFind ps i).isSome

/-- The whole image is held: verified under R453; RECOVERED and ROMBOOT with cause 2, or refused with every piece cleared. -/
def recoveryFinish (d : Dev) : Dev :=
  let img := ((List.range (recoveryNeed d.fwu.recPieces)).flatMap fun i => (spFind d.fwu.recPieces i).getD [])
  match imageFault d img with
  | some r => mbxOutcome 0x10 [] { d with fwu := { d.fwu with refuse := r, recPieces := [] } }
  | none =>
    let b := recoveryBank d.fwu
    romboot 2 false false (resetDev 0 (addRecord b 5 (modBank b (fun x => { x with image := img }) d)))

/-- One piece of a full image; the first command erases the target bank's status sector and image area. -/
def recoveryPiece (storeOk : Bool) (d : Dev) : Dev :=
  match pieceArgs d.mbx.args with
  | none => mbxOutcome 0x03 [] d
  | some (i, pre, data) =>
    if recoveryMisfits d.fwu.recPieces i data.length then mbxOutcome 0x03 [] d
    else if !prefixOk pre data then mbxOutcome 0x13 [] d
    else
      let b := recoveryBank d.fwu
      let d1 := if d.fwu.recOpen then d else modBank b (fun x => { x with status := [], image := [] }) d
      if !storeOk then mbxOutcome 0x15 [] d1
      else
        let ps := spPut d1.fwu.recPieces i data
        let d2 := { d1 with fwu := { d1.fwu with recOpen := true, recPieces := ps } }
        if recoveryFull ps then recoveryFinish d2
        else mbxOutcome 0 [h16 ps.length, h16 (recoveryNeed ps)] d2

/-- RECOVERY_IMAGE (R469). -/
def execRecoveryImage (storeOk : Bool) (s : State) : Answer :=
  onDev (fun d => guardDev (mbxRuns 0x18 d) (recoveryPiece storeOk) d) s

/-! ## HANDOVER (R463 to R468) -/

/-- The data RAM beyond 0x1003_C000 to 0x1003_FFFF is lost (R464). -/
def keepHandover (c : Core) : Core := { c with ram := c.ram.filter fun x => decide (0x3C000 ≤ x.1), ramEpoch := c.ramEpoch + 1 }

/-- b0 to b251 of the handover block (Table 21-8), for a cause and a payload. -/
def handBlock (cause : Nat) (toB : Bool) (payload : Nat) (d : Dev) : List Byte :=
  let inImg := (bankOf d.fwu toB).image
  leBytes 0x4E534833 4 ++ le2 1 ++ [BitVec.ofNat 8 cause, BitVec.ofNat 8 (b2n toB)]
  ++ leBytes (imgVersion (runningImage d)).toNat 4 ++ leBytes (imgVersion inImg).toNat 4
  ++ leBytes d.timebase.toNat 4 ++ leBytes d.tb.passAt 4 ++ le2 (d.q.seq - 1).toNat ++ [0, 0]
  ++ leBytes d.keep.lastNum.toNat 4
  ++ le2 (shelfShare d) ++ [BitVec.ofNat 8 (pack [(0, b2n d.gang.leader), (1, b2n d.gang.alone)]), 0]
  ++ leBytes (if payload = 0 then 0 else 0x1003C000) 4 ++ leBytes payload 4 ++ leBytes (b2n (decide (payload ≠ 0))) 4
  ++ List.replicate 16 0 ++ slice inImg 128 32 ++ List.replicate 156 0

/-- The block with its CRC is written at 0x1003_F000. -/
def writeBlock (cause : Nat) (toB : Bool) (payload : Nat) (d : Dev) : Dev :=
  let b := handBlock cause toB payload d
  { d with core := { d.core with ram := putBytes d.core.ram 0x3F000 (b ++ leBytes (crc32 b).toNat 4) } }

/-- The payload that the outgoing image places: its length is its own choice, 0 to 12 288, and so are its bytes (R464;
assumption 5). -/
def placePayload (d : Dev) : Nat × Bool × Dev :=
  let (x, d1) := takeFree d
  let n := x.toNat % 12289
  let body := (List.range n).map fun i => (Config.freeValue (d1.free + i)).setWidth 8
  (n, decide (n = 0) || x.getLsbD 63,
   { d1 with free := d1.free + n, core := { d1.core with ram := putBytes d1.core.ram 0x3C000 body } })

/-- The ROM loads and enters the image of a bank: the allocator is stopped, and HANDOVER is in force (R31, R464). -/
def enterBank (cause : BitVec 2) (toB rebuild : Bool) (d : Dev) : Dev :=
  let info : HandInfo :=
    { cause := cause, toB := toB, role0 := d.p0.role, role1 := d.p1.role
      gangHeard := decide (d.gang.mode ≠ 0) && !d.gang.alone, rebuild := rebuild }
  let d1 := enterImage (bankOf d.fwu toB).image { d with core := keepHandover d.core }
  { d1 with fwu := { d1.fwu with hand := some info }, tb := { d1.tb with alloc := false } }

/-- The hand-back to the bank that was left (R468): FAILED, tally 15, a block with payload length 0. -/
def handTo (cause : BitVec 2) (failed : Bool) (d : Dev) : Dev :=
  let d1 := addRecord failed 4 (countUp 15 d)
  enterBank cause (!failed) true (writeBlock cause.toNat (!failed) 0 { d1 with fwu := { d1.fwu with pend := false } })

/-- The device hands back while PEND is 1 (R468). -/
def handBack (cause : BitVec 2) (d : Dev) : Dev :=
  if d.fwu.pend && d.fwu.hand.isNone then handTo cause d.fwu.active d else d

/-- A handover may start (R463): LEVEL.BUSY 0 on both ports, and no PARK in progress. -/
def handoverMay (d : Dev) : Bool :=
  d.fwu.handReq.isSome && d.fwu.hand.isNone && d.p0.lev.step.isNone && d.p1.lev.step.isNone && !d.gl.safe && !parking d
    && allocRuns d && d.core.run

/-- The outgoing image writes the block and calls the handover service; the ROM's checks of the incoming bank (R464,
Table 21-9 steps 1 to 3). -/
def handover (d : Dev) : Dev :=
  let waits := match d.fwu.handReq with | some (_, w) => w | none => false
  let toB := !d.fwu.active
  let (n, rebuild, d0) := placePayload d
  let d1 := writeBlock 0 toB n { d0 with fwu := { d0.fwu with handReq := none } }
  let d2 := if waits then mbxEnds 0 [] d1 else d1
  let b := bankOf d2.fwu toB
  if bankState b = 1 ∧ imageDigests b.image = true then enterBank 0 toB rebuild (addRecord toB 2 d2)
  else handTo 1 toB d2

/-- HANDOVER (R464). -/
def execHandover (s : State) : Answer := onDev (fun d => guardDev (handoverMay d) handover d) s

/-- REVERT (R468): a host write of FWU_CTL.REVERT 1. -/
def execRevert (s : State) : Answer := onDev (fun d => byHost 21 (handBack 2) d) s

/-- HEALTH_TIMEOUT (R466, R468). -/
def execHealthTimeout (s : State) : Answer :=
  onDev (fun d => guardDev (d.core.restart.isNone && decide (d.fwu.healthAt + 1000000 * d.fwu.tHealth.toNat ≤ d.us)) (handBack 1) d) s

/-! ## The rebuild of R370 -/

/-- The model rate of an endpoint stands in for what was lost: its contract power, or 50 mW, with NOCAL set; the intervals
missed and the one that runs use it (R370). -/
def rebuildEndpoint (ms pointMs : Nat) (q : Port) (x : Nat × RosterRec) : Port :=
  if x.2.state = 0 then q
  else
    let c := contractOf q x.1
    let w := if c.state = 2 then c.power.toNat * 100 else 50
    let m := emeterOf q x.1
    let r := { x.2 with rate := w, rateHeld := none, restoreMs := none, lastCount := none, rateMs := ms
                        modelUj := w * (ms - pointMs), missedUj := q.met.missed.map fun i => w * i.2.2 }
    { setRoster x.1 r q with emeter := spSet {} q.emeter x.1 { m with nocal := true } }

/-- Pending requests in the order of CONTRACT w5, which stands in for their arrival order (R370). -/
def rebuildPending (q : Port) : Port := { q with pend := q.pend.map fun r => { r with arrival := r.qpos.toNat } }

/-- A port's state after a core restart: requests, rates, reservations, and each throttle limit from the BUDGET in force
when it began. -/
def rebuildPort (ms pointMs budget : Nat) (q : Port) : Port :=
  let q1 := q.roster.foldl (rebuildEndpoint ms pointMs) (rebuildPending { q with hints := [] })
  { q1 with thermal := q1.thermal.map fun x => (x.1, budget), bundle := q1.bundle.map fun x => (x.1, budget) }

/-- Each bundle group resumes with tb equal to BUNDLE w0 (R370). -/
def rebuildBundle (x : Nat × BundleRec) : Nat × BundleRec := (x.1, { x.2 with tb := x.2.temp.toInt * 250000 })

/-- The firmware's state rebuilt from the tables (R370). -/
def rebuildState (d : Dev) : Dev :=
  let ms := d.us / 1000
  let d1 := (d.modPort .p0 (rebuildPort ms d.tb.pointMs d.tb.budgetAt0)).modPort .p1 (rebuildPort ms d.tb.pointMs d.tb.budgetAt1)
  { d1 with tb := { d1.tb with bundles := d1.tb.bundles.map rebuildBundle } }

/-- The gang share and place after a restart (R370): the share written last; a leader listens again under R320. -/
def rebuildGang (d : Dev) : Dev :=
  let g := { d.gang with share := match d.gang.stored with | some v => some v | none => d.gang.share, shareNext := none, slotDue := false }
  { d with gang := match g.phase with
      | .leader => { g with phase := .listening d.us 0, leader := false, kept := true }
      | _ => g }

/-- BUDGET of both ports is noted when a restart begins (R370). -/
def noteBudgets (d : Dev) : Dev := { d with tb := { d.tb with budgetAt0 := budget d .p0, budgetAt1 := budget d .p1 } }

/-- The allocator resumes (R269, R369); the intervals it missed are attributed at the next calibration point (R349), and the
contracts that a lower PCTL.LMAX no longer lets stand are shed (R95); thermal points that reached their limits begin
their causes (R306). -/
def resumeAllocator (d : Dev) : Dev :=
  { d with tb := { d.tb with alloc := true, passAt := d.us }, core := { d.core with run := true, restart := none } }.bothPorts shedLate
    |> pointBegins |> relieve

/-! ## HANDOVER ends (Table 21-9 step 5) -/

/-- A sequencer is reloaded only for other microcode (R471). -/
def reloadIf (changed : Bool) (q : Port) : Port :=
  if changed then { q with line := { q.line with reloadDue := true } } else q

/-- The energy carries restart at 0 (R465). -/
def dropCarries (q : Port) : Port := { q with roster := q.roster.map fun x => (x.1, { x.2 with carry := 0 }) }

/-- What the outgoing image left for the end of HANDOVER: a cancel (R461), then a PARK (R98). -/
def afterHandover (d : Dev) : Dev :=
  let d1 := if d.fwu.cancelDue then cancelReception { d with fwu := { d.fwu with cancelDue := false } } else d
  if d1.gl.parkWaits then beginPark d1 else d1

/-- The incoming image resumes the allocator, and then begins the migration (R465, R470). -/
def handoverResume (i : HandInfo) (d : Dev) : Dev :=
  let changed := decide (imgSeqDigest (bankOf d.fwu i.toB).image ≠ imgSeqDigest (bankOf d.fwu (!i.toB)).image)
  let first := decide (i.cause = 0)
  let f := { d.fwu with active := i.toB, hand := none, handSafe := false, pend := first, confirmed := false, healthAt := d.us, trapped := false
                        durable := false, durableFrom := d.keep.lastNum.toNat + d.keep.queue.length, gleadSeen := false, passLate := false, info := some i }
  let d1 := resumeAllocator (if i.rebuild then rebuildState { d with fwu := f } else { d with fwu := f })
  let d2 := { d1 with fwu := { d1.fwu with other := otherHolds d1 } }
  let d3 := d2.bothPorts fun p d => d.modPort p fun q => dropCarries (reloadIf changed q)
  afterHandover (beginMigration (postFwu (if first then 4 else 6) d3))

/-- HANDOVER_RESUME (R465). -/
def execHandoverResume (s : State) : Answer :=
  onDev (fun d => match d.fwu.hand with | some i => handoverResume i d | none => d) s

/-! ## The Fedora watchdog and the core restart (R367 to R373) -/

/-- The core is reset and the ROM loads IRAM from the active bank, or from the one a hand-back is entering (Table 16-2,
steps 1 to 3). -/
def restartCore (d : Dev) : Dev :=
  let d1 := noteBudgets d
  let d2 := enterImage (match d1.fwu.hand with | some i => (bankOf d1.fwu i.toB).image | none => runningImage d1) d1
  { d2 with core := { d2.core with run := false, restart := some d.us }, tb := { d2.tb with alloc := false }
            fwu := { d2.fwu with handReq := none, apply := none }
            mbx := if d2.mbx.state = 1 then { d2.mbx with outcome := some (0x02, []), waits := false } else d2.mbx }

/-- A device watchdog reset (R373): as RESET# held for 1 µs, and BOOT with cause 3. -/
def watchdogReset (d : Dev) : Dev := romboot 3 false false (resetDev 0 { d with keep := tallyInc 7 d.keep })

/-- The image that a firing hands back from: the pending one, or the incoming one of a handover that has not ended
(R373; chapter 21, Edges). -/
def watchdogHands (d : Dev) : Option Bool :=
  match d.fwu.hand with
  | some i => if i.cause = 0 then some i.toB else none
  | none => if d.fwu.pend then some d.fwu.active else none

/-- The watchdog fires (R367, R372, R373): the next event carries RESTART; a third firing within 60 s resets the device. -/
def watchdogFires (d : Dev) : Dev :=
  let fires := d.us :: d.core.fires.filter fun t => decide (d.us < t + 60000000)
  let d1 := countUp 6 { d with q := { d.q with restart := true }
                               core := { d.core with fires := fires, wdNow := false, wdAt := d.us } }
  if 3 ≤ fires.length then watchdogReset d1
  else match watchdogHands d1 with
    | some b =>
      let d2 := noteBudgets d1
      handTo 3 b { d2 with core := { d2.core with restart := none }
                           mbx := if d2.mbx.state = 1 then { d2.mbx with outcome := some (0x02, []), waits := false } else d2.mbx }
    | none => restartCore d1

/-- WATCHDOG (R367): 100 ms without service, low bound 95, or a double trap (R428). -/
def execWatchdog (s : State) : Answer :=
  onDev (fun d =>
    guardDev (d.up && d.core.restart.isNone && (d.core.wdNow || decide (d.core.wdAt + 95000 ≤ d.us))) watchdogFires d) s

/-- A THROT event with the value in force, changed or not (R372). -/
def throtSync (p : PortId) (d : Dev) : Dev :=
  let d1 := noteThrot p d
  let v := (d1.port p).throt
  postPort 0x18 0 p (v.setWidth 16) false (d1.modPort p fun q => { setPevt eThrot q with throtDirty := false, throtOnset := false })

/-- ALLOCATOR_RESUME (R369 to R372). -/
def execAllocatorResume (s : State) : Answer :=
  onDev (fun d =>
    guardDev d.core.restart.isSome (fun d =>
      (resumeAllocator (rebuildGang (rebuildState d))).bothPorts throtSync) d) s

end Sys2Proof.Machine
end

