-- ==== Sys2Proof/Machine/Registers.lean ====
section
/-! DEFINITION. The host registers (Tables 04-2, 04-3 and 04-6): what a read of each returns and does, and what a write of
each does; the same registers are the Fedora core's mirror (Table 19-1). -/

namespace Sys2Proof.Machine

open Sys2Proof

/-! ## Reads with side effects (Table 04-1) -/

/-- A read of TIME_LO latches TIME_HI (R86). -/
def readTimeLo (d : Dev) : Half × Dev :=
  let t := d.timebase
  (t.setWidth 16, { d with gl := { d.gl with timeHi := (t >>> 16).setWidth 16 } })

/-- A read of ENERGY_LO latches MID and HI of its port (R86). -/
def readEnergyLo (p : PortId) (d : Dev) : Half × Dev :=
  let e := (d.port p).met.energy
  (e.setWidth 16, d.modPort p fun q =>
    { q with met := { q.met with latchMid := (e >>> 16).setWidth 16, latchHi := (e >>> 32).setWidth 16 } })

/-- EVQ_POP (R85). -/
def execEvqPop (s : State) : Answer := onDev (fun d => hostRead d.up popWord d) s

/-- TIME_LO (R86). -/
def execTimeLo (s : State) : Answer := onDev (fun d => hostRead d.up readTimeLo d) s

/-- ENERGY_LO (R86). -/
def execEnergyLo (p : PortId) (s : State) : Answer :=
  onDev (fun d => hostRead d.up (readEnergyLo p) d) s

/-! ## Words of the global block (Table 04-3) -/

/-- MODE_REQ. -/
def modeReqWord (d : Dev) : Half := h16 (pack [(0, b2n (parking d)), (1, b2n d.gl.eoff)])

/-- EVQ_LEVEL. -/
def evqLevelWord (d : Dev) : Half := h16 (pack [(0, d.q.count), (10, d.q.phase.toNat), (12, b2n d.q.ovf.isSome)])

/-- TSEL. -/
def tselWord (d : Dev) : Half := h16 (pack [(0, d.win.table.toNat), (4, b2n d.win.port)])

/-- TCTL. -/
def tctlWord (d : Dev) : Half :=
  h16 (pack [(2, b2n d.win.busy), (3, b2n d.win.err), (4, d.win.widx.toNat), (8, d.win.ecode.toNat)])

/-- MBX_STAT. -/
def mbxStatWord (d : Dev) : Half :=
  h16 (pack [(0, d.mbx.state.toNat), (2, d.mbx.results.length), (8, d.mbx.result.toNat)])

/-- GANG. -/
def gangWord (d : Dev) : Half :=
  h16 (pack [(0, d.gang.mode.toNat), (2, d.gang.id.toNat), (6, b2n d.gang.leader), (7, b2n d.gang.alone), (8, d.gang.count.toNat)])

/-- THERM. -/
def thermWord (d : Dev) : Half :=
  h16 (pack [(0, b2n d.gl.crit), (1, b2n d.gl.rel), (2, b2n d.gl.khot), (3, b2n (bundleThrottles d))])

/-- KEEP_CTL. -/
def keepCtlWord (d : Dev) : Half := h16 (pack [(0, d.keep.bp.toNat), (4, d.keep.pfch.toNat), (8, b2n d.keep.pfen)])

/-- KEEP_STAT; HOT follows the critical latch, and BUSY lasts until a stopped commit's header reads VOID (R394). -/
def keepStatWord (d : Dev) : Half :=
  let k := d.keep
  h16 (pack [(0, b2n (k.run.isSome || k.rollback.isSome)), (1, b2n k.poison), (2, b2n d.pw.sready), (3, b2n k.sfail), (4, b2n k.jroll),
    (5, b2n k.jdone), (6, b2n d.gl.crit), (7, b2n k.bperr), (8, k.dseq.toNat)])

/-- FWU_CTL. -/
def fwuCtlWord (d : Dev) : Half := h16 (pack [(0, b2n d.fwu.confirmed), (1, b2n d.fwu.hostconf)])

/-- FWU_STAT. -/
def fwuStatWord (d : Dev) : Half :=
  let f := d.fwu
  h16 (pack [(0, b2n f.active), (1, b2n f.pend), (2, b2n f.rx), (3, b2n f.apply.isSome), (4, f.refuse.toNat), (7, b2n f.other),
    (8, fwuProg f)])

/-- CMP_LVL of the level that CMP_SEL names. -/
def cmpLvlWord (d : Dev) : Half :=
  let c := (chanOf d d.cmp.ch.toNat).reg
  (if d.cmp.lsel then c.hi else c.lo).setWidth 16

/-- LOCK: every read returns the status fields (R90). -/
def lockWord (d : Dev) : Half :=
  let g := d.gl
  h16 (pack [(0, b2n (lockOpens d)), (1, b2n g.owner.fwlock), (2, b2n g.lockArmed.isSome), (3, g.lockFails.toNat),
    (7, b2n g.lockBlocked), (8, b2n g.owner.enrolled)])

/-! ## Words of a port block (Table 04-6) -/

/-- PSTAT. -/
def pstatWord (q : Port) : Half :=
  h16 (pack [(0, q.role.code), (2, b2n (decide (q.gate = .closed))), (3, b2n q.att.att), (4, b2n q.att.orient),
    (5, b2n q.ringFeeder), (6, b2n q.grd.latch), (7, b2n q.line.first.isSome), (8, b2n (q.line.seqRun && q.ctl.en)),
    (9, b2n q.drp.shed),
    (10, b2n q.lev.lfault)])

/-- PCTL. -/
def pctlWord (q : Port) : Half :=
  h16 (pack [(0, q.ctl.role.code), (2, b2n q.ctl.en), (3, q.ctl.lmax.toNat), (5, b2n q.ctl.fixed), (6, b2n q.ctl.ps2),
    (7, q.ctl.term.toNat), (9, b2n q.ctl.auto)])

/-- ATTACH.STATE coding. -/
def AttachState.code : AttachState → Nat
  | .idle => 0
  | .probing => 1
  | .debouncing => 2
  | .attached => 3
  | .peerHead => 4
  | .fault => 5

/-- ATTACH. -/
def attachWord (q : Port) : Half :=
  h16 (pack [(0, q.att.state.code), (3, q.att.typ.toNat), (8, q.att.icpt.toNat)])

/-- LEVEL. -/
def levelWord (q : Port) : Half :=
  h16 (pack [(0, q.lev.cur.toNat), (2, q.lev.tgt.toNat), (4, b2n q.lev.step.isSome), (5, b2n q.lev.hold), (6, b2n q.lev.lfault)])

/-- GUARD. -/
def guardWord (q : Port) : Half := h16 (pack [(0, q.grd.cause.toNat), (4, b2n q.grd.latch), (6, b2n q.grd.auto)])

/-- INFLIGHT. -/
def inflightWord (q : Port) : Half := h16 (pack [(0, q.slots.length), (8, (specSlots q).length)])

/-- RAIL.SUP: this port supplies the segment's tap rail (R220). -/
def railSup (q : Port) : Bool := q.master && decide (q.rail.sw = .on)

/-- RAIL. -/
def railWord (q : Port) : Half :=
  h16 (pack [(0, b2n (railSup q)), (1, b2n q.rail.swapReq), (2, b2n q.rail.en), (3, b2n q.rail.oc), (6, q.met.irail.toNat)])

/-- RING. -/
def ringWord (q : Port) : Half :=
  h16 (pack [(0, b2n q.ring.en), (1, b2n q.ring.peer), (2, b2n q.ring.loc), (3, b2n q.ring.mism), (4, b2n q.ring.block),
    (8, (BitVec.ofInt 8 q.ring.trim).toNat)])

/-- DROOP. -/
def droopWord (q : Port) : Half :=
  h16 (pack [(0, q.drp.win.toNat), (6, q.drp.stepCodes.toNat), (12, b2n q.drp.en), (13, b2n q.drp.act), (14, b2n q.drp.hold)])

/-- LINE. -/
def lineWord (q : Port) : Half := h16 (pack [(0, q.line.bper.toNat), (7, q.line.enr.toNat)])

/-! ## Reads (R28, R85, R86) -/

/-- A read of a global register, by byte address; reserved addresses read 0. -/
def readGlobal (a : Nat) (d : Dev) : Half × Dev :=
  match a with
  | 0x06 => (modeReqWord d, d)
  | 0x08 => (gstatWord d, d)
  | 0x0A => (d.gl.gmask.setWidth 16, d)
  | 0x0C => popWord d
  | 0x0E => (evqLevelWord d, d)
  | 0x10 => (tselWord d, d)
  | 0x12 => (d.win.index.setWidth 16, d)
  | 0x14 => readTdata d
  | 0x16 => (tctlWord d, d)
  | 0x1E => (d.gl.shelf, d)
  | 0x20 => (gangWord d, d)
  | 0x22 => (thermWord d, d)
  | 0x24 => (d.gl.tdie, d)
  | 0x26 => (keepCtlWord d, d)
  | 0x28 => (keepStatWord d, d)
  | 0x2A => (fwuCtlWord d, d)
  | 0x2C => (fwuStatWord d, d)
  | 0x2E => (h16 (pack [(0, d.cmp.ch.toNat), (4, b2n d.cmp.lsel)]), d)
  | 0x30 => ((chanOf d d.cmp.ch.toNat).reg.cfg.setWidth 16, d)
  | 0x32 => (cmpLvlWord d, d)
  | 0x34 => (cmpStat d, d)
  | 0x36 => (h16 (pack [(0, d.cmp.per.toNat), (15, b2n (ticking d))]), d)
  | 0x38 => (lockWord d, d)
  | 0x3A => readTimeLo d
  | 0x3C => (d.gl.timeHi, d)
  | 0x3E => (d.gl.scratch, d)
  | _ => (0, d)

/-- A read of a port register, by its offset. -/
def readPort (p : PortId) (off : Nat) (d : Dev) : Half × Dev :=
  let q := d.port p
  match off with
  | 0x00 => (pstatWord q, d)
  | 0x02 => (pctlWord q, d)
  | 0x04 => (q.pevt.setWidth 16, d)
  | 0x06 => (q.pmask.setWidth 16, d)
  | 0x08 => (attachWord q, d)
  | 0x0A => (levelWord q, d)
  | 0x0C => (q.met.vseg, d)
  | 0x0E => (q.met.iseg, d)
  | 0x10 => (q.grd.ilim, d)
  | 0x12 => (q.grd.ifast, d)
  | 0x14 => (guardWord q, d)
  | 0x16 => (sat16 (budget d p), d)
  | 0x18 => (sat16 (admitSum q), d)
  | 0x1A => (inflightWord q, d)
  | 0x1C => ((throtOf d p).setWidth 16, d)
  | 0x1E => (railWord q, d)
  | 0x20 => (ringWord q, d)
  | 0x22 => (droopWord q, d)
  | 0x24 => (lineWord q, d)
  | 0x26 => readEnergyLo p d
  | 0x28 => (q.met.latchMid, d)
  | 0x2A => (q.met.latchHi, d)
  | _ => (0, d)

/-- A read by byte address, with its side effect; in ROMBOOT and RECOVERY only ID, REV, MODE and, in RECOVERY, the mailbox
answer (R28). -/
def readReg (a : Nat) (d : Dev) : Half × Dev :=
  let mbx := d.up || decide (d.pw.phase = .recovery)
  if a = 0x00 then (0x2048, d)
  else if a = 0x02 then (0x1103, d)
  else if a = 0x04 then (h16 (modeOf d), d)
  else if a = 0x18 then (if mbx then h16 (d.mbx.op.toNat + 256 * d.mbx.tag.toNat) else 0, d)
  else if a = 0x1A then (if mbx then readMbxArg d else (0, d))
  else if a = 0x1C then (if mbx then mbxStatWord d else 0, d)
  else if !d.up then (0, d)
  else if a < 0x40 then readGlobal a d
  else if a < 0x80 then readPort .p0 (a - 0x40) d
  else if a < 0xC0 then readPort .p1 (a - 0x80) d
  else (0, d)

/-! ## Writes (R84, R85) -/

/-- A write of MODE_REQ: EOFF, then CCLR; EOFF and PARK in one write leave PARK out (chapter 04, Edges). -/
def writeModeReq (v : Half) (d : Dev) : Dev :=
  let d1 := if v.getLsbD 1 then emergencyOff d else releaseEoff d
  let d2 := if v.getLsbD 2 then criticalClear d1 else d1
  if v.getLsbD 0 && !v.getLsbD 1 then writePark d2 else d2

/-- A write of KEEP_CTL: PFEN and PFCH, BP, then what it starts. -/
def writeKeepCtl (v : Half) (d : Dev) : Dev :=
  let n := v.toNat
  let ch : BitVec 4 := BitVec.ofNat 4 (n >>> 4)
  let d1 := if bit n 8 = d.keep.pfen ∧ ch = d.keep.pfch then d else assignTrigger (bit n 8) ch d
  let d2 := writeBp (BitVec.ofNat 2 n) d1
  let d3 := if bit n 3 then scrubRestart d2 else d2
  if bit n 2 then requestStore d3 else d3

/-- A write of FWU_CTL: HOSTCONF, then CONFIRM, then REVERT (R466, R468). -/
def writeFwuCtl (byCore : Bool) (v : Half) (d : Dev) : Dev :=
  let held := byCore && d.fwu.hostconf
  let d1 := dueSettings { d with fwu := { d.fwu with hostconf := v.getLsbD 1 } }
  let d2 := if v.getLsbD 0 && !held then confirmImage d1 else d1
  if v.getLsbD 2 then handBack 2 d2 else d2

/-- A write of a global register, by byte address; RO fields and reserved addresses ignore it (R85). -/
def writeGlobal (byCore : Bool) (a : Nat) (v : Half) (d : Dev) : Dev :=
  match a with
  | 0x06 => writeModeReq v d
  | 0x08 => clearG v 0 d
  | 0x0A => { d with gl := { d.gl with gmask := v.setWidth 14 } }
  | 0x10 => writeTsel v d
  | 0x12 => writeTidx v d
  | 0x14 => writeTdata v d
  | 0x16 => writeTctl v d
  | 0x1E => dueSettings (writeShelf v d)
  | 0x20 => dueSettings (writeGang v d)
  | 0x26 => writeKeepCtl v d
  | 0x2A => writeFwuCtl byCore v d
  | 0x2E => { d with cmp := { d.cmp with ch := v.setWidth 4, lsel := v.getLsbD 4 } }
  | 0x30 => writeCmpCfg v d
  | 0x32 => writeCmpLvl v d
  | 0x36 => writeTick v d
  | 0x38 => writeLock v d
  | 0x3E => { d with gl := { d.gl with scratch := v } }
  | _ => d

/-- A write of RAIL: EN, then SWAP (R222, R238). -/
def writeRail (p : PortId) (v : Half) (d : Dev) : Dev :=
  let d1 := if v.getLsbD 2 = (d.port p).rail.en then d else writeRailEn p (v.getLsbD 2) d
  if v.getLsbD 1 then requestSwap p d1 else d1

/-- A write of GUARD: CLR, then AUTO (R257, R258). -/
def writeGuard (p : PortId) (v : Half) (d : Dev) : Dev :=
  let d1 := if v.getLsbD 5 then guardClear p d else d
  if v.getLsbD 6 = (d1.port p).grd.auto then d1 else guardAuto (v.getLsbD 6) p d1

/-- A write of DROOP. -/
def writeDroop (v : Half) (q : Port) : Port :=
  { q with drp := { q.drp with win := v.setWidth 6, stepCodes := (v >>> 6).setWidth 6, en := v.getLsbD 12 } }

/-- LINE.BPER as a write leaves it: clamped to 2 to 64 (Table 04-6). -/
def clampBper (n : Nat) : BitVec 7 := BitVec.ofNat 7 (if n < 2 then 2 else if 64 < n then 64 else n)

/-- A write of LINE. -/
def writeLine (v : Half) (q : Port) : Port :=
  { q with line := { q.line with bper := clampBper (fld v.toNat 0 7), enr := BitVec.ofNat 2 (fld v.toNat 7 2) } }

/-- A write of a port register, by its offset. -/
def writePort (p : PortId) (off : Nat) (v : Half) (d : Dev) : Dev :=
  match off with
  | 0x02 => writePctl p v d
  | 0x04 => d.modPort p (clearPevt v 0)
  | 0x06 => d.modPort p fun q => { q with pmask := v.setWidth 13 }
  | 0x0A => writeLevel p (v.getLsbD 5) (BitVec.ofNat 2 (fld v.toNat 2 2)) d
  | 0x10 => writeIlim p v d
  | 0x12 => writeIfast p v d
  | 0x14 => writeGuard p v d
  | 0x1E => writeRail p v d
  | 0x20 => dueSettings (d.modPort p fun q => { q with ring := { q.ring with en := v.getLsbD 0 } })
  | 0x22 => dueSettings (d.modPort p (writeDroop v))
  | 0x24 => dueSettings (d.modPort p (writeLine v))
  | _ => d

/-- A write by byte address; in RECOVERY only the mailbox takes one (R28). -/
def writeReg (byCore : Bool) (a : Nat) (v : Half) (d : Dev) : Dev :=
  let mbx := d.up || decide (d.pw.phase = .recovery)
  if a = 0x18 then guardDev mbx (writeMbxCmd v) d
  else if a = 0x1A then guardDev mbx (writeMbxArg v) d
  else if !d.up then d
  else if a < 0x40 then writeGlobal byCore a v d
  else if a < 0x80 then writePort .p0 (a - 0x40) v d
  else if a < 0xC0 then writePort .p1 (a - 0x80) v d
  else d

/-- REGISTER_WRITE (R84): the word address is the bus's A7 to A1. HWMASK has a bit for each of the 128 word addresses
(Table 19-4), and R11 and R85 say only that a write to a reserved address is ignored; that such a write still raises source
7 where its bit of HWMASK is set is the model's choice (assumption 107). -/
def execRegisterWrite (addr : BitVec 7) (v : Half) (s : State) : Answer :=
  onDev (fun d =>
    if busLive d then
      let d1 := writeReg false (2 * addr.toNat) v d
      if d.up then markHost addr.toNat d1 else d1
    else d) s

/-- FLAG_CLEAR (R87): a W1C write, with the sets of the same cycle. -/
def execFlagClear (reg : FlagReg) (mask sets : Half) (s : State) : Answer :=
  onDev (fun d =>
    match reg with
    | .gstat => byHost 4 (clearG mask sets) d
    | .pevt p => byHost (portReg p 0x04) (fun d => d.modPort p (clearPevt mask sets)) d) s

end Sys2Proof.Machine
end

