-- ==== Sys2Proof/Machine/Operands.lean ====
section
/-! DEFINITION. Operands of the Fedora core: the registers that a field names (R413 to R415), every operand form of Tables
20-1 and 20-2 and which words are legal (R433 to R437), the event register and the pending interrupts (R427, R429), trap
entry (R426) and the end of a wait (R429). -/

namespace Sys2Proof.Machine

open Sys2Proof

/-! ## Registers (R413 to R415) -/

/-- The physical register that window register n names (R415). -/
def physOf (c : Core) (n : Nat) : Nat := (c.cwb.toNat + n) % 256

/-- A w or g register by field value; g0 reads 0 (R413, R414). -/
def regVal (c : Core) (n : Nat) : Word :=
  if n < 32 then spGet 0 c.phys (physOf c n) else if n = 32 then 0 else spGet 0 c.g (n - 32)

/-- A w or g register written, under the window base `cwb`; a write of g0 is discarded (R414). -/
def putReg (cwb : Byte) (n : Nat) (v : Word) (c : Core) : Core :=
  if n < 32 then { c with phys := spSet 0 c.phys ((cwb.toNat + n) % 256) v }
  else if n = 32 then c
  else { c with g := spSet 0 c.g (n - 32) v }

/-- An accumulator by field value 40 to 43. -/
def accVal (c : Core) (n : Nat) : Acc := spGet 0 c.acc (n - 40)

/-- An accumulator written. -/
def putAcc (n : Nat) (v : Acc) (c : Core) : Core := { c with acc := spSet 0 c.acc (n - 40) v }

/-- The core of a device changed. -/
def Dev.onCore (d : Dev) (f : Core → Core) : Dev := { d with core := f d.core }

/-! ## Forms (Tables 20-4 to 20-7, R433 to R437) -/

/-- What a register field must hold: a w or g register, an accumulator, a window register, 0, or anything. -/
inductive Field where
  | r
  | acc
  | w
  | zero
  | any
  deriving DecidableEq, Repr

/-- A field value is of its kind (R413, R436, R442). -/
def Field.ok (f : Field) (n : BitVec 6) : Bool :=
  match f with
  | .r => decide (n.toNat < 40)
  | .acc => decide (40 ≤ n.toNat ∧ n.toNat < 44)
  | .w => decide (n.toNat < 32)
  | .zero => decide (n = 0)
  | .any => true

/-- The slot of an operation: 0 A, 1 M, 2 L, 3 B. -/
def Opc.slot : Opc → Nat
  | .add | .sub | .and | .or | .xor | .andn | .mov | .cmp | .shl | .shr | .sar | .ror | .min | .max | .minu | .maxu | .sel
  | .clz | .ext | .addsW | .subsW | .addsH | .subsH | .negsW | .abssW => 0
  | .mul | .mulh | .mulhu | .div | .divu | .rem | .remu | .mpyQ31 | .macQ31 | .msuQ31 | .mpyQ15 | .macQ15 | .accld | .accadd
  | .accsh | .narq31 | .narq15 | .mulai | .mulaf => 1
  | .ldW | .ldH | .ldHu | .ldB | .ldBu | .stW | .stH | .stB | .lda | .sta | .lea | .lrW | .scW | .tasB | .bcopy | .bfill
  | .bdiff => 2
  | .br | .call | .bz | .bnz | .bltz | .bgez | .dbnz | .waituntil | .jr | .callr | .ret | .tret | .ewait | .epost | .fenceI
  | .brk | .syscall | .nop | .mfs | .mts => 3

/-- The operations marked LIT in Tables 20-4 to 20-7 (R435). -/
def Opc.hasLit : Opc → Bool
  | .add | .sub | .and | .or | .xor | .andn | .mov | .cmp | .shl | .shr | .sar | .ror | .min | .max | .minu | .maxu
  | .mul | .mulh | .mulhu | .div | .divu | .rem | .remu
  | .ldW | .ldH | .ldHu | .ldB | .ldBu | .stW | .stH | .stB | .lda | .sta | .lea
  | .br | .call | .bz | .bnz | .bltz | .bgez | .dbnz | .waituntil => true
  | _ => false

/-- The operations whose b operand may be the IMM6 of R436, marked "#". -/
def Opc.hasImm : Opc → Bool
  | .add | .sub | .and | .or | .xor | .andn | .mov | .cmp | .shl | .shr | .sar | .ror | .min | .max | .minu | .maxu
  | .accsh => true
  | _ => false

/-- The loads, stores and LEA that take every mode of Table 20-2. -/
def Opc.modal : Opc → Bool
  | .ldW | .ldH | .ldHu | .ldB | .ldBu | .stW | .stH | .stB | .lda | .sta | .lea => true
  | _ => false

/-- The block operations (R442). -/
def Opc.block : Opc → Bool
  | .bcopy | .bfill | .bdiff => true
  | _ => false

/-- The operations that must stand alone in their bundle (R442, R446, R447). -/
def Opc.alone : Opc → Bool
  | .bcopy | .bfill | .bdiff | .waituntil | .ewait => true
  | _ => false

/-- What the d field holds. -/
def Opc.fieldD : Opc → Field
  | .mpyQ31 | .macQ31 | .msuQ31 | .mpyQ15 | .macQ15 | .accld | .accadd | .accsh | .lda | .sta => .acc
  | .bcopy | .bfill | .bdiff => .w
  | .br | .call | .bz | .bnz | .bltz | .bgez | .dbnz | .waituntil | .jr | .callr | .ret | .tret | .epost | .fenceI | .brk
  | .syscall | .nop | .mts => .any
  | _ => .r

/-- What the a field holds. -/
def Opc.fieldA : Opc → Field
  | .mov => .zero
  | .accadd | .accsh | .narq31 | .narq15 | .mulai | .mulaf => .acc
  | .bcopy | .bfill | .bdiff => .w
  | .br | .call | .ret | .tret | .fenceI | .brk | .syscall | .nop | .mfs | .mts => .any
  | _ => .r

/-- What the b field holds, where it is neither an immediate nor 0 beside a literal. -/
def Opc.fieldB : Opc → Field
  | .clz | .ext | .negsW | .abssW | .accld | .narq31 | .narq15 | .lrW | .tasB => .any
  | .accadd => .acc
  | .bcopy | .bfill | .bdiff => .w
  | .br | .call | .bz | .bnz | .bltz | .bgez | .dbnz | .waituntil | .jr | .callr | .ret | .tret | .ewait | .epost | .fenceI
  | .brk | .syscall | .nop | .mfs => .any
  | _ => .r

/-- The mode of Table 20-2: MOD[3:2]. -/
def opMode (w : OpWord) : Nat := w.mod.toNat / 4

/-- MOD holds no reserved bit and no value that the operation calls ILLEGAL (R434, Tables 20-2 to 20-7, R442). -/
def modOk (o : Opc) (w : OpWord) : Bool :=
  let m := w.mod.toNat
  if w.lit.isSome ∧ o ≠ .cmp then decide (m = 0)
  else if o = .cmp then decide (m % 8 ≤ 5 ∧ (w.lit.isSome = true → m < 8))
  else if o = .accsh then decide (m % 8 < 2)
  else if o.hasImm then decide (m % 8 = 0)
  else if o = .ext ∨ o = .lrW ∨ o = .tasB then decide (m < 4)
  else if o = .bfill then decide (m < 8 ∧ m % 4 ≠ 3)
  else if o.block then decide (m % 4 ≠ 3)
  else if o.modal then decide (opMode w < 2 ∨ m % 4 = 0)
  else decide (m = 0)

/-- The b field is the immediate of R436. -/
def opImm (o : Opc) (w : OpWord) : Bool := o.hasImm && w.mod.getLsbD 3

/-- The b field is legal: 0 beside a literal, anything as an immediate or an offset, else a register of its kind. -/
def fieldBOk (o : Opc) (w : OpWord) : Bool :=
  if w.lit.isSome then decide (w.b = 0)
  else if opImm o w ∨ (o.modal = true ∧ opMode w ≠ 1) then true
  else o.fieldB.ok w.b

/-- Beside a literal the offset fields of a branch are 0 (Table 20-7). -/
def offsetsOk (o : Opc) (w : OpWord) : Bool :=
  match o with
  | .br | .call => w.lit.isNone || decide (w.d = 0 ∧ w.a = 0)
  | .bz | .bnz | .bltz | .bgez | .dbnz => w.lit.isNone || decide (w.d = 0)
  | _ => true

/-- An L operation writes its base back (R421): modes [base]+ and -[base]. -/
def writesBase (o : Opc) (w : OpWord) : Bool := o.modal && w.lit.isNone && decide (2 ≤ opMode w)

/-- A load with write-back whose destination is its base is ILLEGAL (R421). -/
def loadsBase (o : Opc) (w : OpWord) : Bool :=
  match o with
  | .ldW | .ldH | .ldHu | .ldB | .ldBu | .lea => writesBase o w && decide (w.d = w.a)
  | _ => false

/-- A special register number that exists (R439). -/
def specialOk (o : Opc) (w : OpWord) : Bool :=
  match o with
  | .mfs => decide (w.a.toNat ≤ 16)
  | .mts => decide (w.d.toNat ≤ 16)
  | _ => true

/-- The word of an operation is legal by itself (R433 to R437, R439, R442). -/
def wordOk (o : Opc) (w : OpWord) : Bool :=
  (w.lit.isNone || o.hasLit) && modOk o w && o.fieldD.ok w.d && o.fieldA.ok w.a && fieldBOk o w && offsetsOk o w
    && !loadsBase o w && specialOk o w
    && (!o.block || decide (w.d ≠ w.a ∧ w.d ≠ w.b ∧ w.a ≠ w.b))

/-- The d field is a destination. -/
def writesD : Opc → Bool
  | .stW | .stH | .stB | .sta | .br | .call | .bz | .bnz | .bltz | .bgez | .dbnz | .waituntil | .jr | .callr | .ret | .tret
  | .epost | .fenceI | .brk | .syscall | .nop | .mts => false
  | _ => true

/-- The registers an operation writes, by field value; g0 takes no write (R412, R414, R441). -/
def writesOf (o : Opc) (w : OpWord) : List Nat :=
  ((if writesD o then [w.d.toNat] else []) ++ (if writesBase o w ∨ o = .dbnz then [w.a.toNat] else [])).filter (· != 32)

/-- An operation of a bundle in issue. -/
abbrev BundleOp := Opc × OpWord

/-- The slots strictly increase (R434). -/
def slotsRise : List BundleOp → Bool
  | [] => true
  | (o, _) :: t => (match t with | [] => true | (o2, _) :: _ => decide (o.slot < o2.slot)) && slotsRise t

/-- No register is written twice (R412). -/
def noTwice : List Nat → Bool
  | [] => true
  | n :: t => !t.contains n && noTwice t

/-- What the words of a bundle alone decide: it is not ILLEGAL (R412, R434, R442, R446, R447). -/
def bundleOk (l : List BundleOp) : Bool :=
  l.all (fun x => wordOk x.1 x.2) && slotsRise l && (decide (l.length = 1) || l.all fun x => !x.1.alone)
    && noTwice (l.flatMap fun x => writesOf x.1 x.2)
    && (match l.getLast? with | some x => x.2.stop | none => false)

/-- A bundle's length in bytes, literal words included (R434). -/
def bundleLen : List BundleOp → Nat
  | [] => 0
  | (_, w) :: t => (if w.lit.isSome then 8 else 4) + bundleLen t

/-! ## Operand values -/

/-- The b operand: a literal, the zero-extended immediate, or a register (R435, R436). -/
def opB (o : Opc) (w : OpWord) (c : Core) : Word :=
  match w.lit with
  | some v => v
  | none => if opImm o w then w.b.setWidth 32 else regVal c w.b.toNat

/-- The access size of a memory operation, in bytes; 5 for an accumulator (R421). -/
def Opc.size : Opc → Nat
  | .ldW | .stW | .lrW | .scW => 4
  | .ldH | .ldHu | .stH => 2
  | .lda | .sta => 5
  | _ => 1

/-- The address of a memory operation (R421, Table 20-2). -/
def addressOf (o : Opc) (w : OpWord) (c : Core) : Word :=
  let base := regVal c w.a.toNat
  let size := BitVec.ofNat 32 o.size
  match w.lit with
  | some v => base + v
  | none =>
    if o = .scW then base
    else match opMode w with
      | 0 => base + ((w.mod.setWidth 2 ++ w.b : BitVec 8).signExtend 32) * size
      | 1 => base + (regVal c w.b.toNat <<< (w.mod.toNat % 4))
      | 2 => base
      | _ => base - size

/-- What a write-back leaves in the base register (R421). -/
def baseAfter (o : Opc) (w : OpWord) (c : Core) : Word :=
  let base := regVal c w.a.toNat
  let size := BitVec.ofNat 32 o.size
  if opMode w = 2 then base + size else base - size

/-- A branch's target: the literal, or the offset in words from the bundle's first word (Table 20-7). -/
def branchTarget (o : Opc) (w : OpWord) (c : Core) : Word :=
  match w.lit with
  | some v => v
  | none =>
    let off : Word := match o with
      | .br | .call => (w.d ++ w.a ++ w.b : BitVec 18).signExtend 32
      | _ => (w.d ++ w.b : BitVec 12).signExtend 32
    c.pc + off * 4

/-! ## Events and pending interrupts (R427, R429) -/

/-- EVR as it reads; PE0 and PE1 are the ports' signals. -/
def evrWord (d : Dev) : Nat := d.core.evr.toNat ||| pack [(1, b2n d.p0.sig), (2, b2n d.p1.sig)]

/-- Bits of EVR cleared. -/
def clearEvr (m : Nat) (d : Dev) : Dev :=
  { d with core := { d.core with evr := d.core.evr &&& ~~~(BitVec.ofNat 5 m) }
           p0 := { d.p0 with sig := d.p0.sig && !bit m 1 }, p1 := { d.p1 with sig := d.p1.sig && !bit m 2 } }

/-- Sources 0 and 1: a slot that waits for the allocator holds a posted request, or has been warned of (Table 19-3). -/
def engineCalls (q : Port) : Bool := q.slots.any fun x => decide (x.2.state = 1 ∨ x.2.state = 2) && (x.2.posted || x.2.warned)

/-- IPEND (Table 19-3; assumption 27). -/
def ipendWord (d : Dev) : Nat :=
  pack [(0, b2n (engineCalls d.p0)), (1, b2n (engineCalls d.p1)), (2, b2n (decide (d.mbx.state = 1))), (3, b2n (bit d.core.evr.toNat 4))]
    ||| (d.core.ipend.toNat / 16) * 16

/-- The interrupt to take: the lowest source pending and enabled, with IE 1 (R427). -/
def interruptOf (d : Dev) : Option Nat :=
  if d.core.ie then (List.range 8).find? fun s => bit (ipendWord d) s && d.core.ien.getLsbD s else none

/-! ## Trap entry (R426) -/

/-- An address that a fetch may start from (Table 19-1, R422). -/
def fetchable (a : Word) : Bool := decide (a.toNat < 0x20000 ∨ (0xF0000000 ≤ a.toNat ∧ a.toNat < 0xF0008000))

/-- A value of 32 bits for TVAL, where the trap has no address or operand (assumption 5). -/
def trapValue (v : Option Word) (d : Dev) : Word × Dev :=
  match v with
  | some x => (x, d)
  | none => let (x, d1) := takeFree d; (x.setWidth 32, d1)

/-- Where a trap enters: TVEC + 64 × cause (R426). -/
def trapVector (c : Core) (cause : Nat) : Word := (c.tvec ++ (0 : BitVec 6) : BitVec 32) + BitVec.ofNat 32 (64 * cause)

/-- Entry of a trap (R416, R426, R430, R431): the window slides, TH sets, IE is saved and clears; a vector outside the
fetchable regions is an ACCESS trap under TH, so it fires the watchdog (R428, R440). -/
def trapEntry (cause : Nat) (tpc : Word) (val : Option Word) (d : Dev) : Dev :=
  let (v, d1) := trapValue val d
  let c := d1.core
  let vec := trapVector c cause
  { d1 with core := { c with
      cwb := c.cwb + 24, wres := if c.wres.toNat < 10 then c.wres + 1 else c.wres
      th := true, ieSaved := c.ie, ie := false
      tpc := tpc, tval := v, tcause := BitVec.ofNat 6 cause, pc := vec
      resv := none, iramFetch := c.iram, bundle := [], wdNow := c.wdNow || !fetchable vec } }

/-- A synchronous trap: under TH it is a double trap, which fires the watchdog at once (R428); it ends the self-check of R467. -/
def syncTrap (cause : Nat) (tpc : Word) (val : Option Word) (d : Dev) : Dev :=
  let d1 := { d with fwu := { d.fwu with trapped := true } }
  if d1.core.th then { d1 with core := { d1.core with wdNow := true, bundle := [] } } else trapEntry cause tpc val d1

/-- The next bundle is fetched from an address; outside the fetchable regions that raises ACCESS there (R440). -/
def goTo (a : Word) (d : Dev) : Dev :=
  if fetchable a then { d with core := { d.core with pc := a } }
  else syncTrap 3 a (some a) { d with core := { d.core with pc := a } }

/-! ## The end of a wait (R429, R446, R447) -/

/-- The timebase has reached a target: (TIME - t) mod 2^32 lies in 0 to 2^31 - 1. -/
def reached (d : Dev) (t : Word) : Bool := decide ((d.timebase - t).toNat < 2147483648)

/-- A wait that has its event, or its time, completes, and the next bundle follows. -/
def settleWait (d : Dev) : Dev :=
  match d.core.wait with
  | some (.ewait f mask n) =>
    let sel := evrWord d &&& mask.toNat &&& 31
    if sel = 0 then d
    else goTo (d.core.pc + BitVec.ofNat 32 n)
      (clearEvr sel (d.onCore fun c => putReg c.cwb f.toNat (BitVec.ofNat 32 sel) { c with wait := none }))
  | some (.until_ t n) =>
    if reached d t then goTo (d.core.pc + BitVec.ofNat 32 n) (d.onCore fun c => { c with wait := none }) else d
  | none => d

end Sys2Proof.Machine
end

