-- ==== Sys2Proof/WellFormed.lean ====
section
/-! DEFINITION. Which commands are well formed: an operand beyond what the spec lets the sender choose is not. Every command
has a meaning well formed or not; the core takes an ill-formed operation word as ILLEGAL (R433 to R436). -/

namespace Sys2Proof

open Machine

/-- A frame whose payload the length field can count: five bits, of which a receiver discards 25 and more (Table 07-2, R147). -/
def frameFits (f : Frame) : Bool := decide (f.payload.length ≤ 31)

/-- The command's operands are ones the spec gives it: a legal operation word (R433 to R437, R442), at most 51 page writes of a
commit (R394), a pause of 200 to 1000 ms (R224), a notice of 5 to 10 ms (R211), Keep-E addresses (R391), sixteen comparator
inputs (R376), a frame that fits its length. -/
def Instr.wf : Instr → Bool
  | .add w => wordOk .add w
  | .sub w => wordOk .sub w
  | .andOp w => wordOk .and w
  | .orOp w => wordOk .or w
  | .xor w => wordOk .xor w
  | .andn w => wordOk .andn w
  | .mov w => wordOk .mov w
  | .cmpCc w => wordOk .cmp w
  | .shl w => wordOk .shl w
  | .shr w => wordOk .shr w
  | .sar w => wordOk .sar w
  | .ror w => wordOk .ror w
  | .min w => wordOk .min w
  | .max w => wordOk .max w
  | .minu w => wordOk .minu w
  | .maxu w => wordOk .maxu w
  | .sel w => wordOk .sel w
  | .clz w => wordOk .clz w
  | .ext w => wordOk .ext w
  | .addsW w => wordOk .addsW w
  | .subsW w => wordOk .subsW w
  | .addsH w => wordOk .addsH w
  | .subsH w => wordOk .subsH w
  | .negsW w => wordOk .negsW w
  | .abssW w => wordOk .abssW w
  | .mul w => wordOk .mul w
  | .mulh w => wordOk .mulh w
  | .mulhu w => wordOk .mulhu w
  | .div w => wordOk .div w
  | .divu w => wordOk .divu w
  | .rem w => wordOk .rem w
  | .remu w => wordOk .remu w
  | .mpyQ31 w => wordOk .mpyQ31 w
  | .macQ31 w => wordOk .macQ31 w
  | .msuQ31 w => wordOk .msuQ31 w
  | .mpyQ15 w => wordOk .mpyQ15 w
  | .macQ15 w => wordOk .macQ15 w
  | .accld w => wordOk .accld w
  | .accadd w => wordOk .accadd w
  | .accsh w => wordOk .accsh w
  | .narq31 w => wordOk .narq31 w
  | .narq15 w => wordOk .narq15 w
  | .mulai w => wordOk .mulai w
  | .mulaf w => wordOk .mulaf w
  | .ldW w => wordOk .ldW w
  | .ldH w => wordOk .ldH w
  | .ldHu w => wordOk .ldHu w
  | .ldB w => wordOk .ldB w
  | .ldBu w => wordOk .ldBu w
  | .stW w => wordOk .stW w
  | .stH w => wordOk .stH w
  | .stB w => wordOk .stB w
  | .lda w => wordOk .lda w
  | .sta w => wordOk .sta w
  | .lea w => wordOk .lea w
  | .lrW w => wordOk .lrW w
  | .scW w => wordOk .scW w
  | .tasB w => wordOk .tasB w
  | .bcopy w => wordOk .bcopy w
  | .bfill w => wordOk .bfill w
  | .bdiff w => wordOk .bdiff w
  | .br w => wordOk .br w
  | .call w => wordOk .call w
  | .bz w => wordOk .bz w
  | .bnz w => wordOk .bnz w
  | .bltz w => wordOk .bltz w
  | .bgez w => wordOk .bgez w
  | .dbnz w => wordOk .dbnz w
  | .waituntil w => wordOk .waituntil w
  | .jr w => wordOk .jr w
  | .callr w => wordOk .callr w
  | .ret w => wordOk .ret w
  | .tret w => wordOk .tret w
  | .ewait w => wordOk .ewait w
  | .epost w => wordOk .epost w
  | .fenceI w => wordOk .fenceI w
  | .breakOp w => wordOk .brk w
  | .syscall w => wordOk .syscall w
  | .nop w => wordOk .nop w
  | .mfs w => wordOk .mfs w
  | .mts w => wordOk .mts w
  | .supplyLost pages => decide (pages ≤ 51)
  | .resetAssert pages => decide (pages ≤ 51)
  | .khotRise pages => decide (pages ≤ 51)
  | .levelNotice _ b1 => decide (5 ≤ b1 ∧ b1 ≤ 10)
  | .contentionPause _ ms => decide (200 ≤ ms ∧ ms ≤ 1000)
  | .ringFrameMirror _ f => frameFits f
  | .keepCommitIssue writes => writes.all (fun x => decide (x.1 < 131072)) && decide (writes.length ≤ 2048)
  | .cmpTick inputs => decide (inputs.length = 16)
  | .unknownFrame _ f => frameFits f
  | .coldStart .. | .latchRearm | .resetRelease | .presentLow | .busLive | .presentHigh | .pllLock | .clockFail
  | .evqPop | .timeLo | .energyLo .. | .tdataRead .. | .tdataWrite .. | .tselWrite .. | .tidxWrite .. | .commit
  | .abort .. | .mbxArgWrite .. | .mbxArgRead | .echo | .fwuBegin .. | .fwuPiece .. | .fwuApply .. | .fwuCancel
  | .recoveryImage .. | .ownerEnrol | .fwlockSet | .fwlockClear | .keepDefaults | .mbxDone | .park | .emergencyOff
  | .eoffRelease | .cclr | .keepCtlStore | .keepCtlScrub | .blockProtectWrite .. | .powerFailTriggerAssign ..
  | .confirm .. | .revert | .lockCode .. | .guardClr .. | .guardAutoWrite .. | .roleWrite .. | .enWrite ..
  | .autoWrite .. | .lmaxWrite .. | .ps2Write .. | .fixedWrite .. | .levelWrite .. | .railSwap .. | .railEnWrite ..
  | .ilimWrite .. | .ifastWrite .. | .flagClear .. | .cmpCfgWrite .. | .cmpLvlWrite .. | .registerWrite ..
  | .fastOverCurrent .. | .slowOverCurrent .. | .overVoltage .. | .reverseCurrent .. | .reverseCurrentBlock ..
  | .ringReclose .. | .ringBlockTimeout .. | .coolDown .. | .guardReclose .. | .pathClosed .. | .criticalTrip
  | .safeExit | .khotClear | .droopDetect .. | .droopHoldEnd .. | .droopStepRemoved .. | .droopLimitFall ..
  | .droopLimitEnd .. | .vsetCalibration .. | .levelRampStart .. | .levelRampEnd .. | .levelSettled ..
  | .levelStepTimeout .. | .levelTrim .. | .feedOutOfBand .. | .l0NotReached .. | .lfaultClear .. | .idleLevelDrop ..
  | .firstSecondStart .. | .firstSecondEnd .. | .levelDecision .. | .restoreReadyBroadcast .. | .probeCycle ..
  | .attach .. | .peerWindow .. | .contentionPauseEnd .. | .detach .. | .probeResume .. | .drawJoin ..
  | .upstreamSilence .. | .beacon .. | .enrolWindowEnd .. | .poll .. | .ackMissing .. | .request .. | .enroll ..
  | .ack .. | .nak .. | .hint .. | .report .. | .foreignBeacon .. | .calPulse .. | .specConfirmExpiry ..
  | .busySlotExpiry .. | .allocatorPass | .engineConfirm .. | .engineDeny .. | .engineWithdraw ..
  | .engineLevelTarget .. | .ready .. | .hintLevelRaise .. | .hintReservationEnd .. | .peerGap .. | .peerHello ..
  | .peerReport .. | .railSwapReq .. | .railSwapAck .. | .swapGiverBackup .. | .railSwapEnd .. | .swapSlotTimeout ..
  | .ringJoinTrim .. | .ringJoinFail .. | .ringJoinRetry .. | .ringSynchronised .. | .followerTakeover ..
  | .followerLost .. | .railOc .. | .railOcOff .. | .railRetry .. | .railOcClear .. | .parkHandoffTimeout ..
  | .gangFrame | .gsyncEdge | .glead .. | .gmem .. | .memberSlot .. | .gangElection | .gangJoin | .gangReadbackFault
  | .gangRetry | .thermalThrottleUpdate .. | .bundleModel | .thermalReportExpiry | .throt .. | .ceilingThrotClear ..
  | .calibrationPoint | .energyStore | .keepCommitStart | .keepDurable | .tableDurableCommit | .rosterPageWrite ..
  | .keepSStoreDone | .powerFailTrigger | .powerFailRearm | .scrubGroup .. | .watchdog | .allocatorResume | .handover
  | .handoverResume | .handoverBusyTimeout | .healthTimeout | .healthSelfCheck | .sequencerReload ..
  | .sequencerReloadDone .. | .captureFifoRead | .interrupt | .dmaDone | .debugHaltRequest .. | .timebaseCompare
  | .beaconReceived .. | .pollReceived .. | .acceptReceived .. | .readyReceived .. | .withdrawReceived ..
  | .waitReceived .. | .rejectReceived .. | .assignReceived .. | .shedToneReceived .. | .softResetReceived ..
  | .hardResetReceived .. | .calPulseReceived .. | .enrollMinislot .. | .grantTimeout .. | .advertReceived ..
  | .slotAtTspecconfirmLess2ms .. | .lockCodeTimeout | .thermRelChange .. | .sreadyChange .. | .tdieUpdate ..
  | .vsegIsegMean | .guardMeterSample .. | .vioAbsent => true

end Sys2Proof
end

