-- ==== Sys2Proof/Machine/CoreAlu.lean ====
section
/-! DEFINITION. The A and M units of the Fedora core: what each operation of Tables 20-4 and 20-5 computes, with the fixed
point of R419 and R420. -/

namespace Sys2Proof.Machine

open Sys2Proof

/-! ## What an operation comes to -/

/-- An operation or a bundle commits a value, traps with a cause and a TVAL (none where the trap has neither address nor
operand), or reaches a unit that no rule describes. -/
inductive CoreOut (α : Type) where
  | ok (v : α)
  | trap (cause : Nat) (val : Option Word)
  | refuse (r : Refusal)

/-- What an operation commits, its sources read: special registers first, then its other results; and the address of the
next bundle, where it is not the one that follows. -/
structure OpEffect where
  pre : Dev → Dev := id
  act : Dev → Dev := id
  next : Option Word := none

/-! ## Saturation and rounding (R419, R420) -/

/-- A value held to `n` bits, and whether it saturated. -/
def satBits (n : Nat) (x : Int) : Int × Bool :=
  let top : Int := 2 ^ (n - 1)
  if x < -top then (-top, true) else if top ≤ x then (top - 1, true) else (x, false)

/-- x / 2^n rounded by CORECFG.RND: 0 down, 1 half up, 2 and 3 half to even (R420). -/
def roundShift (rnd : BitVec 2) (x : Int) (n : Nat) : Int :=
  let half : Int := 2 ^ n
  let q := x / half
  let r := 2 * (x % half)
  if rnd = 0 then q
  else if rnd = 1 then (if half ≤ r then q + 1 else q)
  else if half < r ∨ (r = half ∧ q % 2 = 1) then q + 1 else q

/-- A 32-bit result that saturates. -/
def satWord (x : Int) : Word × Bool := let r := satBits 32 x; (BitVec.ofInt 32 r.1, r.2)

/-- A Q1.15 result that saturates, sign-extended. -/
def satHalf (x : Int) : Word × Bool := let r := satBits 16 x; (BitVec.ofInt 32 r.1, r.2)

/-- An accumulator result that saturates. -/
def satAcc (x : Int) : Acc × Bool := let r := satBits 40 x; (BitVec.ofInt 40 r.1, r.2)

/-- Bits [15:0] as a signed number. -/
def halfInt (a : Word) : Int := (a.setWidth 16).toInt

/-! ## The A unit (Table 20-4) -/

/-- The number of leading zeros, 0 to 32. -/
def leadingZeros (a : Word) : Nat := ((List.range 32).find? fun i => a.getLsbD (31 - i)).getD 32

/-- A comparison by MOD[2:0]. -/
def compares (cc : Nat) (a b : Word) : Bool :=
  match cc with
  | 0 => decide (a = b)
  | 1 => decide (a ≠ b)
  | 2 => decide (a.toInt < b.toInt)
  | 3 => decide (b.toInt ≤ a.toInt)
  | 4 => decide (a.toNat < b.toNat)
  | _ => decide (b.toNat ≤ a.toNat)

/-- EXT by MOD[1:0]. -/
def extend (m : Nat) (a : Word) : Word :=
  match m with
  | 0 => (a.setWidth 8).signExtend 32
  | 1 => (a.setWidth 16).signExtend 32
  | 2 => (a.setWidth 8).setWidth 32
  | _ => (a.setWidth 16).setWidth 32

/-- The result of an operation that writes a register from registers, and whether it saturated; `d` is the old destination. -/
def aluVal (o : Opc) (m : Nat) (d a b : Word) : Word × Bool :=
  match o with
  | .add => (a + b, false)
  | .sub => (a - b, false)
  | .and => (a &&& b, false)
  | .or => (a ||| b, false)
  | .xor => (a ^^^ b, false)
  | .andn => (a &&& ~~~b, false)
  | .mov => (b, false)
  | .cmp => (BitVec.ofNat 32 (b2n (compares (m % 8) a b)), false)
  | .shl => (a <<< (b.toNat % 32), false)
  | .shr => (a >>> (b.toNat % 32), false)
  | .sar => (a.sshiftRight (b.toNat % 32), false)
  | .ror => (a.rotateRight (b.toNat % 32), false)
  | .min => (if a.toInt < b.toInt then a else b, false)
  | .max => (if a.toInt < b.toInt then b else a, false)
  | .minu => (if a.toNat < b.toNat then a else b, false)
  | .maxu => (if a.toNat < b.toNat then b else a, false)
  | .sel => (if d ≠ 0 then a else b, false)
  | .clz => (BitVec.ofNat 32 (leadingZeros a), false)
  | .ext => (extend (m % 4) a, false)
  | .addsW => satWord (a.toInt + b.toInt)
  | .subsW => satWord (a.toInt - b.toInt)
  | .addsH => satHalf (halfInt a + halfInt b)
  | .subsH => satHalf (halfInt a - halfInt b)
  | .negsW => satWord (-a.toInt)
  | .abssW => satWord (if a.toInt < 0 then -a.toInt else a.toInt)
  | .mul => (a * b, false)
  | .mulh => (BitVec.ofInt 32 (a.toInt * b.toInt / 4294967296), false)
  | .mulhu => (BitVec.ofNat 32 (a.toNat * b.toNat / 4294967296), false)
  | .div => (if b = 0 then 0xFFFFFFFF else BitVec.ofInt 32 (a.toInt.tdiv b.toInt), false)
  | .divu => (if b = 0 then 0xFFFFFFFF else BitVec.ofNat 32 (a.toNat / b.toNat), false)
  | .rem => (if b = 0 then a else BitVec.ofInt 32 (a.toInt.tmod b.toInt), false)
  | .remu => (if b = 0 then a else BitVec.ofNat 32 (a.toNat % b.toNat), false)
  | _ => (d, false)

/-- The operations that `aluVal` computes: the A unit, and the M unit's integer operations. -/
def Opc.isAlu (o : Opc) : Bool :=
  decide (o.slot = 0) || match o with
    | .mul | .mulh | .mulhu | .div | .divu | .rem | .remu => true
    | _ => false

/-- A register written, with a sticky saturation (R420). -/
def regEffect (cwb : Byte) (n : Nat) (v : Word × Bool) : OpEffect :=
  { act := fun d => d.onCore fun c => putReg cwb n v.1 { c with sat := c.sat || v.2 } }

/-- An accumulator written, with a sticky saturation (R419). -/
def accEffect (n : Nat) (v : Acc × Bool) : OpEffect :=
  { act := fun d => d.onCore fun c => putAcc n v.1 { c with aov := c.aov || v.2 } }

/-- An operation that `aluVal` computes. -/
def aluEval (o : Opc) (w : OpWord) (c : Core) : OpEffect :=
  regEffect c.cwb w.d.toNat (aluVal o w.mod.toNat (regVal c w.d.toNat) (regVal c w.a.toNat) (opB o w c))

/-! ## The accumulators (Table 20-5) -/

/-- A Q1.31 product at 31 fraction bits (Table 20-5). -/
def productQ31 (rnd : BitVec 2) (a b : Word) : Int := roundShift rnd (a.toInt * b.toInt) 31

/-- A Q1.15 product at 31 fraction bits, which is exact. -/
def productQ15 (a b : Word) : Int := 2 * (halfInt a * halfInt b)

/-- The result of an operation that writes an accumulator: its exact value, before saturation. -/
def macVal (o : Opc) (rnd : BitVec 2) (acc : Acc) (a b : Word) : Int :=
  match o with
  | .mpyQ31 => productQ31 rnd a b
  | .macQ31 => acc.toInt + productQ31 rnd a b
  | .msuQ31 => acc.toInt - productQ31 rnd a b
  | .mpyQ15 => productQ15 a b
  | .macQ15 => acc.toInt + productQ15 a b
  | _ => a.toInt

/-- ACCSH by at most 39: right, or left with saturation. -/
def accShift (left : Bool) (a : Acc) (n : Nat) : Acc × Bool :=
  if left then satAcc (a.toInt * 2 ^ n) else (a.sshiftRight n, false)

/-- ACCSH; for an amount above 39 the spec states no result (assumption 5). -/
def accShiftEffect (w : OpWord) (c : Core) : OpEffect :=
  let n := (opB .accsh w c).toNat
  if n ≤ 39 then accEffect w.d.toNat (accShift (w.mod.getLsbD 0) (accVal c w.a.toNat) n)
  else { act := fun d => let (v, d1) := takeFree d; (accEffect w.d.toNat (v.setWidth 40, v.getLsbD 63)).act d1 }

/-- The result of an operation that narrows an accumulator into a register (R420, Table 20-5). -/
def narrowVal (o : Opc) (rnd : BitVec 2) (a : Acc) (b : Word) : Word × Bool :=
  match o with
  | .narq31 => satWord a.toInt
  | .narq15 => satHalf (roundShift rnd a.toInt 16)
  | .mulai => satWord (roundShift rnd (a.toInt * b.toInt) 31)
  | _ => (BitVec.ofInt 32 (2 * (a.toInt * b.toInt % 2147483648)), false)

/-- An operation of the A or M unit. -/
def arithEval (o : Opc) (w : OpWord) (c : Core) : OpEffect :=
  if o.isAlu then aluEval o w c
  else match o with
    | .narq31 | .narq15 | .mulai | .mulaf =>
      regEffect c.cwb w.d.toNat (narrowVal o c.rnd (accVal c w.a.toNat) (regVal c w.b.toNat))
    | .accadd => accEffect w.d.toNat (satAcc ((accVal c w.a.toNat).toInt + (accVal c w.b.toNat).toInt))
    | .accsh => accShiftEffect w c
    | _ => accEffect w.d.toNat
        (satAcc (macVal o c.rnd (accVal c w.d.toNat) (regVal c w.a.toNat) (regVal c w.b.toNat)))

end Sys2Proof.Machine
end

