-- ==== Sys2Proof/Machine/CoreMem.lean ====
section
/-! DEFINITION. The L unit of the Fedora core: the memory map of Table 19-1, what a load and a store of each area do (R421 to
R424), and the loads, stores, atomics and block operations of Table 20-6 (R430, R442 to R445, R448). -/

namespace Sys2Proof.Machine

open Sys2Proof

/-! ## The memory map (Table 19-1) -/

/-- The area an address lies in, with the place inside it. -/
inductive Area where
  | iram (off : Nat)
  | ram (off : Nat)
  | table (p : PortId) (t i off : Nat)
  | mirror (off : Nat)
  | engine (p : PortId)
  | capture (off : Nat)
  | keepEngine
  | timebase (off : Nat)
  | mailbox (off : Nat)
  | gangBus
  | keepS (off : Nat)
  | rom (off : Nat)
  deriving DecidableEq, Repr

/-- The row of Table 19-1 that names an address; none where no row does. -/
def areaOf (a : Nat) : Option Area :=
  if a < 0x20000 then some (.iram a)
  else if a < 0x10000000 then none
  else if a < 0x10040000 then some (.ram (a - 0x10000000))
  else if a < 0x20000000 then none
  else if a < 0x22000000 then
    some (.table (if a < 0x21000000 then .p0 else .p1) (a / 0x100000 % 16) (a % 0x100000 / 32) (a % 32))
  else if a < 0x30000000 then none
  else if a < 0x30100000 then some (.mirror (a - 0x30000000))
  else if a < 0x30100200 then some (.engine (if a < 0x30100100 then .p0 else .p1))
  else if a < 0x30200000 then none
  else if a < 0x30200080 then some (.capture (a - 0x30200000))
  else if a < 0x30300000 then none
  else if a < 0x30301000 then some .keepEngine
  else if a < 0x30400000 then none
  else if a < 0x30400040 then some (.timebase (a - 0x30400000))
  else if a < 0x30500000 then none
  else if a < 0x30501000 then some (.mailbox (a - 0x30500000))
  else if a < 0x30600000 then none
  else if a < 0x30600100 then some .gangBus
  else if a < 0x38000000 then none
  else if a < 0x38004000 then some (.keepS (a - 0x38000000))
  else if a < 0xF0000000 then none
  else if a < 0xF0008000 then some (.rom (a - 0xF0000000))
  else none

/-- A load of `n` bytes is permitted; an accumulator's eight only from a memory or a table. -/
def Area.loads (r : Area) (n : Nat) : Bool :=
  match r with
  | .engine _ => false
  | .iram _ | .ram _ | .table .. | .keepS _ | .rom _ => true
  | _ => decide (n ≤ 4)

/-- A store of `n` bytes is permitted. -/
def Area.stores (r : Area) (n : Nat) : Bool :=
  match r with
  | .table .. | .capture _ | .rom _ => false
  | .iram _ | .ram _ | .keepS _ => true
  | .mirror _ => decide (n = 2 ∨ n = 4)
  | .engine _ => decide (n = 4)
  | .timebase off => decide (4 ≤ off ∧ n ≤ 4)
  | .mailbox off => decide (n ≤ 4 ∧ off / 2 ≠ 0x600)
  | .keepEngine | .gangBus => decide (n ≤ 4)

/-- An access that is aligned, named and permitted (R421, R422); of two units Table 19-1 names no rule gives the registers. -/
def accessAt (store : Bool) (n : Nat) (a : Word) : CoreOut Area :=
  if a.toNat % n ≠ 0 then .trap 2 (some a)
  else match areaOf a.toNat with
    | none => .trap 3 (some a)
    | some r =>
      if (if store then r.stores n else r.loads n) then
        match r with
        | .keepEngine => .refuse .keepEngineWindow
        | .gangBus => .refuse .gangControllerWindow
        | _ => .ok r
      else .trap 3 (some a)

/-! ## Loads -/

/-- A data-RAM byte: the one written last, or what the start left (R464; assumption 6). -/
def ramByte (c : Core) (a : Nat) : Byte :=
  spGetF (fun k => Config.lostByte (if 0x3C000 ≤ k then c.keptEpoch else c.ramEpoch) (0x10000000 + k)) c.ram a

/-- An IRAM byte as a load sees it. -/
def iramByte (c : Core) (a : Nat) : Byte := spGetF (fun k => Config.lostByte c.keptEpoch k) c.iram a

/-- A word of which no rule states the value (assumption 5). -/
def freeWord (d : Dev) : Word × Dev := let (v, d1) := takeFree d; (v.setWidth 32, d1)

/-- A core read of the first word of a record takes the core's snapshot (R423). -/
def coreSnap (p : PortId) (t i : Nat) (d : Dev) : Dev :=
  let d1 := notePoison (snapPoisoned d t p.toNat i) d
  d1.onCore fun c => { c with snap := some (p.toNat, t, i, recordWords d t p i) }

/-- The registers that the core's mirror reads as 0 and does not write (Table 19-1). -/
def mirrorHides (b : Nat) : Bool := decide (b = 0x0C ∨ b = 0x12 ∨ b = 0x14 ∨ b = 0x16)

/-- The mirror's word of the host register at byte address b. -/
def mirrorWord (b : Nat) (d : Dev) : Word × Dev :=
  if mirrorHides b then (0, d) else let (v, d1) := readReg b d; (v.setWidth 32, d1)

/-- A halfword of the mailbox buffers, by its place (Table 19-1); what was never written has no stated value. -/
def mailHalf (k : Nat) (d : Dev) : Half × Dev :=
  if k = 0x600 then (h16 d.mbx.args.length, d)
  else if k = 0x601 then (h16 (b2n d.mbx.overrun), d)
  else match (if k < d.mbx.args.length then d.mbx.args[k]? else spFind d.mbx.buf k) with
    | some v => (v, d)
    | none => let (v, d1) := takeFree d; (v.setWidth 16, d1)

/-- The word of a peripheral area that holds an aligned place, with the read's effect. -/
def areaWord (r : Area) (d : Dev) : Word × Dev :=
  match r with
  | .mirror off => if off % 4 < 2 then mirrorWord (off / 4 * 2) d else (0, d)
  | .capture off =>
    if off < 4 then captureRead d
    else if off < 8 then (d.cmp.capTime, d)
    else if off < 12 then (BitVec.ofNat 32 d.cmp.fifo.length, d)
    else freeWord d
  | .timebase off => if off < 4 then (d.timebase, d) else if off < 8 then (d.core.compare, d) else freeWord d
  | .mailbox off =>
    let (lo, d1) := mailHalf (off / 4 * 2) d
    let (hi, d2) := mailHalf (off / 4 * 2 + 1) d1
    (hi ++ lo, d2)
  | _ => (0, d)

/-- The bytes of a word, low byte first (R433). -/
def wordBytes (v : Word) : List Byte := leBytes v.toNat 4

/-- Bytes of a record's snapshot; beyond a record's words they read 0 (Table 19-1). -/
def snapBytes (off n : Nat) (ws : List Half) : List Byte :=
  let b := ws.flatMap fun w => le2 w.toNat
  (List.range n).map fun k => b.getD (off + k) 0

/-- A load of `n` bytes: what it reads, and what the read does. -/
def loadBytes (r : Area) (n : Nat) (d : Dev) : List Byte × Dev :=
  match r with
  | .iram a => ((List.range n).map fun k => iramByte d.core (a + k), d)
  | .ram a => ((List.range n).map fun k => ramByte d.core (a + k), d)
  | .keepS a => (readBytes d.keep.s a n, d)
  | .rom a => ((List.range n).map fun k => Config.romByte (a + k), d)
  | .table p t i off =>
    let d1 := if off < 4 then coreSnap p t i d else d
    match d1.core.snap with
    | some (_, _, _, ws) => (snapBytes off n ws, d1)
    | none => let (v, d2) := takeFree d1; (leBytes v.toNat n, d2)
  | .mirror off | .capture off | .timebase off | .mailbox off =>
    let (v, d1) := areaWord r d
    (((wordBytes v).drop (off % 4)).take n, d1)
  | .engine _ | .keepEngine | .gangBus => (List.replicate n 0, d)

/-! ## Stores -/

/-- A store to the engine command port (R424): one action; any other operation is discarded. -/
def engineStore (p : PortId) (v : Nat) (d : Dev) : Dev :=
  match v / 16777216 with
  | 1 => coreConfirm p (v % 128) d
  | 2 => coreDeny p (v % 128) (fld v 8 8) d
  | 3 => coreWithdraw p (BitVec.ofNat 10 v) (fld v 12 4) d
  | 4 => coreTarget p (BitVec.ofNat 2 v) d
  | _ => d

/-- The timebase compare register written: source 4 is no longer pending, and is armed anew (R427, R447; assumption 27). -/
def setCompare (v : Word) (c : Core) : Core := { c with compare := v, compareOn := true, ipend := c.ipend &&& 0xEF }

/-- Bytes of a word replaced from a place on. -/
def mergeBytes (v : Word) (at_ : Nat) (l : List Byte) : Word :=
  let b := wordBytes v
  BitVec.ofNat 32 (leNat (b.take at_ ++ l ++ b.drop (at_ + l.length)))

/-- A halfword of the mailbox buffers written (Table 19-1). -/
def putMailHalf (k : Nat) (v : Half) (d : Dev) : Dev :=
  if k = 0x601 then { d with mbx := { d.mbx with overrun := v.getLsbD 0 } }
  else if k < d.mbx.args.length then { d with mbx := { d.mbx with args := d.mbx.args.set k v } }
  else { d with mbx := { d.mbx with buf := spPut d.mbx.buf k v } }

/-- Bytes of the mailbox buffers written, each into its halfword. -/
def putMail (off : Nat) : List Byte → Dev → Dev
  | [], d => d
  | b :: t, d =>
    let (v, d1) := mailHalf (off / 2) d
    let v1 : Half := if off % 2 = 0 then (v &&& 0xFF00) ||| b.setWidth 16 else (v &&& 0xFF) ||| (b.setWidth 16 <<< 8)
    putMail (off + 1) t (putMailHalf (off / 2) v1 d1)

/-- A core store to data RAM ends a reservation of a granule it touches (R430). -/
def endsResv (a n : Nat) (r : Option Nat) : Option Nat :=
  match r with
  | some g => if a / 8 ≤ g ∧ g ≤ (a + n - 1) / 8 then none else some g
  | none => none

/-- A store of bytes. -/
def storeBytes (r : Area) (l : List Byte) (d : Dev) : Dev :=
  match r with
  | .iram a => d.onCore fun c => { c with iram := putBytes c.iram a l }
  | .ram a => d.onCore fun c => { c with ram := putBytes c.ram a l, resv := endsResv a l.length c.resv }
  | .keepS a => { d with keep := writeS a l d.us d.keep }
  | .mirror off =>
    if off % 4 = 0 && !mirrorHides (off / 4 * 2) then writeReg true (off / 4 * 2) (h16 (leNat (l.take 2))) d else d
  | .engine p => engineStore p (leNat l) d
  | .timebase off =>
    if off < 8 then d.onCore fun c => setCompare (mergeBytes c.compare (off - 4) l) c
    else if off = 8 ∧ l.head? = some 0x5A then d.onCore fun c => { c with wdAt := d.us }
    else d
  | .mailbox off => putMail off l d
  | .table .. | .capture _ | .rom _ | .keepEngine | .gangBus => d

/-! ## Loads, stores and LEA (Table 20-6) -/

/-- The bytes an access moves: an accumulator's image occupies 8 (R421). -/
def accessBytes (o : Opc) : Nat := if o = .lda ∨ o = .sta then 8 else o.size

/-- What a load of a register makes of its bytes. -/
def loadVal (o : Opc) (l : List Byte) : Word :=
  let n := leNat l
  match o with
  | .ldH => (BitVec.ofNat 16 n).signExtend 32
  | .ldB => (BitVec.ofNat 8 n).signExtend 32
  | _ => BitVec.ofNat 32 n

/-- The base's write-back, where the mode has one. -/
def writeBack (o : Opc) (w : OpWord) (c0 : Core) (d : Dev) : Dev :=
  if writesBase o w then d.onCore (putReg c0.cwb w.a.toNat (baseAfter o w c0)) else d

/-- What a load does, its address found. -/
def loadAct (o : Opc) (w : OpWord) (c : Core) (r : Area) (d : Dev) : Dev :=
  let x := loadBytes r (accessBytes o) d
  let put := fun (k : Core) =>
    if o = .lda then putAcc w.d.toNat (BitVec.ofNat 40 (leNat (x.1.take 5))) k else putReg c.cwb w.d.toNat (loadVal o x.1) k
  writeBack o w c (x.2.onCore put)

/-- A load. -/
def loadEval (o : Opc) (w : OpWord) (c : Core) : CoreOut OpEffect :=
  match accessAt false (accessBytes o) (addressOf o w c) with
  | .ok r => .ok { act := loadAct o w c r }
  | .trap n v => .trap n v
  | .refuse r => .refuse r

/-- The bytes a store writes; those of an accumulator end in its sign (Table 20-6). -/
def storedBytes (o : Opc) (w : OpWord) (c : Core) : List Byte :=
  if o = .sta then leBytes ((accVal c w.d.toNat).signExtend 64).toNat 8
  else leBytes (regVal c w.d.toNat).toNat o.size

/-- A store. -/
def storeEval (o : Opc) (w : OpWord) (c : Core) : CoreOut OpEffect :=
  match accessAt true (accessBytes o) (addressOf o w c) with
  | .ok r => .ok { act := fun d => storeBytes r (storedBytes o w c) (writeBack o w c d) }
  | .trap n v => .trap n v
  | .refuse r => .refuse r

/-! ## Atomics (R430, R448) -/

/-- An aligned place in data RAM; outside it an atomic raises ACCESS. -/
def atomicAt (n : Nat) (a : Word) : CoreOut Nat :=
  if a.toNat % n ≠ 0 then .trap 2 (some a)
  else match areaOf a.toNat with
    | some (.ram off) => .ok off
    | _ => .trap 3 (some a)

/-- LR.W. -/
def loadReserved (w : OpWord) (c : Core) (off : Nat) : OpEffect :=
  { act := fun d => d.onCore fun x =>
      putReg c.cwb w.d.toNat (BitVec.ofNat 32 (leNat ((List.range 4).map fun k => ramByte c (off + k))))
        { x with resv := some (off / 8) } }

/-- SC.W. -/
def storeConditional (w : OpWord) (c : Core) (off : Nat) : OpEffect :=
  let holds := decide (c.resv = some (off / 8))
  { act := fun d => d.onCore fun x =>
      putReg c.cwb w.d.toNat (BitVec.ofNat 32 (b2n (!holds)))
        { x with resv := none, ram := if holds then putBytes x.ram off (wordBytes (regVal c w.b.toNat)) else x.ram } }

/-- TAS.B. -/
def testAndSet (w : OpWord) (c : Core) (off : Nat) : OpEffect :=
  { act := fun d => storeBytes (.ram off) [0xFF] (d.onCore (putReg c.cwb w.d.toNat ((ramByte c off).setWidth 32))) }

/-- An atomic operation. -/
def atomicEval (o : Opc) (w : OpWord) (c : Core) : CoreOut OpEffect :=
  match atomicAt o.size (addressOf o w c) with
  | .ok off =>
    .ok (match o with
      | .lrW => loadReserved w c off
      | .scW => storeConditional w c off
      | _ => testAndSet w c off)
  | .trap n v => .trap n v
  | .refuse r => .refuse r

/-! ## Block operations (R442 to R445) -/

/-- The element size in bytes. -/
def blockSize (w : OpWord) : Nat := 2 ^ (w.mod.toNat % 4)

/-- A pointer moved by one element. -/
def blockStep (w : OpWord) (a : Word) : Word :=
  if w.mod.getLsbD 2 then a - BitVec.ofNat 32 (blockSize w) else a + BitVec.ofNat 32 (blockSize w)

/-- The pointers that move and the count, after an iteration; `src`: the source pointer moves. -/
def blockMove (w : OpWord) (src : Bool) (c0 : Core) (d : Dev) : Dev :=
  d.onCore fun c =>
    let c1 := putReg c0.cwb w.d.toNat (blockStep w (regVal c0 w.d.toNat)) c
    let c2 := if src then putReg c0.cwb w.a.toNat (blockStep w (regVal c0 w.a.toNat)) c1 else c1
    putReg c0.cwb w.b.toNat (regVal c0 w.b.toNat - 1) c2

/-- Two accesses of one iteration: alignment of both before permission of both, the cause of the lower number (R426). -/
def bothAt (n : Nat) (a : Word) (store : Bool) (b : Word) : CoreOut (Area × Area) :=
  if a.toNat % n ≠ 0 then .trap 2 (some a)
  else if b.toNat % n ≠ 0 then .trap 2 (some b)
  else match accessAt false n a with
    | .trap k v => .trap k v
    | .ok x => match accessAt store n b with
      | .ok y => .ok (x, y)
      | .trap k v => .trap k v
      | .refuse r => .refuse r
    | .refuse r => match accessAt store n b with
      | .trap k v => .trap k v
      | _ => .refuse r

/-- The bundle that follows an iteration: the operation again while elements remain (R443, R444). -/
def blockNext (w : OpWord) (c : Core) : Option Word := if regVal c w.b.toNat = 1 then none else some c.pc

/-- What an iteration of BCOPY does. -/
def copyAct (w : OpWord) (c : Core) (x y : Area) (d : Dev) : Dev :=
  let r := loadBytes x (blockSize w) d
  storeBytes y r.1 (blockMove w (!w.mod.getLsbD 3) c r.2)

/-- One iteration of BCOPY. -/
def copyEval (w : OpWord) (c : Core) : CoreOut OpEffect :=
  match bothAt (blockSize w) (regVal c w.a.toNat) true (regVal c w.d.toNat) with
  | .ok (x, y) => .ok
      { act := copyAct w c x y, next := blockNext w c }
  | .trap n v => .trap n v
  | .refuse r => .refuse r

/-- One iteration of BFILL. -/
def fillEval (w : OpWord) (c : Core) : CoreOut OpEffect :=
  match accessAt true (blockSize w) (regVal c w.d.toNat) with
  | .ok y => .ok
      { act := fun d => storeBytes y (leBytes (regVal c w.a.toNat).toNat (blockSize w)) (blockMove w false c d)
        next := blockNext w c }
  | .trap n v => .trap n v
  | .refuse r => .refuse r

/-- The two elements of an iteration of BDIFF: whether they are equal, and what reading them did. -/
def diffLoads (w : OpWord) (x y : Area) (d : Dev) : Bool × Dev :=
  let r := loadBytes x (blockSize w) d
  let q := loadBytes y (blockSize w) r.2
  (decide (r.1 = q.1), q.2)

/-- What an iteration of BDIFF does: elements that differ leave pointers and count as they are. -/
def diffAct (w : OpWord) (c : Core) (x y : Area) (d : Dev) : Dev :=
  let r := diffLoads w x y d
  if r.1 then blockMove w (!w.mod.getLsbD 3) c r.2 else r.2

/-- One iteration of BDIFF; a difference ends the operation. -/
def diffEval (w : OpWord) (d : Dev) : CoreOut OpEffect :=
  let c := d.core
  match bothAt (blockSize w) (regVal c w.d.toNat) false (regVal c w.a.toNat) with
  | .ok (x, y) => .ok
      { act := diffAct w c x y, next := if (diffLoads w x y d).1 then blockNext w c else none }
  | .trap n v => .trap n v
  | .refuse r => .refuse r

/-- A block operation; with a count of 0 it has ended. -/
def blockEval (o : Opc) (w : OpWord) (d : Dev) : CoreOut OpEffect :=
  if regVal d.core w.b.toNat = 0 then .ok {}
  else match o with
    | .bcopy => copyEval w d.core
    | .bfill => fillEval w d.core
    | _ => diffEval w d

/-- An operation of the L unit. -/
def memEval (o : Opc) (w : OpWord) (d : Dev) : CoreOut OpEffect :=
  let c := d.core
  match o with
  | .lea => .ok { act := fun d => writeBack o w c (d.onCore (putReg c.cwb w.d.toNat (addressOf o w c))) }
  | .stW | .stH | .stB | .sta => storeEval o w c
  | .lrW | .scW | .tasB => atomicEval o w c
  | .bcopy | .bfill | .bdiff => blockEval o w d
  | _ => loadEval o w c

end Sys2Proof.Machine
end

