-- ==== Sys2Proof/Machine/Meter.lean ====
section
/-! DEFINITION. Measurement: the 1 µs sample, which is also the block's clock (R339, assumption 3), the means, the
calibration points and the attribution of energy (R340 to R350), the energy store (R351, R403), and what an engine does with
the passing of time alone. -/

namespace Sys2Proof.Machine

open Sys2Proof

/-! ## One sample (R339, R340) -/

/-- A count of consecutive microseconds. -/
def run1 (c : Bool) (n : Nat) : Nat := if c then n + 1 else 0

/-- What a sample adds to the port energy, in pJ (R340). -/
def sampleEnergy (q : Port) (s : Sample) : Nat :=
  match q.role with
  | .feed => if 0 < s.iseg then s.vseg * s.iseg.toNat else 0
  | .draw => if s.iseg < 0 then s.vseg * (-s.iseg).toNat else 0
  | .off => 0

/-- The tap-rail switch conducts: ON, or BACKUP with a current in it (R220, R342). -/
def railConducts (q : Port) (s : Sample) : Bool :=
  decide (q.rail.sw = .on) || (decide (q.rail.sw = .backup) && decide (0 < s.irail))

/-- The switch is in current limit: 550 mA in ON (R220). -/
def railLimits (q : Port) (s : Sample) : Bool := decide (q.rail.sw = .on) && decide (550 ≤ s.irail)

/-- The level whose settle band a settle test asks for (R212, R217, R219). -/
def bandLevel (q : Port) : Level := match q.lev.step with | some st => st.dst | none => q.lev.cur

/-- VFEED - VSEG lies in 0 to 2 % of nominal (R225, R233). -/
def feedMatched (q : Port) (s : Sample) : Bool :=
  decide (s.vseg ≤ s.vfeed) && decide ((s.vfeed - s.vseg) * 100 ≤ 2 * nominalMv (segmentLevel q))

/-- The path is closed and neither a level step nor a droop hold runs (R217). -/
def runsLevel (q : Port) : Bool := decide (q.gate = .closed) && q.lev.step.isNone && !q.drp.hold

/-- A sample of an attached FEED port that detach counts: outside frames, shed tones and the port's own peer windows (R134). -/
def countsDetach (now : Nat) (q : Port) : Bool :=
  decide (q.role = .feed) && q.att.att && !lineBusy now q && !inPeerWindow now q

/-- A run of counted samples: a sample that is not counted leaves it as it is (R134). -/
def runOf (counted c : Bool) (n : Nat) : Nat := if counted then run1 c n else n

/-- The signal wire lies outside 0.10 to 2.6 V (R134). -/
def wireLost (q : Port) (s : Sample) : Bool := decide (2600 < signalMv q s ∨ signalMv q s < 100)

/-- The meter after a sample: sums, energy, and the µs counts of the time-qualified rules. -/
def sampleMeter (now : Nat) (q : Port) (s : Sample) : Meter :=
  let m := q.met
  let full := decide (100 ≤ m.n)
  let l := bandLevel q
  let pj := sampleEnergy q s
  { m with
    last := s
    n := if full then 1 else m.n + 1
    sumV := if full then s.vseg else m.sumV + s.vseg
    sumI := if full then s.iseg else m.sumI + s.iseg
    sumR := if full then s.irail else m.sumR + s.irail
    energyPj := m.energyPj + pj
    sumSq := m.sumSq + (s.iseg * s.iseg).toNat
    secI := m.secI + s.iseg, secP := m.secP + pj, secN := m.secN + 1
    blocks := if m.n = 99 then (m.blockP + pj) :: m.blocks.take 9 else m.blocks
    blockP := if m.n = 99 then 0 else m.blockP + pj
    railMaUs := m.railMaUs + b2n (railConducts q s)
    vsegIn := run1 (inBand l s.vseg) m.vsegIn
    vfeedIn := run1 (inBand l s.vfeed) m.vfeedIn
    vfeedOut := run1 (runsLevel q && !inBand q.lev.cur s.vfeed) m.vfeedOut
    vsegUp := run1 (decide (settleLow q.lev.cur ≤ s.vseg)) m.vsegUp
    vsegDroop := run1 (belowDroop q s.vseg) m.vsegDroop
    vsegOk := run1 (!belowDroop q s.vseg) m.vsegOk
    near := run1 (decide (s.vfeed < s.vseg + 300)) m.near
    overRun := run1 (decide (overMv q < s.vseg)) m.overRun
    match2 := run1 (feedMatched q s) m.match2
    vfeedL0 := run1 (inBand 0 s.vfeed) m.vfeedL0
    railLim := run1 (railLimits q s) m.railLim
    railOk := run1 (decide (q.rail.sw = .on) && !railLimits q s) m.railOk
    cwOut := runOf (countsDetach now q) (wireLost q s) m.cwOut
    railLow := runOf (countsDetach now q) (q.master && decide (s.irail < 2)) m.railLow }

/-! ## What the passing of a microsecond does to a port -/

/-- The ramp of a step: its code every 100 µs, its time frozen under a droop hold (R211, R214). -/
def tickStep (now : Nat) (q : Port) : Port :=
  match q.lev.step with
  | none => q
  | some st =>
    if q.drp.hold then
      (match st.stage with
       | .due _ => q
       | _ => { q with lev := { q.lev with step := some { st with frozen := st.frozen + 1 } } })
    else match st.stage with
      | .ramp _ start => if now % 100 = 0 then { q with lev := { q.lev with code := rampCode q st start now } } else q
      | _ => q

/-- The two codes of a transfer measurement, 20 ms each (R204). -/
def tickCal (now : Nat) (q : Port) : Port :=
  match q.lev.calAt with
  | some t => if q.role = .feed then { q with lev := { q.lev with code := if now < t + 20000 then 0 else 1023 } } else q
  | none => q

/-- A persistent droop is over: VSEG has been up for 1 ms (R299 step 4). -/
def tickDroop (now : Nat) (q : Port) : Port :=
  if q.drp.act && !q.drp.hold && q.drp.removeAt.isNone && decide (1000 ≤ q.met.vsegUp) then
    { q with drp := { q.drp with shed := false, removeAt := some now } }
  else q

/-- Since when nothing is admitted and no slot is busy (R209, R334). -/
def tickIdle (now : Nat) (q : Port) : Port :=
  let idle := decide (q.role = .feed) && decide (admitSum q = 0) && q.slots.isEmpty
  { q with lev := { q.lev with idleSince := if idle then some (q.lev.idleSince.getD now) else none } }

/-- A DRAW port's supply lies below the L0 terminal lower edge (R198): two beacons are to be heard again, and no previous SEQ is
held (R72, R149). -/
def supplyLost (w : Draw) : Draw := { w with beacons := 0, bits := [], seqRx := none, seqRxBc := none }

/-- A microsecond of a DRAW port: its supply (R72, R149, R198); its restore ramp takes 2 ms (R297). -/
def tickDraw (now : Nat) (q : Port) : Port :=
  if q.role = .draw then
    let w := if q.met.last.vseg < terminalLowMv 0 then supplyLost q.drw else q.drw
    let w1 := match w.restoreAt with
      | some t => if t + 2000 ≤ now then { w with shed := false, restoreAt := none, limitMw := contractMw { w with shed := false } } else w
      | none => w
    { q with drw := w1 }
  else q

/-- The rates that follow the path (R344): 0 while it is open; 50 mW again for an endpoint present without a contract. -/
def pathRate (opened : Bool) (us : Nat) (q : Port) (x : Nat × RosterRec) : Port :=
  if opened then (if x.2.rate = 0 ∧ x.2.rateHeld = none then q else setRoster x.1 (setRate 0 us x.2) q)
  else if x.2.state = 2 ∧ x.2.rate = 0 ∧ x.2.rateHeld = none then setRoster x.1 (setRate 50 us x.2) q else q

/-- The same for every endpoint of a FEED port. -/
def tickRates (now : Nat) (q : Port) : Port :=
  if q.role = .feed then q.roster.foldl (pathRate (decide (q.gate = .opened)) now) q else q

/-- A millisecond of a feeder that is blocked, or waits to close after a trip: its code rises by one, up to the upper limit of the
ring's level (R233, R256). -/
def blockRaise (q : Port) : Port :=
  if q.ringFeeder ∧ q.gate = .opened ∧ (q.ring.block = true ∨ q.grd.reclose = true) ∧ q.ring.heldOpen = false then
    { q with lev := { q.lev with code := Nat.min (q.lev.code + 1) (upperCode q (segmentLevel q)) } }
  else q

/-- A millisecond of a joiner that trims toward the ring's voltage, by one code (Table 10-1 step 5). -/
def joinRaise (q : Port) : Port :=
  match q.ring.join with
  | .trimming _ =>
    let s := q.met.last
    if s.vfeed < s.vseg then { q with lev := { q.lev with code := Nat.min (q.lev.code + 1) (upperCode q (segmentLevel q)) } }
    else if feedMatched q s then q else { q with lev := { q.lev with code := q.lev.code - 1 } }
  | _ => q

/-- What each boundary of a millisecond does: the causes' time (R309), the rail's current (R342), the codes that move. -/
def tickMs (q : Port) : Port :=
  let q1 := { q with
    throtLog := throtMs q.throt (List.range 11) q.throtLog
    met := { q.met with railMaUs := 0
                        railMaMs := if q.met.railMaUs = 0 then q.met.railMaMs else q.met.railMaMs + q.met.irail.toNat } }
  joinRaise (blockRaise q1)

/-- What a microsecond does to the line of a port: what was given to the wire takes its place, a reload ends, the source follows
the line, second copies and what waits its turn go out (R79, R153, R155, R167). -/
def tickLine (now : Nat) (q : Port) : Port :=
  launchOn now (tickRepeats now (tickSource now (tickReload now (tickWire (now - 1) q))))

/-- The sample itself: the breaker (R248) and the meter; with PCTL.EN 0 the port's measurement stands still (Table 04-6). -/
def measure (now : Nat) (s : Sample) (q : Port) : Port :=
  if q.ctl.en then
    { q with
      grd := breakerStep q s.iseg
      met := sampleMeter now q s }
  else q

/-- A sample on a port of a running device: the line, the measurement, and the passing of the microsecond. -/
def samplePort (now : Nat) (s : Sample) (q : Port) : Port :=
  let q1 := measure now s (tickLine now q)
  let q2 := tickClose now (tickRates now (tickDraw now (tickIdle now (tickDroop now (tickCal now (tickStep now q1))))))
  if now % 1000 = 0 then tickMs q2 else q2

/-- GUARD_METER_SAMPLE (R339): a microsecond of the block; a wait of the core may end in it (R429). -/
def sampleDev (a b : Sample) (d : Dev) : Dev :=
  let d1 := { d with us := d.us + 1 }
  if d1.up then
    let d2 := { d1 with p0 := samplePort d1.us a d1.p0, p1 := samplePort d1.us b d1.p1 }
    settleWait (d2.bothPorts noteThrot)
  else d1

/-- GUARD_METER_SAMPLE (R339). -/
def execGuardMeterSample (a b : Sample) (s : State) : Answer := onDev (fun d => guardDev d.pw.supply (sampleDev a b) d) s

/-! ## Means (R339) -/

/-- A 16-bit signed value that saturates. -/
def satInt16 (n : Int) : Half := BitVec.ofInt 16 (if n < -32768 then -32768 else if 32767 < n then 32767 else n)

/-- The mean of the last 100 samples, once there are 100 and while the port measures (Table 04-6). -/
def takeMean (q : Port) : Port :=
  if q.ctl.en = true ∧ q.met.n = 100 then
    { q with met := { q.met with
      vseg := sat16 (q.met.sumV / 100), iseg := satInt16 (q.met.sumI / 100)
      irail := BitVec.ofNat 10 (Nat.min 1023 (q.met.sumR / 100)), n := 0, sumV := 0, sumI := 0, sumR := 0 } }
  else q

/-- VSEG_ISEG_MEAN (R339). -/
def execVsegIsegMean (s : State) : Answer :=
  onDev (fun d => guardDev d.up (fun d => (d.modPort .p0 takeMean).modPort .p1 takeMean) d) s

/-! ## Calibration points (R341 to R350) -/

/-- An energy value rises, modulo 2^48; WRAP sets when it wraps (R352). -/
def addMj (n : Int) (m : EmeterRec) : EmeterRec :=
  let v : Int := m.mj.toNat + n
  { m with mj := BitVec.ofInt 48 v, wrap := m.wrap || decide (v < 0 ∨ 281474976710656 ≤ v) }

/-- An EMETER record rises. -/
def meterAdd (i : Nat) (n : Int) (q : Port) : Port := { q with emeter := spSet {} q.emeter i (addMj n (emeterOf q i)) }

/-- A tenant's energy rises with its endpoint's (R350). -/
def tenantAdd (t : Nat) (n : Nat) (d : Dev) : Dev :=
  let r := tenantOf d t
  let v := r.mj.toNat + n
  let r1 := { r with mj := BitVec.ofNat 48 v, wrap := r.wrap || decide (281474976710656 ≤ v) }
  { d with tb := { d.tb with tenants := spSet {} d.tb.tenants t r1 } }

/-- The loss of an interval in mJ, from Σ ISEG² in mA² µs: 0.5 × rm × length (R345, R346). -/
def lossMj (q : Port) (sq : Nat) : Nat :=
  let metres := if q.ringFeeder then q.cfg.ringLen.toNat else q.cfg.segLen.toNat
  sq * q.cfg.rm.toNat * metres / 2000000000000000

/-- g of R345, in units of 2^-16, held to 1.25. -/
def scaleOf (t m : Nat) : Nat := if m = 0 then 0 else Nat.min (t * 1000 * 65536 / m) 81920

/-- What one endpoint is attributed: its record, its carry and its tenant. -/
def creditOne (p : PortId) (g : Nat) (i uj : Nat) (x : Nat × Dev) : Nat × Dev :=
  let d := x.2
  let r := rosterOf (d.port p) i
  let w := uj * g + r.carry
  let a := w / 65536000
  let d1 := d.modPort p fun q => meterAdd i a (setRoster i { r with carry := w % 65536000 } q)
  (x.1 + a, if a = 0 then d1 else tenantAdd r.tenant.toNat a d1)

/-- One interval of a port is attributed (R345, R347): on a FEED port in proportion to the model energies; the rest to
record 1024. -/
def creditInterval (p : PortId) (e sq : Nat) (model : List (Nat × Nat)) (d : Dev) : Dev :=
  let q := d.port p
  if q.role = .feed then
    let t := e - Nat.min e (lossMj q sq)
    let g := scaleOf t (sumNat (model.map (·.2)))
    let r := model.foldl (fun x m => creditOne p g m.1 m.2 x) (0, d)
    r.2.modPort p (meterAdd 1024 ((e : Int) - r.1))
  else d.modPort p (meterAdd 1024 e)

/-- The model energies gathered up to a millisecond leave the records, as those of an interval. -/
def takeModel (ms : Nat) (q : Port) : List (Nat × Nat) × Port :=
  let roster := q.roster.map fun x => (x.1, rateTo ms x.2)
  (roster.map fun x => (x.1, x.2.modelUj), { q with roster := roster.map fun x => (x.1, { x.2 with modelUj := 0 }) })

/-- An interval that waits: its model energies stay with the endpoints, one value for each interval missed (R349). -/
def missInterval (e sq len : Nat) (ms : Nat) (q : Port) : Port :=
  let n := q.met.missed.length
  { q with
    met := { q.met with missed := q.met.missed ++ [(e, sq, len)] }
    roster := q.roster.map fun x =>
      let r := rateTo ms x.2
      (x.1, { r with missedUj := List.replicate (n - r.missedUj.length) 0 ++ r.missedUj ++ [r.modelUj], modelUj := 0 }) }

/-- The intervals missed, oldest first. -/
def creditMissed (p : PortId) : List (Nat × Nat × Nat) → Dev → Dev
  | [], d => d
  | (e, sq, _) :: t, d =>
    let q := d.port p
    let model := q.roster.map fun x => (x.1, x.2.missedUj.headD 0)
    let d1 := d.modPort p fun q => { q with
      met := { q.met with missed := t }, roster := q.roster.map fun x => (x.1, { x.2 with missedUj := x.2.missedUj.tail }) }
    creditMissed p t (creditInterval p e sq model d1)

/-- What the hardware does at a point: ENERGY, and record 1025 from the tap rail (R341, R342); the increment and Σ ISEG². -/
def pointMeter (q : Port) : Nat × Nat × Port :=
  let now : BitVec 48 := BitVec.ofNat 48 (q.met.energyPj / 1000000000)
  let q1 := { q with met := { q.met with energy := now, sumSq := 0, railMaMs := q.met.railMaMs % 200 } }
  let rail := q.met.railMaMs / 200
  ((now - q.met.energy).toNat, q.met.sumSq, if rail = 0 then q1 else meterAdd 1025 rail q1)

/-- A calibration point on one port. -/
def pointPort (p : PortId) (d : Dev) : Dev :=
  let ms := d.us / 1000
  let (e, sq, q) := pointMeter (d.port p)
  let d1 := d.modPort p fun _ => q
  if allocRuns d then
    let d2 := creditMissed p q.met.missed d1
    let (model, q2) := takeModel ms (d2.port p)
    creditInterval p e sq model (d2.modPort p fun _ => q2)
  else d1.modPort p (missInterval e sq (ms - d.tb.pointMs) ms)

/-- A calibration point (R341): at each whole multiple of 100 ms, on both ports together. -/
def calibrationPoint (d : Dev) : Dev :=
  let d1 := d.bothPorts pointPort
  { d1 with tb := { d1.tb with pointMs := d.us / 1000 } }

/-- CALIBRATION_POINT (R341). -/
def execCalibrationPoint (s : State) : Answer :=
  onDev (fun d => guardDev (d.up && decide (d.us % 100000 = 0 ∧ d.tb.pointMs < d.us / 1000)) calibrationPoint d) s

/-! ## The energy store (R351, R403) -/

/-- A snapshot's entries: endpoints by handle, then tenants (R403). -/
def snapEntries (d : Dev) : List (Nat × Nat) :=
  let side := fun (base : Nat) (q : Port) =>
    (q.roster.filter fun x => decide (x.2.state ≠ 0)).map fun x => (base + x.1, (emeterOf q x.1).mj.toNat)
  side 0 d.p0 ++ side 1024 d.p1
    ++ ((List.range 64).filter fun t => decide ((tenantOf d t).mj ≠ 0)).map fun t => (0x8000 + t, (tenantOf d t).mj.toNat)

/-- The pages of a snapshot, fifteen entries each; `fuel` bounds their number. -/
def snapPages (num : Nat) : Nat → List (Nat × Nat) → List (List Byte)
  | 0, _ => []
  | _, [] => []
  | fuel + 1, l =>
    let entry := fun (e : Nat × Nat) => le2 e.1 ++ leBytes e.2 6
    let body := leBytes num 4 ++ ((l.take 15).flatMap entry)
      ++ (List.replicate (15 - (l.take 15).length) (le2 0xFFFF ++ leBytes 0 6)).flatMap id
    (body ++ leBytes (crc32 body).toNat 4) :: snapPages num fuel (l.drop 15)

/-- One page at the ring's next place; tally counter 10 counts the laps (Table 18-4). -/
def ringWrite (k : Keep) (l : List Byte) : Keep :=
  let k1 := { eWrite (0x8000 + 128 * k.ringPage) l k with ringPage := (k.ringPage + 1) % 256 }
  if k.ringPage = 255 then tallyInc 10 k1 else k1

/-- An energy store is refused, or writes its snapshot (R393, R403, R407). -/
def energyStore (d : Dev) : Dev :=
  let d0 := { d with keep := { d.keep with energyAt := d.us } }
  if d.keep.bp = 3 then keepRefused 2 (bpRefused d0)
  else if d.gl.crit then keepRefused 1 d0
  else
    let num := d.keep.snapNum + 1
    let k := (snapPages num.toNat 141 (snapEntries d)).foldl ringWrite d0.keep
    { d0 with keep := { k with snapNum := num }, fwu := { d0.fwu with durable := true } }

/-- ENERGY_STORE (R351): every 15 min, low bound 14.9, while the firmware runs. -/
def execEnergyStore (s : State) : Answer :=
  onDev (fun d => guardDev (d.up && d.core.run && decide (d.keep.energyAt + 894000000 ≤ d.us)) energyStore d) s

/-! ## THROT and the slot warning -/

/-- THROT (R309): the event that the running millisecond owes. -/
def execThrot (p : PortId) (s : State) : Answer := onDev (fun d => guardDev d.up (flushThrot p) d) s

/-- SLOT_AT_TSPECCONFIRM_LESS_2MS (R427): an undecided slot, 18 ms after its REQUEST. -/
def execSlotAtTspecconfirmLess2ms (p : PortId) (slot : BitVec 7) (s : State) : Answer :=
  onDev (fun d => d.modPort p fun q =>
    match spFind q.slots slot.toNat with
    | some x =>
      if (x.state = 1 ∨ x.state = 2) ∧ x.since + 18000 ≤ d.us then { q with slots := spPut q.slots slot.toNat { x with warned := true } }
      else q
    | none => q) s

end Sys2Proof.Machine
end

