-- ==== Sys2Proof/Machine/Bundle.lean ====
section
/-! DEFINITION. The B unit of the Fedora core (Table 20-7, R439 to R441, R446, R447), the bundle (R412, R434) and its traps
(R426, R428). A command of the core is one operation word that it issues at its program counter: a word without S joins the
bundle in gathering, a word with S issues it (assumption 26). -/

namespace Sys2Proof.Machine

open Sys2Proof

/-! ## Branches, calls and returns (R415 to R418, R440) -/

/-- Fetch sees IRAM as it stands from here on (R431). -/
def syncFetch (d : Dev) : Dev := d.onCore fun c => { c with iramFetch := c.iram }

/-- A taken branch to a target (R440). -/
def branchTo (t : Word) (act : Dev → Dev) : CoreOut OpEffect :=
  if t.toNat % 4 ≠ 0 then .trap 2 (some t) else .ok { act := fun d => syncFetch (act d), next := some t }

/-- A conditional branch. -/
def branchIf (c : Bool) (t : Word) (act : Dev → Dev) : CoreOut OpEffect :=
  if c then branchTo t act else .ok { act := act }

/-- A return address pushed (R418). -/
def rsPush (v : Word) (c : Core) : Core :=
  { c with rs := spSet 0 c.rs (c.rsTop + 1).toNat v, rsTop := c.rsTop + 1
           rsCnt := if c.rsCnt.toNat < 16 then c.rsCnt + 1 else c.rsCnt }

/-- The top of the return stack popped (R418). -/
def rsPop (c : Core) : Core :=
  { c with rsTop := c.rsTop - 1, rsCnt := if c.rsCnt = 0 then 0 else c.rsCnt - 1 }

/-- CALL and CALLR: the lowest cause first (R416, R418, R426, R440); `ra` is the address of the next bundle. -/
def callEval (t ra : Word) (c : Core) : CoreOut OpEffect :=
  if t.toNat % 4 ≠ 0 then .trap 2 (some t)
  else if 9 ≤ c.wres.toNat then .trap 4 none
  else if c.rsCnt.toNat = 16 ∧ c.rswrap = false then .trap 6 none
  else branchTo t fun d => d.onCore fun x => rsPush ra { x with cwb := x.cwb + 24, wres := x.wres + 1 }

/-- RET (R417, R418). -/
def retEval (c : Core) : CoreOut OpEffect :=
  let t := spGet 0 c.rs c.rsTop.toNat
  let empty := decide (c.rsCnt = 0) && !c.rswrap
  if t.toNat % 4 ≠ 0 ∧ empty = false then .trap 2 (some t)
  else if c.wres.toNat ≤ 1 then .trap 5 none
  else if empty then .trap 7 none
  else branchTo t fun d => d.onCore fun x => rsPop { x with cwb := x.cwb - 24, wres := x.wres - 1 }

/-- TRET (R426). -/
def tretEval (c : Core) : CoreOut OpEffect :=
  branchTo c.tpc fun d => d.onCore fun x =>
    { x with ie := x.ieSaved, th := false, cwb := x.cwb - 24, wres := if x.wres.toNat ≤ 1 then x.wres else x.wres - 1 }

/-! ## Special registers (R439, Table 19-4) -/

/-- STATUS. -/
def statusWord (c : Core) : Nat := pack [(0, b2n c.ie), (1, b2n c.th), (2, b2n c.sat), (3, b2n c.aov)]

/-- The slot of the oldest entry of the return stack. -/
def rsBottom (c : Core) : Nat := (c.rsTop.toNat + 17 - c.rsCnt.toNat) % 16

/-- A special register as MFS reads it; RSBOT apart. -/
def specialVal (n : Nat) (d : Dev) : Word :=
  let c := d.core
  match n with
  | 0 => BitVec.ofNat 32 (pack [(0, c.rnd.toNat), (2, b2n c.rswrap)])
  | 1 => BitVec.ofNat 32 (statusWord c)
  | 2 => c.tpc
  | 3 => c.tval
  | 4 => c.tcause.setWidth 32
  | 5 => (c.tvec ++ (0 : BitVec 6) : BitVec 32)
  | 6 => c.cwb.setWidth 32
  | 7 => c.wres.setWidth 32
  | 8 => c.rsCnt.setWidth 32
  | 10 => c.ien.setWidth 32
  | 11 => BitVec.ofNat 32 (ipendWord d)
  | 12 => c.hwmask.extractLsb' 0 32
  | 13 => c.hwmask.extractLsb' 32 32
  | 14 => c.hwmask.extractLsb' 64 32
  | 15 => c.hwmask.extractLsb' 96 32
  | _ => BitVec.ofNat 32 (evrWord d)

/-- MFS of RSBOT removes the oldest entry and returns it (R418); of an empty stack no rule states the value (assumption 5). -/
def readRsBot (w : OpWord) (c : Core) : OpEffect :=
  if c.rsCnt = 0 then
    { act := fun d => let r := freeWord d; r.2.onCore (putReg c.cwb w.d.toNat r.1) }
  else
    { act := fun d => d.onCore fun x =>
        putReg c.cwb w.d.toNat (spGet 0 c.rs (rsBottom c)) { x with rsCnt := x.rsCnt - 1, rs := spSet 0 x.rs (rsBottom c) 0 } }

/-- MFS. -/
def mfsEval (w : OpWord) (d : Dev) : OpEffect :=
  if w.a = 9 then readRsBot w d.core
  else
    let v := specialVal w.a.toNat d
    { act := fun x => x.onCore (putReg d.core.cwb w.d.toNat v) }

/-- A word of HWMASK written. -/
def putMask (k : Nat) (v : Word) (m : BitVec 128) : BitVec 128 :=
  (m &&& ~~~((0xFFFFFFFF : BitVec 128) <<< (32 * k))) ||| (v.setWidth 128 <<< (32 * k))

/-- An entry inserted beneath the oldest (R418); with 16 held there is no place for it. -/
def putRsBot (v : Word) (c : Core) : Core :=
  if c.rsCnt.toNat = 16 then c
  else { c with rs := spSet 0 c.rs ((c.rsTop.toNat + 16 - c.rsCnt.toNat) % 16) v, rsCnt := c.rsCnt + 1 }

/-- What MTS writes; read-only registers and fields ignore it. -/
def putSpecial (n : Nat) (v : Word) (d : Dev) : Dev :=
  match n with
  | 0 => d.onCore fun c => { c with rnd := v.setWidth 2, rswrap := v.getLsbD 2 }
  | 1 => d.onCore fun c => { c with ie := v.getLsbD 0, sat := c.sat && v.getLsbD 2, aov := c.aov && v.getLsbD 3 }
  | 2 => d.onCore fun c => { c with tpc := v }
  | 3 => d.onCore fun c => { c with tval := v }
  | 5 => d.onCore fun c => { c with tvec := v.extractLsb' 6 26 }
  | 7 => d.onCore fun c => { c with wres := v.setWidth 4 }
  | 9 => d.onCore (putRsBot v)
  | 10 => d.onCore fun c => { c with ien := v.setWidth 8 }
  | 12 => d.onCore fun c => { c with hwmask := putMask 0 v c.hwmask }
  | 13 => d.onCore fun c => { c with hwmask := putMask 1 v c.hwmask }
  | 14 => d.onCore fun c => { c with hwmask := putMask 2 v c.hwmask }
  | 15 => d.onCore fun c => { c with hwmask := putMask 3 v c.hwmask }
  | 16 => clearEvr (v.toNat % 32) d
  | _ => d

/-- MTS; WRES only in a handler, and only 1 to 10 (R439). -/
def mtsEval (w : OpWord) (c : Core) : CoreOut OpEffect :=
  let v := regVal c w.b.toNat
  if w.d = 7 ∧ (c.th = false ∨ v.toNat < 1 ∨ 10 < v.toNat) then .trap 1 (some v)
  else .ok { pre := putSpecial w.d.toNat v }

/-! ## Waiting and signalling (R429, R446, R447) -/

/-- EWAIT begins its wait; a mask that selects nothing is ILLEGAL. `n` is its bundle's length. -/
def ewaitEval (w : OpWord) (n : Nat) (c : Core) : CoreOut OpEffect :=
  let m := regVal c w.a.toNat
  if m.toNat % 32 = 0 ∧ m.getLsbD 7 = false then .trap 1 (some m)
  else .ok { act := fun d => d.onCore fun x => { x with wait := some (.ewait w.d (m.setWidth 8) n) }, next := some c.pc }

/-- WAITUNTIL writes its target into the compare register and begins its wait. -/
def untilEval (w : OpWord) (n : Nat) (c : Core) : CoreOut OpEffect :=
  let t := match w.lit with | some v => v | none => regVal c w.a.toNat
  .ok { act := fun d => d.onCore fun x => { setCompare t x with wait := some (.until_ t n) }, next := some c.pc }

/-- EPOST (R429). -/
def epostEval (w : OpWord) (c : Core) : CoreOut OpEffect :=
  let m := regVal c w.a.toNat
  if 16 ≤ m.toNat then .trap 1 (some m)
  else .ok { act := fun d => d.onCore fun x =>
    { x with evr := x.evr ||| (m.setWidth 5 &&& 1), pe0In := x.pe0In || m.getLsbD 1, pe1In := x.pe1In || m.getLsbD 2
             dmaIn := x.dmaIn || m.getLsbD 3 } }

/-- An operation of the B unit; `n` is its bundle's length in bytes. -/
def controlEval (o : Opc) (w : OpWord) (n : Nat) (d : Dev) : CoreOut OpEffect :=
  let c := d.core
  let a := regVal c w.a.toNat
  let t := branchTarget o w c
  let ra := c.pc + BitVec.ofNat 32 n
  match o with
  | .br => branchTo t id
  | .call => callEval t ra c
  | .bz => branchIf (decide (a = 0)) t id
  | .bnz => branchIf (decide (a ≠ 0)) t id
  | .bltz => branchIf (decide (a.toInt < 0)) t id
  | .bgez => branchIf (decide (0 ≤ a.toInt)) t id
  | .dbnz => branchIf (decide (a - 1 ≠ 0)) t fun d => d.onCore (putReg c.cwb w.a.toNat (a - 1))
  | .waituntil => untilEval w n c
  | .jr => branchTo a id
  | .callr => callEval a ra c
  | .ret => retEval c
  | .tret => tretEval c
  | .ewait => ewaitEval w n c
  | .epost => epostEval w c
  | .fenceI => .ok { act := syncFetch }
  | .brk => .trap 8 none
  | .syscall => .trap 9 none
  | .mfs => .ok (mfsEval w d)
  | .mts => mtsEval w c
  | _ => .ok {}

/-! ## The bundle (R412, R426, R434) -/

/-- One operation of a bundle, on the registers as the bundle found them. -/
def evalOp (x : BundleOp) (n : Nat) (d : Dev) : CoreOut OpEffect :=
  match x.1.slot with
  | 2 => memEval x.1 x.2 d
  | 3 => controlEval x.1 x.2 n d
  | _ => .ok (arithEval x.1 x.2 d.core)

/-- The operations in slot order; the first that traps gives the bundle's cause. -/
def evalAll (n : Nat) (d : Dev) : List BundleOp → CoreOut (List OpEffect)
  | [] => .ok []
  | x :: t =>
    match evalOp x n d with
    | .ok e => match evalAll n d t with
      | .ok l => .ok (e :: l)
      | .trap k v => .trap k v
      | .refuse r => .refuse r
    | .trap k v => .trap k v
    | .refuse r => match evalAll n d t with
      | .trap k v => .trap k v
      | _ => .refuse r

/-- A store of the bundle has handed the core to another image (R468), whose state stands. -/
def sameImage (d x : Dev) : Bool := decide (x.fwu.hand = d.fwu.hand)

/-- What an operation commits, unless a store of its bundle has handed the core to another image. -/
def applyEffect (d : Dev) (e : OpEffect) (x : Dev) : Dev := if sameImage d x then e.act x else x

/-- Where the next bundle begins. -/
def nextOf (seq : Word) : List OpEffect → Word
  | [] => seq
  | e :: t => nextOf (e.next.getD seq) t

/-- All results of a bundle committed together; then the next bundle, or a wait that may end at once. -/
def commitOps (n : Nat) (l : List OpEffect) (d : Dev) : Dev :=
  let d1 := foldDev (applyEffect d) l (foldDev OpEffect.pre l d)
  if sameImage d d1 then settleWait (goTo (nextOf (d.core.pc + BitVec.ofNat 32 n) l) d1) else d1

/-- Where a trap of the bundle returns to: after BREAK and SYSCALL the following bundle (R426). -/
def trapPc (cause n : Nat) (d : Dev) : Word :=
  if cause = 8 ∨ cause = 9 then d.core.pc + BitVec.ofNat 32 n else d.core.pc

/-- A bundle issues. -/
def runBundle (l : List BundleOp) (d : Dev) : Except Refusal Dev :=
  let n := bundleLen l
  if bundleOk l then
    match evalAll n d l with
    | .ok es => .ok (commitOps n es d)
    | .trap k v => .ok (syncTrap k (trapPc k n d) v d)
    | .refuse r => .error r
  else .ok (syncTrap 1 d.core.pc none d)

/-- The core issues bundles: it runs, no wait holds it, and no double trap waits for the watchdog. -/
def coreIssues (d : Dev) : Bool := d.core.run && d.core.wait.isNone && !d.core.wdNow

/-- One operation word at the program counter: the fourth ends a bundle that has no stop, which is ILLEGAL (R434). -/
def issueOp (o : Opc) (w : OpWord) (d0 : Dev) : Except Refusal Dev :=
  let d := settleWait d0
  if coreIssues d then
    let l := d.core.bundle ++ [(o, w)]
    if w.stop || decide (4 ≤ l.length) then runBundle l (d.onCore fun c => { c with bundle := [] })
    else .ok (d.onCore fun c => { c with bundle := l })
  else .ok d

/-- The meaning shared by the operations of the core. -/
def coreOp (o : Opc) (w : OpWord) (s : State) : Answer :=
  match issueOp o w s.dev with
  | .ok d => .next { s with dev := d }
  | .error r => .refused r

end Sys2Proof.Machine
end

