-- ==== Sys2Proof/Machine/FedoraA.lean ====
section
/-! DEFINITION. The meanings of the A unit's operations (Table 20-4): `aluVal` says what each computes. -/

namespace Sys2Proof.Machine

open Sys2Proof

/-- ADD (R412, Table 20-4). -/
def execAdd (w : OpWord) (s : State) : Answer := coreOp .add w s

/-- SUB (R412, Table 20-4). -/
def execSub (w : OpWord) (s : State) : Answer := coreOp .sub w s

/-- AND (R412, Table 20-4). -/
def execAndOp (w : OpWord) (s : State) : Answer := coreOp .and w s

/-- OR (R412, Table 20-4). -/
def execOrOp (w : OpWord) (s : State) : Answer := coreOp .or w s

/-- XOR (R412, Table 20-4). -/
def execXor (w : OpWord) (s : State) : Answer := coreOp .xor w s

/-- ANDN (R412, Table 20-4). -/
def execAndn (w : OpWord) (s : State) : Answer := coreOp .andn w s

/-- MOV (R412, Table 20-4). -/
def execMov (w : OpWord) (s : State) : Answer := coreOp .mov w s

/-- CMP.cc (R412, Table 20-4). -/
def execCmpCc (w : OpWord) (s : State) : Answer := coreOp .cmp w s

/-- SHL (R412, Table 20-4). -/
def execShl (w : OpWord) (s : State) : Answer := coreOp .shl w s

/-- SHR (R412, Table 20-4). -/
def execShr (w : OpWord) (s : State) : Answer := coreOp .shr w s

/-- SAR (R412, Table 20-4). -/
def execSar (w : OpWord) (s : State) : Answer := coreOp .sar w s

/-- ROR (R412, Table 20-4). -/
def execRor (w : OpWord) (s : State) : Answer := coreOp .ror w s

/-- MIN (R412, Table 20-4). -/
def execMin (w : OpWord) (s : State) : Answer := coreOp .min w s

/-- MAX (R412, Table 20-4). -/
def execMax (w : OpWord) (s : State) : Answer := coreOp .max w s

/-- MINU (R412, Table 20-4). -/
def execMinu (w : OpWord) (s : State) : Answer := coreOp .minu w s

/-- MAXU (R412, Table 20-4). -/
def execMaxu (w : OpWord) (s : State) : Answer := coreOp .maxu w s

/-- SEL (R412, Table 20-4). -/
def execSel (w : OpWord) (s : State) : Answer := coreOp .sel w s

/-- CLZ (R412, Table 20-4). -/
def execClz (w : OpWord) (s : State) : Answer := coreOp .clz w s

/-- EXT (R412, Table 20-4). -/
def execExt (w : OpWord) (s : State) : Answer := coreOp .ext w s

/-- ADDS.W (R420, Table 20-4). -/
def execAddsW (w : OpWord) (s : State) : Answer := coreOp .addsW w s

/-- SUBS.W (R420, Table 20-4). -/
def execSubsW (w : OpWord) (s : State) : Answer := coreOp .subsW w s

/-- ADDS.H (R420, Table 20-4). -/
def execAddsH (w : OpWord) (s : State) : Answer := coreOp .addsH w s

/-- SUBS.H (R420, Table 20-4). -/
def execSubsH (w : OpWord) (s : State) : Answer := coreOp .subsH w s

/-- NEGS.W (R420, Table 20-4). -/
def execNegsW (w : OpWord) (s : State) : Answer := coreOp .negsW w s

/-- ABSS.W (R420, Table 20-4). -/
def execAbssW (w : OpWord) (s : State) : Answer := coreOp .abssW w s

end Sys2Proof.Machine
end

