-- ==== Sys2Proof/Machine/FedoraB.lean ====
section
/-! DEFINITION. Interrupts and events of the Fedora core (R427, R429, R447), and the meanings of the B unit's operations (Table 20-7): `controlEval` says what each does. -/

namespace Sys2Proof.Machine

open Sys2Proof

/-! ## Interrupts and events -/

/-- An interrupt ends a wait (R429, R446, R447): TPC is the operation's address, or the next bundle where EWAIT's mask selects
interrupts, whose destination then reads 0x80. -/
def endWait (d : Dev) : Dev :=
  match d.core.wait with
  | some (.ewait f m n) =>
    if m.getLsbD 7 then
      d.onCore fun c => putReg c.cwb f.toNat 0x80 { c with wait := none, pc := c.pc + BitVec.ofNat 32 n }
    else d.onCore fun c => { c with wait := none }
  | some (.until_ _ _) => d.onCore fun c => { c with wait := none }
  | none => d

/-- Sources 5, 6 and 7, whose status is IPEND itself, are no longer pending once taken (assumption 27). -/
def takeSource (s : Nat) (c : Core) : Core :=
  if 5 ≤ s then { c with ipend := c.ipend &&& ~~~(BitVec.ofNat 8 (2 ^ s)) } else c

/-- An interrupt is taken between bundles (R426, R427). -/
def takeInterrupt (d0 : Dev) : Dev :=
  let d := settleWait d0
  match interruptOf d with
  | some s =>
    let d1 := endWait d
    trapEntry (16 + s) d1.core.pc none (d1.onCore (takeSource s))
  | none => d

/-- INTERRUPT (R427). -/
def execInterrupt (s : State) : Answer :=
  onDev (fun d => guardDev (d.core.run && !d.core.wdNow) takeInterrupt d) s

/-- DMA_DONE (R429). -/
def execDmaDone (s : State) : Answer :=
  onDev (fun d => guardDev d.up (fun d => settleWait (d.onCore fun c => { c with evr := c.evr ||| 0x08 })) d) s

/-- DEBUG_HALT_REQUEST (R426, Table 19-2): BREAK between bundles where no debugger is attached; the spec gives a debugger no
further part. -/
def execDebugHaltRequest (attached : Bool) (s : State) : Answer :=
  onDev (fun d => guardDev (d.core.run && !d.core.wdNow && !attached) (fun d =>
    let d1 := settleWait d
    syncTrap 8 d1.core.pc none (d1.onCore fun c => { c with wait := none })) d) s

/-- TIMEBASE_COMPARE (R427, R447): source 4, and the end of WAITUNTIL. -/
def execTimebaseCompare (s : State) : Answer :=
  onDev (fun d => guardDev (d.up && d.core.compareOn && reached d d.core.compare)
    (fun d => settleWait ((raise 4 d).onCore fun c => { c with compareOn := false })) d) s

/-! ## The B unit -/

/-- BR (R440, Table 20-7). -/
def execBr (w : OpWord) (s : State) : Answer := coreOp .br w s

/-- CALL (R415, R416, R418). -/
def execCall (w : OpWord) (s : State) : Answer := coreOp .call w s

/-- BZ (R440, Table 20-7). -/
def execBz (w : OpWord) (s : State) : Answer := coreOp .bz w s

/-- BNZ (R440, Table 20-7). -/
def execBnz (w : OpWord) (s : State) : Answer := coreOp .bnz w s

/-- BLTZ (R440, Table 20-7). -/
def execBltz (w : OpWord) (s : State) : Answer := coreOp .bltz w s

/-- BGEZ (R440, Table 20-7). -/
def execBgez (w : OpWord) (s : State) : Answer := coreOp .bgez w s

/-- DBNZ (R441). -/
def execDbnz (w : OpWord) (s : State) : Answer := coreOp .dbnz w s

/-- WAITUNTIL (R429, R447). -/
def execWaituntil (w : OpWord) (s : State) : Answer := coreOp .waituntil w s

/-- JR (R440, Table 20-7). -/
def execJr (w : OpWord) (s : State) : Answer := coreOp .jr w s

/-- CALLR (R415, R416, R418). -/
def execCallr (w : OpWord) (s : State) : Answer := coreOp .callr w s

/-- RET (R417, R418). -/
def execRet (w : OpWord) (s : State) : Answer := coreOp .ret w s

/-- TRET (R426). -/
def execTret (w : OpWord) (s : State) : Answer := coreOp .tret w s

/-- EWAIT (R429, R446). -/
def execEwait (w : OpWord) (s : State) : Answer := coreOp .ewait w s

/-- EPOST (R429). -/
def execEpost (w : OpWord) (s : State) : Answer := coreOp .epost w s

/-- FENCE.I (R449). -/
def execFenceI (w : OpWord) (s : State) : Answer := coreOp .fenceI w s

/-- BREAK (R426). -/
def execBreakOp (w : OpWord) (s : State) : Answer := coreOp .brk w s

/-- SYSCALL (R426). -/
def execSyscall (w : OpWord) (s : State) : Answer := coreOp .syscall w s

/-- NOP (Table 20-7). -/
def execNop (w : OpWord) (s : State) : Answer := coreOp .nop w s

/-- MFS (R439). -/
def execMfs (w : OpWord) (s : State) : Answer := coreOp .mfs w s

/-- MTS (R439). -/
def execMts (w : OpWord) (s : State) : Answer := coreOp .mts w s

end Sys2Proof.Machine
end

