-- ==== Sys2Proof/Machine/FedoraL.lean ====
section
/-! DEFINITION. The meanings of the L unit's operations (Table 20-6): `memEval` says what each does. -/

namespace Sys2Proof.Machine

open Sys2Proof

/-- LD.W (R421, Table 20-6). -/
def execLdW (w : OpWord) (s : State) : Answer := coreOp .ldW w s

/-- LD.H (R421, Table 20-6). -/
def execLdH (w : OpWord) (s : State) : Answer := coreOp .ldH w s

/-- LD.HU (R421, Table 20-6). -/
def execLdHu (w : OpWord) (s : State) : Answer := coreOp .ldHu w s

/-- LD.B (R421, Table 20-6). -/
def execLdB (w : OpWord) (s : State) : Answer := coreOp .ldB w s

/-- LD.BU (R421, Table 20-6). -/
def execLdBu (w : OpWord) (s : State) : Answer := coreOp .ldBu w s

/-- ST.W (R421, Table 20-6). -/
def execStW (w : OpWord) (s : State) : Answer := coreOp .stW w s

/-- ST.H (R421, Table 20-6). -/
def execStH (w : OpWord) (s : State) : Answer := coreOp .stH w s

/-- ST.B (R421, Table 20-6). -/
def execStB (w : OpWord) (s : State) : Answer := coreOp .stB w s

/-- LDA (R421, Table 20-6). -/
def execLda (w : OpWord) (s : State) : Answer := coreOp .lda w s

/-- STA (R421, Table 20-6). -/
def execSta (w : OpWord) (s : State) : Answer := coreOp .sta w s

/-- LEA (R421, Table 20-6). -/
def execLea (w : OpWord) (s : State) : Answer := coreOp .lea w s

/-- LR.W (R430, R448). -/
def execLrW (w : OpWord) (s : State) : Answer := coreOp .lrW w s

/-- SC.W (R430, R448). -/
def execScW (w : OpWord) (s : State) : Answer := coreOp .scW w s

/-- TAS.B (R430, R448). -/
def execTasB (w : OpWord) (s : State) : Answer := coreOp .tasB w s

/-- BCOPY (R443, R444). -/
def execBcopy (w : OpWord) (s : State) : Answer := coreOp .bcopy w s

/-- BFILL (R443, R444). -/
def execBfill (w : OpWord) (s : State) : Answer := coreOp .bfill w s

/-- BDIFF (R443, R444). -/
def execBdiff (w : OpWord) (s : State) : Answer := coreOp .bdiff w s

end Sys2Proof.Machine
end

