-- ==== Sys2Proof/Machine/FedoraM.lean ====
section
/-! DEFINITION. The meanings of the M unit's operations (Table 20-5): `aluVal`, `macVal` and `narrowVal` say what each computes. -/

namespace Sys2Proof.Machine

open Sys2Proof

/-- MUL (R412, Table 20-5). -/
def execMul (w : OpWord) (s : State) : Answer := coreOp .mul w s

/-- MULH (R412, Table 20-5). -/
def execMulh (w : OpWord) (s : State) : Answer := coreOp .mulh w s

/-- MULHU (R412, Table 20-5). -/
def execMulhu (w : OpWord) (s : State) : Answer := coreOp .mulhu w s

/-- DIV (R412, Table 20-5). -/
def execDiv (w : OpWord) (s : State) : Answer := coreOp .div w s

/-- DIVU (R412, Table 20-5). -/
def execDivu (w : OpWord) (s : State) : Answer := coreOp .divu w s

/-- REM (R412, Table 20-5). -/
def execRem (w : OpWord) (s : State) : Answer := coreOp .rem w s

/-- REMU (R412, Table 20-5). -/
def execRemu (w : OpWord) (s : State) : Answer := coreOp .remu w s

/-- MPY.Q31 (R419, Table 20-5). -/
def execMpyQ31 (w : OpWord) (s : State) : Answer := coreOp .mpyQ31 w s

/-- MAC.Q31 (R419, Table 20-5). -/
def execMacQ31 (w : OpWord) (s : State) : Answer := coreOp .macQ31 w s

/-- MSU.Q31 (R419, Table 20-5). -/
def execMsuQ31 (w : OpWord) (s : State) : Answer := coreOp .msuQ31 w s

/-- MPY.Q15 (R419, Table 20-5). -/
def execMpyQ15 (w : OpWord) (s : State) : Answer := coreOp .mpyQ15 w s

/-- MAC.Q15 (R419, Table 20-5). -/
def execMacQ15 (w : OpWord) (s : State) : Answer := coreOp .macQ15 w s

/-- ACCLD (R419, Table 20-5). -/
def execAccld (w : OpWord) (s : State) : Answer := coreOp .accld w s

/-- ACCADD (R419, Table 20-5). -/
def execAccadd (w : OpWord) (s : State) : Answer := coreOp .accadd w s

/-- ACCSH (R419, Table 20-5). -/
def execAccsh (w : OpWord) (s : State) : Answer := coreOp .accsh w s

/-- NARQ31 (R420, Table 20-5). -/
def execNarq31 (w : OpWord) (s : State) : Answer := coreOp .narq31 w s

/-- NARQ15 (R420, Table 20-5). -/
def execNarq15 (w : OpWord) (s : State) : Answer := coreOp .narq15 w s

/-- MULAI (R420, Table 20-5). -/
def execMulai (w : OpWord) (s : State) : Answer := coreOp .mulai w s

/-- MULAF (R412, Table 20-5). -/
def execMulaf (w : OpWord) (s : State) : Answer := coreOp .mulaf w s

end Sys2Proof.Machine
end

