-- ==== Sys2Proof/Machine/Dispatch.lean ====
section
/-! DEFINITION. The meaning of each command: one arm per constructor of Instr, in the order of spec/opcode_table.json, each
one call of that command's meaning. exec acts on everything but the queue. -/

namespace Sys2Proof.Machine

open Sys2Proof

def exec (i : Instr) (s : State) : Host.Outcome State Fault Refusal :=
  match i with
  | .supplyLost pages => Sys2Proof.Machine.execSupplyLost pages s
  | .coldStart bootsel => Sys2Proof.Machine.execColdStart bootsel s
  | .latchRearm => Sys2Proof.Machine.execLatchRearm s
  | .resetAssert pages => Sys2Proof.Machine.execResetAssert pages s
  | .resetRelease => Sys2Proof.Machine.execResetRelease s
  | .presentLow => Sys2Proof.Machine.execPresentLow s
  | .busLive => Sys2Proof.Machine.execBusLive s
  | .presentHigh => Sys2Proof.Machine.execPresentHigh s
  | .pllLock => Sys2Proof.Machine.execPllLock s
  | .clockFail => Sys2Proof.Machine.execClockFail s
  | .evqPop => Sys2Proof.Machine.execEvqPop s
  | .timeLo => Sys2Proof.Machine.execTimeLo s
  | .energyLo p => Sys2Proof.Machine.execEnergyLo p s
  | .tdataRead early => Sys2Proof.Machine.execTdataRead early s
  | .tdataWrite v => Sys2Proof.Machine.execTdataWrite v s
  | .tselWrite v => Sys2Proof.Machine.execTselWrite v s
  | .tidxWrite v => Sys2Proof.Machine.execTidxWrite v s
  | .commit => Sys2Proof.Machine.execCommit s
  | .abort withCommit => Sys2Proof.Machine.execAbort withCommit s
  | .mbxArgWrite v => Sys2Proof.Machine.execMbxArgWrite v s
  | .mbxArgRead => Sys2Proof.Machine.execMbxArgRead s
  | .echo => Sys2Proof.Machine.execEcho s
  | .fwuBegin storeOk => Sys2Proof.Machine.execFwuBegin storeOk s
  | .fwuPiece vin storeOk => Sys2Proof.Machine.execFwuPiece vin storeOk s
  | .fwuApply vin storeOk => Sys2Proof.Machine.execFwuApply vin storeOk s
  | .fwuCancel => Sys2Proof.Machine.execFwuCancel s
  | .recoveryImage storeOk => Sys2Proof.Machine.execRecoveryImage storeOk s
  | .ownerEnrol => Sys2Proof.Machine.execOwnerEnrol s
  | .fwlockSet => Sys2Proof.Machine.execFwlockSet s
  | .fwlockClear => Sys2Proof.Machine.execFwlockClear s
  | .keepDefaults => Sys2Proof.Machine.execKeepDefaults s
  | .mbxDone => Sys2Proof.Machine.execMbxDone s
  | .park => Sys2Proof.Machine.execPark s
  | .emergencyOff => Sys2Proof.Machine.execEmergencyOff s
  | .eoffRelease => Sys2Proof.Machine.execEoffRelease s
  | .cclr => Sys2Proof.Machine.execCclr s
  | .keepCtlStore => Sys2Proof.Machine.execKeepCtlStore s
  | .keepCtlScrub => Sys2Proof.Machine.execKeepCtlScrub s
  | .blockProtectWrite bp => Sys2Proof.Machine.execBlockProtectWrite bp s
  | .powerFailTriggerAssign en ch => Sys2Proof.Machine.execPowerFailTriggerAssign en ch s
  | .confirm byCore => Sys2Proof.Machine.execConfirm byCore s
  | .revert => Sys2Proof.Machine.execRevert s
  | .lockCode v => Sys2Proof.Machine.execLockCode v s
  | .guardClr p tripped => Sys2Proof.Machine.execGuardClr p tripped s
  | .guardAutoWrite p v => Sys2Proof.Machine.execGuardAutoWrite p v s
  | .roleWrite p role => Sys2Proof.Machine.execRoleWrite p role s
  | .enWrite p v => Sys2Proof.Machine.execEnWrite p v s
  | .autoWrite p v => Sys2Proof.Machine.execAutoWrite p v s
  | .lmaxWrite p l => Sys2Proof.Machine.execLmaxWrite p l s
  | .ps2Write p v => Sys2Proof.Machine.execPs2Write p v s
  | .fixedWrite p v => Sys2Proof.Machine.execFixedWrite p v s
  | .levelWrite p hold tgt => Sys2Proof.Machine.execLevelWrite p hold tgt s
  | .railSwap p => Sys2Proof.Machine.execRailSwap p s
  | .railEnWrite p v => Sys2Proof.Machine.execRailEnWrite p v s
  | .ilimWrite p v => Sys2Proof.Machine.execIlimWrite p v s
  | .ifastWrite p v => Sys2Proof.Machine.execIfastWrite p v s
  | .flagClear reg mask sets => Sys2Proof.Machine.execFlagClear reg mask sets s
  | .cmpCfgWrite v => Sys2Proof.Machine.execCmpCfgWrite v s
  | .cmpLvlWrite v => Sys2Proof.Machine.execCmpLvlWrite v s
  | .registerWrite addr v => Sys2Proof.Machine.execRegisterWrite addr v s
  | .fastOverCurrent p c => Sys2Proof.Machine.execFastOverCurrent p c s
  | .slowOverCurrent p c => Sys2Proof.Machine.execSlowOverCurrent p c s
  | .overVoltage p c => Sys2Proof.Machine.execOverVoltage p c s
  | .reverseCurrent p c => Sys2Proof.Machine.execReverseCurrent p c s
  | .reverseCurrentBlock p c => Sys2Proof.Machine.execReverseCurrentBlock p c s
  | .ringReclose p => Sys2Proof.Machine.execRingReclose p s
  | .ringBlockTimeout p => Sys2Proof.Machine.execRingBlockTimeout p s
  | .coolDown p => Sys2Proof.Machine.execCoolDown p s
  | .guardReclose p => Sys2Proof.Machine.execGuardReclose p s
  | .pathClosed p => Sys2Proof.Machine.execPathClosed p s
  | .criticalTrip => Sys2Proof.Machine.execCriticalTrip s
  | .safeExit => Sys2Proof.Machine.execSafeExit s
  | .khotRise pages => Sys2Proof.Machine.execKhotRise pages s
  | .khotClear => Sys2Proof.Machine.execKhotClear s
  | .droopDetect p => Sys2Proof.Machine.execDroopDetect p s
  | .droopHoldEnd p => Sys2Proof.Machine.execDroopHoldEnd p s
  | .droopStepRemoved p => Sys2Proof.Machine.execDroopStepRemoved p s
  | .droopLimitFall p => Sys2Proof.Machine.execDroopLimitFall p s
  | .droopLimitEnd p => Sys2Proof.Machine.execDroopLimitEnd p s
  | .vsetCalibration p v0 v1023 => Sys2Proof.Machine.execVsetCalibration p v0 v1023 s
  | .levelNotice p b1 => Sys2Proof.Machine.execLevelNotice p b1 s
  | .levelRampStart p => Sys2Proof.Machine.execLevelRampStart p s
  | .levelRampEnd p => Sys2Proof.Machine.execLevelRampEnd p s
  | .levelSettled p => Sys2Proof.Machine.execLevelSettled p s
  | .levelStepTimeout p => Sys2Proof.Machine.execLevelStepTimeout p s
  | .levelTrim p meanFeed => Sys2Proof.Machine.execLevelTrim p meanFeed s
  | .feedOutOfBand p => Sys2Proof.Machine.execFeedOutOfBand p s
  | .l0NotReached p => Sys2Proof.Machine.execL0NotReached p s
  | .lfaultClear p => Sys2Proof.Machine.execLfaultClear p s
  | .idleLevelDrop p => Sys2Proof.Machine.execIdleLevelDrop p s
  | .firstSecondStart p => Sys2Proof.Machine.execFirstSecondStart p s
  | .firstSecondEnd p => Sys2Proof.Machine.execFirstSecondEnd p s
  | .levelDecision p => Sys2Proof.Machine.execLevelDecision p s
  | .restoreReadyBroadcast p => Sys2Proof.Machine.execRestoreReadyBroadcast p s
  | .probeCycle p r => Sys2Proof.Machine.execProbeCycle p r s
  | .attach p => Sys2Proof.Machine.execAttach p s
  | .peerWindow p winA winB => Sys2Proof.Machine.execPeerWindow p winA winB s
  | .contentionPause p ms => Sys2Proof.Machine.execContentionPause p ms s
  | .contentionPauseEnd p => Sys2Proof.Machine.execContentionPauseEnd p s
  | .detach p => Sys2Proof.Machine.execDetach p s
  | .probeResume p => Sys2Proof.Machine.execProbeResume p s
  | .drawJoin p => Sys2Proof.Machine.execDrawJoin p s
  | .upstreamSilence p => Sys2Proof.Machine.execUpstreamSilence p s
  | .beacon p => Sys2Proof.Machine.execBeacon p s
  | .enrolWindowEnd p => Sys2Proof.Machine.execEnrolWindowEnd p s
  | .poll p kind idx => Sys2Proof.Machine.execPoll p kind idx s
  | .ackMissing p => Sys2Proof.Machine.execAckMissing p s
  | .request p idx h r => Sys2Proof.Machine.execRequest p idx h r s
  | .enroll p slot m => Sys2Proof.Machine.execEnroll p slot m s
  | .ack p seq => Sys2Proof.Machine.execAck p seq s
  | .nak p seq => Sys2Proof.Machine.execNak p seq s
  | .hint p idx h m => Sys2Proof.Machine.execHint p idx h m s
  | .report p idx h m stepMa => Sys2Proof.Machine.execReport p idx h m stepMa s
  | .foreignBeacon p eui => Sys2Proof.Machine.execForeignBeacon p eui s
  | .calPulse p idx stepMa dur => Sys2Proof.Machine.execCalPulse p idx stepMa dur s
  | .specConfirmExpiry p slot => Sys2Proof.Machine.execSpecConfirmExpiry p slot s
  | .busySlotExpiry p slot => Sys2Proof.Machine.execBusySlotExpiry p slot s
  | .allocatorPass => Sys2Proof.Machine.execAllocatorPass s
  | .engineConfirm p slot => Sys2Proof.Machine.execEngineConfirm p slot s
  | .engineDeny p slot reason => Sys2Proof.Machine.execEngineDeny p slot reason s
  | .engineWithdraw p idx reason => Sys2Proof.Machine.execEngineWithdraw p idx reason s
  | .engineLevelTarget p l => Sys2Proof.Machine.execEngineLevelTarget p l s
  | .ready p slot => Sys2Proof.Machine.execReady p slot s
  | .hintLevelRaise p idx => Sys2Proof.Machine.execHintLevelRaise p idx s
  | .hintReservationEnd p idx => Sys2Proof.Machine.execHintReservationEnd p idx s
  | .peerGap p => Sys2Proof.Machine.execPeerGap p s
  | .peerHello p h m => Sys2Proof.Machine.execPeerHello p h m s
  | .peerReport p h m => Sys2Proof.Machine.execPeerReport p h m s
  | .railSwapReq p h eui takes => Sys2Proof.Machine.execRailSwapReq p h eui takes s
  | .railSwapAck p h refused => Sys2Proof.Machine.execRailSwapAck p h refused s
  | .swapGiverBackup p => Sys2Proof.Machine.execSwapGiverBackup p s
  | .railSwapEnd p conducted => Sys2Proof.Machine.execRailSwapEnd p conducted s
  | .swapSlotTimeout p => Sys2Proof.Machine.execSwapSlotTimeout p s
  | .ringJoinTrim p => Sys2Proof.Machine.execRingJoinTrim p s
  | .ringJoinFail p why => Sys2Proof.Machine.execRingJoinFail p why s
  | .ringJoinRetry p => Sys2Proof.Machine.execRingJoinRetry p s
  | .ringSynchronised p => Sys2Proof.Machine.execRingSynchronised p s
  | .ringFrameMirror p f => Sys2Proof.Machine.execRingFrameMirror p f s
  | .followerTakeover p backupUs => Sys2Proof.Machine.execFollowerTakeover p backupUs s
  | .followerLost p => Sys2Proof.Machine.execFollowerLost p s
  | .railOc p => Sys2Proof.Machine.execRailOc p s
  | .railOcOff p => Sys2Proof.Machine.execRailOcOff p s
  | .railRetry p => Sys2Proof.Machine.execRailRetry p s
  | .railOcClear p => Sys2Proof.Machine.execRailOcClear p s
  | .parkHandoffTimeout p => Sys2Proof.Machine.execParkHandoffTimeout p s
  | .gangFrame => Sys2Proof.Machine.execGangFrame s
  | .gsyncEdge => Sys2Proof.Machine.execGsyncEdge s
  | .glead m => Sys2Proof.Machine.execGlead m s
  | .gmem m => Sys2Proof.Machine.execGmem m s
  | .memberSlot readbackOk => Sys2Proof.Machine.execMemberSlot readbackOk s
  | .gangElection => Sys2Proof.Machine.execGangElection s
  | .gangJoin => Sys2Proof.Machine.execGangJoin s
  | .gangReadbackFault => Sys2Proof.Machine.execGangReadbackFault s
  | .gangRetry => Sys2Proof.Machine.execGangRetry s
  | .thermalThrottleUpdate a0 b0 a1 b1 => Sys2Proof.Machine.execThermalThrottleUpdate a0 b0 a1 b1 s
  | .bundleModel => Sys2Proof.Machine.execBundleModel s
  | .thermalReportExpiry => Sys2Proof.Machine.execThermalReportExpiry s
  | .throt p => Sys2Proof.Machine.execThrot p s
  | .ceilingThrotClear p => Sys2Proof.Machine.execCeilingThrotClear p s
  | .calibrationPoint => Sys2Proof.Machine.execCalibrationPoint s
  | .energyStore => Sys2Proof.Machine.execEnergyStore s
  | .keepCommitIssue writes => Sys2Proof.Machine.execKeepCommitIssue writes s
  | .keepCommitStart => Sys2Proof.Machine.execKeepCommitStart s
  | .keepDurable => Sys2Proof.Machine.execKeepDurable s
  | .tableDurableCommit => Sys2Proof.Machine.execTableDurableCommit s
  | .rosterPageWrite p page => Sys2Proof.Machine.execRosterPageWrite p page s
  | .keepSStoreDone => Sys2Proof.Machine.execKeepSStoreDone s
  | .powerFailTrigger => Sys2Proof.Machine.execPowerFailTrigger s
  | .powerFailRearm => Sys2Proof.Machine.execPowerFailRearm s
  | .scrubGroup r => Sys2Proof.Machine.execScrubGroup r s
  | .watchdog => Sys2Proof.Machine.execWatchdog s
  | .allocatorResume => Sys2Proof.Machine.execAllocatorResume s
  | .handover => Sys2Proof.Machine.execHandover s
  | .handoverResume => Sys2Proof.Machine.execHandoverResume s
  | .handoverBusyTimeout => Sys2Proof.Machine.execHandoverBusyTimeout s
  | .healthTimeout => Sys2Proof.Machine.execHealthTimeout s
  | .healthSelfCheck => Sys2Proof.Machine.execHealthSelfCheck s
  | .sequencerReload p => Sys2Proof.Machine.execSequencerReload p s
  | .sequencerReloadDone p => Sys2Proof.Machine.execSequencerReloadDone p s
  | .cmpTick inputs => Sys2Proof.Machine.execCmpTick inputs s
  | .captureFifoRead => Sys2Proof.Machine.execCaptureFifoRead s
  | .interrupt => Sys2Proof.Machine.execInterrupt s
  | .dmaDone => Sys2Proof.Machine.execDmaDone s
  | .debugHaltRequest attached => Sys2Proof.Machine.execDebugHaltRequest attached s
  | .timebaseCompare => Sys2Proof.Machine.execTimebaseCompare s
  | .beaconReceived p pinB h m bitNs => Sys2Proof.Machine.execBeaconReceived p pinB h m bitNs s
  | .pollReceived p h m reply mv => Sys2Proof.Machine.execPollReceived p h m reply mv s
  | .acceptReceived p h m => Sys2Proof.Machine.execAcceptReceived p h m s
  | .readyReceived p h bc m => Sys2Proof.Machine.execReadyReceived p h bc m s
  | .withdrawReceived p h bc m => Sys2Proof.Machine.execWithdrawReceived p h bc m s
  | .waitReceived p h m => Sys2Proof.Machine.execWaitReceived p h m s
  | .rejectReceived p h bc m => Sys2Proof.Machine.execRejectReceived p h bc m s
  | .assignReceived p h idx m => Sys2Proof.Machine.execAssignReceived p h idx m s
  | .shedToneReceived p => Sys2Proof.Machine.execShedToneReceived p s
  | .softResetReceived p h bc => Sys2Proof.Machine.execSoftResetReceived p h bc s
  | .hardResetReceived p h bc => Sys2Proof.Machine.execHardResetReceived p h bc s
  | .calPulseReceived p h m vBefore vDuring => Sys2Proof.Machine.execCalPulseReceived p h m vBefore vDuring s
  | .enrollMinislot p k j m mv idle => Sys2Proof.Machine.execEnrollMinislot p k j m mv idle s
  | .grantTimeout p => Sys2Proof.Machine.execGrantTimeout p s
  | .add w => Sys2Proof.Machine.execAdd w s
  | .sub w => Sys2Proof.Machine.execSub w s
  | .andOp w => Sys2Proof.Machine.execAndOp w s
  | .orOp w => Sys2Proof.Machine.execOrOp w s
  | .xor w => Sys2Proof.Machine.execXor w s
  | .andn w => Sys2Proof.Machine.execAndn w s
  | .mov w => Sys2Proof.Machine.execMov w s
  | .cmpCc w => Sys2Proof.Machine.execCmpCc w s
  | .shl w => Sys2Proof.Machine.execShl w s
  | .shr w => Sys2Proof.Machine.execShr w s
  | .sar w => Sys2Proof.Machine.execSar w s
  | .ror w => Sys2Proof.Machine.execRor w s
  | .min w => Sys2Proof.Machine.execMin w s
  | .max w => Sys2Proof.Machine.execMax w s
  | .minu w => Sys2Proof.Machine.execMinu w s
  | .maxu w => Sys2Proof.Machine.execMaxu w s
  | .sel w => Sys2Proof.Machine.execSel w s
  | .clz w => Sys2Proof.Machine.execClz w s
  | .ext w => Sys2Proof.Machine.execExt w s
  | .addsW w => Sys2Proof.Machine.execAddsW w s
  | .subsW w => Sys2Proof.Machine.execSubsW w s
  | .addsH w => Sys2Proof.Machine.execAddsH w s
  | .subsH w => Sys2Proof.Machine.execSubsH w s
  | .negsW w => Sys2Proof.Machine.execNegsW w s
  | .abssW w => Sys2Proof.Machine.execAbssW w s
  | .mul w => Sys2Proof.Machine.execMul w s
  | .mulh w => Sys2Proof.Machine.execMulh w s
  | .mulhu w => Sys2Proof.Machine.execMulhu w s
  | .div w => Sys2Proof.Machine.execDiv w s
  | .divu w => Sys2Proof.Machine.execDivu w s
  | .rem w => Sys2Proof.Machine.execRem w s
  | .remu w => Sys2Proof.Machine.execRemu w s
  | .mpyQ31 w => Sys2Proof.Machine.execMpyQ31 w s
  | .macQ31 w => Sys2Proof.Machine.execMacQ31 w s
  | .msuQ31 w => Sys2Proof.Machine.execMsuQ31 w s
  | .mpyQ15 w => Sys2Proof.Machine.execMpyQ15 w s
  | .macQ15 w => Sys2Proof.Machine.execMacQ15 w s
  | .accld w => Sys2Proof.Machine.execAccld w s
  | .accadd w => Sys2Proof.Machine.execAccadd w s
  | .accsh w => Sys2Proof.Machine.execAccsh w s
  | .narq31 w => Sys2Proof.Machine.execNarq31 w s
  | .narq15 w => Sys2Proof.Machine.execNarq15 w s
  | .mulai w => Sys2Proof.Machine.execMulai w s
  | .mulaf w => Sys2Proof.Machine.execMulaf w s
  | .ldW w => Sys2Proof.Machine.execLdW w s
  | .ldH w => Sys2Proof.Machine.execLdH w s
  | .ldHu w => Sys2Proof.Machine.execLdHu w s
  | .ldB w => Sys2Proof.Machine.execLdB w s
  | .ldBu w => Sys2Proof.Machine.execLdBu w s
  | .stW w => Sys2Proof.Machine.execStW w s
  | .stH w => Sys2Proof.Machine.execStH w s
  | .stB w => Sys2Proof.Machine.execStB w s
  | .lda w => Sys2Proof.Machine.execLda w s
  | .sta w => Sys2Proof.Machine.execSta w s
  | .lea w => Sys2Proof.Machine.execLea w s
  | .lrW w => Sys2Proof.Machine.execLrW w s
  | .scW w => Sys2Proof.Machine.execScW w s
  | .tasB w => Sys2Proof.Machine.execTasB w s
  | .bcopy w => Sys2Proof.Machine.execBcopy w s
  | .bfill w => Sys2Proof.Machine.execBfill w s
  | .bdiff w => Sys2Proof.Machine.execBdiff w s
  | .br w => Sys2Proof.Machine.execBr w s
  | .call w => Sys2Proof.Machine.execCall w s
  | .bz w => Sys2Proof.Machine.execBz w s
  | .bnz w => Sys2Proof.Machine.execBnz w s
  | .bltz w => Sys2Proof.Machine.execBltz w s
  | .bgez w => Sys2Proof.Machine.execBgez w s
  | .dbnz w => Sys2Proof.Machine.execDbnz w s
  | .waituntil w => Sys2Proof.Machine.execWaituntil w s
  | .jr w => Sys2Proof.Machine.execJr w s
  | .callr w => Sys2Proof.Machine.execCallr w s
  | .ret w => Sys2Proof.Machine.execRet w s
  | .tret w => Sys2Proof.Machine.execTret w s
  | .ewait w => Sys2Proof.Machine.execEwait w s
  | .epost w => Sys2Proof.Machine.execEpost w s
  | .fenceI w => Sys2Proof.Machine.execFenceI w s
  | .breakOp w => Sys2Proof.Machine.execBreakOp w s
  | .syscall w => Sys2Proof.Machine.execSyscall w s
  | .nop w => Sys2Proof.Machine.execNop w s
  | .mfs w => Sys2Proof.Machine.execMfs w s
  | .mts w => Sys2Proof.Machine.execMts w s
  | .unknownFrame p f => Sys2Proof.Machine.execUnknownFrame p f s
  | .advertReceived p h m => Sys2Proof.Machine.execAdvertReceived p h m s
  | .slotAtTspecconfirmLess2ms p slot => Sys2Proof.Machine.execSlotAtTspecconfirmLess2ms p slot s
  | .lockCodeTimeout => Sys2Proof.Machine.execLockCodeTimeout s
  | .thermRelChange rel => Sys2Proof.Machine.execThermRelChange rel s
  | .sreadyChange ready => Sys2Proof.Machine.execSreadyChange ready s
  | .tdieUpdate temp => Sys2Proof.Machine.execTdieUpdate temp s
  | .vsegIsegMean => Sys2Proof.Machine.execVsegIsegMean s
  | .guardMeterSample a b => Sys2Proof.Machine.execGuardMeterSample a b s
  | .vioAbsent => Sys2Proof.Machine.execVioAbsent s

end Sys2Proof.Machine
end

