-- ==== Sys2Proof/Safety.lean ====
section
/-! DEFINITION. The terms in which claims speak of a run: what a step completes, what of the device belongs to the core and to
the byte stores, and the invariants that every step keeps. -/

namespace Sys2Proof.Machine

open Sys2Proof

/-- A command completes: it answers a next state with the queue as it was and a device of which a property holds. -/
def Leads (c : Instr) (s : State) (P : Dev → Prop) : Prop := ∃ d, exec c s = .next { s with dev := d } ∧ P d

/-- The Fedora core as its own operations leave it: all of it but the pending interrupts and the events, which the engines
set (R427, R429). -/
def coreOf (d : Dev) : Core := { d.core with ipend := 0, evr := 0 }

/-- The byte stores of Keep: Keep-E, Keep-S and its two shadow banks (R390, R405). -/
def keepMem (k : Keep) : Sparse Byte × Sparse Byte × Sparse Byte × Sparse Byte := (k.e, k.s, k.shadowA.data, k.shadowB.data)

/-- The byte stores of a device's Keep. -/
def memOf (d : Dev) : Sparse Byte × Sparse Byte × Sparse Byte × Sparse Byte := keepMem d.keep

/-- Four byte stores in canonical form. -/
def memWf (m : Sparse Byte × Sparse Byte × Sparse Byte × Sparse Byte) : Prop :=
  Memory.wf m.1 = true ∧ Memory.wf m.2.1 = true ∧ Memory.wf m.2.2.1 = true ∧ Memory.wf m.2.2.2 = true

/-- The canonical form of every byte store of the device (log entry 6 for the core's two). -/
def Dev.memoryWf (d : Dev) : Prop :=
  memWf (memOf d) ∧ spRising d.core.ram = true ∧ spRising d.core.iram = true

/-- The windows and the return stack are in range: 1 to 10 frames, at most 16 return addresses (R415, R416, R418). -/
def Core.legal (c : Core) : Prop := 1 ≤ c.wres.toNat ∧ c.wres.toNat ≤ 10 ∧ c.rsCnt.toNat ≤ 16

/-! ## What statements speak of -/

/-- The state with one port changed. -/
def State.setPort (s : State) (p : PortId) (f : Port → Port) : State := { s with dev := s.dev.modPort p f }

/-- The role in force and PCTL of the other port are as they were. -/
def OtherRole (p : PortId) (d0 d : Dev) : Prop :=
  (d.port p.other).role = (d0.port p.other).role ∧ (d.port p.other).ctl = (d0.port p.other).ctl

/-- A frame has been given to the wire, or waits for the reload of its sequencer (R167). -/
def Sent (x : TxItem) (q : Port) : Prop := x ∈ q.line.tx ∨ x ∈ q.line.later

/-- An exchange of a kind with an index is under way or queued (R153). -/
def Asks (k : OutKind) (i : Idx) (q : Port) : Prop := ∃ o ∈ q.line.out, o.kind = k ∧ o.idx = i

/-- A REQUEST, HINT or REPORT that the head takes as new (R149): it is the head, knows the index, and this is no repeat. -/
def Heard (d : Dev) (p : PortId) (i : Idx) (h : FrameTag) : Prop :=
  headHears d p i = true ∧ duplicateFrom (d.port p) i h = false

/-- The contract table of a port without the contract of an index, whose admissions stay counted (R189, Table 05-1). -/
def endedAt (i : Idx) (q : Port) : Sparse ContractRec :=
  spSet {} q.contract i.toNat { admissions := (contractOf q i.toNat).admissions }

/-- A guard trip of a cause on a port (R252): the latch with its cause and time, the path open, the accumulator at 0 and
PEVT.TRIP; the other port's guard and path are as before. -/
def Tripped (cause : BitVec 4) (p : PortId) (d0 d : Dev) : Prop :=
  (d.port p).gate = .opened ∧ (d.port p).grd.latch = true ∧ (d.port p).grd.cause = cause ∧ (d.port p).grd.tripAt = d0.us
  ∧ (d.port p).grd.acc = 0 ∧ (d.port p).lev.cur = 0 ∧ (d.port p).pevt.getLsbD eTrip = true
  ∧ (d.port p.other).gate = (d0.port p.other).gate ∧ (d.port p.other).grd = (d0.port p.other).grd

/-- SAFE is in force with what it brings (R32): both paths open, both roles in force OFF, both tap rails off. -/
def InSafe (d : Dev) : Prop :=
  d.gl.safe = true ∧ d.gl.park = none
  ∧ ∀ p, (d.port p).gate = .opened ∧ (d.port p).role = .off ∧ (d.port p).rail.sw = .off ∧ (d.port p).att.att = false

/-- SAFE has been left (R32, Table 01-5): both latches are clear, and PCTL.ROLE and the role in force read OFF. -/
def LeftSafe (d : Dev) : Prop :=
  d.gl.safe = false ∧ ∀ p, (d.port p).grd.latch = false ∧ (d.port p).role = .off ∧ (d.port p).ctl.role = .off

/-- A DRAW port has accepted an addressed frame of its head (R148, R149): the SEQ, the time, and the ACK once it may transmit. -/
def DrawAnswers (p : PortId) (h : FrameTag) (d0 d : Dev) : Prop :=
  (d.port p).drw.seqRx = some h.seq ∧ (d.port p).drw.heardAt = d0.us
  ∧ (drawSpeaks d0 (d0.port p) = true → Sent (.short false h.seq) (d.port p))

/-- A mailbox command waits for the commit it has issued, or block protection has refused that commit and it ends with 0x05
(R393, R408). -/
def WaitsOrRefused (d0 d : Dev) : Prop :=
  (d.mbx.waits = true ∧ d0.keep.queue.length < d.keep.queue.length)
  ∨ (d.mbx.outcome = some (0x05, []) ∧ d.keep.bperr = true)

/-- Keep refuses no commit that the firmware makes of its own areas: KEEP_CTL.BP is 0, which leaves every page above 0x07FFF open
(Table 18-6), and KEEP_STAT.HOT is 0 (R393). -/
abbrev KeepOpen (d : Dev) : Prop := d.keep.bp = 0 ∧ d.gl.crit = false

/-- Block protection has refused a command's commit (R393, Table 18-7): RESULT 0x05 with BPERR, and nothing else has changed. -/
def RefusedByKeep (d0 d : Dev) : Prop :=
  d.mbx.outcome = some (0x05, []) ∧ d.keep.bperr = true ∧ d.keep.queue = d0.keep.queue ∧ d.gl.owner = d0.gl.owner
  ∧ d.keep.scrubHours = d0.keep.scrubHours

/-- New owner data are on their way (R408): copy A and then copy B are queued, the command waits for them, and the owner data in
force are as before until copy B is durable. -/
def OwnerIssued (o : Owner) (closes : Bool) (d0 d : Dev) : Prop :=
  d.mbx.waits = true ∧ d.gl.owner = d0.gl.owner
  ∧ d.keep.queue = d0.keep.queue ++ [⟨(copyCommits d0 2 (ownerCells o)).1, .ownerA o⟩, ⟨(copyCommits d0 2 (ownerCells o)).2, .ownerB o closes⟩]

/-- The owner that the 19 argument words of OWNER_ENROL name (Table 18-7); FWLOCK stays as it is. -/
def enrolledBy (args : List Half) (fwlock : Bool) : Owner :=
  { enrolled := true, key := argBytes (args.take 16), code := BitVec.ofNat 32 ((args.getD 16 0).toNat * 65536 + (args.getD 17 0).toNat)
    policy := (args.getD 18 0).setWidth 2, fwlock := fwlock }

/-- The device as an FWU_BEGIN commits it (R458): the inactive bank's delta area empty, its header held, reception open. -/
def begunWith (h : List Byte) (d : Dev) : Dev :=
  let d1 := modBank (!d.fwu.active) (fun b => { b with delta := [] }) d
  { d1 with fwu := { d1.fwu with header := h, held := [], torn := none, rx := true } }

/-- The device as the first commit of an FWU_PIECE stores it (R459): the index marked torn. -/
def tornAt (i : Nat) (d : Dev) : Dev := { d with fwu := { d.fwu with torn := some i } }

/-- The device as the second commit of an FWU_PIECE stores it (R459): the piece in the delta area and in the bitmap. -/
def pieceStored (i : Nat) (data : List Byte) (d : Dev) : Dev :=
  let d1 := modBank (!d.fwu.active) (fun b => { b with delta := spPut b.delta i data })
    (issue ⟨settingsCommit (tornAt i d), .due .settings⟩ (tornAt i d)).2
  { d1 with fwu := { d1.fwu with torn := none, held := d.fwu.held ++ [i] } }

/-- A running core that waits for nothing and has gathered nothing takes a legal word with its stop: a bundle of its own. -/
def IssuesAlone (o : Opc) (w : OpWord) (s : State) : Prop :=
  s.dev.core.run = true ∧ s.dev.core.wait = none ∧ s.dev.core.wdNow = false ∧ s.dev.core.bundle = [] ∧ w.stop = true
  ∧ wordOk o w = true

/-- The address behind a bundle of one word (R434). -/
def seqPc (w : OpWord) (c : Core) : Word := c.pc + (if w.lit.isSome then 8 else 4)

/-- The state with the core changed. -/
def State.onCore (s : State) (f : Core → Core) : State := { s with dev := s.dev.onCore f }

/-- The state after a bundle of one word that changes the core and goes on to the next bundle. -/
def State.advance (s : State) (w : OpWord) (f : Core → Core) : State := s.onCore fun c => { f c with pc := seqPc w c }

/-- The same with a taken branch, behind which fetch sees IRAM as it stands (R431). -/
def State.jump (s : State) (t : Word) (f : Core → Core) : State := s.onCore fun c => { f c with pc := t, iramFetch := c.iram }

/-- The state after a bundle that writes its d register. -/
def State.writesD (s : State) (w : OpWord) (v : Word) : State := s.advance w (putReg s.dev.core.cwb w.d.toNat v)

/-- The nearest number that `n` signed bits hold. -/
def clampTo (n : Nat) (x : Int) : Int := max (-(2 ^ (n - 1))) (min (2 ^ (n - 1) - 1) x)

/-- The state after a bundle that writes its d register with a number held to `n` bits, STATUS.SAT sticky (R420). -/
def State.writesSat (s : State) (w : OpWord) (n : Nat) (x : Int) : State :=
  s.advance w fun c => putReg c.cwb w.d.toNat (BitVec.ofInt 32 (clampTo n x)) { c with sat := c.sat || decide (clampTo n x ≠ x) }

/-- The state after a bundle that writes its accumulator with a number held to 40 bits, STATUS.AOV sticky (R419). -/
def State.writesAcc (s : State) (w : OpWord) (x : Int) : State :=
  s.advance w fun c => putAcc w.d.toNat (BitVec.ofInt 40 (clampTo 40 x)) { c with aov := c.aov || decide (clampTo 40 x ≠ x) }

/-- A trap or interrupt entry (R416, R426, R430): the window slides, TH sets, IE is saved and clears, and the handler runs at
TVEC + 64 × cause; registers, memories, the return stack and the ports are as before. -/
def Enters (cause : Nat) (tpc : Word) (s : State) (d : Dev) : Prop :=
  d.core.th = true ∧ d.core.ie = false ∧ d.core.ieSaved = s.dev.core.ie ∧ d.core.tcause = BitVec.ofNat 6 cause ∧ d.core.tpc = tpc
  ∧ d.core.cwb = s.dev.core.cwb + 24
  ∧ d.core.wres = (if s.dev.core.wres.toNat < 10 then s.dev.core.wres + 1 else s.dev.core.wres)
  ∧ d.core.pc = (s.dev.core.tvec ++ (0 : BitVec 6) : BitVec 32) + BitVec.ofNat 32 (64 * cause)
  ∧ d.core.resv = none ∧ d.core.phys = s.dev.core.phys ∧ d.core.g = s.dev.core.g ∧ d.core.acc = s.dev.core.acc
  ∧ d.core.rs = s.dev.core.rs ∧ d.core.rsCnt = s.dev.core.rsCnt ∧ d.core.ram = s.dev.core.ram ∧ d.core.iram = s.dev.core.iram
  ∧ d.keep = s.dev.keep ∧ d.p0 = s.dev.p0 ∧ d.p1 = s.dev.p1

/-- An aligned place for `n` bytes of data RAM. -/
def InRam (n : Nat) (a : Word) : Prop := 0x10000000 ≤ a.toNat ∧ a.toNat < 0x10040000 ∧ a.toNat % n = 0

/-- The number that `n` bytes of data RAM spell, by address. -/
def ramNat (c : Core) (a : Word) (n : Nat) : Nat := leNat ((List.range n).map fun k => ramByte c (a.toNat - 0x10000000 + k))

/-- The base register written back, where the mode of an operation has it (R421). -/
def backTo (o : Opc) (w : OpWord) (c0 : Core) : Core → Core :=
  if writesBase o w then putReg c0.cwb w.a.toNat (baseAfter o w c0) else id

/-- Data RAM with `n` bytes of a number stored at an address, low byte first: every other byte reads as before. -/
def RamStored (a : Word) (n v : Nat) (c0 c : Core) : Prop :=
  ∀ k, ramByte c k = if a.toNat - 0x10000000 ≤ k ∧ k < a.toNat - 0x10000000 + n
    then BitVec.ofNat 8 (v / 256 ^ (k - (a.toNat - 0x10000000))) else ramByte c0 k

/-- What a store of `n` bytes of a number in data RAM leaves: the reservation of its granule ends (R430); but for data RAM the core
is the one given, and the rest of the device is as before. -/
def Stores (a : Word) (n v : Nat) (x : Core) (s : State) (d : Dev) : Prop :=
  RamStored a n v s.dev.core d.core
  ∧ d.core.resv = (if s.dev.core.resv = some ((a.toNat - 0x10000000) / 8) then none else s.dev.core.resv)
  ∧ { d.core with ram := s.dev.core.ram, resv := s.dev.core.resv } = x ∧ { d with core := s.dev.core } = s.dev

end Sys2Proof.Machine
end

