-- ==== Sys2Proof/Certificates/Slice0/Obligations.lean ====
section
/-! DEFINITION. The statements for the provers. `Leads c s P` says that the command `c` completes from the state `s`: it
answers a next state whose queue is that of `s` and of whose device `P` holds. Where a statement names a log entry, what it says
there is the model's choice and no rule of the spec; and so it is everywhere that a command whose time the spec bounds by a range
is taken from the low bound of that range on (log entry 3). -/

set_option linter.unusedVariables false

open Sys2Proof Sys2Proof.Machine

/-! ## Chapter 11: the guard -/

/-- Chapter 11, "Trips", Tables 11-1 and 11-3, R246 to R252: a comparator past its threshold trips the port, on FEED, on a ring
feeder and on DRAW alike, where nothing else fires in that cycle; of two causes in one cycle the first of Table 11-3 is recorded, and
5 and 6 come before the four; one at or below its threshold, and one that fires while the latch is set, changes nothing. That the
comparators trip at the nominal thresholds is the model's choice (log entry 127). -/
def Obligations.GuardTripOpensAndLatches : Prop :=
  ∀ (s : State) (p : PortId) (c : Crossing),
    (guardRuns (s.dev.port p) = true → (s.dev.port p).grd.latch = false →
      (c.also = 0 →
        ((fastUv (s.dev.port p) : Int) < forwardUv (s.dev.port p) c.sense → Leads (.fastOverCurrent p c) s (Tripped 1 p s.dev))
        ∧ ((s.dev.port p).grd.full = true → Leads (.slowOverCurrent p c) s (Tripped 2 p s.dev))
        ∧ (overTrips (s.dev.port p) = true → Leads (.overVoltage p c) s (Tripped 3 p s.dev))
        ∧ ((s.dev.port p).ringFeeder = false → forwardUv (s.dev.port p) c.sense < -1500 →
            Leads (.reverseCurrent p c) s (Tripped 4 p s.dev)))
      ∧ (c.also.getLsbD 5 = false → c.also.getLsbD 6 = false → (s.dev.port p).grd.full = true →
        (c.also.getLsbD 1 = true → (fastUv (s.dev.port p) : Int) < forwardUv (s.dev.port p) c.sense →
          Leads (.slowOverCurrent p c) s (Tripped 1 p s.dev))
        ∧ (c.also.getLsbD 1 = false → c.also.getLsbD 4 = true → (s.dev.port p).ringFeeder = false →
            forwardUv (s.dev.port p) c.sense < -1500 → Leads (.slowOverCurrent p c) s (Tripped 4 p s.dev))
        ∧ (c.also.getLsbD 1 = false → c.also.getLsbD 4 = false → c.also.getLsbD 3 = true → overTrips (s.dev.port p) = true →
            Leads (.slowOverCurrent p c) s (Tripped 3 p s.dev)))
      ∧ (forwardUv (s.dev.port p) c.sense ≤ fastUv (s.dev.port p) → exec (.fastOverCurrent p c) s = .next s)
      ∧ ((s.dev.port p).grd.full = false → exec (.slowOverCurrent p c) s = .next s)
      ∧ (overTrips (s.dev.port p) = false → exec (.overVoltage p c) s = .next s)
      ∧ (-1500 ≤ forwardUv (s.dev.port p) c.sense → exec (.reverseCurrent p c) s = .next s))
    ∧ ((s.dev.port p).grd.latch = true ∨ c.also.getLsbD 5 = true ∨ c.also.getLsbD 6 = true →
      exec (.fastOverCurrent p c) s = .next s ∧ exec (.slowOverCurrent p c) s = .next s
      ∧ exec (.overVoltage p c) s = .next s ∧ exec (.reverseCurrent p c) s = .next s)

/-- Chapter 11, "Ring": a reverse current blocks: the path opens without a latch and keeps the code; the path closes again once
VFEED matches, at the ring level; what has not reclosed is given up. -/
def Obligations.RingFeederBlocksAndRecloses : Prop :=
  ∀ (s : State) (p : PortId), (s.dev.port p).ringFeeder = true →
    (∀ c : Crossing, guardRuns (s.dev.port p) = true → forwardUv (s.dev.port p) c.sense < -1500 → (s.dev.port p).gate ≠ .opened →
      Leads (.reverseCurrentBlock p c) s fun d =>
        (d.port p).gate = .opened ∧ (d.port p).ring.block = true ∧ (d.port p).ring.blockAt = s.dev.us
        ∧ (d.port p).grd.latch = (s.dev.port p).grd.latch ∧ (d.port p).lev.code = (s.dev.port p).lev.code
        ∧ (d.port p).lev.cur = 0 ∧ d.port p.other = s.dev.port p.other)
    ∧ ((s.dev.port p).ring.block = true → (s.dev.port p).ring.heldOpen = false → 1000 ≤ (s.dev.port p).met.match2 →
      Leads (.ringReclose p) s fun d =>
        (d.port p).gate = .closing s.dev.us ∧ (d.port p).ring.block = false ∧ (d.port p).grd.acc = 0
        ∧ (d.port p).lev.cur = (s.dev.port p).lev.ringCur ∧ d.port p.other = s.dev.port p.other)
    ∧ ((s.dev.port p).ring.block = true →
        (s.dev.port p).ring.blockAt + 100000 ≤ s.dev.us ∨ 3 ≤ (s.dev.port p).ring.blocks.length →
      Leads (.ringBlockTimeout p) s fun d =>
        (d.port p).gate = .opened ∧ (d.port p).ring.heldOpen = true ∧ (d.port p).ring.mism = true
        ∧ (d.port p).pevt.getLsbD eRing = true)

/-- Chapter 11, "Restart": the cool-down and GUARD.CLR release the latch, unless it was set in the cycle of the write; GUARD.AUTO is
written, and the path closes once every condition of R256 holds. -/
def Obligations.GuardRestart : Prop :=
  ∀ (s : State) (p : PortId),
    (∀ t, (s.dev.port p).grd.cool = some t → t ≤ s.dev.us → Leads (.coolDown p) s fun d =>
        (d.port p).grd.latch = false ∧ (d.port p).grd.cool = none ∧ (d.port p).grd.cause = (s.dev.port p).grd.cause
        ∧ (d.port p).gate = (s.dev.port p).gate ∧ d.port p.other = s.dev.port p.other)
    ∧ (∀ tripped, hostOk s.dev = true → (s.dev.port p).grd.latch = true → 1 ≤ (s.dev.port p).grd.cause.toNat →
        (s.dev.port p).grd.cause.toNat ≤ 4 → s.dev.gl.safe = false → Leads (.guardClr p tripped) s fun d =>
        (tripped = false ∨ (s.dev.port p).grd.tripAt ≠ s.dev.us → (d.port p).grd.latch = false ∧ (d.port p).grd.trips = []
          ∧ (d.port p).grd.cause = (s.dev.port p).grd.cause)
        ∧ (tripped = true → (s.dev.port p).grd.tripAt = s.dev.us → d.p0 = s.dev.p0 ∧ d.p1 = s.dev.p1))
    ∧ (∀ v, hostOk s.dev = true → Leads (.guardAutoWrite p v) s fun d =>
        (d.port p).grd.auto = v ∧ (v = false → (d.port p).grd.cool = none ∧ (d.port p).grd.latch = (s.dev.port p).grd.latch))
    ∧ (mayReclose s.dev p = true → Leads (.guardReclose p) s fun d =>
        (d.port p).gate = .closing s.dev.us ∧ (d.port p).grd.acc = 0
        ∧ ((s.dev.port p).ringFeeder = true → (d.port p).lev.cur = (s.dev.port p).lev.ringCur)
        ∧ d.port p.other = s.dev.port p.other)
    ∧ (∀ t, (s.dev.port p).gate = .closing t → 1000 ≤ (s.dev.port p).met.near → Leads (.pathClosed p) s fun d =>
        d = s.dev.modPort p fun q => { q with gate := .closed, grd := { q.grd with reclose := false } })

/-- R247: a host write of ILIM above IFAST is ignored; IFAST is reduced to 45 mV over the shunt, and ignored where the result
lies below ILIM. -/
def Obligations.CurrentThresholdWrites : Prop :=
  ∀ (s : State) (p : PortId) (v : Half), hostOk s.dev = true →
    (Leads (.ilimWrite p v) s fun d =>
      (d.port p).grd = { (s.dev.port p).grd with
        ilim := if (s.dev.port p).grd.ifast < v then (s.dev.port p).grd.ilim else v })
    ∧ Leads (.ifastWrite p v) s fun d =>
      (d.port p).grd = { (s.dev.port p).grd with
        ifast := if capBy v.toNat (fastMax (s.dev.port p)) < (s.dev.port p).grd.ilim.toNat then (s.dev.port p).grd.ifast
          else h16 (capBy v.toNat (fastMax (s.dev.port p))) }

/-! ## SAFE, emergency off and the critical latch (chapters 01, 04, 13) -/

/-- Table 01-5 and R96, R97, R312, R314: what enters SAFE and what leaves it. -/
def Obligations.SafeEntryAndExit : Prop :=
  ∀ s : State,
    (hostOk s.dev = true → s.dev.gl.safe = false → Leads .emergencyOff s fun d => InSafe d ∧ d.gl.eoff = true)
    ∧ (s.dev.pw.supply = true → s.dev.gl.crit = false → s.dev.up = true → s.dev.gl.safe = false →
        Leads .criticalTrip s fun d => InSafe d ∧ d.gl.crit = true ∧ d.keep.queue = [])
    ∧ (hostOk s.dev = true → s.dev.gl.safe = true → s.dev.gl.crit = false → Leads .eoffRelease s fun d =>
        LeftSafe d ∧ d.gl.eoff = false)
    ∧ (s.dev.gl.safe = true → s.dev.gl.crit = false → s.dev.gl.eoff = false → Leads .safeExit s LeftSafe)
    ∧ (hostOk s.dev = true → s.dev.gl.crit = true → s.dev.gl.rel = true → s.dev.keep.rollback = none → Leads .cclr s fun d =>
        d.gl.crit = false ∧ d.keep.dueHot = [] ∧ (s.dev.gl.safe = true → s.dev.gl.eoff = false → LeftSafe d)
        ∧ (s.dev.gl.eoff = true → d.gl.safe = s.dev.gl.safe))
    ∧ ∀ rel, exec (.thermRelChange rel) s = .next { s with dev := { s.dev with gl := { s.dev.gl with rel := rel } } }


/-! ## Roles, PCTL, the tap rail, the owner lock and the PLL (chapters 03, 04, 10) -/

/-- R93, R95, R98: a role that PCTL.ROLE takes comes into force where EN is 1, and OFF while SAFE is in force; EN 0 stops the
port; EN 1 asks for the role that PCTL.ROLE holds; a refused role leaves both as they were and raises PEVT.ROLE. -/
def Obligations.RoleWritten : Prop :=
  ∀ (s : State) (p : PortId), hostOk s.dev = true →
    (∀ c r, roleOfCode c = some r → parking s.dev = false → roleRefusal s.dev p r (s.dev.port p).ctl.en = none →
      Leads (.roleWrite p c) s fun d =>
        (d.port p).ctl = { (s.dev.port p).ctl with role := r }
        ∧ (d.port p).role = (if (s.dev.port p).ctl.en && !s.dev.gl.safe then r else .off) ∧ OtherRole p s.dev d)
    ∧ (∀ c r code, roleOfCode c = some r → parking s.dev = false →
        roleRefusal s.dev p r (s.dev.port p).ctl.en = some code → Leads (.roleWrite p c) s fun d =>
        (d.port p).ctl = (s.dev.port p).ctl ∧ (d.port p).role = (s.dev.port p).role
        ∧ (d.port p).pevt.getLsbD eRole = true ∧ OtherRole p s.dev d)
    ∧ (Leads (.enWrite p false) s fun d =>
        (d.port p).ctl = { (s.dev.port p).ctl with en := false } ∧ (d.port p).role = .off
        ∧ ((s.dev.port p).role ≠ .off → (d.port p).gate = .opened) ∧ OtherRole p s.dev d)
    ∧ ((s.dev.port p).ctl.en = false → parking s.dev = false → roleRefusal s.dev p (s.dev.port p).ctl.role true = none →
      Leads (.enWrite p true) s fun d =>
        (d.port p).ctl = { (s.dev.port p).ctl with en := true }
        ∧ (d.port p).role = (if s.dev.gl.safe then .off else (s.dev.port p).ctl.role) ∧ OtherRole p s.dev d)

/-- R70, R95, R94, R249, R283, R311: the other fields of PCTL and LEVEL take what the host writes, and the role in force stays. -/
def Obligations.PctlFieldsWritten : Prop :=
  ∀ (s : State) (p : PortId) (v : Bool) (l : Level), hostOk s.dev = true →
    (Leads (.autoWrite p v) s fun d =>
      (d.port p).ctl = { (s.dev.port p).ctl with auto := v }
      ∧ (d.port p).cfg.autoRole = (if v && !(s.dev.port p).ctl.auto then (s.dev.port p).ctl.role else (s.dev.port p).cfg.autoRole)
      ∧ (d.port p).role = (s.dev.port p).role ∧ d.port p.other = s.dev.port p.other ∧ Due.settings ∈ d.keep.due)
    ∧ (Leads (.lmaxWrite p l) s fun d =>
      (d.port p).ctl = { (s.dev.port p).ctl with lmax := l } ∧ (d.port p).role = (s.dev.port p).role
      ∧ (d.port p).lev.cur = (s.dev.port p).lev.cur ∧ OtherRole p s.dev d)
    ∧ (Leads (.ps2Write p v) s fun d =>
      (d.port p).ctl = { (s.dev.port p).ctl with ps2 := v } ∧ (d.port p).role = (s.dev.port p).role ∧ OtherRole p s.dev d)
    ∧ (Leads (.fixedWrite p v) s fun d =>
      (d.port p).ctl = { (s.dev.port p).ctl with fixed := v } ∧ (d.port p).role = (s.dev.port p).role ∧ OtherRole p s.dev d)
    ∧ ((s.dev.port p).follower = false → Leads (.levelWrite p v l) s fun d =>
      (d.port p).lev.hold = v ∧ (d.port p).ctl = (s.dev.port p).ctl ∧ (d.port p).lev.cur = (s.dev.port p).lev.cur
      ∧ (v = true → (s.dev.port p).lev.step.isSome = true →
          (d.port p).lev.tgtNext = some (clampTop (s.dev.port p) l)))

/-- R221, R222, R238: the tap-rail switch under its host fields, in current limit, and at its retry. -/
def Obligations.TapRail : Prop :=
  ∀ (s : State) (p : PortId),
    (hostOk s.dev = true → Leads (.railSwap p) s fun d =>
      ((d.port p).rail.swapReq = true ↔ (s.dev.port p).ringFeeder = true ∨ (s.dev.port p).rail.swapReq = true)
      ∧ d.port p.other = s.dev.port p.other ∧ (d.port p).rail.sw = (s.dev.port p).rail.sw)
    ∧ (hostOk s.dev = true → Leads (.railEnWrite p false) s fun d =>
      (d.port p).rail.en = false ∧ (d.port p).rail.sw = .off ∧ (d.port p).rail.oc = false ∧ (d.port p).rail.retryAt = none
      ∧ d.port p.other = s.dev.port p.other)
    ∧ (hostOk s.dev = true → Leads (.railEnWrite p true) s fun d =>
      (d.port p).rail.en = true ∧ d.port p.other = s.dev.port p.other
      ∧ ((d.port p).rail.sw = (s.dev.port p).rail.sw ∨ ((s.dev.port p).rail.sw = .off ∧ (d.port p).rail.sw = .backup)))
    ∧ ((s.dev.port p).master = true → (s.dev.port p).rail.oc = false → 1000 ≤ (s.dev.port p).met.railLim →
      Leads (.railOc p) s fun d =>
        (d.port p).rail = { (s.dev.port p).rail with oc := true } ∧ (d.port p).pevt.getLsbD eRail = true
        ∧ d.port p.other = s.dev.port p.other)
    ∧ ((s.dev.port p).master = true → 20000 ≤ (s.dev.port p).met.railLim → Leads (.railOcOff p) s fun d =>
        (d.port p).rail = { (s.dev.port p).rail with sw := .off, retryAt := some (s.dev.us + 1000000) }
        ∧ (d.port p).pevt.getLsbD eRail = true ∧ d.port p.other = s.dev.port p.other)
    ∧ (∀ t, (s.dev.port p).rail.retryAt = some t → t ≤ s.dev.us → (s.dev.port p).rail.en = true →
      Leads (.railRetry p) s fun d =>
        (d.port p).rail = { (s.dev.port p).rail with sw := .on, retryAt := none } ∧ (d.port p).pevt.getLsbD eRail = true
        ∧ d.port p.other = s.dev.port p.other)
    ∧ ((s.dev.port p).rail.oc = true → (s.dev.port p).rail.sw = .on → 10000 ≤ (s.dev.port p).met.railOk →
      exec (.railOcClear p) s = .next (s.setPort p fun q => { q with rail := { q.rail with oc := false } }))

/-- R90: two writes to LOCK within 1 ms are tried as one code; the first stands alone until then, and lapses after it. -/
def Obligations.OwnerLockCode : Prop :=
  ∀ (s : State) (v : Half), hostOk s.dev = true → s.dev.gl.lockBlocked = false → s.dev.gl.owner.enrolled = true →
    (s.dev.gl.lockArmed = none → v ≠ 0 → Leads (.lockCode v) s fun d =>
      d.gl = { s.dev.gl with lockArmed := some (v, s.dev.us) })
    ∧ (∀ h t, s.dev.gl.lockArmed = some (h, t) → s.dev.us ≤ t + 1000 → Leads (.lockCode v) s fun d =>
      d.gl.lockArmed = none
      ∧ (h ++ v = s.dev.gl.owner.code → d.gl.lockOpen = true ∧ d.gl.lockFails = s.dev.gl.lockFails)
      ∧ (h ++ v ≠ s.dev.gl.owner.code → d.gl.lockOpen = s.dev.gl.lockOpen
          ∧ d.gl.lockFails = (if s.dev.gl.lockFails = 15 then 15 else s.dev.gl.lockFails + 1)
          ∧ (d.gl.lockBlocked = true ↔ 8 ≤ d.gl.lockFails.toNat)))
    ∧ (∀ h t, s.dev.gl.lockArmed = some (h, t) → t + 1000 < s.dev.us → Leads .lockCodeTimeout s fun d =>
      d = { s.dev with gl := { s.dev.gl with lockArmed := none } })

/-! ## Attach and detach (chapters 06 and 10) -/

/-- R130, R131, R136: a debounced end cap or peer head attaches a FEED port, whose path is to close 0.4 ms after its rail; two beacons
on one pin join a DRAW port, beacons on both set STATE 5. That the path closes at the low bound of its range is the model's choice
(log entry 3). -/
def Obligations.Attaches : Prop :=
  ∀ (s : State) (p : PortId),
    (∀ sigB t, (s.dev.port p).att.debounce = some (.endCap sigB, t) → probes (s.dev.port p) = true → t + 100000 ≤ s.dev.us →
      Leads (.attach p) s fun d =>
        (d.port p).att.state = .attached ∧ (d.port p).att.att = true ∧ (d.port p).att.typ = 1 ∧ (d.port p).att.orient = sigB
        ∧ ((s.dev.port p).rail.en = true → (d.port p).rail.sw = .on)
        ∧ (d.port p).gate = (s.dev.port p).gate
        ∧ (d.port p).att.closeAt = (if (s.dev.port p).grd.latch then none else some (s.dev.us + 400))
        ∧ (d.port p).pevt.getLsbD eAttach = true ∧ d.port p.other = s.dev.port p.other)
    ∧ (∀ sigB t, (s.dev.port p).att.debounce = some (.peerHead sigB, t) → probes (s.dev.port p) = true →
        t + 100000 ≤ s.dev.us → 3 ≤ (s.dev.port p).att.windows → Leads (.attach p) s fun d =>
        (d.port p).att.state = .peerHead ∧ (d.port p).att.att = true ∧ (d.port p).att.typ = 2 ∧ (d.port p).att.orient = sigB
        ∧ (d.port p).ring.join = .hello 0 0 ∧ (d.port p).gate = (s.dev.port p).gate
        ∧ (d.port p).pevt.getLsbD eAttach = true ∧ d.port p.other = s.dev.port p.other)
    ∧ ((s.dev.port p).role = .draw → (s.dev.port p).ctl.en = true → (s.dev.port p).drw.joined = false →
        (∀ pinB, (if pinB then (s.dev.port p).drw.pinB else (s.dev.port p).drw.pinA) ≥ 2 →
          (if pinB then (s.dev.port p).drw.pinA else (s.dev.port p).drw.pinB) = 0 → Leads (.drawJoin p) s fun d =>
          (d.port p).drw.joined = true ∧ (d.port p).drw.heardAt = s.dev.us ∧ (d.port p).att.state = .attached
          ∧ (d.port p).att.typ = 3 ∧ (d.port p).att.orient = pinB ∧ (d.port p).pevt.getLsbD eAttach = true
          ∧ d.port p.other = s.dev.port p.other)
        ∧ (1 ≤ (s.dev.port p).drw.pinA → 1 ≤ (s.dev.port p).drw.pinB → Leads (.drawJoin p) s fun d =>
          (d.port p).att.state = .fault ∧ (d.port p).drw.joined = false ∧ (d.port p).gate = (s.dev.port p).gate))

/-- R123, R132, R133, R135, R224: probing, its windows and its pauses. -/
def Obligations.Probing : Prop :=
  ∀ (s : State) (p : PortId),
    (∀ r, probes (s.dev.port p) = true → (s.dev.port p).att.nextProbe ≤ s.dev.us →
      ((s.dev.port p).ring.en = false → exec (.probeCycle p r) s = .next (s.setPort p (probeResult r s.dev.us)))
      ∧ ((s.dev.port p).ring.en = true → Leads (.probeCycle p r) s fun d =>
        { (d.port p).att with windowOff := 0 } = { (probeResult r s.dev.us (s.dev.port p)).att with windowOff := 0 }
        ∧ 4000 ≤ (d.port p).att.windowOff ∧ (d.port p).att.windowOff ≤ 9000
        ∧ (d.port p).gate = (s.dev.port p).gate ∧ d.port p.other = s.dev.port p.other))
    ∧ (∀ a b, windowEnds s.dev.us (s.dev.port p) = true → Leads (.peerWindow p a b) s fun d =>
        (d.port p).att.windows = (if windowHigh (s.dev.port p) a b then (s.dev.port p).att.windows + 1 else 0)
        ∧ (d.port p).att.windowAt / 100000 = s.dev.us / 100000 + 1
        ∧ (d.port p).gate = (s.dev.port p).gate ∧ d.port p.other = s.dev.port p.other)
    ∧ (∀ ms, probes (s.dev.port p) = true → pauses (s.dev.port p) = true → 100 ≤ (s.dev.port p).att.fruitless →
        200 ≤ ms → ms ≤ 1000 → exec (.contentionPause p ms) s = .next (s.setPort p fun q =>
          { q with att := { q.att with pause := some (s.dev.us + 1000 * ms), fruitless := 0, debounce := none
                                       faultSince := none } }))
    ∧ (∀ t, (s.dev.port p).att.pause = some t → t ≤ s.dev.us → exec (.contentionPauseEnd p) s = .next (s.setPort p fun q =>
          { q with att := { q.att with pause := none, nextProbe := s.dev.us + 10000 } }))
    ∧ (∀ t, (s.dev.port p).att.resumeAt = some t → t ≤ s.dev.us → (s.dev.port p).role = .feed →
        exec (.probeResume p) s = .next (s.setPort p fun q =>
          { q with att := { q.att with resumeAt := none, state := .probing, nextProbe := s.dev.us + 10000 } }))

/-- R134, R135, R137: a FEED port detaches and a DRAW port loses its head: the path opens, nothing is attached. -/
def Obligations.Detaches : Prop :=
  ∀ (s : State) (p : PortId),
    (detachHolds (s.dev.port p) = true → Leads (.detach p) s fun d =>
      (d.port p).gate = .opened ∧ (d.port p).att.att = false ∧ (d.port p).att.state = .idle
      ∧ (d.port p).att.resumeAt = some (s.dev.us + 100000) ∧ (d.port p).rail.sw = .off ∧ (d.port p).ring.peer = false
      ∧ (d.port p).pevt.getLsbD eDetach = true ∧ (d.port p).role = (s.dev.port p).role ∧ OtherRole p s.dev d
      ∧ (d.port p.other).gate = (s.dev.port p.other).gate)
    ∧ ((s.dev.port p).role = .draw → (s.dev.port p).drw.joined = true → (s.dev.port p).drw.heardAt + 3300000 ≤ s.dev.us →
      Leads (.upstreamSilence p) s fun d =>
        (d.port p).gate = .opened ∧ (d.port p).att.att = false ∧ (d.port p).drw = {}
        ∧ (d.port p).pevt.getLsbD eDetach = true ∧ (d.port p).role = (s.dev.port p).role ∧ OtherRole p s.dev d)


/-! ## Levels and the droop responder (chapters 09 and 13) -/

/-- Table 09-2, R208, R211, R214, R216: the stages of a level step on the head of a line, and the abort of one that has not settled
in time: the from-level's code again, and LFAULT. -/
def Obligations.LevelStepStages : Prop :=
  ∀ (s : State) (p : PortId) (st : LevelStep), (s.dev.port p).lev.step = some st →
    (∀ t b1, st.stage = .due t → t + 1000 ≤ s.dev.us → 5 ≤ b1 → b1 ≤ 10 → mayBroadcast s.dev.us (s.dev.port p) = true →
      Leads (.levelNotice p b1) s fun d =>
      (d.port p).lev = { (s.dev.port p).lev with step := some { st with stage := .noticed s.dev.us b1 } }
      ∧ (d.port p).line.bseq = (s.dev.port p).line.bseq + 1
      ∧ Sent (.full ⟨0x10, 0x3FF, (s.dev.port p).line.bseq, flBc, payNotice st.src st.dst b1⟩) (d.port p)
      ∧ d.port p.other = s.dev.port p.other)
    ∧ (∀ t b1, st.stage = .noticed t b1 → t + 278 + b1 * 1000 ≤ s.dev.us → (s.dev.port p).drp.hold = false →
      exec (.levelRampStart p) s = .next (s.setPort p fun q => { q with lev := { q.lev with
        step := some { st with stage := .ramp t (s.dev.us - st.frozen) }, code := levelCode q st.src } }))
    ∧ (∀ t start, st.stage = .ramp t start → start + st.frozen + 28000 ≤ s.dev.us → (s.dev.port p).drp.hold = false →
      exec (.levelRampEnd p) s = .next (s.setPort p fun q => { q with lev := { q.lev with
        step := some { st with stage := .settling t s.dev.us }, code := levelCode q st.dst } }))
    ∧ (∀ t e, st.stage = .settling t e → settled (s.dev.port p) st e s.dev.us = true → Leads (.levelSettled p) s fun d =>
      (d.port p).lev.cur = (if (s.dev.port p).gate = .opened then 0 else st.dst) ∧ (d.port p).lev.lfault = false
      ∧ (d.port p).lev.tgtNext = none ∧ (d.port p).pevt.getLsbD eLevel = true
      ∧ (d.port p).gate = (s.dev.port p).gate ∧ d.port p.other = s.dev.port p.other)
    ∧ (∀ t, stepStart st = some t → t + Nat.min (60000 + st.frozen) 70000 ≤ s.dev.us → masterSettled (s.dev.port p) st = false →
      Leads (.levelStepTimeout p) s fun d =>
      (d.port p).lev.lfault = true ∧ (d.port p).lev.code = levelCode (s.dev.port p) st.src
      ∧ (d.port p).lev.cur = (s.dev.port p).lev.cur ∧ (d.port p).lev.tgtNext = none
      ∧ (st.src < st.dst → (d.port p).lev.raiseFrom = s.dev.us + 9900000)
      ∧ (d.port p).pevt.getLsbD eLevel = true ∧ (d.port p).gate = (s.dev.port p).gate ∧ OtherRole p s.dev d)

/-- R209, R215, R424: what lowers or raises LEVEL.TGT while HOLD is 0, and where R215 keeps it from rising; where no step runs and the
level differs, a step begins. -/
def Obligations.LevelTargets : Prop :=
  ∀ (s : State) (p : PortId), (s.dev.port p).lev.hold = false →
    (s.dev.tb.alloc = true → (s.dev.port p).isHead = true → (gangMember s.dev && decide (s.dev.gang.modeIn = 1)) = false →
      (∀ t, (s.dev.port p).lev.idleSince = some t → t + 9900000 ≤ s.dev.us → Leads (.idleLevelDrop p) s fun d =>
        (d.port p).lev.tgt = 0 ∧ (d.port p).lev.cur = (s.dev.port p).lev.cur ∧ d.port p.other = s.dev.port p.other))
    ∧ (∀ l, s.dev.core.run = true → (s.dev.port p).follower = false →
        ((s.dev.port p).lev.tgt < clampTop (s.dev.port p) l → raiseAllowed s.dev.us (s.dev.port p) = true) →
        Leads (.engineLevelTarget p l) s fun d =>
        (d.port p).lev.tgt = clampTop (s.dev.port p) l ∧ (d.port p).lev.cur = (s.dev.port p).lev.cur
        ∧ ((s.dev.port p).lev.step = none → (s.dev.port p).lev.cur ≠ clampTop (s.dev.port p) l →
            (s.dev.port p).gate = .closed → (s.dev.port p).isHead = true → (s.dev.port p).line.first = none →
            (d.port p).lev.step.isSome = true)
        ∧ d.port p.other = s.dev.port p.other)
    ∧ (∀ l, (s.dev.port p).lev.tgt < clampTop (s.dev.port p) l → raiseAllowed s.dev.us (s.dev.port p) = false →
        exec (.engineLevelTarget p l) s = .next s)

/-- R204, R206, R217, R218, R219: the trim of the code, the level fault and its end, and the measured transfer. -/
def Obligations.LevelTrimAndFaults : Prop :=
  ∀ (s : State) (p : PortId),
    (∀ m, (s.dev.port p).role = .feed → (s.dev.port p).gate = .closed → (s.dev.port p).lev.step = none →
      (s.dev.port p).drp.hold = false → (s.dev.port p).drp.act = false → (s.dev.port p).follower = false →
      (s.dev.port p).lev.trimMs < s.dev.us / 1000 → (s.dev.port p).lev.code ≤ upperCode (s.dev.port p) (s.dev.port p).lev.cur → 1 ≤ (s.dev.port p).lev.code →
      Leads (.levelTrim p m) s fun d =>
        (nominalMv (s.dev.port p).lev.cur * 1005 < m * 1000 → (d.port p).lev.code = (s.dev.port p).lev.code - 1)
        ∧ (m * 1000 < nominalMv (s.dev.port p).lev.cur * 995 → (d.port p).lev.code =
            Nat.min ((s.dev.port p).lev.code + 1) (upperCode (s.dev.port p) (s.dev.port p).lev.cur))
        ∧ (nominalMv (s.dev.port p).lev.cur * 995 ≤ m * 1000 → m * 1000 ≤ nominalMv (s.dev.port p).lev.cur * 1005 →
            (d.port p).lev.code = (s.dev.port p).lev.code)
        ∧ d.port p.other = s.dev.port p.other)
    ∧ ((s.dev.port p).role = .feed → (s.dev.port p).gate = .closed → (s.dev.port p).lev.step = none →
      (s.dev.port p).drp.hold = false → 105000 ≤ (s.dev.port p).met.vfeedOut → Leads (.feedOutOfBand p) s fun d =>
        (d.port p).lev.lfault = true ∧ (d.port p).lev.cur = (s.dev.port p).lev.cur ∧ (d.port p).lev.code = (s.dev.port p).lev.code
        ∧ (d.port p).gate = .closed ∧ (d.port p).role = .feed)
    ∧ (∀ t, (s.dev.port p).lev.driveAt = some t → t + 60000 ≤ s.dev.us → Leads (.l0NotReached p) s fun d =>
        (d.port p).lev.lfault = true ∧ (d.port p).gate = (s.dev.port p).gate)
    ∧ ((s.dev.port p).lev.lfault = true → (s.dev.port p).lev.step = none → 1000000 ≤ (s.dev.port p).met.vfeedIn →
      exec (.lfaultClear p) s = .next (s.setPort p fun q => { q with lev := { q.lev with lfault := false } }))
    ∧ (∀ t v0 v1, (s.dev.port p).role = .feed → (s.dev.port p).lev.calAt = some t → t + 40000 ≤ s.dev.us →
        Leads (.vsetCalibration p v0 v1) s fun d =>
          (d.port p).lev.calAt = none
          ∧ (v0 ≤ 11400 → 46200 ≤ v1 → v1 ≤ 55000 →
              (d.port p).cfg.xfer = some (h16 v0, h16 ((v1 - v0) * 1000 / 1023)) ∧ (d.port p).lev.lfault = (s.dev.port p).lev.lfault)
          ∧ (11400 < v0 ∨ v1 < 46200 ∨ 55000 < v1 →
              (d.port p).lev.lfault = true ∧ (d.port p).cfg = (s.dev.port p).cfg))

/-- R293 to R300: a droop is detected, its hold ends, its step goes, and its limit falls and ends. -/
def Obligations.DroopResponse : Prop :=
  ∀ (s : State) (p : PortId),
    (droopReady s.dev p = true → (s.dev.port p).follower = false → Leads (.droopDetect p) s fun d =>
      (d.port p).drp.act = true ∧ (d.port p).drp.hold = true ∧ (d.port p).drp.shed = true
      ∧ (d.port p).drp.applied = droopCodes (s.dev.port p)
      ∧ (d.port p).drp.limit = some (capBy (admitSum (s.dev.port p)) (s.dev.port p).drp.limit)
      ∧ (d.port p).pevt.getLsbD eDroop = true ∧ (d.port p).gate = (s.dev.port p).gate ∧ OtherRole p s.dev d)
    ∧ ((s.dev.port p).drp.hold = true → (s.dev.port p).follower = false → 1000 ≤ (s.dev.port p).met.vsegUp →
      Leads (.droopHoldEnd p) s fun d =>
        (d.port p).drp.hold = false ∧ (d.port p).drp.shed = false ∧ (d.port p).drp.removeAt = some s.dev.us
        ∧ (d.port p).drp.limit = (s.dev.port p).drp.limitPrev ∧ d.port p.other = s.dev.port p.other)
    ∧ ((s.dev.port p).drp.hold = true → (s.dev.port p).follower = false → (s.dev.port p).met.vsegUp < 1000 →
        (s.dev.port p).drp.at_ + 4900 ≤ s.dev.us → Leads (.droopHoldEnd p) s fun d =>
        (d.port p).drp.hold = false ∧ (d.port p).drp.fallAt = s.dev.us + 100000
        ∧ (d.port p).drp.limit = some (capBy ((s.dev.port p).drp.admit0 * 80 / 100) (s.dev.port p).drp.limitPrev)
        ∧ (d.port p).drp.shed = (s.dev.port p).drp.shed ∧ OtherRole p s.dev d)
    ∧ (∀ t, (s.dev.port p).drp.removeAt = some t → t + 100 * (s.dev.port p).drp.applied ≤ s.dev.us →
      exec (.droopStepRemoved p) s = .next (s.setPort p fun q =>
        { q with drp := { q.drp with act := false, applied := 0, removeAt := none } }))
    ∧ (∀ l, droopPersistent (s.dev.port p) = true → (s.dev.port p).drp.limit = some l →
        (s.dev.port p).drp.fallAt ≤ s.dev.us → Leads (.droopLimitFall p) s fun d =>
        (d.port p).drp = { (s.dev.port p).drp with
          fallAt := s.dev.us + 100000, limit := some (l - (s.dev.port p).drp.admit0 * 20 / 100) })
    ∧ ((s.dev.port p).drp.hold = false → (s.dev.port p).drp.at_ + 60000000 ≤ s.dev.us → 60000000 ≤ (s.dev.port p).met.vsegOk →
      exec (.droopLimitEnd p) s = .next (s.setPort p fun q => { q with drp := { q.drp with limit := none } }))


/-! ## The line: beacons, POLLs, enrolment, exchanges (chapters 03, 07, 08) -/

/-- R158 to R162, R174: a beacon that is due goes out with the head's state, counts, and sets the next one and its window;
ENROLLs are recorded in the window and answered after it; a POLL goes to an index on a free line. -/
def Obligations.BeaconsEnrolmentAndPolls : Prop :=
  ∀ (s : State) (p : PortId),
    (beaconDue (s.dev.port p) s.dev.us = true → Leads (.beacon p) s fun d =>
      (∃ fl seq, Sent (.full ⟨0x01, 0x3FF, (s.dev.port p).line.bseq, fl, payBeacon (beaconOf (s.dev.port p) seq)⟩) (d.port p))
      ∧ (d.port p).line.bcount = (s.dev.port p).line.bcount + 1
      ∧ (d.port p).line.window = (if opensWindow (s.dev.port p) s.dev.us then some (windowEnd s.dev.us) else none)
      ∧ (opensWindow (s.dev.port p) s.dev.us = false →
          (d.port p).line.due = (s.dev.port p).line.due + beaconPeriod (s.dev.port p))
      ∧ (d.port p).gate = (s.dev.port p).gate ∧ (d.port p).lev = (s.dev.port p).lev ∧ d.port p.other = s.dev.port p.other)
    ∧ ((s.dev.port p).isHead = true →
      (∀ k m t, (s.dev.port p).line.window = some t → s.dev.us ≤ t → exec (.enroll p k m) s = .next (s.setPort p fun q =>
          hears s.dev.us { q with line := { q.line with enrolls := q.line.enrolls ++ [(k, m)] } }))
      ∧ (∀ t, (s.dev.port p).line.window = some t → t ≤ s.dev.us → Leads (.enrolWindowEnd p) s fun d =>
          (d.port p).line.window = none ∧ (d.port p).line.enrolls = []
          ∧ (∀ k m i sl, (s.dev.port p).line.enrolls = [(k, m)] → findEui (s.dev.port p) m.eui = none →
              freeSlot (s.dev.port p) = some sl → freeIndex (s.dev.port p) = some i → i < 1024 →
              Asks (.assign true) (BitVec.ofNat 10 i) (d.port p) ∧ (rosterOf (d.port p) i).eui = m.eui)
          ∧ d.port p.other = s.dev.port p.other)
      ∧ (∀ kind i, lineFree s.dev.us (s.dev.port p) = true → pollAllowed (s.dev.port p) kind i s.dev.us = true →
          (kind = 0 → (rosterOf (s.dev.port p) i.toNat).resetDue = none) → Leads (.poll p kind i) s fun d =>
          Asks (.poll kind) i (d.port p)
          ∧ (∃ f, Sent (.full ⟨0x03, i, f, 0, payPoll (pollOf (s.dev.port p) i kind)⟩) (d.port p))
          ∧ (d.port p).contract = (s.dev.port p).contract ∧ d.port p.other = s.dev.port p.other))

/-- R148, R149, R150, R167, R178: how exchanges end, and the reload of a sequencer. -/
def Obligations.ExchangeEnds : Prop :=
  ∀ (s : State) (p : PortId),
    (∀ sq, (s.dev.port p).role = .draw →
      exec (.ack p sq) s = .next (s.setPort p fun q => drawAnswered true s.dev.us (hears s.dev.us q))
      ∧ exec (.nak p sq) s = .next (s.setPort p fun q => drawAnswered false s.dev.us (hears s.dev.us q)))
    ∧ (∀ sq o t fresh, (s.dev.port p).role ≠ .draw → (s.dev.port p).line.out = o :: t → o.sent = true → o.kind = .assign fresh →
        Leads (.ack p sq) s fun d => (d.port p).pevt.getLsbD eEnrol = true ∧ (d.port p).gate = (s.dev.port p).gate)
    ∧ (∀ sq o t, (s.dev.port p).role ≠ .draw → (s.dev.port p).line.out = o :: t → o.sent = true →
        Leads (.nak p sq) s fun d => d = calProgress p (relieve (exchangeDone p o false (dropFront p
          (s.dev.modPort p fun q => let h := hears s.dev.us q; { h with ring := { h.ring with polls := none } })))))
    ∧ (∀ o t, (s.dev.port p).line.out = o :: t → o.sent = true → idleFor 48 s.dev.us (s.dev.port p) = true → o.retries < 3 →
        Leads (.ackMissing p) s fun d =>
        (∃ x, (d.port p).line.out = x :: t ∧ x.kind = o.kind ∧ x.idx = o.idx ∧ x.retries = o.retries + 1
          ∧ x.frame = { o.frame with flags := o.frame.flags ||| flRetry }
          ∧ x.sent = mayStart (again o) s.dev.us (s.dev.port p) ∧ (x.sent = true → Sent (.full x.frame) (d.port p)))
        ∧ (d.port p).contract = (s.dev.port p).contract ∧ d.port p.other = s.dev.port p.other)
    ∧ (∀ f, discarded f = false → frameBad f = true ∨ actsOn f = false → addressed s.dev p f = true → (s.dev.port p).role ≠ .draw → (s.dev.port p).line.out = [] →
        Leads (.unknownFrame p f) s fun d => Sent (.short true f.seq) (d.port p)
          ∧ (d.port p).contract = (s.dev.port p).contract ∧ d.port p.other = s.dev.port p.other)
    ∧ (∀ f, discarded f = true → exec (.unknownFrame p f) s = .next s)
    ∧ (reloadMoment s.dev.us (s.dev.port p) = true →
        exec (.sequencerReload p) s = .next (s.setPort p fun q =>
          { q with line := { q.line with reloadDue := false, reloadAt := some s.dev.us, seqRun := false } }))
    ∧ (∀ t, (s.dev.port p).line.reloadAt = some t → exec (.sequencerReloadDone p) s = .next (s.setPort p fun q =>
        { q with line := { q.line with reloadAt := none, seqRun := true, tx := q.line.later.reverse ++ q.line.tx
                                       fresh := q.line.fresh ++ q.line.later, later := [] } }))

/-- R71, R77, R79: the first second begins and ends, its level decision is taken, and what it restored becomes READY. -/
def Obligations.FirstSecond : Prop :=
  ∀ (s : State) (p : PortId),
    ((s.dev.port p).isHead = true → (s.dev.port p).lev.driveAt.isSome = true → inBand 0 (s.dev.port p).met.last.vseg = true →
      Leads (.firstSecondStart p) s fun d =>
        (d.port p).line.first = some s.dev.us ∧ (d.port p).line.due = s.dev.us + 2000 ∧ (d.port p).line.decided = false
        ∧ (d.port p).line.restored = [] ∧ (d.port p).lev.driveAt = none ∧ d.port p.other = s.dev.port p.other)
    ∧ (∀ t, (s.dev.port p).line.first = some t → t + 1000000 ≤ s.dev.us → exec (.firstSecondEnd p) s = .next (s.setPort p fun q =>
        { q with line := { q.line with first := none, pass := none, decided := false } }))
    ∧ (decisionDue s.dev p = true → Leads (.levelDecision p) s fun d =>
        (d.port p).line.decided = true ∧ (d.port p).lev.cur = (s.dev.port p).lev.cur
        ∧ (d.port p).gate = (s.dev.port p).gate ∧ OtherRole p s.dev d)
    ∧ (restoreSettled (s.dev.port p) = true →
        (∀ i ∈ (s.dev.port p).line.restored, (contractOf (s.dev.port p) i.toNat).held = true →
          restoreFits (s.dev.port p) i = true) → Leads (.restoreReadyBroadcast p) s fun d =>
        (d.port p).line.restored = [] ∧ (d.port p).lev.cur = (s.dev.port p).lev.cur ∧ OtherRole p s.dev d)

/-! ## Admission (chapter 12) -/

/-- R180 to R182, R267, R269: a REQUEST is acknowledged; a malformed one is rejected with reason 9; one with an increment takes
a slot, granted at once or posted to the allocator. -/
def Obligations.RequestAnswered : Prop :=
  ∀ (s : State) (p : PortId) (i : Idx) (h : FrameTag) (r : RequestMsg) (k : Nat),
    Heard s.dev p i h → resyncs (s.dev.port p) i r = false → slotOf (s.dev.port p) i = none →
    freeSlot (s.dev.port p) = some k → (s.dev.port p).line.out = [] →
    (requestMalformed r = true → Leads (.request p i h r) s fun d =>
      Sent (.short false h.seq) (d.port p) ∧ Asks .reject i (d.port p) ∧ (d.port p).contract = (s.dev.port p).contract)
    ∧ (requestMalformed r = false → aboveLmax (s.dev.port p) r = false → (s.dev.port p).rail.swap = .none →
        (contractOf (s.dev.port p) i.toNat).held = false → allocRuns s.dev = true → txHold (s.dev.port p) = false →
        Leads (.request p i h r) s fun d =>
        Sent (.short false h.seq) (d.port p)
        ∧ (∃ x, spFind (d.port p).slots k = some x ∧ x.idx = some i ∧ x.req = r ∧ x.mtype = 0x08 ∧ x.posted = true
            ∧ (x.state = 1 ∨ x.state = 2))
        ∧ (d.port p).contract = (s.dev.port p).contract ∧ d.port p.other = s.dev.port p.other)

/-- R274, R424: the engine takes the core's confirmation, denial and withdrawal of a slot or contract. -/
def Obligations.EngineStores : Prop :=
  ∀ (s : State) (p : PortId), s.dev.core.run = true →
    (∀ (k : BitVec 7) x i, spFind (s.dev.port p).slots k.toNat = some x → x.idx = some i → x.mtype = 0x08 →
      slotOpen s.dev.us x = true →
        (∀ l, (s.dev.port p).rail.swap = .none → confirmLevel s.dev p x i = some l → Leads (.engineConfirm p k) s fun d =>
          (contractOf (d.port p) i.toNat).state = 1 ∧ (contractOf (d.port p) i.toNat).power = x.req.power
          ∧ (contractOf (d.port p) i.toNat).level = l
          ∧ (contractOf (d.port p) i.toNat).admissions = (contractOf (s.dev.port p) i.toNat).admissions + 1
          ∧ d.port p.other = s.dev.port p.other)
        ∧ ((s.dev.port p).rail.swap ≠ .none ∨ confirmLevel s.dev p x i = none → exec (.engineConfirm p k) s = .next s))
    ∧ (∀ (k : BitVec 7) x i rsn, spFind (s.dev.port p).slots k.toNat = some x → x.idx = some i → x.state = 2 →
      Leads (.engineDeny p k rsn) s fun d =>
        (d.port p).contract = endedAt i (s.dev.port p) ∧ (d.port p).gate = (s.dev.port p).gate ∧ d.port p.other = s.dev.port p.other)
    ∧ (∀ i rsn, (contractOf (s.dev.port p) i.toNat).held = true → Leads (.engineWithdraw p i rsn) s fun d =>
        (d.port p).contract = endedAt i (s.dev.port p) ∧ (d.port p).gate = (s.dev.port p).gate ∧ d.port p.other = s.dev.port p.other)

/-- R274, R275, R371, R427: a grant that is not confirmed in time ends; a slot that waited too long is told to wait; READY goes
when the level is reached; an undecided slot calls the core 2 ms before tSpecConfirm. -/
def Obligations.SlotsExpireOrReady : Prop :=
  ∀ (s : State) (p : PortId) (k : BitVec 7) (x : Slot) (i : Idx),
    spFind (s.dev.port p).slots k.toNat = some x → x.idx = some i →
    (x.state = 2 → x.since + 20000 ≤ s.dev.us → Leads (.specConfirmExpiry p k) s fun d =>
      (d.port p).contract = endedAt i (s.dev.port p) ∧ d.port p.other = s.dev.port p.other)
    ∧ (x.state = 1 → x.posted = true → x.since + 20000 ≤ s.dev.us → Leads (.busySlotExpiry p k) s fun d =>
      Asks .wait i (d.port p) ∧ (d.port p).contract = (s.dev.port p).contract ∧ d.port p.other = s.dev.port p.other)
    ∧ (readyDue s.dev.us x = true → (s.dev.port p).isHead = true → (rosterOf (s.dev.port p) i.toNat).state ≠ 0 →
      Leads (.ready p k) s fun d =>
      contractOf (d.port p) i.toNat = { contractOf (s.dev.port p) i.toNat with state := 2 }
      ∧ (rosterOf (d.port p) i.toNat).stored = (contractOf (s.dev.port p) i.toNat).power
      ∧ Asks (.ready (contractOf (s.dev.port p) i.toNat).level) i (d.port p) ∧ d.port p.other = s.dev.port p.other)
    ∧ (x.state = 1 ∨ x.state = 2 → x.since + 18000 ≤ s.dev.us → Leads (.slotAtTspecconfirmLess2ms p k) s fun d =>
      d = s.dev.modPort p (fun q => { q with slots := spPut q.slots k.toNat { x with warned := true } })
      ∧ engineCalls (d.port p) = true)

/-- R269, R329, R330: a pass of the allocator notes its time and takes the gang share that came since the last one; paths and
roles are left alone. -/
def Obligations.AllocatorPasses : Prop :=
  ∀ s : State, s.dev.core.run = true → allocRuns s.dev = true → s.dev.tb.passAt + 3800 ≤ s.dev.us →
    Leads .allocatorPass s fun d =>
      d.tb = { s.dev.tb with passAt := s.dev.us }
      ∧ d.gang = { s.dev.gang with share := s.dev.gang.shareNext.or s.dev.gang.share, shareNext := none }
      ∧ ∀ p, (d.port p).gate = (s.dev.port p).gate ∧ (d.port p).role = (s.dev.port p).role
          ∧ (d.port p).ctl = (s.dev.port p).ctl ∧ (d.port p).grd = (s.dev.port p).grd

/-- R302, R303: a HINT replaces the endpoint's reservation, raises the level before its start, and ends. -/
def Obligations.Forecasts : Prop :=
  ∀ (s : State) (p : PortId) (i : Idx),
    (∀ h m, Heard s.dev p i h → hintRefused (s.dev.port p) m = false → Leads (.hint p i h m) s fun d =>
      (d.port p).hints = (takeHint i m s.dev.us (s.dev.port p)).hints ∧ Sent (.short false h.seq) (d.port p)
      ∧ (d.port p).contract = (s.dev.port p).contract ∧ d.port p.other = s.dev.port p.other)
    ∧ (∀ x l, (s.dev.port p).hints.find? (fun h => h.idx == i) = some x → s.dev.core.run = true →
        (s.dev.port p).isHead = true → x.startAt ≤ s.dev.us + 200000 → s.dev.us < x.endAt →
        hintLevel (s.dev.port p) x.delta = some l → levelCapped s.dev p l = false → (s.dev.port p).lev.hold = false →
        (s.dev.port p).lev.raiseFrom = 0 → (s.dev.port p).lev.tgt < clampTop (s.dev.port p) l →
        Leads (.hintLevelRaise p i) s fun d =>
          (d.port p).lev.tgt = clampTop (s.dev.port p) l ∧ (d.port p).lev.cur = (s.dev.port p).lev.cur
          ∧ d.port p.other = s.dev.port p.other)
    ∧ (∀ x, (s.dev.port p).hints.find? (fun h => h.idx == i) = some x → x.endAt ≤ s.dev.us →
        exec (.hintReservationEnd p i) s = .next (s.setPort p (dropHint i)))

/-- R286, R287, R292, R300, R305: a REPORT's temperature and its low voltage, the calibration pulse, and what ends with time. -/
def Obligations.ReportsAndCalibration : Prop :=
  ∀ (s : State) (p : PortId) (i : Idx),
    (∀ h m stepMa, Heard s.dev p i h → Leads (.report p i h m stepMa) s fun d =>
      d.tb = takeTemp p i m.temp s.dev.us s.dev.tb ∧ (d.port p).gate = (s.dev.port p).gate
      ∧ ((contractOf (s.dev.port p) i.toNat).state = 2 → m.lowv = true →
          (d.port p).drp.limit = some (capBy (admitSum (s.dev.port p) * 95 / 100) (s.dev.port p).drp.limit)))
    ∧ (∀ stepMa dur k, freeSlot (s.dev.port p) = some k → mayPulse s.dev p i stepMa dur = true →
      Leads (.calPulse p i stepMa dur) s fun d =>
        (d.port p).line.cal = some (i, (s.dev.port p).line.calId, stepMa, none)
        ∧ (d.port p).line.calSlot = some (BitVec.ofNat 7 k) ∧ (d.port p).line.calId = (s.dev.port p).line.calId + 1
        ∧ (d.port p).line.pulses = (s.dev.port p).line.pulses + 1 ∧ d.port p.other = s.dev.port p.other)
    ∧ (∀ t, (s.dev.port p).ceilAt = some t → t + 9900000 ≤ s.dev.us →
        exec (.ceilingThrotClear p) s = .next (s.setPort p fun q => { q with ceilAt := none }))
    ∧ exec .thermalReportExpiry s = .next { s with dev := { s.dev with tb := rankReports s.dev.us s.dev.tb } }


/-! ## Ring feeding (chapter 10) and PARK -/

/-- R228: a peer gap of this feeder carries its PEER_HELLO where one is due, else in its parity its PEER_REPORT, once. -/
def Obligations.PeerGapCarriesOne : Prop :=
  ∀ (s : State) (p : PortId), peerHears (s.dev.port p) = true → (s.dev.port p).line.out = [] →
    (s.dev.port p).line.reloadAt = none → inGap (s.dev.port p) s.dev.us = true → swapSilences (s.dev.port p).rail.swap = false →
    idleFor (if (s.dev.port p).master then 24 else 12) s.dev.us (s.dev.port p) = true → (s.dev.port p).ring.gapDue ≠ (s.dev.port p).line.due →
    (helloWanted (s.dev.port p) = true → Leads (.peerGap p) s fun d =>
      Asks .peerHello 0x3FE (d.port p) ∧ (d.port p).ring.helloDue = false
      ∧ (d.port p).ring.gapDue = (s.dev.port p).line.due ∧ d.port p.other = s.dev.port p.other)
    ∧ (helloWanted (s.dev.port p) = false → swapDecided (s.dev.port p) = false → heldReady (s.dev.port p) = false →
        (s.dev.port p).ring.peer = true → ownParity (s.dev.port p) = true → Leads (.peerGap p) s fun d =>
      Asks .peerReport 0x3FE (d.port p) ∧ (d.port p).ring.gapDue = (s.dev.port p).line.due
      ∧ (d.port p).gate = (s.dev.port p).gate ∧ d.port p.other = s.dev.port p.other)

/-- Table 10-1, R225 to R227: a PEER_HELLO is acknowledged and makes a joiner a follower with an empty mirror, or is answered
by the head; the trim completes the join; a failed join opens the path and is tried again; 2.5 s after step 1 the tables are
synchronised. -/
def Obligations.RingJoins : Prop :=
  ∀ (s : State) (p : PortId),
    (∀ h m n t, peerHears (s.dev.port p) = true → peerDuplicate (s.dev.port p) h = false → (s.dev.port p).ring.peer = false →
      (s.dev.port p).ring.join = .hello n t → m.version.toNat / 256 = 1 → Leads (.peerHello p h m) s fun d =>
        Sent (.short false h.seq) (d.port p) ∧ (d.port p).ring.peer = true ∧ (d.port p).ring.join = .trimming s.dev.us
        ∧ (d.port p).ring.peerEui = m.eui ∧ (d.port p).ring.synced = false ∧ (d.port p).roster = [] ∧ (d.port p).contract = []
        ∧ (d.port p).pevt.getLsbD eRing = true ∧ (d.port p).gate = (s.dev.port p).gate
        ∧ d.port p.other = s.dev.port p.other)
    ∧ (∀ h m, peerHears (s.dev.port p) = true → peerDuplicate (s.dev.port p) h = false → (s.dev.port p).ring.peer = false →
        (s.dev.port p).ring.join = .none → (s.dev.port p).isHead = true → Leads (.peerHello p h m) s fun d =>
        Sent (.short false h.seq) (d.port p) ∧ Asks .peerHello 0x3FE (d.port p) ∧ (d.port p).ring.peerEui = m.eui
        ∧ (d.port p).ring.peerLmax = m.lmax ∧ d.port p.other = s.dev.port p.other)
    ∧ (∀ t, (s.dev.port p).ring.join = .trimming t → (s.dev.port p).ring.peer = true → 5000 ≤ (s.dev.port p).met.match2 →
        s.dev.us ≤ t + 200000 → (s.dev.port p).grd.latch = false → (s.dev.port p).cfg.xfer.isSome = true →
        Leads (.ringJoinTrim p) s fun d =>
        (d.port p).gate = .closing s.dev.us ∧ (d.port p).ring.join = .joined
        ∧ (d.port p).rail.sw = (if (s.dev.port p).rail.en then .backup else .off) ∧ d.port p.other = s.dev.port p.other)
    ∧ (∀ why, joinFails (s.dev.port p) s.dev.us why = true → Leads (.ringJoinFail p why) s fun d =>
        (d.port p).gate = .opened ∧ (d.port p).att.state = .fault ∧ (d.port p).ring.peer = false
        ∧ (d.port p).ring.join = .failed (s.dev.us + 9900000) ∧ (d.port p).ring.mism = true
        ∧ (d.port p).pevt.getLsbD eRing = true ∧ d.port p.other = s.dev.port p.other)
    ∧ (∀ t, (s.dev.port p).ring.join = .failed t → t ≤ s.dev.us → (s.dev.port p).role = .feed → (s.dev.port p).att.att = true →
        Leads (.ringJoinRetry p) s fun d =>
        (d.port p).ring.join = .hello 0 0 ∧ (d.port p).ring.peer = false ∧ (d.port p).att.state = .peerHead
        ∧ (d.port p).rail.sw = .off ∧ (d.port p).gate = (s.dev.port p).gate ∧ d.port p.other = s.dev.port p.other)
    ∧ (∀ t, (s.dev.port p).ring.joinAt = some t → (s.dev.port p).ring.peer = true → t + 2500000 ≤ s.dev.us →
        exec (.ringSynchronised p) s = .next (s.setPort p fun q => { q with ring := { q.ring with synced := true } }))

/-- R144, R147, R227, R231, R234: a PEER_REPORT is taken, a mismatch of levels shows on the master; a follower mirrors the line, but for
the frames that every receiver discards. -/
def Obligations.RingReportsAndMirror : Prop :=
  ∀ (s : State) (p : PortId),
    (∀ h m, peerHears (s.dev.port p) = true → (s.dev.port p).ring.peer = true → peerDuplicate (s.dev.port p) h = false →
      (s.dev.port p).ring.handOff = none →
      ((s.dev.port p).follower = true → levelsDiffer (s.dev.port p) m = false) → Leads (.peerReport p h m) s fun d =>
        (d.port p).ring.report = some m ∧ (d.port p).ring.missed = 0 ∧ (d.port p).ring.reportDue = (s.dev.port p).line.due ∧ (d.port p).gate = (s.dev.port p).gate
        ∧ (levelsDiffer (s.dev.port p) m = true → (d.port p).ring.mism = true ∧ (d.port p).pevt.getLsbD eRing = true)
        ∧ OtherRole p s.dev d)
    ∧ (∀ f, mirrors (s.dev.port p) f = true → f.flags &&& flPeer = 0 →
        (discarded f = false → f.flags &&& flDir ≠ 0 → exec (.ringFrameMirror p f) s = .next (s.setPort p fun q =>
          mirrorEndpoint f s.dev.us (hears s.dev.us q)))
        ∧ (discarded f = false → f.flags &&& flDir = 0 → f.mtype ≠ 0x11 → exec (.ringFrameMirror p f) s = .next (s.setPort p fun q =>
          mirrorHead p f s.dev (hears s.dev.us q)))
        ∧ (discarded f = true → exec (.ringFrameMirror p f) s = .next s))

/-- R157, R235 to R237: a feeder that loses its peer goes on alone; a follower takes the rail; the head with the higher EUI-48
falls silent. -/
def Obligations.RingPeerLost : Prop :=
  ∀ (s : State) (p : PortId),
    ((s.dev.port p).role = .feed → (s.dev.port p).ring.peer = true → (s.dev.port p).master = true →
      4 ≤ (s.dev.port p).ring.missed → s.dev.gl.park = none → Leads (.followerLost p) s fun d =>
        (d.port p).ring.peer = false ∧ (d.port p).ring.report = none ∧ (d.port p).rail.swap = .none
        ∧ (d.port p).pevt.getLsbD eRing = true ∧ (d.port p).gate = (s.dev.port p).gate ∧ (d.port p).role = .feed
        ∧ OtherRole p s.dev d)
    ∧ (∀ us, (s.dev.port p).follower = true → 1000 ≤ us ∨ masterSilent (s.dev.port p) s.dev.us = true → s.dev.gl.park = none →
      Leads (.followerTakeover p us) s fun d =>
        ((s.dev.port p).rail.en = true → (d.port p).rail.sw = .on)
        ∧ ((s.dev.port p).rail.en = false → (d.port p).rail.sw = (s.dev.port p).rail.sw)
        ∧ (d.port p).ring.peer = false ∧ (d.port p).pevt.getLsbD eRing = true
        ∧ (d.port p).gate = (s.dev.port p).gate ∧ OtherRole p s.dev d)
    ∧ (∀ e, (s.dev.port p).isHead = true → ownLower p e = false → Leads (.foreignBeacon p e) s fun d =>
        (d.port p).line.silent = true ∧ (d.port p).pevt.getLsbD eLine = true
        ∧ ((s.dev.port p).ring.en = true → (d.port p).gate = .opened ∧ (d.port p).ring.join = .hello 0 0)
        ∧ ((s.dev.port p).ring.en = false → (d.port p).gate = (s.dev.port p).gate)
        ∧ d.port p.other = s.dev.port p.other)

/-- R238 to R241, Table 10-2: a rail swap is asked for, answered, run and ended. -/
def Obligations.RailSwaps : Prop :=
  ∀ (s : State) (p : PortId), s.dev.gl.park = none →
    (∀ h e takes, peerHears (s.dev.port p) = true → (s.dev.port p).ring.peer = true → peerDuplicate (s.dev.port p) h = false →
      takes = (s.dev.port p).master → swapOutstanding (s.dev.port p) = false → nakedHere (s.dev.port p) = none →
      Leads (.railSwapReq p h e takes) s fun d =>
        Sent (.short false h.seq) (d.port p)
        ∧ (swapRefusal (s.dev.port p) takes = true → (d.port p).rail.swap = .none ∧ Asks (.swapAck true) 0x3FE (d.port p))
        ∧ (swapRefusal (s.dev.port p) takes = false → takes = true → slotsFree (s.dev.port p) = false →
            (d.port p).rail.swap = .held s.dev.us)
        ∧ (swapRefusal (s.dev.port p) takes = false → takes = false ∨ slotsFree (s.dev.port p) = true →
            (d.port p).rail.swap = .accepted (!takes) ∧ Asks (.swapAck false) 0x3FE (d.port p))
        ∧ d.port p.other = s.dev.port p.other)
    ∧ (∀ h refused, peerHears (s.dev.port p) = true → (s.dev.port p).ring.peer = true → peerDuplicate (s.dev.port p) h = false →
        awaitsSwapAck (s.dev.port p) = true → Leads (.railSwapAck p h refused) s fun d =>
        (refused = true → (d.port p).rail.swap = .none ∧ (d.port p).rail.swapReq = false ∧ (d.port p).pevt.getLsbD eRail = true)
        ∧ (refused = false → (d.port p).rail.swap = .running s.dev.us (!(s.dev.port p).master)
            ∧ ((s.dev.port p).master = false → (s.dev.port p).rail.en = true → (d.port p).rail.sw = .on)
            ∧ ((s.dev.port p).master = true ∨ (s.dev.port p).rail.en = false → (d.port p).rail.sw = (s.dev.port p).rail.sw))
        ∧ (d.port p).gate = (s.dev.port p).gate ∧ d.port p.other = s.dev.port p.other)
    ∧ (∀ t, (s.dev.port p).rail.swap = .running t false → t + 900 ≤ s.dev.us → (s.dev.port p).rail.sw = .on →
        exec (.swapGiverBackup p) s = .next (s.setPort p fun q => { q with rail := { q.rail with sw := .backup } }))
    ∧ (∀ t taker c, (s.dev.port p).rail.swap = .running t taker → t + 2000 ≤ s.dev.us → Leads (.railSwapEnd p c) s fun d =>
        (d.port p).rail.swap = .none ∧ (d.port p).rail.swapReq = false
        ∧ (50 < c → (d.port p).rail.sw = (if (s.dev.port p).rail.en then (if taker then .backup else .on) else .off))
        ∧ (c ≤ 50 → taker = true → (d.port p).rail.sw = (s.dev.port p).rail.sw ∧ (d.port p).ring.join = .none)
        ∧ (c ≤ 50 → taker = false → (d.port p).rail.sw = (if (s.dev.port p).rail.en then .backup else .off)
            ∧ (d.port p).ring.join = .joined)
        ∧ OtherRole p s.dev d)
    ∧ (∀ t, (s.dev.port p).rail.swap = .held t → t + 200000 ≤ s.dev.us → Leads (.swapSlotTimeout p) s fun d =>
        (d.port p).rail.swap = .none ∧ (d.port p).rail.swapReq = false ∧ Asks (.swapAck true) 0x3FE (d.port p)
        ∧ (d.port p).pevt.getLsbD eRail = true ∧ d.port p.other = s.dev.port p.other)

/-- R98, R99, R337: PARK without a ring feeder takes every FEED port to OFF; in HANDOVER it waits; a hand-off that is not
answered, or that no peer gap let begin, opens the path. That the latter comes 95 ms into the step is the model's choice (log entry
131). -/
def Obligations.ParkTakesPortsOff : Prop :=
  ∀ s : State,
    (hostOk s.dev = true → s.dev.gl.safe = false → parking s.dev = false →
      (s.dev.fwu.hand = none → s.dev.p0.ringFeeder = false → s.dev.p1.ringFeeder = false → Leads .park s fun d =>
        ∀ p, (s.dev.port p).role = .feed → (d.port p).role = .off ∧ (d.port p).gate = .opened)
      ∧ (s.dev.fwu.hand.isSome = true → Leads .park s fun d =>
        d.gl = { s.dev.gl with parkWaits := true } ∧ d.p0 = s.dev.p0 ∧ d.p1 = s.dev.p1))
    ∧ ∀ p t, (s.dev.port p).ring.handOff = some t ∧ t + 30000 ≤ s.dev.us
        ∨ (s.dev.port p).ring.handOff = none ∧ s.dev.gl.park = some (.handOff t) ∧ (s.dev.port p).ringFeeder = true
          ∧ t + 95000 ≤ s.dev.us → Leads (.parkHandoffTimeout p) s fun d =>
        (d.port p).gate = .opened


/-! ## A DRAW port as an endpoint (chapters 07 and 08) -/

/-- R170, R184 to R189: what a DRAW port does with an ACCEPT, a READY, a WITHDRAW, a WAIT and a REJECT that name it, once each; a WAIT
with a field out of range gets NAK and does nothing. -/
def Obligations.DrawContractFrames : Prop :=
  ∀ (s : State) (p : PortId) (h : FrameTag), drawNamed (s.dev.port p) = true → drawDuplicate (s.dev.port p) h false = false →
    (∀ m, Leads (.acceptReceived p h m) s fun d =>
      DrawAnswers p h s.dev d ∧ (d.port p).drw.grant = some (m, s.dev.us) ∧ (d.port p).drw.open_ = none
      ∧ (d.port p).drw.contract = (s.dev.port p).drw.contract ∧ (d.port p).drw.limitMw = (s.dev.port p).drw.limitMw
      ∧ (d.port p).gate = (s.dev.port p).gate ∧ d.port p.other = s.dev.port p.other)
    ∧ (∀ m, Leads (.readyReceived p h false m) s fun d =>
      DrawAnswers p h s.dev d ∧ (d.port p).drw.ready = true ∧ (d.port p).drw.grant = none ∧ (d.port p).drw.open_ = none
      ∧ (d.port p).drw.contract = some (m.power, m.level, if m.grant = 0 then 0 else (s.dev.port p).drw.reqFloor, m.grant)
      ∧ ((s.dev.port p).drw.shed = false → (d.port p).drw.limitMw = m.power.toNat * 100)
      ∧ ((s.dev.port p).drw.shed = true → (d.port p).drw.limitMw = (s.dev.port p).drw.limitMw)
      ∧ ((s.dev.port p).gate = .opened → (s.dev.port p).grd.latch = false → (s.dev.port p).grd.reclose = false →
          (d.port p).gate = .closing s.dev.us)
      ∧ ((s.dev.port p).grd.latch = true → (d.port p).gate = (s.dev.port p).gate) ∧ OtherRole p s.dev d)
    ∧ (∀ m, withdrawBad m.reason.toNat = false → Leads (.withdrawReceived p h false m) s fun d =>
      DrawAnswers p h s.dev d ∧ (d.port p).drw.contract = none ∧ (d.port p).drw.ready = false ∧ (d.port p).drw.limitMw = 50
      ∧ (d.port p).drw.grant = none ∧ (d.port p).drw.waiting = none ∧ (d.port p).drw.open_ = (s.dev.port p).drw.open_
      ∧ (d.port p).drw.idx = (s.dev.port p).drw.idx
      ∧ (d.port p).gate = (s.dev.port p).gate ∧ OtherRole p s.dev d)
    ∧ (∀ m, waitBad m.retryMs.toNat m.cause.toNat = true → Leads (.waitReceived p h m) s fun d =>
      (d.port p).drw = { (s.dev.port p).drw with heardAt := s.dev.us }
      ∧ (drawSpeaks s.dev (s.dev.port p) = true → Sent (.short true h.seq) (d.port p)) ∧ d.port p.other = s.dev.port p.other)
    ∧ (∀ m r t, waitBad m.retryMs.toNat m.cause.toNat = false → (s.dev.port p).drw.open_ = some (r, t) →
      Leads (.waitReceived p h m) s fun d =>
      DrawAnswers p h s.dev d ∧ (d.port p).drw.open_ = none
      ∧ (d.port p).drw.waiting = some (r, s.dev.us + 1000 * m.retryMs.toNat)
      ∧ (d.port p).drw.contract = (s.dev.port p).drw.contract ∧ (d.port p).drw.limitMw = (s.dev.port p).drw.limitMw
      ∧ (d.port p).gate = (s.dev.port p).gate ∧ d.port p.other = s.dev.port p.other)
    ∧ (∀ m r t, rejectBad m.reason.toNat m.detail.toNat = false → r.power ≠ 0 → (s.dev.port p).drw.open_ = some (r, t) →
      Leads (.rejectReceived p h false m) s fun d =>
      DrawAnswers p h s.dev d ∧ (d.port p).drw.open_ = none ∧ (d.port p).drw.waiting = none
      ∧ (d.port p).drw.barred = some (r.power, s.dev.us + 10000000)
      ∧ (d.port p).drw.contract = (s.dev.port p).drw.contract ∧ (d.port p).drw.limitMw = (s.dev.port p).drw.limitMw
      ∧ (d.port p).gate = (s.dev.port p).gate ∧ d.port p.other = s.dev.port p.other)

/-- R147, R163, R165, R178, R185, R191, R193, R295: what else a DRAW port takes: its index, both resets, the shed tone, which ends a
frame that it is sending, a calibration pulse, and the time-out of a grant. -/
def Obligations.DrawControls : Prop :=
  ∀ (s : State) (p : PortId), drawHears (s.dev.port p) = true →
    (∀ h idx m, assignHere (s.dev.port p) idx = true → m.eui = Config.headEui → drawDuplicate (s.dev.port p) h false = false →
      Leads (.assignReceived p h idx m) s fun d =>
        DrawAnswers p h s.dev d ∧ (d.port p).drw.idx = some idx ∧ (d.port p).drw.cls = m.cls ∧ (d.port p).drw.tenant = m.tenant
        ∧ (d.port p).drw.lost = 0 ∧ (d.port p).drw.contract = (s.dev.port p).drw.contract
        ∧ (d.port p).gate = (s.dev.port p).gate ∧ d.port p.other = s.dev.port p.other)
    ∧ (∀ h idx m, (assignHere (s.dev.port p) idx = false → exec (.assignReceived p h idx m) s = .next s)
        ∧ (m.eui ≠ Config.headEui → (s.dev.port p).drw.idx = none →
            exec (.assignReceived p h idx m) s = .next (s.setPort p (drawHeard s.dev.us)))
        ∧ (m.eui ≠ Config.headEui → (s.dev.port p).drw.idx = some idx → exec (.assignReceived p h idx m) s = .next (s.setPort p fun q =>
            drawShort s.dev true h (drawHeard s.dev.us q))))
    ∧ (∀ h bc, (if bc then true else drawNamed (s.dev.port p)) = true → drawDuplicate (s.dev.port p) h bc = false →
        (Leads (.softResetReceived p h bc) s fun d =>
          (d.port p).drw.contract = none ∧ (d.port p).drw.ready = false ∧ (d.port p).drw.grant = none
          ∧ (d.port p).drw.limitMw = 50 ∧ (d.port p).drw.idx = (s.dev.port p).drw.idx
          ∧ (d.port p).drw.seq = (s.dev.port p).drw.seq ∧ (d.port p).gate = (s.dev.port p).gate ∧ OtherRole p s.dev d)
        ∧ Leads (.hardResetReceived p h bc) s fun d =>
          (d.port p).drw.contract = none ∧ (d.port p).drw.ready = false ∧ (d.port p).drw.idx = none ∧ (d.port p).drw.seq = 0
          ∧ (d.port p).drw.seqRx = none ∧ (d.port p).drw.beacons = 0 ∧ (d.port p).drw.limitMw = 50
          ∧ (d.port p).drw.tenant = 0 ∧ (d.port p).gate = (s.dev.port p).gate ∧ OtherRole p s.dev d)
    ∧ (Leads (.shedToneReceived p) s fun d =>
        (d.port p).drw = { (s.dev.port p).drw with
          heardAt := s.dev.us, shed := true, toneAt := s.dev.us, restoreAt := none
          limitMw := Nat.min (s.dev.port p).drw.limitMw (contractFloorMw (s.dev.port p).drw)
          tried := match onLine s.dev.us (s.dev.port p) with
            | some f => if f.mtype = 0x04 then none else (s.dev.port p).drw.tried
            | none => (s.dev.port p).drw.tried }
        ∧ (∀ f, onLine s.dev.us (s.dev.port p) = some f → (d.port p).line.tx = cutItem f (s.dev.port p).line.tx)
        ∧ (d.port p).gate = (s.dev.port p).gate ∧ d.port p.other = s.dev.port p.other)
    ∧ (∀ h m before during, pulseBad m.dur.toNat = false → drawDuplicate (s.dev.port p) h true = false →
        Leads (.calPulseReceived p h m before during) s fun d =>
        (d.port p).drw.cal = some (m.calId, before, during) ∧ (d.port p).drw.seqRxBc = some h.seq
        ∧ ((s.dev.port p).drw.idx ≠ some m.drawer → (d.port p).drw.stepped = false)
        ∧ (d.port p).drw.limitMw = (s.dev.port p).drw.limitMw ∧ d.port p.other = s.dev.port p.other)
    ∧ Leads (.grantTimeout p) s fun d =>
        (∀ g t, (s.dev.port p).drw.grant = some (g, t) →
          (d.port p).drw.grant = if t + 400000 ≤ s.dev.us then none else some (g, t))
        ∧ (∀ r t, (s.dev.port p).drw.open_ = some (r, t) → (s.dev.port p).drw.reply = none →
          (d.port p).drw.open_ = if t + 400000 ≤ s.dev.us then none else some (r, t))
        ∧ (d.port p).drw.contract = (s.dev.port p).drw.contract ∧ d.port p.other = s.dev.port p.other

/-- R72, R136, R149, R151, R152, R154, R161, R173, R175, R176, R297: a DRAW port hears a BEACON, an ADVERT and a POLL, and enrols in a
window. That an unacknowledged reply waits for a POLL whose band and KIND permit it is the model's choice (log entry 115). -/
def Obligations.DrawHearsItsHead : Prop :=
  ∀ (s : State) (p : PortId),
    (∀ pinB h m ns, hearsBeacon (s.dev.port p) pinB = true → drawDuplicate (s.dev.port p) h true = false →
      (s.dev.port p).drw.tried = none → (s.dev.port p).drw.restoreAt = none → Leads (.beaconReceived p pinB h m ns) s fun d =>
      (d.port p).drw.beacons = (s.dev.port p).drw.beacons + 1 ∧ (d.port p).drw.heardAt = s.dev.us
      ∧ (d.port p).drw.beaconAdv = m.advseq ∧ (d.port p).drw.seqRxBc = some h.seq
      ∧ ((s.dev.port p).drw.joined = false →
          (d.port p).drw.pinA = (s.dev.port p).drw.pinA + (if pinB then 0 else 1)
          ∧ (d.port p).drw.pinB = (s.dev.port p).drw.pinB + (if pinB then 1 else 0))
      ∧ ((s.dev.port p).gate ≠ .opened → (d.port p).lev.cur = m.cur)
      ∧ (d.port p).drw.enrw = (m.enrw && decide ((s.dev.port p).drw.skip = 0))
      ∧ ((s.dev.port p).drw.shed = true → m.shed = false → beaconAfterTone (s.dev.port p).drw s.dev.us = true →
          (d.port p).drw.restoreAt = some (s.dev.us + 2000 * (s.dev.port p).drw.cls.toNat))
      ∧ (d.port p).gate = (s.dev.port p).gate ∧ d.port p.other = s.dev.port p.other)
    ∧ (∀ h m, drawHears (s.dev.port p) = true →
        (drawDuplicate (s.dev.port p) h true = false → exec (.advertReceived p h m) s = .next (s.setPort p fun q =>
          hears s.dev.us { q with drw := { q.drw with advert := some m, seqRxBc := some h.seq, heardAt := s.dev.us } }))
        ∧ (drawDuplicate (s.dev.port p) h true = true →
            exec (.advertReceived p h m) s = .next (s.setPort p (drawHeard s.dev.us))))
    ∧ (∀ h m r mv, drawNamed (s.dev.port p) = true → drawDuplicate (s.dev.port p) h false = false →
        m.kind = 0 → m.held = false → 650 ≤ mv → mv ≤ 1250 →
        drawSpeaks s.dev (s.dev.port p) = true → (s.dev.port p).drw.reply = none → Leads (.pollReceived p h m r mv) s fun d =>
        (d.port p).drw.contract = none ∧ ((s.dev.port p).drw.contract.isSome = true → (d.port p).drw.limitMw = 50)
        ∧ (d.port p).drw.seqRx = some h.seq ∧ (r = .nothing → Sent (.short false h.seq) (d.port p))
        ∧ (∀ x, r = .hint x → Sent (.full ⟨0x14, (s.dev.port p).drw.idx.getD 0, (s.dev.port p).drw.seq, flDir, payHint x⟩) (d.port p))
        ∧ (d.port p).gate = (s.dev.port p).gate ∧ OtherRole p s.dev d)
    ∧ (∀ h m r mv f, drawNamed (s.dev.port p) = true → drawSpeaks s.dev (s.dev.port p) = true →
        (s.dev.port p).drw.reply = some f → Leads (.pollReceived p h m r mv) s fun d => (d.port p).drw.reply = some f
        ∧ (650 ≤ mv → m.kind = 0 → Sent (.full { f with flags := f.flags ||| flRetry }) (d.port p))
        ∧ (f.mtype = 0x15 → m.kind = 0 ∨ m.kind = 2 → Sent (.full { f with flags := f.flags ||| flRetry }) (d.port p))
        ∧ (f.mtype ≠ 0x15 → mv < 550 → m.kind = 0 → Sent (.short false h.seq) (d.port p))
        ∧ (f.mtype ≠ 0x15 → m.kind = 2 → Sent (.short true h.seq) (d.port p)))
    ∧ ∀ k j m mv idle, mayEnrol s.dev (s.dev.port p) = true → 1350 < mv → s.dev.us = minislotAt (s.dev.port p).drw k j → Leads (.enrollMinislot p k j m mv idle) s fun d =>
        (d.port p).drw.tried = some 0 ∧ (d.port p).drw.enrw = false
        ∧ (idle = true → (d.port p).drw.seq = (s.dev.port p).drw.seq + 1 ∧ Sent
            (.full ⟨0x04, 0x3FF, (s.dev.port p).drw.seq, flBc ||| flDir, payEnroll { m with eui := Config.headEui }⟩) (d.port p))
        ∧ (idle = false → (d.port p).line = (s.dev.port p).line) ∧ d.port p.other = s.dev.port p.other


/-! ## The gang bus (chapter 14) -/

/-- R320, R322, R324, R325: joining, election with the first frame, withdrawal for a readback fault, and the retry. -/
def Obligations.GangMembership : Prop :=
  ∀ s : State, gangDrives s.dev = true →
    (∀ t n, s.dev.gang.phase = .listening t n → 2 ≤ n ∨ gsyncIdle s.dev t 0 = true → Leads .gangJoin s fun d =>
      d.gang.phase = .member ∧ d.gang.leader = false ∧ d.gang.alone = false ∧ d.gang.shares = s.dev.gang.shares
      ∧ d.p0 = s.dev.p0 ∧ d.p1 = s.dev.p1)
    ∧ (s.dev.gang.phase = .member → gsyncIdle s.dev 0 (2000 * s.dev.gang.id.toNat) = true → Leads .gangElection s fun d =>
        d.gang.phase = .leader ∧ d.gang.leader = true ∧ d.gang.edgeAt = s.dev.us ∧ d.gang.leaderId = s.dev.gang.id
        ∧ d.gang.frame = s.dev.gang.frame + 1 ∧ d.gang.txLead.length = s.dev.gang.txLead.length + 1)
    ∧ (s.dev.gang.phase = .member → 3 ≤ s.dev.gang.badReads → Leads .gangReadbackFault s fun d =>
        d.gang.phase = .backedOff (s.dev.us + 9900000) ∧ d.gang.alone = true ∧ d.gang.leader = true ∧ d.gang.count = 0
        ∧ d.gang.share = (if s.dev.gang.heardOther then s.dev.gang.share else none) ∧ d.p0 = s.dev.p0 ∧ d.p1 = s.dev.p1)
    ∧ (∀ t, s.dev.gang.phase = .backedOff t → t ≤ s.dev.us → exec .gangRetry s = .next { s with dev := { s.dev with
        gang := { s.dev.gang with phase := .listening s.dev.us 0 } } })

/-- R317, R321, R323, R330, R331: what a leader's frame, a GSYNC edge, a GLEAD, a GMEM and a member slot do. -/
def Obligations.GangFrames : Prop :=
  ∀ s : State, s.dev.up = true →
    (gangDrives s.dev = true → s.dev.gang.phase = .leader → s.dev.gang.edgeAt + 39800 ≤ s.dev.us → Leads .gangFrame s fun d =>
      d.gang.phase = .leader ∧ d.gang.edgeAt = s.dev.us ∧ d.gang.frame = s.dev.gang.frame + 1
      ∧ (∃ m, d.gang.txLead = m :: s.dev.gang.txLead ∧ m.leader = s.dev.gang.id ∧ m.mode = s.dev.gang.mode
          ∧ m.frame = s.dev.gang.frame + 1 ∧ m.budget = s.dev.gl.shelf
          ∧ (d.gang.alone = false → d.gang.shareNext = some (spGet 0 d.gang.shares s.dev.gang.id.toNat)))
      ∧ (3 ≤ s.dev.gang.noGmem → d.gang.alone = true ∧ d.gang.members = []))
    ∧ (Leads .gsyncEdge s fun d =>
        d.gang.edgeAt = s.dev.us ∧ d.gang.slotDue = false ∧ (d.gang.foreign = true ↔ s.dev.gang.phase = .leader)
        ∧ (∀ t n, s.dev.gang.phase = .listening t n → s.dev.gang.slotDue = false → d.gang.phase = .listening t 0)
        ∧ d.gang.shares = s.dev.gang.shares ∧ d.p0 = s.dev.p0 ∧ d.p1 = s.dev.p1)
    ∧ (∀ m, (s.dev.gang.phase = .member → Leads (.glead m) s fun d =>
          d.gang.phase = .member ∧ d.gang.leaderId = m.leader ∧ d.gang.frame = m.frame ∧ d.gang.modeIn = m.mode
          ∧ d.gang.level = m.level ∧ d.gang.s = m.budget ∧ d.gang.slotDue = true ∧ d.core.ipend.getLsbD 6 = true
          ∧ (m.bitmap.getLsbD s.dev.gang.id.toNat = true →
              d.gang.shareNext = some (m.shares.getD s.dev.gang.id.toNat 0))
          ∧ (m.bitmap.getLsbD s.dev.gang.id.toNat = false → d.gang.shareNext = s.dev.gang.shareNext))
        ∧ (∀ t n, s.dev.gang.phase = .listening t n → Leads (.glead m) s fun d => d.gang.phase = .listening t (n + 1))
        ∧ (s.dev.gang.phase = .leader → s.dev.gang.foreign = true → m.leader < s.dev.gang.id → Leads (.glead m) s fun d =>
          d.gang.phase = .member ∧ d.gang.leader = false ∧ d.gang.members = [] ∧ d.gang.leaderId = m.leader)
        ∧ (s.dev.gang.phase = .leader → s.dev.gang.foreign = false → Leads (.glead m) s fun d => d.gang = s.dev.gang))
    ∧ (∀ m, s.dev.gang.phase = .leader → m.id ≠ s.dev.gang.id → Leads (.gmem m) s fun d =>
        (∃ l, d.gang.members = l ++ [⟨m, 0⟩] ∧ ∀ x ∈ l, x ∈ s.dev.gang.members ∧ x.last.id ≠ m.id)
        ∧ d.gang.noGmem = 0 ∧ d.gang.alone = false ∧ d.gang.heardOther = true ∧ m.id ∉ d.gang.awaiting
        ∧ d.gang.shares = s.dev.gang.shares ∧ d.p0 = s.dev.p0 ∧ d.p1 = s.dev.p1)
    ∧ ∀ ok, gangDrives s.dev = true → s.dev.gang.phase = .member → s.dev.gang.slotDue = true →
        s.dev.gang.edgeAt + 3500 + 2000 * s.dev.gang.id.toNat ≤ s.dev.us →
        exec (.memberSlot ok) s = .next { s with dev := { s.dev with gang := { s.dev.gang with
          slotDue := false, txMem := ownGmem s.dev :: s.dev.gang.txMem
          gdat := (s.dev.gang.edgeAt + 3550 + 2000 * s.dev.gang.id.toNat, gangBytes 0x02 (gmemPayload (ownGmem s.dev))) :: s.dev.gang.gdat
          badReads := if ok then 0 else s.dev.gang.badReads + 1 } } }


/-! ## Heat (chapter 13) and the meter (chapter 15) -/

/-- R47, R306 to R309: the readings; a point at its limit caps its ports at ADMIT, and its limit moves by 5 % of the port cap; a
disabled bundle group limits nothing; the millisecond's THROT event. -/
def Obligations.HeatThrottles : Prop :=
  ∀ s : State, s.dev.up = true →
    (∀ t, exec (.tdieUpdate t) s = .next (if s.dev.us % 1000 = 0 then { s with dev := { s.dev with
        gl := { s.dev.gl with tdie := t } } } else s))
    ∧ (∀ a0 b0 a1 b1, Leads (.thermalThrottleUpdate a0 b0 a1 b1) s fun d =>
        d.tb.ntcA0 = readNtc a0 s.dev.tb.ntcA0 ∧ d.tb.ntcB1 = readNtc b1 s.dev.tb.ntcB1
        ∧ (allocRuns s.dev = true → s.dev.tb.thermalAt + 990000 ≤ s.dev.us → d.tb.thermalAt = s.dev.us ∧
            ∀ p i t lim, i ∈ pointsOf p → pointSeen (readPoints a0 b0 a1 b1 s.dev) i = (true, t, lim) →
              ((s.dev.port p).thermal = [] → lim ≤ t → spFind (d.port p).thermal i = some (admitSum (s.dev.port p)))
              ∧ ∀ v, (s.dev.port p).thermal = [(i, v)] →
                (lim < t → spFind (d.port p).thermal i = some (v - capShare (s.dev.port p) 5))
                ∧ (t ≤ lim → lim - 20 < t → spFind (d.port p).thermal i = some v)
                ∧ (t ≤ lim - 20 → spFind (d.port p).thermal i =
                    if portCap (s.dev.port p) < v + capShare (s.dev.port p) 5 then none
                    else some (v + capShare (s.dev.port p) 5)))
        ∧ (allocRuns s.dev = false → d.p0 = s.dev.p0 ∧ d.p1 = s.dev.p1 ∧ d.tb.thermalAt = s.dev.tb.thermalAt)
        ∧ ∀ p, (d.port p).gate = (s.dev.port p).gate)
    ∧ (allocRuns s.dev = true → s.dev.tb.bundleAt + 990000 ≤ s.dev.us → Leads .bundleModel s fun d =>
        d.tb.bundleAt = s.dev.us
        ∧ (∀ p, (d.port p).met.secN = 0 ∧ (d.port p).met.secI = 0 ∧ (d.port p).gate = (s.dev.port p).gate)
        ∧ ((∀ g < 8, (bundleOf s.dev g).en = false ∧ (bundleOf s.dev g).throttling = false) →
            d.tb.bundles = s.dev.tb.bundles ∧ ((∀ p, (s.dev.port p).bundle = []) → ∀ p, (d.port p).bundle = [])))
    ∧ ∀ p, ((s.dev.port p).throtAtMs < s.dev.us / 1000 → Leads (.throt p) s fun d =>
          (d.port p).throtDirty = false ∧ d.port p.other = s.dev.port p.other ∧ (d.port p).gate = (s.dev.port p).gate
          ∧ ((s.dev.port p).throtDirty = true → (d.port p).pevt.getLsbD eThrot = true)
          ∧ ((s.dev.port p).throtDirty = false → d = s.dev))
        ∧ (s.dev.us / 1000 ≤ (s.dev.port p).throtAtMs → exec (.throt p) s = .next s)

/-- R131, R339 to R342, R351, R403, Table 04-6: a sample is a microsecond and adds its energy, but on a port with PCTL.EN 0; the means of 100 samples; a calibration point shows
the energy; the energy store, and what refuses it. That the sample is the block's clock is the model's choice (log entry 3). -/
def Obligations.MeterCounts : Prop :=
  ∀ s : State, s.dev.up = true → s.dev.pw.supply = true →
    (∀ a b, s.dev.core.wait = none → Leads (.guardMeterSample a b) s fun d =>
        d.us = s.dev.us + 1 ∧ d.core = s.dev.core
        ∧ (s.dev.p0.throtDirty = false → s.dev.p1.throtDirty = false → d.keep = s.dev.keep ∧ d.gl = s.dev.gl)
        ∧ (s.dev.p0.ctl.en = true → d.p0.met.energyPj = s.dev.p0.met.energyPj + sampleEnergy s.dev.p0 a ∧ d.p0.met.last = a)
        ∧ (s.dev.p1.ctl.en = true → d.p1.met.energyPj = s.dev.p1.met.energyPj + sampleEnergy s.dev.p1 b ∧ d.p1.met.last = b)
        ∧ ∀ p, (d.port p).role = (s.dev.port p).role ∧ (d.port p).contract = (s.dev.port p).contract
          ∧ ((s.dev.port p).ctl.en = false → (d.port p).met.energyPj = (s.dev.port p).met.energyPj
              ∧ (d.port p).met.last = (s.dev.port p).met.last ∧ (d.port p).grd = (s.dev.port p).grd)
          ∧ ((s.dev.port p).att.closeAt = none → (d.port p).gate = (s.dev.port p).gate)
          ∧ (∀ t, (s.dev.port p).att.closeAt = some t → t ≤ s.dev.us + 1 → (s.dev.port p).cfg.xfer.isSome = true →
              (s.dev.port p).grd.latch = false → (d.port p).gate = .closing (s.dev.us + 1)))
    ∧ (Leads .vsegIsegMean s fun d => ∀ p,
        ((s.dev.port p).ctl.en = true → (s.dev.port p).met.n = 100 → (d.port p).met.vseg = sat16 ((s.dev.port p).met.sumV / 100)
          ∧ (d.port p).met.iseg = satInt16 ((s.dev.port p).met.sumI / 100) ∧ (d.port p).met.n = 0)
        ∧ ((s.dev.port p).ctl.en = false ∨ (s.dev.port p).met.n ≠ 100 → d.port p = s.dev.port p))
    ∧ (s.dev.us % 100000 = 0 → s.dev.tb.pointMs < s.dev.us / 1000 → Leads .calibrationPoint s fun d =>
        d.tb.pointMs = s.dev.us / 1000
        ∧ ∀ p, (d.port p).met.energy = BitVec.ofNat 48 ((s.dev.port p).met.energyPj / 1000000000)
          ∧ (d.port p).met.sumSq = 0 ∧ (d.port p).gate = (s.dev.port p).gate
          ∧ (allocRuns s.dev = true → (d.port p).met.missed = [])
          ∧ (allocRuns s.dev = false → (d.port p).met.missed.length = (s.dev.port p).met.missed.length + 1))
    ∧ (s.dev.core.run = true → s.dev.keep.energyAt + 894000000 ≤ s.dev.us → Leads .energyStore s fun d =>
        d.keep.energyAt = s.dev.us
        ∧ (s.dev.keep.bp = 3 → d.keep.snapNum = s.dev.keep.snapNum ∧ d.keep.ringPage = s.dev.keep.ringPage ∧ d.keep.bperr = true ∧ d.gl.gstat.getLsbD gKeep = true)
        ∧ (s.dev.keep.bp ≠ 3 → s.dev.gl.crit = true → d.keep.snapNum = s.dev.keep.snapNum ∧ d.keep.ringPage = s.dev.keep.ringPage)
        ∧ (s.dev.keep.bp ≠ 3 → s.dev.gl.crit = false → d.keep.snapNum = s.dev.keep.snapNum + 1 ∧ d.fwu.durable = true))


/-! ## Keep (chapter 18) -/

/-- R392, R393, R107, R400: a commit is issued, or refused by block protection first and by the critical latch second; it starts
in issue order; a due settings change and a dirty roster page become commits. -/
def Obligations.KeepCommitsIssuedAndStarted : Prop :=
  ∀ s : State,
    (∀ w, s.dev.core.run = true → commitSized w = true → queueRoom 1 s.dev = true →
      (commitProtected s.dev.keep.bp w = false → s.dev.gl.crit = false → exec (.keepCommitIssue w) s = .next { s with dev :=
        { s.dev with keep := { s.dev.keep with bperr := false, queue := s.dev.keep.queue ++ [⟨w, .firmware⟩] } } })
      ∧ (commitProtected s.dev.keep.bp w = true → Leads (.keepCommitIssue w) s fun d =>
          d.keep.queue = s.dev.keep.queue ∧ d.keep.bperr = true ∧ d.gl.gstat.getLsbD gKeep = true ∧ d.core.ipend.getLsbD 5 = true)
      ∧ (commitProtected s.dev.keep.bp w = false → s.dev.gl.crit = true → Leads (.keepCommitIssue w) s fun d =>
          d.keep.queue = s.dev.keep.queue ∧ d.keep.bperr = false ∧ d.gl.gstat.getLsbD gKeep = true))
    ∧ (∀ c t, s.dev.up = true → s.dev.keep.run = none → s.dev.keep.rollback = none → s.dev.keep.queue = c :: t →
        Leads .keepCommitStart s fun d =>
          d.keep.queue = t ∧ d.keep.lastNum = s.dev.keep.lastNum + 1
          ∧ d.keep.run = some { commit := c, num := s.dev.keep.lastNum + 1, pages := pagesOf c.writes [], hdr := s.dev.keep.jptr }
          ∧ d.keep.jptr = (s.dev.keep.jptr + 1 + 2 * (pagesOf c.writes []).length) % 64
          ∧ (Memory.wf s.dev.keep.e = true → ∀ a, 0x8000 ≤ a → spGet 0 d.keep.e a = spGet 0 s.dev.keep.e a))
    ∧ (∀ l, s.dev.core.run = true → s.dev.keep.due = .settings :: l → queueRoom 1 s.dev = true → s.dev.gl.crit = false →
        Leads .tableDurableCommit s fun d => d.keep.due = l ∧ d.keep.queue = s.dev.keep.queue ++
          (if commitProtected s.dev.keep.bp (settingsCommit s.dev) then [] else [⟨settingsCommit s.dev, .due .settings⟩]))
    ∧ (∀ l, s.dev.core.run = true → s.dev.keep.due = .settings :: l → queueRoom 1 s.dev = true → s.dev.gl.crit = true →
        commitProtected s.dev.keep.bp (settingsCommit s.dev) = false → Leads .tableDurableCommit s fun d =>
          d.keep.queue = s.dev.keep.queue ∧ d.keep.due = l ∧ Due.settings ∈ d.keep.dueHot)
    ∧ (∀ p page, s.dev.core.run = true → 512 + p.toNat * 128 + page.toNat ∈ s.dev.keep.pageDirty →
        spFind s.dev.keep.pageAt (512 + p.toNat * 128 + page.toNat) = none → queueRoom 1 s.dev = true →
        s.dev.gl.crit = false → Leads (.rosterPageWrite p page) s fun d =>
          d.keep.queue = s.dev.keep.queue
            ++ (if commitProtected s.dev.keep.bp (rosterCommit s.dev p (512 + p.toNat * 128 + page.toNat)) then []
              else [⟨rosterCommit s.dev p (512 + p.toNat * 128 + page.toNat), .due (pageDue p page)⟩])
          ∧ 512 + p.toNat * 128 + page.toNat ∉ d.keep.pageDirty
          ∧ spFind d.keep.pageAt (512 + p.toNat * 128 + page.toNat) = some s.dev.us)

/-- R394, R395, R397: a durable commit of the firmware has its pages' new contents on the cells and leaves every other byte above
the engine's own pages; THERM.KHOT voids a commit that is not sealed and leaves a sealed one to a rollback, which runs as KHOT
clears. -/
def Obligations.KeepCommitsEnd : Prop :=
  ∀ (s : State), Memory.wf s.dev.keep.e = true →
    (∀ r, s.dev.keep.run = some r → r.commit.tag = .firmware → s.dev.gl.park = none → Leads .keepDurable s fun d =>
      d.keep.run = none ∧ d.keep.dseq = r.num.setWidth 8 ∧ d.gl.gstat.getLsbD gKeep = true ∧ d.core.ipend.getLsbD 5 = true
      ∧ (∀ pg ∈ r.pages, 256 ≤ pg → readBytes d.keep.e (pg * 128) 128 = newImage s.dev.keep.e r.commit.writes pg)
      ∧ (∀ a, 0x8000 ≤ a → a / 128 ∉ r.pages → spGet 0 d.keep.e a = spGet 0 s.dev.keep.e a)
      ∧ d.p0 = s.dev.p0 ∧ d.p1 = s.dev.p1)
    ∧ (∀ n r, s.dev.keep.run = some r → n < commitLength r → Leads (.khotRise n) s fun d =>
        d.gl.khot = true ∧ d.keep.run = none ∧ (n < sealedAt r → d.keep.jroll = true ∧ d.keep.rollback = s.dev.keep.rollback
          ∧ ∀ a, 0x8000 ≤ a → spGet 0 d.keep.e a = spGet 0 s.dev.keep.e a)
        ∧ (sealedAt r ≤ n → d.keep.rollback = some r))
    ∧ (s.dev.keep.run = none → ∀ n, exec (.khotRise n) s = .next { s with dev :=
        { s.dev with gl := { s.dev.gl with khot := true } } })
    ∧ (s.dev.gl.khot = true → Leads .khotClear s fun d =>
        d.gl.khot = false ∧ d.keep.held = [] ∧ d.keep.rollback = none
        ∧ (s.dev.keep.rollback.isSome = true → d.keep.jroll = true) ∧ d.p0 = s.dev.p0 ∧ d.p1 = s.dev.p1)

/-- R48, R389, R405 to R407, R409: a store begins only with SREADY, ends after 7.6 ms; the trigger; block protection is raised
freely and lowered only with the owner lock open; the scrubber's pass. -/
def Obligations.KeepStoresAndProtection : Prop :=
  ∀ s : State,
    (hostOk s.dev = true → s.dev.keep.store = none → Leads .keepCtlStore s fun d =>
      (s.dev.pw.sready = true → d.keep.store = some (olderIsB s.dev.keep, s.dev.us)
        ∧ d.keep.s = writeCells s.dev.keep.s (storeImage s.dev) ∧ d.keep.e = s.dev.keep.e)
      ∧ (s.dev.pw.sready = false → d.keep.sfail = true ∧ d.gl.gstat.getLsbD gKeep = true ∧ d.keep.store = none
        ∧ d.keep.s = s.dev.keep.s))
    ∧ (∀ b t, s.dev.keep.store = some (b, t) → t + 7600 ≤ s.dev.us → s.dev.gl.park = none → Leads .keepSStoreDone s fun d =>
        d.keep.store = none ∧ d.keep.sfail = false
        ∧ (if b then d.keep.shadowB else d.keep.shadowA).done = true
        ∧ (if b then d.keep.shadowB else d.keep.shadowA).seq = Nat.max s.dev.keep.shadowA.seq s.dev.keep.shadowB.seq + 1
        ∧ (if b then d.keep.shadowA else d.keep.shadowB) = (if b then s.dev.keep.shadowA else s.dev.keep.shadowB))
    ∧ (∀ r, exec (.sreadyChange r) s = .next { s with dev := { s.dev with pw := { s.dev.pw with sready := r } } })
    ∧ (s.dev.keep.pfen = true → s.dev.cmp.fired = true → s.dev.keep.store = none → Leads .powerFailTrigger s fun d =>
        d.cmp.armed = false ∧ d.cmp.fired = false
        ∧ (s.dev.pw.sready = true → d.keep.store = some (olderIsB s.dev.keep, s.dev.us)))
    ∧ (s.dev.keep.pfen = true → s.dev.cmp.armed = false → s.dev.cmp.fired = false →
        (chanOf s.dev s.dev.keep.pfch.toNat).out = false → s.dev.cmp.zeroAt + 990000 ≤ s.dev.us →
        exec .powerFailRearm s = .next { s with dev := { s.dev with cmp := { s.dev.cmp with armed := true } } })
    ∧ (∀ en ch, hostOk s.dev = true → Leads (.powerFailTriggerAssign en ch) s fun d =>
        d.keep.pfen = en ∧ d.keep.pfch = ch ∧ (d.cmp.armed = true ↔ en = true ∧ (chanOf s.dev ch.toNat).out = false)
        ∧ d.keep.bp = s.dev.keep.bp)
    ∧ (∀ bp, hostOk s.dev = true → Leads (.blockProtectWrite bp) s fun d =>
        (s.dev.keep.bp ≤ bp ∨ lockOpens s.dev = true → d.keep.bp = bp ∧ d.keep.bperr = false)
        ∧ (bp < s.dev.keep.bp → lockOpens s.dev = false →
            d.keep.bp = s.dev.keep.bp ∧ d.keep.bperr = true ∧ d.gl.gstat.getLsbD gKeep = true ∧ d.keep.e = s.dev.keep.e))
    ∧ (hostOk s.dev = true → Leads .keepCtlScrub s fun d => d.keep.scrubFast = true ∧ d.keep.scrubLater = [])
    ∧ ∀ r, s.dev.up = true → s.dev.keep.run = none → s.dev.keep.scrubLater = [] →
      (scrubDue s.dev = false → exec (.scrubGroup r) s = .next s)
      ∧ (scrubDue s.dev = true → Leads (.scrubGroup r) s fun d =>
        d.keep.scrubFast = (s.dev.keep.scrubFast && decide (scrubPos s.dev.keep ≠ 16383))
        ∧ (r ≠ .uncorrectable → d.keep.queue = s.dev.keep.queue ∧ (Memory.wf s.dev.keep.e = true →
            scrubPos d.keep = (scrubPos s.dev.keep + 1) % 16384
            ∧ ∀ a, 0x3218 ≤ a → spGet 0 d.keep.e a = spGet 0 s.dev.keep.e a))
        ∧ (r = .uncorrectable → 0x8000 ≤ 8 * scrubPos s.dev.keep → scrubPos s.dev.keep ∈ d.keep.bad))


/-! ## Starts, restarts and handover (chapters 02, 03, 16, 21) -/

/-- R30, R57 to R64, R474, Table 03-2: losing the supply and RESET# leave every port at its Reset values; the armed latch and the
release of RESET# start the ROM, which ends with the firmware running, with SAFE where the critical latch is set, or in RECOVERY;
where the armed latch released the core while RESET# was low, the sample of BOOTSEL taken then and the cold start it was wait
for the release (R39, R57); PRESENT# and VIO; the PLL locks, or has failed 2 ms after it was asked for (R67). That the ROM's steps take no time is the model's choice (log entry 3). -/
def Obligations.StartsAndResets : Prop :=
  ∀ s : State,
    (∀ n, s.dev.pw.supply = true → Leads (.supplyLost n) s fun d =>
      d.pw.supply = false ∧ d.pw.phase = .dormant ∧ d.core.run = false ∧ d.keep.s = [] ∧ d.gl.gstat = 0
      ∧ (∀ p, d.port p = {}) ∧ d.fwu.bankA = s.dev.fwu.bankA ∧ d.fwu.bankB = s.dev.fwu.bankB)
    ∧ (s.dev.pw.supply = false → exec .latchRearm s = .next { s with dev :=
        { s.dev with pw := { s.dev.pw with latchArmed := true } } })
    ∧ (∀ n, s.dev.pw.supply = true → s.dev.pw.latchArmed = false → Leads (.resetAssert n) s fun d =>
        d.pw.resetLow = true ∧ d.pw.phase = .held ∧ d.pw.rdata = none ∧ d.core.run = false ∧ d.gl.gstat = 0
        ∧ (∀ p, d.port p = {}) ∧ d.keep.s = s.dev.keep.s ∧ d.gl.crit = s.dev.gl.crit
        ∧ d.fwu.bankA = s.dev.fwu.bankA ∧ d.fwu.bankB = s.dev.fwu.bankB)
    ∧ (∀ bootsel, s.dev.pw.latchArmed = true → s.dev.pw.resetLow = true → Leads (.coldStart bootsel) s fun d =>
        d.pw.supply = true ∧ d.pw.latchArmed = false ∧ d.pw.phase = .held ∧ d.core.run = false ∧ d.pw.coldHeld = some bootsel)
    ∧ (∀ bootsel, s.dev.pw.latchArmed = true → s.dev.pw.resetLow = false → Leads (.coldStart bootsel) s fun d =>
        d.us = 0 ∧ d.pw.cause = 0 ∧ d.pw.latchArmed = false ∧ (bootsel = true → d.pw.phase = .recovery)
        ∧ (d.pw.phase = .recovery ∧ d.core.run = false ∧ (∀ p, (d.port p).role = .off)
          ∨ d.pw.phase = .running ∧ d.core.run = true ∧ d.gl.gstat.getLsbD gBoot = true ∧ d.gl.safe = d.gl.crit
            ∧ (d.gl.safe = true → ∀ p, (d.port p).role = .off)))
    ∧ (s.dev.pw.resetLow = true → s.dev.pw.supply = true → s.dev.pw.latchArmed = false → Leads .resetRelease s fun d =>
        d.us = 0 ∧ d.pw.cause = (if s.dev.pw.coldHeld.isSome then 0 else 1) ∧ d.pw.resetLow = false ∧ d.pw.coldHeld = none
        ∧ (s.dev.pw.coldHeld = some true → d.pw.phase = .recovery)
        ∧ (d.pw.phase = .recovery ∨ d.pw.phase = .running ∧ d.core.run = true ∧ d.gl.gstat.getLsbD gBoot = true))
    ∧ (s.dev.pw.present = .high → exec .presentLow s = .next { s with dev := { s.dev with
        pw := { s.dev.pw with present := .waiting (s.dev.us + 9800), vio := true } } })
    ∧ (∀ t, s.dev.pw.present = .waiting t → exec .busLive s = .next (if t ≤ s.dev.us then { s with dev := { s.dev with
        pw := { s.dev.pw with present := .live } } } else s))
    ∧ exec .presentHigh s = .next { s with dev := { s.dev with pw := { s.dev.pw with present := .high, rdata := none } } }
    ∧ (s.dev.pw.pllOn = true → s.dev.pw.pllFailed = false →
        (Leads .pllLock s fun d => d = { s.dev with pw := { s.dev.pw with pllLocked := true } })
        ∧ (s.dev.up = true → s.dev.pw.pllLocked = false → s.dev.pw.pllAt + 2000 ≤ s.dev.us → Leads .clockFail s fun d =>
          d.pw = { s.dev.pw with pllFailed := true } ∧ d.gl.gstat.getLsbD gClk = true
          ∧ d.p0 = s.dev.p0 ∧ d.p1 = s.dev.p1))
    ∧ exec .vioAbsent s = .next { s with dev := { s.dev with pw := { s.dev.pw with vio := false, rdata := none } } }

/-- R367 to R373: the watchdog restarts the core and stops the allocator while the ports go on; the third firing within 60 s
resets the device; the allocator resumes. -/
def Obligations.CoreRestarts : Prop :=
  ∀ s : State, s.dev.up = true →
    (s.dev.core.restart = none → s.dev.core.wdNow = true ∨ s.dev.core.wdAt + 95000 ≤ s.dev.us →
      ((s.dev.core.fires.filter fun t => decide (s.dev.us < t + 60000000)).length < 2 →
        (s.dev.fwu.pend = false → s.dev.fwu.hand = none → Leads .watchdog s fun d =>
          d.core.run = false ∧ d.core.restart = some s.dev.us ∧ d.tb.alloc = false ∧ d.q.restart = true ∧ d.core.wdNow = false
          ∧ (s.dev.mbx.state = 1 → d.mbx.outcome = some (0x02, [])) ∧ d.us = s.dev.us
          ∧ ∀ p, (d.port p).gate = (s.dev.port p).gate ∧ (d.port p).role = (s.dev.port p).role
            ∧ (d.port p).contract = (s.dev.port p).contract)
        ∧ (s.dev.fwu.pend = true → s.dev.fwu.hand = none → Leads .watchdog s fun d =>
          d.fwu.pend = false ∧ d.tb.alloc = false ∧ (∃ i, d.fwu.hand = some i ∧ i.cause = 3 ∧ i.toB = !s.dev.fwu.active)
          ∧ ∀ p, (d.port p).gate = (s.dev.port p).gate ∧ (d.port p).role = (s.dev.port p).role))
      ∧ (2 ≤ (s.dev.core.fires.filter fun t => decide (s.dev.us < t + 60000000)).length → Leads .watchdog s fun d =>
          d.us = 0 ∧ d.pw.cause = 3))
    ∧ (s.dev.core.restart.isSome = true → Leads .allocatorResume s fun d =>
        d.core.run = true ∧ d.core.restart = none ∧ d.tb.alloc = true ∧ d.tb.passAt = s.dev.us
        ∧ ∀ p, (d.port p).hints = [] ∧ (d.port p).gate = (s.dev.port p).gate ∧ (d.port p).role = (s.dev.port p).role
          ∧ (d.port p).throtDirty = false)

/-- R463 to R468: a handover enters the other bank while the ports go on, HANDOVER ends when the incoming image resumes the
allocator, and an image is confirmed, reverted or handed back from. -/
def Obligations.HandsOver : Prop :=
  ∀ s : State,
    (handoverMay s.dev = true → Leads .handover s fun d =>
      (∃ i, d.fwu.hand = some i
        ∧ (bankState (bankOf s.dev.fwu (!s.dev.fwu.active)) = 1 ∧ imageDigests (bankOf s.dev.fwu (!s.dev.fwu.active)).image = true →
            i.cause = 0 ∧ i.toB = (!s.dev.fwu.active) ∧ bankState (bankOf d.fwu (!s.dev.fwu.active)) = 2)
        ∧ (¬(bankState (bankOf s.dev.fwu (!s.dev.fwu.active)) = 1 ∧ imageDigests (bankOf s.dev.fwu (!s.dev.fwu.active)).image = true) →
            i.cause = 1 ∧ i.toB = s.dev.fwu.active ∧ bankState (bankOf d.fwu (!s.dev.fwu.active)) = 4))
      ∧ d.tb.alloc = false ∧ d.fwu.handReq = none ∧ d.core.run = true ∧ d.core.phys = [] ∧ d.core.g = []
      ∧ ∀ p, (d.port p).gate = (s.dev.port p).gate ∧ (d.port p).role = (s.dev.port p).role
        ∧ (d.port p).contract = (s.dev.port p).contract)
    ∧ (∀ i, s.dev.fwu.hand = some i → s.dev.fwu.cancelDue = false → s.dev.gl.parkWaits = false →
        Leads .handoverResume s fun d =>
        d.fwu.hand = none ∧ d.fwu.active = i.toB ∧ d.fwu.pend = decide (i.cause = 0) ∧ d.tb.alloc = true ∧ d.core.run = true
        ∧ d.tb.passAt = s.dev.us ∧ d.fwu.healthAt = s.dev.us
        ∧ ∀ p, (d.port p).gate = (s.dev.port p).gate ∧ (d.port p).role = (s.dev.port p).role)
    ∧ (s.dev.fwu.hand = none → s.dev.fwu.pend = true →
        (hostOk s.dev = true → Leads .revert s fun d =>
          d.fwu.pend = false ∧ d.tb.alloc = false ∧ ∃ i, d.fwu.hand = some i ∧ i.cause = 2 ∧ i.toB = !s.dev.fwu.active)
        ∧ (s.dev.core.restart = none → s.dev.fwu.healthAt + 1000000 * s.dev.fwu.tHealth.toNat ≤ s.dev.us →
          Leads .healthTimeout s fun d =>
          d.fwu.pend = false ∧ d.tb.alloc = false ∧ ∃ i, d.fwu.hand = some i ∧ i.cause = 1 ∧ i.toB = !s.dev.fwu.active))
    ∧ (s.dev.fwu.pend = true →
        (s.dev.core.run = true → s.dev.fwu.hostconf = false → Leads (.confirm true) s fun d =>
          d.fwu.pend = false ∧ d.fwu.confirmed = true ∧ d.fwu.hand = s.dev.fwu.hand
          ∧ bankState (bankOf d.fwu s.dev.fwu.active) = 3)
        ∧ (hostOk s.dev = true → Leads (.confirm false) s fun d => d.fwu.pend = false ∧ d.fwu.confirmed = true)
        ∧ (s.dev.core.run = true → s.dev.fwu.hostconf = false → selfChecked s.dev = true → Leads .healthSelfCheck s fun d =>
          d.fwu.pend = false ∧ d.fwu.confirmed = true))
    ∧ (s.dev.fwu.hostconf = true → exec (.confirm true) s = .next s ∧ exec .healthSelfCheck s = .next s)
    ∧ ∀ t w, s.dev.fwu.handReq = some (t, w) → t + 500000 ≤ s.dev.us → s.dev.p0.lev.step.isSome = true →
        parking s.dev = false → Leads .handoverBusyTimeout s fun d => d.fwu.handReq = none ∧ d.fwu.refuse = 1 ∧ d.p0 = s.dev.p0


/-! ## The host's reads and writes (chapters 04, 05, 17) and the mailbox (chapter 21) -/

/-- R28, R85, R86, R91, R113, R381: what the reads with a side effect drive onto the data pins, and what they change; with the bus
live before the firmware runs they drive 0x0000 and change nothing; MBX_ARG reads 0x0000 before the first command. With no result of
a command left the spec states no value of it, and it is free (log entry 5). -/
def Obligations.ReadsWithEffects : Prop :=
  ∀ s : State,
    (∀ p early, busLive s.dev = true → s.dev.up = false → ∀ c ∈ [Instr.evqPop, .timeLo, .energyLo p, .tdataRead early],
      exec c s = .next { s with dev := { s.dev with pw := { s.dev.pw with rdata := some 0 } } })
    ∧ (busLive s.dev = true → mbxReach s.dev = false → exec .mbxArgRead s = .next { s with dev := { s.dev with
        pw := { s.dev.pw with rdata := some 0 } } })
    ∧ (hostOk s.dev = true →
    (∀ e l, s.dev.q.ovf = none → s.dev.q.q = e :: l → Leads .evqPop s fun d =>
      d.pw.rdata = some ((eventWords e).getD s.dev.q.phase.toNat 0)
      ∧ (s.dev.q.phase ≠ 3 → d.q.phase = s.dev.q.phase + 1 ∧ d.q.q = s.dev.q.q)
      ∧ (s.dev.q.phase = 3 → d.q.phase = 0 ∧ d.q.q = l) ∧ d.gl = s.dev.gl ∧ d.p0 = s.dev.p0 ∧ d.p1 = s.dev.p1)
    ∧ (s.dev.q.ovf = none → s.dev.q.q = [] → exec .evqPop s = .next { s with dev := { s.dev with
        pw := { s.dev.pw with rdata := some 0 } } })
    ∧ (exec .timeLo s = .next { s with dev := { s.dev with
        gl := { s.dev.gl with timeHi := (s.dev.timebase >>> 16).setWidth 16 }
        pw := { s.dev.pw with rdata := some (s.dev.timebase.setWidth 16) } } })
    ∧ (∀ p, Leads (.energyLo p) s fun d => d.pw.rdata = some ((s.dev.port p).met.energy.setWidth 16)
        ∧ (d.port p).met = { (s.dev.port p).met with latchMid := ((s.dev.port p).met.energy >>> 16).setWidth 16
                                                     latchHi := ((s.dev.port p).met.energy >>> 32).setWidth 16 }
        ∧ d.port p.other = s.dev.port p.other)
    ∧ (∀ w l, s.dev.mbx.results = w :: l → exec .mbxArgRead s = .next { s with dev := { s.dev with
        mbx := { s.dev.mbx with results := l }, pw := { s.dev.pw with rdata := some w } } })
    ∧ (s.dev.mbx.results = [] → s.dev.mbx.state = 0 → exec .mbxArgRead s = .next { s with dev := { s.dev with
        pw := { s.dev.pw with rdata := some 0 } } })
    ∧ (s.dev.mbx.results = [] → s.dev.mbx.state ≠ 0 → exec .mbxArgRead s = .next { s with dev := { s.dev with
        free := s.dev.free + 1, pw := { s.dev.pw with rdata := some ((Config.freeValue s.dev.free).setWidth 16) } } })
    ∧ (∀ e l, s.dev.core.run = true → s.dev.cmp.fifo = e :: l → exec .captureFifoRead s = .next { s with dev := { s.dev with
        cmp := { s.dev.cmp with fifo := l, capTime := e.time } } }))

/-- R100 to R106, R111: the table window: selection, staging, reading a snapshot, the refusals and what a commit of each table
changes. -/
def Obligations.TableWindow : Prop :=
  ∀ s : State, hostOk s.dev = true →
    (s.dev.win.busy = false → ∀ v,
      (Leads (.tselWrite v) s fun d => d.win = { s.dev.win with
        table := v.setWidth 4, port := v.getLsbD 4, widx := 0, staged := [], snap := none })
      ∧ (Leads (.tidxWrite v) s fun d => d.win = { s.dev.win with index := v.setWidth 11, widx := 0, staged := [], snap := none })
      ∧ (Leads (.tdataWrite v) s fun d => d.win.staged = spPut s.dev.win.staged s.dev.win.widx.toNat v
        ∧ d.win.index = s.dev.win.index
        ∧ (s.dev.win.widx.toNat + 1 < tableWords s.dev.win.table.toNat → d.win.widx = s.dev.win.widx + 1)
        ∧ (tableWords s.dev.win.table.toNat ≤ s.dev.win.widx.toNat + 1 → d.win.widx = 0))
      ∧ ∀ both, Leads (.abort both) s fun d => d.win = { s.dev.win with staged := [] } ∧ d.p0 = s.dev.p0 ∧ d.tb = s.dev.tb)
    ∧ (s.dev.win.busy = true → ∀ v, (Leads (.tselWrite v) s fun d => d.win = s.dev.win)
        ∧ (Leads (.tidxWrite v) s fun d => d.win = s.dev.win) ∧ (Leads (.tdataWrite v) s fun d => d.win = s.dev.win)
        ∧ Leads .commit s fun d => d.win = s.dev.win)
    ∧ (s.dev.win.snap = none → Leads (.tdataRead false) s fun d =>
        d.win.index = s.dev.win.index ∧ d.pw.rdata = some ((recordWords s.dev s.dev.win.table.toNat (portOf s.dev.win.port) s.dev.win.index.toNat).getD
          s.dev.win.widx.toNat 0)
        ∧ (s.dev.win.widx.toNat + 1 < tableWords s.dev.win.table.toNat → d.win.widx = s.dev.win.widx + 1
            ∧ d.win.snap = some (recordWords s.dev s.dev.win.table.toNat (portOf s.dev.win.port) s.dev.win.index.toNat))
        ∧ (tableWords s.dev.win.table.toNat ≤ s.dev.win.widx.toNat + 1 → d.win.widx = 0 ∧ d.win.snap = none))
    ∧ (Leads (.tdataRead true) s fun d => d.win.widx = s.dev.win.widx ∧ d.win.index = s.dev.win.index ∧ d.win.snap.isSome = true ∧ d.free = s.dev.free + 1
        ∧ d.pw.rdata = some ((Config.freeValue s.dev.free).setWidth 16))
    ∧ (s.dev.win.busy = false → s.dev.win.staged ≠ [] → ∀ c, commitRefusal s.dev = some c → Leads .commit s fun d =>
        d.win = { s.dev.win with staged := [], err := true, ecode := BitVec.ofNat 4 c }
        ∧ d.tb = s.dev.tb ∧ d.p0 = s.dev.p0 ∧ d.p1 = s.dev.p1 ∧ d.keep.queue = s.dev.keep.queue
        ∧ (c = 5 → d.keep.bperr = true))
    ∧ (s.dev.win.busy = false → s.dev.win.staged ≠ [] → commitRefusal s.dev = none → Leads .commit s fun d =>
        d.win.staged = [] ∧ d.win.err = false ∧ d.win.index = s.dev.win.index
        ∧ (s.dev.win.table = 2 → d.tb.tenants = spSet {} s.dev.tb.tenants s.dev.win.index.toNat
            { tenantOf s.dev s.dev.win.index.toNat with
              cap := (spFind s.dev.win.staged 0).getD (tenantOf s.dev s.dev.win.index.toNat).cap
              prio := match spFind s.dev.win.staged 1 with
                | some v => v.setWidth 8 | none => (tenantOf s.dev s.dev.win.index.toNat).prio })
        ∧ (s.dev.win.table = 7 → d.win.busy = true ∧ d.keep.queue = s.dev.keep.queue
            ++ [⟨keepwinCells (portOf s.dev.win.port).toNat s.dev.win.index.toNat s.dev.win.staged, .keepwin⟩])
        ∧ (s.dev.win.table = 10 → s.dev.win.index = 0 → ∀ v, spFind s.dev.win.staged 0 = some v →
            (d.port (portOf s.dev.win.port)).cap0 = v ∧ (d.port (portOf s.dev.win.port)).cap1
              = (s.dev.port (portOf s.dev.win.port)).cap1)
        ∧ (s.dev.win.table ≠ 7 → d.win.busy = false))

/-- R84, R87, R376 to R381, R384, Table 04-3: plain register writes, writes to reserved and read-only addresses, the W1C flags,
the comparator bank's configuration and its tick. -/
def Obligations.RegistersAndComparators : Prop :=
  ∀ s : State, hostOk s.dev = true →
    (∀ v, (Leads (.registerWrite 0x1F v) s fun d => d.gl = { s.dev.gl with scratch := v } ∧ d.p0 = s.dev.p0 ∧ d.p1 = s.dev.p1)
      ∧ (Leads (.registerWrite 0x05 v) s fun d => d.gl = { s.dev.gl with gmask := v.setWidth 14 } ∧ d.p0 = s.dev.p0 ∧ d.p1 = s.dev.p1)
      ∧ (Leads (.registerWrite 0x23 v) s fun d => d.p0 = { s.dev.p0 with pmask := v.setWidth 13 } ∧ d.p1 = s.dev.p1 ∧ d.gl = s.dev.gl)
      ∧ (Leads (.registerWrite 0x43 v) s fun d => d.p1 = { s.dev.p1 with pmask := v.setWidth 13 } ∧ d.p0 = s.dev.p0 ∧ d.gl = s.dev.gl))
    ∧ (∀ (a : BitVec 7) v, a.toNat ∈ [0, 1, 2, 6, 7, 14, 17, 18, 20, 22, 26, 29, 30, 32, 36, 38, 39, 43, 44, 45] ∨ 96 ≤ a.toNat →
        Leads (.registerWrite a v) s fun d => { d with core := s.dev.core } = s.dev
          ∧ (s.dev.core.hwmask.getLsbD a.toNat = false → d = s.dev))
    ∧ (∀ mask sets i, 3 ≤ i → i < 14 → Leads (.flagClear .gstat mask sets) s fun d =>
        d.gl.gstat.getLsbD i = (sets.getLsbD i || (s.dev.gl.gstat.getLsbD i && !mask.getLsbD i)) ∧ d.p0 = s.dev.p0)
    ∧ (∀ p mask sets i, i < 13 → Leads (.flagClear (.pevt p) mask sets) s fun d =>
        (d.port p).pevt.getLsbD i = (sets.getLsbD i || ((s.dev.port p).pevt.getLsbD i && !mask.getLsbD i))
        ∧ d.port p.other = s.dev.port p.other)
    ∧ (s.dev.keep.pfen = false → ∀ v, (Leads (.cmpCfgWrite v) s fun d =>
          (chanOf d s.dev.cmp.ch.toNat).reg = { (chanOf s.dev s.dev.cmp.ch.toNat).reg with cfg := v.setWidth 15 }
          ∧ (chanOf d s.dev.cmp.ch.toNat).eff = (chanOf s.dev s.dev.cmp.ch.toNat).eff)
        ∧ Leads (.cmpLvlWrite v) s fun d =>
          (chanOf d s.dev.cmp.ch.toNat).reg = (if s.dev.cmp.lsel then { (chanOf s.dev s.dev.cmp.ch.toNat).reg with hi := v.setWidth 10 }
            else { (chanOf s.dev s.dev.cmp.ch.toNat).reg with lo := v.setWidth 10 })
          ∧ (chanOf d s.dev.cmp.ch.toNat).eff = (chanOf s.dev s.dev.cmp.ch.toNat).eff)
    ∧ ∀ inputs (ch : Nat) (c : Chan), s.dev.cmp.chans = [(ch, c)] → ch < 16 → ticking s.dev = true → s.dev.cmp.tickAt ≤ s.dev.us →
        c.writes = [] → c.eff.en = true → c.settle = none → Leads (.cmpTick inputs) s fun d =>
          d.cmp.tickAt = s.dev.us + tickPeriod s.dev
          ∧ (chanOf d ch).out = sampleOut c.eff (inputs.getD c.eff.input 0)
          ∧ (c.out = sampleOut c.eff (inputs.getD c.eff.input 0) → d.cmp.fifo = s.dev.cmp.fifo)
          ∧ (c.out = false → sampleOut c.eff (inputs.getD c.eff.input 0) = true → c.eff.edge = 1 ∨ c.eff.edge = 3 →
              c.eff.cap = true → s.dev.cmp.fifo.length < 32 →
              d.cmp.fifo = s.dev.cmp.fifo ++ [⟨BitVec.ofNat 4 ch, 1, s.dev.cmp.dropped, s.dev.timebase⟩])
          ∧ d.p0 = s.dev.p0 ∧ d.p1 = s.dev.p1

/-- R91, R393, R408, Table 04-5, Table 18-7: arguments, ECHO, the end of a command, and the owner and Keep commands: their refusals
by arguments and lock, and what each does where Keep takes its commits; new owner data are in force once copy B is durable. -/
def Obligations.MailboxCommands : Prop :=
  ∀ s : State,
    (∀ v, mbxReach s.dev = true → s.dev.mbx.state ≠ 1 → exec (.mbxArgWrite v) s = .next { s with dev := { s.dev with
      mbx := if s.dev.mbx.args.length < 1024 then { s.dev.mbx with args := s.dev.mbx.args ++ [v] }
        else { s.dev.mbx with overrun := true } } })
    ∧ (mbxRuns 0x01 s.dev = true → Leads .echo s fun d => { d with mbx := s.dev.mbx } = s.dev
        ∧ d.mbx.outcome = some (if s.dev.mbx.args.length ≤ 63 then (0, s.dev.mbx.args) else (0x03, [])))
    ∧ (∀ r l, mbxServes s.dev = true → s.dev.mbx.state = 1 → s.dev.mbx.waits = false → s.dev.mbx.outcome = some (r, l) →
        Leads .mbxDone s fun d => d.mbx.state = (if r = 0 then 2 else 3) ∧ d.mbx.result = r ∧ d.mbx.results = l.take 63
          ∧ d.mbx.args = [] ∧ d.mbx.outcome = none ∧ d.gl.gstat.getLsbD gMbx = true ∧ d.p0 = s.dev.p0 ∧ d.p1 = s.dev.p1)
    ∧ (∀ r o closes, s.dev.keep.run = some r → r.commit.tag = .ownerB o closes → s.dev.gl.park = none → Leads .keepDurable s fun d =>
        d.gl.owner = o ∧ d.gl.lockOpen = (s.dev.gl.lockOpen && !closes)
        ∧ (s.dev.mbx.waits = true → d.mbx.waits = false ∧ d.mbx.outcome = some (0, [])))
    ∧ (queueRoom 2 s.dev = true →
        (mbxRuns 0x20 s.dev = true → s.dev.mbx.args.length = 19 → lockOpens s.dev = true →
          (s.dev.mbx.args.getD 16 0 ≠ 0 → (s.dev.mbx.args.getD 18 0).toNat ≤ 2 →
            (KeepOpen s.dev → Leads .ownerEnrol s (OwnerIssued (enrolledBy s.dev.mbx.args s.dev.gl.owner.fwlock) true s.dev))
            ∧ (s.dev.keep.bp ≠ 0 → Leads .ownerEnrol s (RefusedByKeep s.dev)))
          ∧ (s.dev.mbx.args = List.replicate 19 0 → KeepOpen s.dev → Leads .ownerEnrol s (OwnerIssued {} true s.dev)))
        ∧ (mbxRuns 0x21 s.dev = true → s.dev.gl.owner.enrolled = true →
            (KeepOpen s.dev → Leads .fwlockSet s (OwnerIssued { s.dev.gl.owner with fwlock := true } false s.dev))
            ∧ (s.dev.keep.bp ≠ 0 → Leads .fwlockSet s (RefusedByKeep s.dev)))
        ∧ (mbxRuns 0x21 s.dev = true → s.dev.gl.owner.enrolled = false → Leads .fwlockSet s fun d =>
            d.mbx.outcome = some (0x06, []) ∧ d.keep = s.dev.keep)
        ∧ (mbxRuns 0x22 s.dev = true → lockOpens s.dev = true →
            (KeepOpen s.dev → Leads .fwlockClear s (OwnerIssued { s.dev.gl.owner with fwlock := false } false s.dev))
            ∧ (s.dev.keep.bp ≠ 0 → Leads .fwlockClear s (RefusedByKeep s.dev))))
    ∧ (queueRoom 1 s.dev = true → mbxRuns 0x28 s.dev = true →
        (KeepOpen s.dev → Leads .keepDefaults s fun d =>
          d.mbx.waits = true ∧ d.mbx.outcome = some (0, []) ∧ d.keep.scrubHours = 24
          ∧ d.keep.queue = s.dev.keep.queue ++ [⟨tuningCommit 24 s.dev, .mailbox⟩])
        ∧ (s.dev.keep.bp ≠ 0 → Leads .keepDefaults s (RefusedByKeep s.dev)))
    ∧ (s.dev.gl.crit = false → queueRoom 2 s.dev = true →
        (mbxRuns 0x20 s.dev = true → s.dev.mbx.args.length = 19 → s.dev.mbx.args.getD 16 0 ≠ 0 →
          (s.dev.mbx.args.getD 18 0).toNat ≤ 2 → lockOpens s.dev = true → Leads .ownerEnrol s fun d =>
            WaitsOrRefused s.dev d ∧ d.gl.owner = s.dev.gl.owner)
        ∧ (mbxRuns 0x20 s.dev = true → s.dev.mbx.args.length ≠ 19 → Leads .ownerEnrol s fun d => d.mbx.outcome = some (0x03, []))
        ∧ (mbxRuns 0x21 s.dev = true → s.dev.gl.owner.enrolled = true → Leads .fwlockSet s fun d =>
            WaitsOrRefused s.dev d ∧ d.gl.owner = s.dev.gl.owner)
        ∧ (mbxRuns 0x22 s.dev = true →
            (lockOpens s.dev = true → Leads .fwlockClear s fun d => WaitsOrRefused s.dev d ∧ d.gl.owner = s.dev.gl.owner)
            ∧ (lockOpens s.dev = false → Leads .fwlockClear s fun d => d.mbx.outcome = some (0x04, []) ∧ d.keep = s.dev.keep))
        ∧ (mbxRuns 0x28 s.dev = true → Leads .keepDefaults s fun d => WaitsOrRefused s.dev d
            ∧ (d.mbx.waits = true → d.keep.scrubHours = 24 ∧ d.mbx.outcome = some (0, []))))

/-- R456 to R463, R469: the update commands and the reception in RECOVERY. FWU_BEGIN and FWU_PIECE complete where the checks pass and
Keep takes their commits; a build begins with one FWU_APPLY command and ends with the next (log entry 65). What a digest or a
signature is stands open here (log entry 8), so each statement names both answers of the check. -/
def Obligations.UpdateCommands : Prop :=
  ∀ (s : State) (vin : Nat) (store : Bool),
    (mbxRuns 0x10 s.dev = true → queueRoom 1 s.dev = true → s.dev.mbx.args.length = 80 →
      deltaFields (argBytes s.dev.mbx.args) = true → s.dev.gl.crit = false →
      (s.dev.gl.safe = true → Leads (.fwuBegin store) s fun d => d.mbx.outcome = some (0x10, []) ∧ d.fwu.refuse = 2)
      ∧ (s.dev.gl.safe = false → fwLocked s.dev = true → Leads (.fwuBegin store) s fun d => d.fwu.refuse = 5)
      ∧ (s.dev.gl.safe = false → fwLocked s.dev = false → tally s.dev.keep 0 ≤ deltaEpoch (argBytes s.dev.mbx.args) →
          slice (argBytes s.dev.mbx.args) 32 32 = imgDigest (runningImage s.dev) → s.dev.fwu.rx = false →
          s.dev.fwu.pend = false → Leads (.fwuBegin true) s fun d =>
          (if signedBy s.dev.gl.owner (bytesNat (argBytes s.dev.mbx.args) 24 1) ((argBytes s.dev.mbx.args).take 96)
              (slice (argBytes s.dev.mbx.args) 96 64) then
            (d.fwu.header = argBytes s.dev.mbx.args ∧ d.fwu.held = [] ∧ d.fwu.rx = true ∧ d.mbx.waits = true
              ∧ d.mbx.outcome = some (0, [0, h16 (deltaN (argBytes s.dev.mbx.args))]))
            ∨ (d.mbx.outcome = some (0x05, []) ∧ d.keep.bperr = true)
          else d.mbx.outcome = some (0x10, []) ∧ d.fwu.refuse = 7)
          ∧ (KeepOpen s.dev → Leads (.fwuBegin true) s fun d =>
            if signedBy s.dev.gl.owner (bytesNat (argBytes s.dev.mbx.args) 24 1) ((argBytes s.dev.mbx.args).take 96)
                (slice (argBytes s.dev.mbx.args) 96 64) then
            d.fwu.header = argBytes s.dev.mbx.args ∧ d.fwu.held = [] ∧ d.fwu.torn = none ∧ d.fwu.rx = true
            ∧ (bankOf d.fwu (!s.dev.fwu.active)).delta = [] ∧ bankOf d.fwu s.dev.fwu.active = bankOf s.dev.fwu s.dev.fwu.active
            ∧ d.mbx.waits = true ∧ d.mbx.outcome = some (0, [0, h16 (deltaN (argBytes s.dev.mbx.args))])
            ∧ d.keep.queue = s.dev.keep.queue ++ [⟨settingsCommit (begunWith (argBytes s.dev.mbx.args) s.dev), .mailbox⟩]
            ∧ d.gl.gstat.getLsbD gFwu = true
            else d.mbx.outcome = some (0x10, []) ∧ d.fwu.refuse = 7)
          ∧ (s.dev.keep.bp ≠ 0 → Leads (.fwuBegin true) s fun d =>
            if signedBy s.dev.gl.owner (bytesNat (argBytes s.dev.mbx.args) 24 1) ((argBytes s.dev.mbx.args).take 96)
                (slice (argBytes s.dev.mbx.args) 96 64) then
              d.mbx.outcome = some (0x05, []) ∧ d.fwu.rx = false ∧ d.keep.queue = s.dev.keep.queue
            else d.mbx.outcome = some (0x10, []) ∧ d.fwu.refuse = 7)))
    ∧ (∀ i pre data, mbxRuns 0x11 s.dev = true → queueRoom 2 s.dev = true → pieceArgs s.dev.mbx.args = some (i, pre, data) →
        (vin < s.dev.fwu.vmin.toNat → Leads (.fwuPiece vin store) s fun d => d.fwu.refuse = 3 ∧ d.fwu.held = s.dev.fwu.held)
        ∧ (s.dev.fwu.vmin.toNat ≤ vin → onHoldUp s.dev = false → s.dev.fwu.rx = true → i < deltaN s.dev.fwu.header →
            data.length = pieceLen s.dev.fwu.header i → i ∉ s.dev.fwu.held → s.dev.fwu.pend = false → s.dev.gl.crit = false →
            Leads (.fwuPiece vin true) s fun d =>
            (if prefixOk pre data then
              (d.fwu.held = s.dev.fwu.held ++ [i] ∧ d.fwu.torn = none ∧ d.mbx.waits = true
                ∧ spFind (bankOf d.fwu (!s.dev.fwu.active)).delta i = some data)
              ∨ (d.mbx.outcome = some (0x05, []) ∧ d.keep.bperr = true)
            else d.mbx.outcome = some (0x13, []) ∧ d.fwu = s.dev.fwu)
            ∧ (prefixOk pre data = true → s.dev.fwu.header.length ≤ 160 → KeepOpen s.dev →
                Leads (.fwuPiece vin true) s fun d =>
              d.fwu.held = s.dev.fwu.held ++ [i] ∧ d.fwu.torn = none ∧ d.fwu.rx = true
              ∧ spFind (bankOf d.fwu (!s.dev.fwu.active)).delta i = some data
              ∧ d.mbx.waits = true ∧ d.mbx.outcome = some (0, [h16 (s.dev.fwu.held.length + 1)])
              ∧ d.keep.queue = s.dev.keep.queue ++ [⟨settingsCommit (tornAt i s.dev), .due .settings⟩,
                  ⟨settingsCommit (pieceStored i data s.dev), .mailbox⟩])))
    ∧ (∀ w, mbxRuns 0x12 s.dev = true → queueRoom 1 s.dev = true → s.dev.fwu.apply = some w →
        (vin < s.dev.fwu.vmin.toNat → Leads (.fwuApply vin store) s fun d =>
          d.mbx.outcome = some (0x10, []) ∧ d.fwu.refuse = 3 ∧ d.fwu.apply = none)
        ∧ (s.dev.fwu.vmin.toNat ≤ vin → onHoldUp s.dev = true → Leads (.fwuApply vin store) s fun d =>
          d.mbx.outcome = some (0x10, []) ∧ d.fwu.refuse = 4 ∧ d.fwu.apply = none)
        ∧ (s.dev.fwu.vmin.toNat ≤ vin → onHoldUp s.dev = false → Leads (.fwuApply vin false) s fun d =>
          d.mbx.outcome = some (0x15, []) ∧ d.fwu.apply = none)
        ∧ (s.dev.fwu.vmin.toNat ≤ vin → onHoldUp s.dev = false →
            buildTarget (runningImage s.dev) (receivedBody s.dev) (deltaT s.dev.fwu.header) = none → Leads (.fwuApply vin true) s fun d =>
          d.mbx.outcome = some (0x10, []) ∧ d.fwu.refuse = 7 ∧ d.fwu.apply = none)
        ∧ (∀ img, s.dev.fwu.vmin.toNat ≤ vin → onHoldUp s.dev = false →
            buildTarget (runningImage s.dev) (receivedBody s.dev) (deltaT s.dev.fwu.header) = some img → s.dev.gl.crit = false →
            Leads (.fwuApply vin true) s fun d =>
              d.fwu.apply = none ∧ bankOf d.fwu s.dev.fwu.active = bankOf s.dev.fwu s.dev.fwu.active
              ∧ match imageFault s.dev img with
                | some r => d.mbx.outcome = some (0x10, []) ∧ d.fwu.refuse = r
                | none =>
                  (bankOf d.fwu (!s.dev.fwu.active)).image = img ∧ d.fwu.rx = false ∧ d.fwu.held = [] ∧ d.mbx.waits = true
                    ∧ d.mbx.outcome = some (0, []) ∧ (w = 0 → d.fwu.handReq = some (s.dev.us, false))
                  ∨ d.mbx.outcome = some (0x05, []) ∧ d.keep.bperr = true))
    ∧ (mbxRuns 0x12 s.dev = true → queueRoom 1 s.dev = true → s.dev.fwu.apply = none → s.dev.fwu.pend = false → s.dev.gl.safe = false →
        s.dev.fwu.vmin.toNat ≤ vin → onHoldUp s.dev = false → fwLocked s.dev = false →
        (s.dev.mbx.args = [2] → hasBuilt s.dev = true → Leads (.fwuApply vin store) s fun d =>
          d.fwu.handReq = some (s.dev.us, true) ∧ d.mbx.waits = true ∧ d.p0 = s.dev.p0 ∧ d.p1 = s.dev.p1)
        ∧ (∀ w : Half, w.toNat < 2 → s.dev.mbx.args = [w] → s.dev.fwu.rx = false → Leads (.fwuApply vin store) s fun d =>
          d.mbx.outcome = some (0x12, []) ∧ d.fwu = s.dev.fwu)
        ∧ (∀ w : Half, w.toNat < 2 → s.dev.mbx.args = [w] → s.dev.fwu.rx = true →
            s.dev.fwu.held.length = deltaN s.dev.fwu.header →
            (Leads (.fwuApply vin true) s fun d =>
              (if slice s.dev.fwu.header 64 32 = Config.sha256 (receivedBody s.dev) then
                d.fwu.apply = some w ∧ d.mbx = s.dev.mbx ∧ (bankOf d.fwu (!s.dev.fwu.active)).status = []
                  ∧ (bankOf d.fwu (!s.dev.fwu.active)).image = []
              else d.fwu.refuse = 7)
              ∧ bankOf d.fwu s.dev.fwu.active = bankOf s.dev.fwu s.dev.fwu.active)
            ∧ Leads (.fwuApply vin false) s fun d =>
              (if slice s.dev.fwu.header 64 32
                  = Config.sha256 (deltaBody (bankOf s.dev.fwu (!s.dev.fwu.active)) (deltaN s.dev.fwu.header)) then
                d.mbx.outcome = some (0x15, []) ∧ (bankOf d.fwu (!s.dev.fwu.active)).status = []
                  ∧ (bankOf d.fwu (!s.dev.fwu.active)).image = []
              else d.fwu.refuse = 7)
              ∧ bankOf d.fwu s.dev.fwu.active = bankOf s.dev.fwu s.dev.fwu.active))
    ∧ (mbxRuns 0x13 s.dev = true → queueRoom 1 s.dev = true → s.dev.mbx.args = [] →
        (s.dev.fwu.hand.isSome = true → Leads .fwuCancel s fun d => d.fwu.cancelDue = true ∧ d.mbx.waits = true)
        ∧ (s.dev.fwu.hand = none → s.dev.fwu.rx = true → s.dev.gl.crit = false → Leads .fwuCancel s fun d =>
          (d.fwu.rx = false ∧ d.fwu.held = [] ∧ d.fwu.header = [] ∧ d.mbx.waits = true ∧ d.gl.gstat.getLsbD gFwu = true)
          ∨ (d.mbx.outcome = some (0x05, []) ∧ d.keep.bperr = true)))
    ∧ ∀ i pre data, mbxRuns 0x18 s.dev = true → pieceArgs s.dev.mbx.args = some (i, pre, data) →
        recoveryMisfits s.dev.fwu.recPieces i data.length = false →
        recoveryFull (spPut s.dev.fwu.recPieces i data) = false → Leads (.recoveryImage true) s fun d =>
          (if prefixOk pre data then d.fwu.recPieces = spPut s.dev.fwu.recPieces i data ∧ d.fwu.recOpen = true
            ∧ d.mbx.outcome = some (0, [h16 (spPut s.dev.fwu.recPieces i data).length,
                h16 (recoveryNeed (spPut s.dev.fwu.recPieces i data))])
          else d.mbx.outcome = some (0x13, []) ∧ d.fwu = s.dev.fwu) ∧ d.p0 = s.dev.p0 ∧ d.p1 = s.dev.p1


/-! ## The Fedora core (chapters 19 and 20) -/

/-- Table 20-4, R420, R436: the A unit. Each operation, issued alone, leaves its value in d and goes on to the next bundle;
saturating ones hold their number to 32 or 16 bits with STATUS.SAT sticky. -/
def Obligations.CoreIntegerAndSaturating : Prop :=
  ∀ (s : State) (w : OpWord) (a b : Word), fetchable (seqPc w s.dev.core) = true → a = regVal s.dev.core w.a.toNat →
    ((∀ v, w.lit = some v → opB .add w s.dev.core = v)
      ∧ (w.lit = none → w.mod.getLsbD 3 = true → opB .add w s.dev.core = w.b.setWidth 32)
      ∧ (w.lit = none → w.mod.getLsbD 3 = false → opB .add w s.dev.core = regVal s.dev.core w.b.toNat))
    ∧ (b = opB .add w s.dev.core →
      (IssuesAlone .add w s → exec (.add w) s = .next (s.writesD w (a + b)))
      ∧ (IssuesAlone .sub w s → exec (.sub w) s = .next (s.writesD w (a - b)))
      ∧ (IssuesAlone .and w s → exec (.andOp w) s = .next (s.writesD w (a &&& b)))
      ∧ (IssuesAlone .or w s → exec (.orOp w) s = .next (s.writesD w (a ||| b)))
      ∧ (IssuesAlone .xor w s → exec (.xor w) s = .next (s.writesD w (a ^^^ b)))
      ∧ (IssuesAlone .andn w s → exec (.andn w) s = .next (s.writesD w (a &&& ~~~b)))
      ∧ (IssuesAlone .mov w s → exec (.mov w) s = .next (s.writesD w b))
      ∧ (IssuesAlone .cmp w s → exec (.cmpCc w) s = .next (s.writesD w
          (if (w.mod.setWidth 3 = (0 : BitVec 3) ∧ a = b) ∨ (w.mod.setWidth 3 = (1 : BitVec 3) ∧ a ≠ b)
            ∨ (w.mod.setWidth 3 = (2 : BitVec 3) ∧ a.slt b = true) ∨ (w.mod.setWidth 3 = (3 : BitVec 3) ∧ b.sle a = true)
            ∨ (w.mod.setWidth 3 = (4 : BitVec 3) ∧ a < b) ∨ (w.mod.setWidth 3 = (5 : BitVec 3) ∧ b ≤ a) then 1 else 0)))
      ∧ (IssuesAlone .shl w s → exec (.shl w) s = .next (s.writesD w (a <<< (b.toNat % 32))))
      ∧ (IssuesAlone .shr w s → exec (.shr w) s = .next (s.writesD w (a >>> (b.toNat % 32))))
      ∧ (IssuesAlone .sar w s → exec (.sar w) s = .next (s.writesD w (BitVec.ofInt 32 (a.toInt / 2 ^ (b.toNat % 32)))))
      ∧ (IssuesAlone .ror w s → exec (.ror w) s = .next (s.writesD w (a.rotateRight (b.toNat % 32))))
      ∧ (IssuesAlone .min w s → exec (.min w) s = .next (s.writesD w (BitVec.ofInt 32 (min a.toInt b.toInt))))
      ∧ (IssuesAlone .max w s → exec (.max w) s = .next (s.writesD w (BitVec.ofInt 32 (max a.toInt b.toInt))))
      ∧ (IssuesAlone .minu w s → exec (.minu w) s = .next (s.writesD w (BitVec.ofNat 32 (min a.toNat b.toNat))))
      ∧ (IssuesAlone .maxu w s → exec (.maxu w) s = .next (s.writesD w (BitVec.ofNat 32 (max a.toNat b.toNat)))))
    ∧ (IssuesAlone .sel w s → exec (.sel w) s = .next (s.writesD w
        (if regVal s.dev.core w.d.toNat ≠ 0 then a else regVal s.dev.core w.b.toNat)))
    ∧ (IssuesAlone .clz w s → ∃ n, n ≤ 32 ∧ (∀ i, i < n → a.getLsbD (31 - i) = false) ∧ (n < 32 → a.getLsbD (31 - n) = true)
        ∧ exec (.clz w) s = .next (s.writesD w (BitVec.ofNat 32 n)))
    ∧ (IssuesAlone .ext w s → exec (.ext w) s = .next (s.writesD w
        (if w.mod = 0 then (a.setWidth 8).signExtend 32 else if w.mod = 1 then (a.setWidth 16).signExtend 32
          else if w.mod = 2 then a &&& 0xFF else a &&& 0xFFFF)))
    ∧ (b = regVal s.dev.core w.b.toNat →
      (IssuesAlone .addsW w s → exec (.addsW w) s = .next (s.writesSat w 32 (a.toInt + b.toInt)))
      ∧ (IssuesAlone .subsW w s → exec (.subsW w) s = .next (s.writesSat w 32 (a.toInt - b.toInt)))
      ∧ (IssuesAlone .addsH w s → exec (.addsH w) s = .next (s.writesSat w 16 ((a.setWidth 16).toInt + (b.setWidth 16).toInt)))
      ∧ (IssuesAlone .subsH w s → exec (.subsH w) s = .next (s.writesSat w 16 ((a.setWidth 16).toInt - (b.setWidth 16).toInt))))
    ∧ (IssuesAlone .negsW w s → exec (.negsW w) s = .next (s.writesSat w 32 (-a.toInt)))
    ∧ (IssuesAlone .abssW w s → exec (.abssW w) s = .next (s.writesSat w 32 (max a.toInt (-a.toInt))))

/-- Table 20-5, R419, R420: the M unit. Products, quotients and remainders in d; accumulators held to 40 bits with STATUS.AOV
sticky; a narrowing rounds by CORECFG.RND and then saturates. What ACCSH leaves for an amount above 39 is a free value (log entry
5). -/
def Obligations.CoreMultiplyAndAccumulate : Prop :=
  ∀ (s : State) (w : OpWord) (a b : Word) (x y : Acc), fetchable (seqPc w s.dev.core) = true →
    a = regVal s.dev.core w.a.toNat → x = accVal s.dev.core w.a.toNat →
    (∀ (rnd : BitVec 2) (v : Int) (n : Nat),
      (rnd = 0 → roundShift rnd v n = v / 2 ^ n) ∧ (rnd = 1 → roundShift rnd v n = (2 * v + 2 ^ n) / 2 ^ (n + 1))
      ∧ (2 ≤ rnd.toNat → 2 * (v - roundShift rnd v n * 2 ^ n).natAbs ≤ 2 ^ n
        ∧ (2 * (v - roundShift rnd v n * 2 ^ n).natAbs = 2 ^ n → roundShift rnd v n % 2 = 0)))
    ∧ (b = opB .mul w s.dev.core →
      (IssuesAlone .mul w s → exec (.mul w) s = .next (s.writesD w (a * b)))
      ∧ (IssuesAlone .mulh w s → exec (.mulh w) s = .next (s.writesD w
          ((a.signExtend 64 * b.signExtend 64 : BitVec 64).extractLsb' 32 32)))
      ∧ (IssuesAlone .mulhu w s → exec (.mulhu w) s = .next (s.writesD w
          ((a.setWidth 64 * b.setWidth 64 : BitVec 64).extractLsb' 32 32)))
      ∧ (IssuesAlone .div w s → exec (.div w) s = .next (s.writesD w (if b = 0 then 0xFFFFFFFF else a.sdiv b)))
      ∧ (IssuesAlone .divu w s → exec (.divu w) s = .next (s.writesD w (if b = 0 then 0xFFFFFFFF else a / b)))
      ∧ (IssuesAlone .rem w s → exec (.rem w) s = .next (s.writesD w (if b = 0 then a else a.srem b)))
      ∧ (IssuesAlone .remu w s → exec (.remu w) s = .next (s.writesD w (if b = 0 then a else a % b))))
    ∧ (b = regVal s.dev.core w.b.toNat → y = accVal s.dev.core w.d.toNat →
      (IssuesAlone .mpyQ31 w s → exec (.mpyQ31 w) s = .next (s.writesAcc w (roundShift s.dev.core.rnd (a.toInt * b.toInt) 31)))
      ∧ (IssuesAlone .macQ31 w s → exec (.macQ31 w) s = .next (s.writesAcc w
          (y.toInt + roundShift s.dev.core.rnd (a.toInt * b.toInt) 31)))
      ∧ (IssuesAlone .msuQ31 w s → exec (.msuQ31 w) s = .next (s.writesAcc w
          (y.toInt - roundShift s.dev.core.rnd (a.toInt * b.toInt) 31)))
      ∧ (IssuesAlone .mpyQ15 w s → exec (.mpyQ15 w) s = .next (s.writesAcc w
          (2 * ((a.setWidth 16).toInt * (b.setWidth 16).toInt))))
      ∧ (IssuesAlone .macQ15 w s → exec (.macQ15 w) s = .next (s.writesAcc w
          (y.toInt + 2 * ((a.setWidth 16).toInt * (b.setWidth 16).toInt))))
      ∧ (IssuesAlone .mulai w s → exec (.mulai w) s = .next (s.writesSat w 32
          (roundShift s.dev.core.rnd (x.toInt * b.toInt) 31)))
      ∧ (IssuesAlone .mulaf w s → exec (.mulaf w) s = .next (s.writesD w
          (BitVec.ofInt 32 (2 * (x.toInt * b.toInt - x.toInt * b.toInt / 2147483648 * 2147483648))))))
    ∧ (IssuesAlone .accld w s → exec (.accld w) s = .next (s.advance w (putAcc w.d.toNat (a.signExtend 40))))
    ∧ (y = accVal s.dev.core w.b.toNat → IssuesAlone .accadd w s → exec (.accadd w) s = .next (s.writesAcc w (x.toInt + y.toInt)))
    ∧ (b = opB .accsh w s.dev.core → IssuesAlone .accsh w s →
      (b.toNat ≤ 39 → w.mod.getLsbD 0 = false → exec (.accsh w) s = .next (s.writesAcc w (x.toInt / 2 ^ b.toNat)))
      ∧ (b.toNat ≤ 39 → w.mod.getLsbD 0 = true → exec (.accsh w) s = .next (s.writesAcc w (x.toInt * 2 ^ b.toNat)))
      ∧ (39 < b.toNat → Leads (.accsh w) s fun d => d.free = s.dev.free + 1 ∧ d.core.pc = seqPc w s.dev.core
          ∧ d.core.phys = s.dev.core.phys ∧ d.core.g = s.dev.core.g ∧ d.core.sat = s.dev.core.sat))
    ∧ (IssuesAlone .narq31 w s → exec (.narq31 w) s = .next (s.writesSat w 32 x.toInt))
    ∧ (IssuesAlone .narq15 w s → exec (.narq15 w) s = .next (s.writesSat w 16 (roundShift s.dev.core.rnd x.toInt 16)))

/-- R421, R422, R430, R442 to R444, R448, Tables 20-2 and 20-6: the L unit over data RAM. Loads and stores move little-endian bytes
and write the base back; an atomic reserves, stores or tests; one word of a block operation is one iteration (log entry 26), after
which the same word issues again while elements remain; misalignment and unnamed addresses trap. -/
def Obligations.CoreMemoryOperations : Prop :=
  ∀ (s : State) (w : OpWord), fetchable (seqPc w s.dev.core) = true → fetchable s.dev.core.pc = true →
    (∀ a, (a = addressOf .ldW w s.dev.core → IssuesAlone .ldW w s → InRam 4 a → exec (.ldW w) s = .next (s.advance w fun c =>
        backTo .ldW w c (putReg c.cwb w.d.toNat (BitVec.ofNat 32 (ramNat c a 4)) c)))
      ∧ (a = addressOf .ldH w s.dev.core → IssuesAlone .ldH w s → InRam 2 a → exec (.ldH w) s = .next (s.advance w fun c =>
        backTo .ldH w c (putReg c.cwb w.d.toNat ((BitVec.ofNat 16 (ramNat c a 2)).signExtend 32) c)))
      ∧ (a = addressOf .ldHu w s.dev.core → IssuesAlone .ldHu w s → InRam 2 a → exec (.ldHu w) s = .next (s.advance w fun c =>
        backTo .ldHu w c (putReg c.cwb w.d.toNat (BitVec.ofNat 32 (ramNat c a 2)) c)))
      ∧ (a = addressOf .ldB w s.dev.core → IssuesAlone .ldB w s → InRam 1 a → exec (.ldB w) s = .next (s.advance w fun c =>
        backTo .ldB w c (putReg c.cwb w.d.toNat ((BitVec.ofNat 8 (ramNat c a 1)).signExtend 32) c)))
      ∧ (a = addressOf .ldBu w s.dev.core → IssuesAlone .ldBu w s → InRam 1 a → exec (.ldBu w) s = .next (s.advance w fun c =>
        backTo .ldBu w c (putReg c.cwb w.d.toNat (BitVec.ofNat 32 (ramNat c a 1)) c)))
      ∧ (a = addressOf .lda w s.dev.core → IssuesAlone .lda w s → InRam 8 a → exec (.lda w) s = .next (s.advance w fun c =>
        backTo .lda w c (putAcc w.d.toNat (BitVec.ofNat 40 (ramNat c a 5)) c)))
      ∧ (a = addressOf .lea w s.dev.core → IssuesAlone .lea w s → exec (.lea w) s = .next (s.advance w fun c =>
        backTo .lea w c (putReg c.cwb w.d.toNat a c))))
    ∧ (∀ a, (a = addressOf .stW w s.dev.core → IssuesAlone .stW w s → InRam 4 a → Leads (.stW w) s
          (Stores a 4 (regVal s.dev.core w.d.toNat).toNat (s.advance w (backTo .stW w s.dev.core)).dev.core s))
      ∧ (a = addressOf .stH w s.dev.core → IssuesAlone .stH w s → InRam 2 a → Leads (.stH w) s
          (Stores a 2 (regVal s.dev.core w.d.toNat).toNat (s.advance w (backTo .stH w s.dev.core)).dev.core s))
      ∧ (a = addressOf .stB w s.dev.core → IssuesAlone .stB w s → InRam 1 a → Leads (.stB w) s
          (Stores a 1 (regVal s.dev.core w.d.toNat).toNat (s.advance w (backTo .stB w s.dev.core)).dev.core s))
      ∧ (a = addressOf .sta w s.dev.core → IssuesAlone .sta w s → InRam 8 a → Leads (.sta w) s
          (Stores a 8 ((accVal s.dev.core w.d.toNat).signExtend 64).toNat (s.advance w (backTo .sta w s.dev.core)).dev.core s)))
    ∧ (∀ a, (a = addressOf .lrW w s.dev.core → IssuesAlone .lrW w s → InRam 4 a → exec (.lrW w) s = .next (s.advance w fun c =>
        putReg c.cwb w.d.toNat (BitVec.ofNat 32 (ramNat c a 4)) { c with resv := some ((a.toNat - 0x10000000) / 8) }))
      ∧ (a = regVal s.dev.core w.a.toNat → IssuesAlone .scW w s → InRam 4 a →
        (s.dev.core.resv = some ((a.toNat - 0x10000000) / 8) → Leads (.scW w) s fun d =>
          RamStored a 4 (regVal s.dev.core w.b.toNat).toNat s.dev.core d.core
          ∧ { d.core with ram := s.dev.core.ram } = (s.advance w fun c =>
              putReg c.cwb w.d.toNat 0 { c with resv := none }).dev.core ∧ { d with core := s.dev.core } = s.dev)
        ∧ (s.dev.core.resv ≠ some ((a.toNat - 0x10000000) / 8) → exec (.scW w) s = .next (s.advance w fun c =>
          putReg c.cwb w.d.toNat 1 { c with resv := none })))
      ∧ (a = addressOf .tasB w s.dev.core → IssuesAlone .tasB w s → InRam 1 a → Leads (.tasB w) s
          (Stores a 1 0xFF (s.advance w fun c => putReg c.cwb w.d.toNat (BitVec.ofNat 32 (ramNat c a 1)) c).dev.core s)))
    ∧ (regVal s.dev.core w.b.toNat = 0 →
        (IssuesAlone .bcopy w s → exec (.bcopy w) s = .next (s.advance w id))
        ∧ (IssuesAlone .bfill w s → exec (.bfill w) s = .next (s.advance w id))
        ∧ (IssuesAlone .bdiff w s → exec (.bdiff w) s = .next (s.advance w id)))
    ∧ (∀ (a b n : Word) (x : Bool → Core), n = regVal s.dev.core w.b.toNat → a = regVal s.dev.core w.a.toNat →
        b = regVal s.dev.core w.d.toNat → n ≠ 0 →
        (∀ src, x src = { (blockMove w src s.dev.core s.dev).core with
          pc := if n = 1 then seqPc w s.dev.core else s.dev.core.pc }) →
        (IssuesAlone .bcopy w s → InRam (blockSize w) a → InRam (blockSize w) b → Leads (.bcopy w) s
          (Stores b (blockSize w) (ramNat s.dev.core a (blockSize w)) (x (!w.mod.getLsbD 3)) s))
        ∧ (IssuesAlone .bfill w s → InRam (blockSize w) b → Leads (.bfill w) s
          (Stores b (blockSize w) a.toNat (x false) s))
        ∧ (IssuesAlone .bdiff w s → InRam (blockSize w) a → InRam (blockSize w) b → exec (.bdiff w) s = .next
          (if ramNat s.dev.core a (blockSize w) = ramNat s.dev.core b (blockSize w) then s.onCore fun _ => x (!w.mod.getLsbD 3)
            else s.advance w id)))
    ∧ (s.dev.core.th = false → ∀ a,
        (a = addressOf .ldW w s.dev.core → IssuesAlone .ldW w s →
          (a.toNat % 4 ≠ 0 → Leads (.ldW w) s fun d => Enters 2 s.dev.core.pc s d ∧ d.core.tval = a)
          ∧ (a.toNat % 4 = 0 → areaOf a.toNat = none → Leads (.ldW w) s fun d => Enters 3 s.dev.core.pc s d ∧ d.core.tval = a))
        ∧ (a = addressOf .stW w s.dev.core → IssuesAlone .stW w s →
          (a.toNat % 4 ≠ 0 → Leads (.stW w) s fun d => Enters 2 s.dev.core.pc s d ∧ d.core.tval = a)
          ∧ (a.toNat % 4 = 0 → areaOf a.toNat = none → Leads (.stW w) s fun d => Enters 3 s.dev.core.pc s d ∧ d.core.tval = a)))

/-- R441: DBNZ subtracts 1 and branches if the result is not 0, so a count of 0 goes on with 2^32 - 1; the operations beside it act on
the registers as they were before; and one that writes its register makes the bundle ILLEGAL. -/
def Obligations.CountedLoop : Prop :=
  ∀ (s : State) (w : OpWord) (l : List BundleOp) (a t n : Word) (x : Dev), a = regVal s.dev.core w.a.toNat →
    t = branchTarget .dbnz w s.dev.core → n = s.dev.core.pc + BitVec.ofNat 32 (bundleLen (l ++ [(.dbnz, w)])) →
    s.dev.core.run = true → s.dev.core.wait = none → s.dev.core.wdNow = false → s.dev.core.bundle = l → w.stop = true →
    x = s.dev.onCore (fun c => { c with bundle := [] }) →
    (∀ (es : List OpEffect) (y : Dev), fetchable t = true → t.toNat % 4 = 0 → fetchable n = true →
      bundleOk (l ++ [(.dbnz, w)]) = true → evalAll (bundleLen (l ++ [(.dbnz, w)])) x l = .ok es →
      (∀ e ∈ es, e.pre = id ∧ e.next = none) → y = es.foldl (fun d e => e.act d) x →
      (∀ k, ((es.take k).foldl (fun d e => e.act d) x).fwu.hand = x.fwu.hand) → y.core.wait = none →
      Leads (.dbnz w) s fun d =>
        (a - 1 ≠ 0 → d = y.onCore fun c => { putReg s.dev.core.cwb w.a.toNat (a - 1) c with pc := t, iramFetch := c.iram })
        ∧ (a - 1 = 0 → d = y.onCore fun c => { putReg s.dev.core.cwb w.a.toNat (a - 1) c with pc := n })
        ∧ (a = 0 → d = y.onCore fun c => { putReg s.dev.core.cwb w.a.toNat 0xFFFFFFFF c with pc := t, iramFetch := c.iram }))
    ∧ (∀ o v, (o, v) ∈ l → w.a.toNat ∈ writesOf o v → s.dev.core.th = false →
      Leads (.dbnz w) s (Enters 1 s.dev.core.pc s))

/-- R415 to R418, R426, R428, R439, R440, Table 20-7: the B unit's branches, calls, returns, traps and special registers. -/
def Obligations.CoreControl : Prop :=
  ∀ (s : State) (w : OpWord) (a t r : Word), fetchable (seqPc w s.dev.core) = true → a = regVal s.dev.core w.a.toNat →
    r = seqPc w s.dev.core →
    (fetchable t = true → t.toNat % 4 = 0 →
      (t = branchTarget .br w s.dev.core → IssuesAlone .br w s → exec (.br w) s = .next (s.jump t id))
      ∧ (t = branchTarget .bz w s.dev.core →
        (IssuesAlone .bz w s → exec (.bz w) s = .next (if a = 0 then s.jump t id else s.advance w id))
        ∧ (IssuesAlone .bnz w s → exec (.bnz w) s = .next (if a ≠ 0 then s.jump t id else s.advance w id))
        ∧ (IssuesAlone .bltz w s → exec (.bltz w) s = .next (if a.msb then s.jump t id else s.advance w id))
        ∧ (IssuesAlone .bgez w s → exec (.bgez w) s = .next (if a.msb then s.advance w id else s.jump t id)))
      ∧ (t = a → IssuesAlone .jr w s → exec (.jr w) s = .next (s.jump t id))
      ∧ (s.dev.core.wres.toNat < 9 → s.dev.core.rsCnt.toNat < 16 ∨ s.dev.core.rswrap = true →
        (t = branchTarget .call w s.dev.core → IssuesAlone .call w s → exec (.call w) s = .next (s.jump t fun c =>
          rsPush r { c with cwb := c.cwb + 24, wres := c.wres + 1 }))
        ∧ (t = a → IssuesAlone .callr w s → exec (.callr w) s = .next (s.jump t fun c =>
          rsPush r { c with cwb := c.cwb + 24, wres := c.wres + 1 })))
      ∧ (t = spGet 0 s.dev.core.rs s.dev.core.rsTop.toNat → 2 ≤ s.dev.core.wres.toNat →
        s.dev.core.rsCnt ≠ 0 ∨ s.dev.core.rswrap = true → IssuesAlone .ret w s → exec (.ret w) s = .next (s.jump t fun c =>
          rsPop { c with cwb := c.cwb - 24, wres := c.wres - 1 }))
      ∧ (t = s.dev.core.tpc → IssuesAlone .tret w s → exec (.tret w) s = .next (s.jump t fun c =>
          { c with ie := c.ieSaved, th := false, cwb := c.cwb - 24, wres := if c.wres.toNat ≤ 1 then c.wres else c.wres - 1 })))
    ∧ (s.dev.core.th = false →
      (t = branchTarget .br w s.dev.core → IssuesAlone .br w s →
        (t.toNat % 4 ≠ 0 → Leads (.br w) s fun d => Enters 2 s.dev.core.pc s d ∧ d.core.tval = t)
        ∧ (t.toNat % 4 = 0 → fetchable t = false → Leads (.br w) s fun d => Enters 3 t s d ∧ d.core.tval = t))
      ∧ ((branchTarget .call w s.dev.core).toNat % 4 = 0 → IssuesAlone .call w s →
        (9 ≤ s.dev.core.wres.toNat → Leads (.call w) s (Enters 4 s.dev.core.pc s))
        ∧ (s.dev.core.wres.toNat < 9 → s.dev.core.rsCnt = 16 → s.dev.core.rswrap = false →
          Leads (.call w) s (Enters 6 s.dev.core.pc s)))
      ∧ ((spGet 0 s.dev.core.rs s.dev.core.rsTop.toNat).toNat % 4 = 0 → IssuesAlone .ret w s →
        (s.dev.core.wres.toNat ≤ 1 → Leads (.ret w) s (Enters 5 s.dev.core.pc s))
        ∧ (2 ≤ s.dev.core.wres.toNat → s.dev.core.rsCnt = 0 → s.dev.core.rswrap = false →
          Leads (.ret w) s (Enters 7 s.dev.core.pc s)))
      ∧ (IssuesAlone .brk w s → Leads (.breakOp w) s (Enters 8 r s))
      ∧ (IssuesAlone .syscall w s → Leads (.syscall w) s (Enters 9 r s))
      ∧ (s.dev.core.run = true → s.dev.core.wait = none → s.dev.core.wdNow = false → s.dev.core.bundle = [] → w.stop = true →
        wordOk .add w = false → Leads (.add w) s (Enters 1 s.dev.core.pc s)))
    ∧ (s.dev.core.th = true → IssuesAlone .syscall w s → Leads (.syscall w) s fun d => d.core.wdNow = true
        ∧ d.core.pc = s.dev.core.pc ∧ d.core.tpc = s.dev.core.tpc ∧ d.core.cwb = s.dev.core.cwb)
    ∧ (IssuesAlone .nop w s → exec (.nop w) s = .next (s.advance w id))
    ∧ (IssuesAlone .fenceI w s → exec (.fenceI w) s = .next (s.advance w fun c => { c with iramFetch := c.iram }))
    ∧ (IssuesAlone .mfs w s →
        (w.a ≠ 9 → exec (.mfs w) s = .next (s.writesD w (specialVal w.a.toNat s.dev)))
        ∧ (w.a = 9 → s.dev.core.rsCnt ≠ 0 → Leads (.mfs w) s fun d =>
            d.core.rsCnt = s.dev.core.rsCnt - 1 ∧ d.core.rsTop = s.dev.core.rsTop ∧ d.core.cwb = s.dev.core.cwb
            ∧ d.core.wres = s.dev.core.wres ∧ d.core.pc = r))
    ∧ (IssuesAlone .mts w s → ∀ v, v = regVal s.dev.core w.b.toNat →
        (w.d = 0 → exec (.mts w) s = .next (s.advance w fun c => { c with rnd := v.setWidth 2, rswrap := v.getLsbD 2 }))
        ∧ (w.d = 1 → exec (.mts w) s = .next (s.advance w fun c => { c with
            ie := v.getLsbD 0, sat := c.sat && v.getLsbD 2, aov := c.aov && v.getLsbD 3 }))
        ∧ (w.d = 2 → exec (.mts w) s = .next (s.advance w fun c => { c with tpc := v }))
        ∧ (w.d = 5 → exec (.mts w) s = .next (s.advance w fun c => { c with tvec := v.extractLsb' 6 26 }))
        ∧ (w.d = 10 → exec (.mts w) s = .next (s.advance w fun c => { c with ien := v.setWidth 8 }))
        ∧ (w.d.toNat ∈ [4, 6, 8, 11] → exec (.mts w) s = .next (s.advance w id))
        ∧ (w.d = 7 → s.dev.core.th = true → 1 ≤ v.toNat → v.toNat ≤ 10 →
            exec (.mts w) s = .next (s.advance w fun c => { c with wres := v.setWidth 4 }))
        ∧ (w.d = 7 → s.dev.core.th = false → Leads (.mts w) s (Enters 1 s.dev.core.pc s))
        ∧ (w.d = 16 → Leads (.mts w) s fun d => (∀ i, (evrWord d).testBit i = ((evrWord s.dev).testBit i && !v.getLsbD i))
            ∧ d.core.pc = r))

/-- R427, R429, R446, R447: waits and events of the core, and the interrupt. -/
def Obligations.CoreWaitsAndInterrupts : Prop :=
  ∀ (s : State) (w : OpWord) (m : Word), fetchable (seqPc w s.dev.core) = true → fetchable s.dev.core.pc = true →
    m = regVal s.dev.core w.a.toNat →
    (IssuesAlone .ewait w s → m.toNat % 32 ≠ 0 ∨ m.getLsbD 7 = true →
      (evrWord s.dev &&& (m.setWidth 8).toNat &&& 31 ≠ 0 → ∀ x, x = evrWord s.dev &&& (m.setWidth 8).toNat &&& 31 →
        exec (.ewait w) s = .next { s with dev := clearEvr x (s.writesD w (BitVec.ofNat 32 x)).dev })
      ∧ (evrWord s.dev &&& (m.setWidth 8).toNat &&& 31 = 0 → exec (.ewait w) s = .next (s.onCore fun c =>
          { c with wait := some (.ewait w.d (m.setWidth 8) (if w.lit.isSome then 8 else 4)) })))
    ∧ (IssuesAlone .ewait w s → m.toNat % 32 = 0 → m.getLsbD 7 = false → s.dev.core.th = false → Leads (.ewait w) s fun d =>
        Enters 1 s.dev.core.pc s d ∧ d.core.tval = m)
    ∧ (IssuesAlone .waituntil w s → ∀ t, (∀ v, w.lit = some v → t = v) → (w.lit = none → t = m) →
      (reached s.dev t = true → exec (.waituntil w) s = .next (s.advance w (setCompare t)))
      ∧ (reached s.dev t = false → exec (.waituntil w) s = .next (s.onCore fun c =>
          { setCompare t c with wait := some (.until_ t (if w.lit.isSome then 8 else 4)) })))
    ∧ (IssuesAlone .epost w s →
      (m.toNat < 16 → exec (.epost w) s = .next (s.advance w fun c => { c with
        evr := if m.getLsbD 0 then c.evr ||| 1 else c.evr, pe0In := c.pe0In || m.getLsbD 1, pe1In := c.pe1In || m.getLsbD 2
        dmaIn := c.dmaIn || m.getLsbD 3 }))
      ∧ (16 ≤ m.toNat → s.dev.core.th = false → Leads (.epost w) s fun d => Enters 1 s.dev.core.pc s d ∧ d.core.tval = m))
    ∧ (s.dev.core.run = true → s.dev.core.wdNow = false →
      (s.dev.core.wait = none →
        (∀ k, interruptOf s.dev = some k → Leads .interrupt s (Enters (16 + k) s.dev.core.pc s))
        ∧ (interruptOf s.dev = none → exec .interrupt s = .next s)
        ∧ (s.dev.core.th = false → Leads (.debugHaltRequest false) s (Enters 8 s.dev.core.pc s)))
      ∧ (∀ f x n k, s.dev.core.wait = some (.ewait f x n) → evrWord s.dev &&& x.toNat &&& 31 = 0 → interruptOf s.dev = some k →
        Leads .interrupt s fun d => d.core.tcause = BitVec.ofNat 6 (16 + k) ∧ d.core.wait = none
          ∧ d.core.tpc = (if x.getLsbD 7 then s.dev.core.pc + BitVec.ofNat 32 n else s.dev.core.pc)
          ∧ (x.getLsbD 7 = true → d.core.phys = (putReg s.dev.core.cwb f.toNat 0x80 s.dev.core).phys)
          ∧ (x.getLsbD 7 = false → d.core.phys = s.dev.core.phys)))
    ∧ (exec (.debugHaltRequest true) s = .next s)
    ∧ (s.dev.up = true → s.dev.core.wait = none →
      exec .dmaDone s = .next (s.onCore fun c => { c with evr := c.evr ||| 8 })
      ∧ (s.dev.core.compareOn = true → reached s.dev s.dev.core.compare = true → exec .timebaseCompare s = .next (s.onCore fun c =>
          { c with ipend := c.ipend ||| 0x10, compareOn := false })))
    ∧ (∀ t n, s.dev.up = true → s.dev.core.compareOn = true → reached s.dev s.dev.core.compare = true →
        s.dev.core.wait = some (.until_ t n) → t = s.dev.core.compare → fetchable (s.dev.core.pc + BitVec.ofNat 32 n) = true →
        exec .timebaseCompare s = .next (s.onCore fun c => { c with
          ipend := c.ipend ||| 0x10, compareOn := false, wait := none, pc := c.pc + BitVec.ofNat 32 n }))


/-! ## The queue, the outcomes and the invariants -/

/-- A step takes the command at the front of the queue and is exec of it on the state with the queue's rest; on an empty queue the
block idles (the model's choice: log entry 1). -/
def Obligations.StepRunsTheFrontCommand : Prop :=
  ∀ (s : State) (c : Instr) (rest : List Instr),
    (s.pending = c :: rest → step s = exec c { s with pending := rest }) ∧ (s.pending = [] → step s = .next s)

/-- State.reset: the supply is there, the cold-start latch is armed and the core held (R57); both ports are OFF with their paths
open; the core's registers have Table 19-4's values; no command waits; and the invariants hold. That the block begins here and not
without its supply is the model's choice (log entry 4). -/
def Obligations.ResetState : Prop :=
  State.reset.pending = [] ∧ State.reset.dev.pw.phase = .held ∧ State.reset.dev.pw.latchArmed = true
  ∧ (∀ p, (State.reset.dev.port p).role = .off ∧ (State.reset.dev.port p).gate = .opened
      ∧ (State.reset.dev.port p).grd.latch = false ∧ (State.reset.dev.port p).grd.auto = true
      ∧ (State.reset.dev.port p).att.att = false ∧ (State.reset.dev.port p).ctl.en = false)
  ∧ State.reset.dev.gl.gstat = 0 ∧ State.reset.dev.gl.safe = false
  ∧ State.reset.dev.core.run = false ∧ State.reset.dev.core.rnd = 1 ∧ State.reset.dev.core.rswrap = false
  ∧ State.reset.dev.core.wres = 1 ∧ State.reset.dev.core.ie = false ∧ State.reset.dev.core.resv = none
  ∧ Core.legal State.reset.dev.core ∧ Dev.memoryWf State.reset.dev

/-- No command faults; a command that answers a next state leaves the queue alone; only an operation word that the core issues may
be refused, for one of the two windows of Table 19-1 whose registers no rule gives. -/
def Obligations.CommandsEndInANextState : Prop :=
  ∀ (s : State) (c : Instr),
    (∀ f, exec c s ≠ .fault f) ∧ (∀ t, exec c s = .next t → t.pending = s.pending)
    ∧ (∀ r, exec c s = .refused r → coreIssues (settleWait s.dev) = true ∧ (r = .keepEngineWindow ∨ r = .gangControllerWindow))
    ∧ (coreIssues (settleWait s.dev) = false → ∃ d, exec c s = .next { s with dev := d })

/-- R415 to R418: from every state, a step keeps the core's windows and return stack in range, and the core's two memories in
canonical form. -/
def Obligations.CoreStaysLegal : Prop :=
  ∀ s t : State, step s = .next t →
    Core.legal s.dev.core ∧ spRising s.dev.core.ram = true ∧ spRising s.dev.core.iram = true →
    Core.legal t.dev.core ∧ spRising t.dev.core.ram = true ∧ spRising t.dev.core.iram = true

/-- From every state, a step keeps Keep-E, Keep-S and the shadow banks in canonical form. -/
def Obligations.KeepMemoryStaysCanonical : Prop :=
  ∀ s t : State, step s = .next t → memWf (memOf s.dev) → memWf (memOf t.dev)
end

