-- ==== Sys2Proof/Laws/Commits.lean ====
section
/-! SUPPORT. Laws of the commits that the firmware makes of its own areas: where their writes lie, and so which values of KEEP_CTL.BP
refuse them (R391, R393, Table 18-6). -/

namespace Sys2Proof.Laws

open Sys2Proof Machine

/-- A page of a list of writes is the page of one of them. -/
theorem mem_pagesOf (ws : List Host.Cell) (acc : List Nat) (pg : Nat) (h : pg ∈ pagesOf ws acc) :
    pg ∈ acc ∨ ∃ c ∈ ws, pageOf c.1 = pg := by
  induction ws generalizing acc with
  | nil => exact .inl h
  | cons c t ih =>
    rcases ih _ h with h1 | ⟨x, hx, hp⟩
    · split at h1
      · exact .inl h1
      · rcases List.mem_append.1 h1 with h2 | h2
        · exact .inl h2
        · exact .inr ⟨c, by simp, (List.mem_singleton.1 h2).symm⟩
    · exact .inr ⟨x, by simp [hx], hp⟩

/-- Every write's page is listed. -/
theorem pageOf_mem_pagesOf (ws : List Host.Cell) (acc : List Nat) (pg : Nat) (h : pg ∈ acc ∨ ∃ c ∈ ws, pageOf c.1 = pg) :
    pg ∈ pagesOf ws acc := by
  induction ws generalizing acc with
  | nil => simpa [pagesOf] using h
  | cons c t ih =>
    refine ih _ ?_
    rcases h with h | ⟨x, hx, hp⟩
    · left; split <;> simp [h]
    · rcases List.mem_cons.1 hx with rfl | hx
      · left
        split
        · next hc => simpa [hp] using hc
        · simp [hp]
      · exact .inr ⟨x, hx, hp⟩

theorem protectedFrom_le_all (bp : BitVec 2) : protectedFrom bp ≤ 1024 := by
  revert bp; decide

/-- With BP 1 or more, no page above 0x17FFF is open (Table 18-6). -/
theorem protectedFrom_le (bp : BitVec 2) (h : bp ≠ 0) : protectedFrom bp ≤ 768 := by
  revert bp; decide

/-- Writes above the engine's own pages and below the first protected one pass block protection (R391, R393). -/
theorem commitProtected_false (bp : BitVec 2) (ws : List Host.Cell)
    (h : ∀ c ∈ ws, 0x8000 ≤ c.1 ∧ c.1 < 128 * protectedFrom bp) : commitProtected bp ws = false := by
  have hb : protectedFrom bp ≤ 1024 := protectedFrom_le_all bp
  simp only [commitProtected, List.any_eq_false]
  intro pg hp
  rcases mem_pagesOf ws [] pg hp with h1 | ⟨c, hc, rfl⟩
  · simp at h1
  · have := h c hc
    have h2 : 256 ≤ c.1 / 128 := by omega
    have h3 : c.1 / 128 < protectedFrom bp := by omega
    exact fun hp => absurd (of_decide_eq_true hp) (by simp only [pageOf]; omega)

/-- A write of a protected page refuses the commit (R393). -/
theorem commitProtected_true (bp : BitVec 2) (ws : List Host.Cell) (c : Host.Cell) (hc : c ∈ ws) (h : 128 * protectedFrom bp ≤ c.1) :
    commitProtected bp ws = true := by
  simp only [commitProtected, List.any_eq_true]
  refine ⟨pageOf c.1, pageOf_mem_pagesOf ws [] _ (.inr ⟨c, hc, rfl⟩), ?_⟩
  have h2 : protectedFrom bp ≤ c.1 / 128 := by omega
  exact decide_eq_true (.inr (.inl h2))

/-- The writes of bytes laid out from an address lie in their extent. -/
theorem mem_cellsAt (a : Nat) (l : List Byte) (c : Host.Cell) (h : c ∈ cellsAt a l) : a ≤ c.1 ∧ c.1 < a + l.length := by
  simp only [cellsAt, List.mem_map] at h
  obtain ⟨⟨b, i⟩, hx, rfl⟩ := h
  have := List.snd_lt_of_mem_zipIdx hx
  simp at this ⊢
  omega

/-- Some bytes spell no more than they count. -/
@[simp] theorem length_leBytes (n k : Nat) : (leBytes n k).length = k := by
  induction k generalizing n with
  | zero => rfl
  | succ k ih => simp [leBytes, ih]

@[simp] theorem length_le2 (n : Nat) : (le2 n).length = 2 := length_leBytes n 2

/-- The writes of a commit with an area's header: its own, and 16 bytes of the header. -/
theorem mem_headed (k : Keep) (base len : Nat) (fmt : Half) (seq : Nat) (ws : List Host.Cell) (c : Host.Cell)
    (h : c ∈ headed k base len fmt seq ws) : c ∈ ws ∨ base ≤ c.1 ∧ c.1 < base + 16 := by
  simp only [headed, List.mem_append, changedCells, List.mem_filter] at h
  rcases h with ⟨h | h, -⟩ | h
  · exact .inl h
  · have := mem_cellsAt _ _ _ h
    simp at this
    exact .inr (by omega)
  · have := mem_cellsAt _ _ _ h
    simp at this
    exact .inr (by omega)

/-- Such a commit always writes the header's CRC. -/
theorem crc_mem_headed (k : Keep) (base len : Nat) (fmt : Half) (seq : Nat) (ws : List Host.Cell) :
    ∃ c ∈ headed k base len fmt seq ws, base ≤ c.1 := by
  have h : ∀ n, ∃ c ∈ cellsAt (base + 12) (leBytes n 4), base ≤ c.1 := fun n =>
    ⟨(base + 12 + 0, BitVec.ofNat 8 n), by simp [cellsAt, leBytes], by simp only; omega⟩
  obtain ⟨c, hc, hb⟩ := h _
  exact ⟨c, List.mem_append.2 (.inr hc), hb⟩

/-- The durable settings commit writes 0x19000 to 0x197FF (Table 18-1). -/
theorem mem_settingsCommit (d : Dev) (hh : d.fwu.header.length ≤ 160) (c : Host.Cell) (h : c ∈ settingsCommit d) :
    0x19000 ≤ c.1 ∧ c.1 < 0x19800 := by
  rcases mem_headed _ _ _ _ _ _ _ h with h | h
  · simp only [settingsCells, List.mem_append, List.mem_flatMap, List.mem_range] at h
    rcases h with (((((((h | h) | h) | h) | h) | ⟨g, hg, h⟩) | h) | h) | h <;> have := mem_cellsAt _ _ _ h
    · simp [portBlock] at this; omega
    · simp [portBlock] at this; omega
    · simp [deviceBlock] at this; omega
    · simp at this; omega
    · have hl : ((List.range 32).flatMap (thermBytes d)).length = 128 := by simp [List.length_flatMap, thermBytes] <;> decide
      omega
    · simp [bundleBytes] at this; omega
    · omega
    · simp [pieceBitmap] at this; omega
    · simp at this; omega
  · simp [settingsBase] at h; omega

/-- The tuning commit writes 0x19800 to 0x19FFF (Table 18-1). -/
theorem mem_tuningCommit (hours : Half) (d : Dev) (c : Host.Cell) (h : c ∈ tuningCommit hours d) : 0x19800 ≤ c.1 ∧ c.1 < 0x1A000 := by
  rcases mem_headed _ _ _ _ _ _ _ h with h | h
  · have := mem_cellsAt _ _ _ h
    rw [List.length_append, length_le2, List.length_replicate] at this
    simp only [tuningBase, tuningLen] at this
    omega
  · simp [tuningBase] at h; omega

/-- A commit of a copy of the owner data writes that copy (Table 18-1). -/
theorem mem_ownerCommit (d : Dev) (o : Owner) (c : Host.Cell) :
    (c ∈ (copyCommits d 2 (ownerCells o)).1 → 0x18C00 ≤ c.1 ∧ c.1 < 0x18E00)
    ∧ (c ∈ (copyCommits d 2 (ownerCells o)).2 → 0x18E00 ≤ c.1 ∧ c.1 < 0x19000) := by
  have hl : ∀ base, ∀ c ∈ ownerCells o base, base + 16 ≤ c.1 ∧ c.1 < base + 16 + 38 := by
    intro base c h
    have := mem_cellsAt _ _ _ h
    simp at this
    split at this <;> simp_all <;> omega
  constructor <;> intro h <;> rcases mem_headed _ _ _ _ _ _ _ h with h | h
  · have := hl _ _ h; simp [copyA] at this; omega
  · simp [copyA] at h; omega
  · have := hl _ _ h; simp [copyB] at this; omega
  · simp [copyB] at h; omega

/-- With BP 0 every page above 0x07FFF is open: the firmware's own commits pass (Table 18-6). -/
theorem settingsCommit_passes (d : Dev) (hh : d.fwu.header.length ≤ 160) : commitProtected 0 (settingsCommit d) = false :=
  commitProtected_false _ _ fun c h => by have := mem_settingsCommit d hh c h; simp [protectedFrom]; omega

theorem tuningCommit_passes (hours : Half) (d : Dev) : commitProtected 0 (tuningCommit hours d) = false :=
  commitProtected_false _ _ fun c h => by have := mem_tuningCommit hours d c h; simp [protectedFrom]; omega

theorem ownerCommits_pass (d : Dev) (o : Owner) :
    commitProtected 0 (copyCommits d 2 (ownerCells o)).1 = false ∧ commitProtected 0 (copyCommits d 2 (ownerCells o)).2 = false :=
  ⟨commitProtected_false _ _ fun c h => by have := (mem_ownerCommit d o c).1 h; simp [protectedFrom]; omega,
   commitProtected_false _ _ fun c h => by have := (mem_ownerCommit d o c).2 h; simp [protectedFrom]; omega⟩

/-- With BP 1 or more they are refused (Table 18-6, R457). -/
theorem settingsCommit_refused (bp : BitVec 2) (h : bp ≠ 0) (d : Dev) : commitProtected bp (settingsCommit d) = true := by
  obtain ⟨c, hc, hb⟩ := crc_mem_headed (keepAhead d.keep) settingsBase settingsLen (settingsFormat d (keepAhead d.keep))
    (keepNat (keepAhead d.keep) (settingsBase + 4) 4 + 1) (settingsCells d)
  exact commitProtected_true bp _ c hc (by have := protectedFrom_le bp h; simp [settingsBase] at hb; omega)

theorem tuningCommit_refused (bp : BitVec 2) (h : bp ≠ 0) (hours : Half) (d : Dev) : commitProtected bp (tuningCommit hours d) = true := by
  obtain ⟨c, hc, hb⟩ := crc_mem_headed (keepAhead d.keep) tuningBase tuningLen (tuningFormat d)
    (keepNat (keepAhead d.keep) (tuningBase + 4) 4 + 1) (cellsAt (tuningBase + 16) (le2 hours.toNat ++ List.replicate (tuningLen - 18) 0))
  exact commitProtected_true bp _ c hc (by have := protectedFrom_le bp h; simp [tuningBase] at hb; omega)

theorem ownerCommit_refused (bp : BitVec 2) (h : bp ≠ 0) (d : Dev) (o : Owner) :
    commitProtected bp (copyCommits d 2 (ownerCells o)).1 = true := by
  obtain ⟨c, hc, hb⟩ := crc_mem_headed (keepAhead d.keep) (copyA 2) (copyLen 2)
    (keptFormat (keepAhead d.keep) (copyA 2) (durableFormat d)) (takenSeq (keepAhead d.keep) 2 + 1) (ownerCells o (copyA 2))
  exact commitProtected_true bp _ c hc (by have := protectedFrom_le bp h; simp [copyA] at hb; omega)

end Sys2Proof.Laws
end

