-- ==== Sys2Proof/Laws/State.lean ====
section
/-! SUPPORT. What the named updates of a device leave in each of its parts, each true by unfolding, so that no proof unfolds a
record update. -/

namespace Sys2Proof.Laws

open Sys2Proof Machine

@[simp] theorem modPort_us (d : Dev) (p : PortId) (f : Port → Port) : (d.modPort p f).us = d.us := by cases p <;> rfl
@[simp] theorem modPort_free (d : Dev) (p : PortId) (f : Port → Port) : (d.modPort p f).free = d.free := by cases p <;> rfl
@[simp] theorem modPort_pw (d : Dev) (p : PortId) (f : Port → Port) : (d.modPort p f).pw = d.pw := by cases p <;> rfl
@[simp] theorem modPort_gl (d : Dev) (p : PortId) (f : Port → Port) : (d.modPort p f).gl = d.gl := by cases p <;> rfl
@[simp] theorem modPort_q (d : Dev) (p : PortId) (f : Port → Port) : (d.modPort p f).q = d.q := by cases p <;> rfl
@[simp] theorem modPort_win (d : Dev) (p : PortId) (f : Port → Port) : (d.modPort p f).win = d.win := by cases p <;> rfl
@[simp] theorem modPort_mbx (d : Dev) (p : PortId) (f : Port → Port) : (d.modPort p f).mbx = d.mbx := by cases p <;> rfl
@[simp] theorem modPort_tb (d : Dev) (p : PortId) (f : Port → Port) : (d.modPort p f).tb = d.tb := by cases p <;> rfl
@[simp] theorem modPort_keep (d : Dev) (p : PortId) (f : Port → Port) : (d.modPort p f).keep = d.keep := by cases p <;> rfl
@[simp] theorem modPort_fwu (d : Dev) (p : PortId) (f : Port → Port) : (d.modPort p f).fwu = d.fwu := by cases p <;> rfl
@[simp] theorem modPort_gang (d : Dev) (p : PortId) (f : Port → Port) : (d.modPort p f).gang = d.gang := by cases p <;> rfl
@[simp] theorem modPort_cmp (d : Dev) (p : PortId) (f : Port → Port) : (d.modPort p f).cmp = d.cmp := by cases p <;> rfl
@[simp] theorem modPort_core (d : Dev) (p : PortId) (f : Port → Port) : (d.modPort p f).core = d.core := by cases p <;> rfl

@[simp] theorem modPort_port (d : Dev) (p : PortId) (f : Port → Port) : (d.modPort p f).port p = f (d.port p) := by cases p <;> rfl
@[simp] theorem modPort_port_other (d : Dev) (p : PortId) (f : Port → Port) : (d.modPort p f).port p.other = d.port p.other := by
  cases p <;> rfl
@[simp] theorem modPort_p0_p0 (d : Dev) (f : Port → Port) : (d.modPort .p0 f).p0 = f d.p0 := rfl
@[simp] theorem modPort_p0_p1 (d : Dev) (f : Port → Port) : (d.modPort .p0 f).p1 = d.p1 := rfl
@[simp] theorem modPort_p1_p0 (d : Dev) (f : Port → Port) : (d.modPort .p1 f).p0 = d.p0 := rfl
@[simp] theorem modPort_p1_p1 (d : Dev) (f : Port → Port) : (d.modPort .p1 f).p1 = f d.p1 := rfl

@[simp] theorem onCore_us (d : Dev) (f : Core → Core) : (d.onCore f).us = d.us := rfl
@[simp] theorem onCore_free (d : Dev) (f : Core → Core) : (d.onCore f).free = d.free := rfl
@[simp] theorem onCore_pw (d : Dev) (f : Core → Core) : (d.onCore f).pw = d.pw := rfl
@[simp] theorem onCore_gl (d : Dev) (f : Core → Core) : (d.onCore f).gl = d.gl := rfl
@[simp] theorem onCore_q (d : Dev) (f : Core → Core) : (d.onCore f).q = d.q := rfl
@[simp] theorem onCore_win (d : Dev) (f : Core → Core) : (d.onCore f).win = d.win := rfl
@[simp] theorem onCore_mbx (d : Dev) (f : Core → Core) : (d.onCore f).mbx = d.mbx := rfl
@[simp] theorem onCore_tb (d : Dev) (f : Core → Core) : (d.onCore f).tb = d.tb := rfl
@[simp] theorem onCore_keep (d : Dev) (f : Core → Core) : (d.onCore f).keep = d.keep := rfl
@[simp] theorem onCore_fwu (d : Dev) (f : Core → Core) : (d.onCore f).fwu = d.fwu := rfl
@[simp] theorem onCore_gang (d : Dev) (f : Core → Core) : (d.onCore f).gang = d.gang := rfl
@[simp] theorem onCore_cmp (d : Dev) (f : Core → Core) : (d.onCore f).cmp = d.cmp := rfl
@[simp] theorem onCore_core (d : Dev) (f : Core → Core) : (d.onCore f).core = f d.core := rfl
@[simp] theorem onCore_port (d : Dev) (f : Core → Core) (p : PortId) : (d.onCore f).port p = d.port p := by cases p <;> rfl
@[simp] theorem onCore_p0 (d : Dev) (f : Core → Core) : (d.onCore f).p0 = d.p0 := rfl
@[simp] theorem onCore_p1 (d : Dev) (f : Core → Core) : (d.onCore f).p1 = d.p1 := rfl

@[simp] theorem setG_us (i : Nat) (d : Dev) : (setG i d).us = d.us := rfl
@[simp] theorem setG_free (i : Nat) (d : Dev) : (setG i d).free = d.free := rfl
@[simp] theorem setG_pw (i : Nat) (d : Dev) : (setG i d).pw = d.pw := rfl
@[simp] theorem setG_q (i : Nat) (d : Dev) : (setG i d).q = d.q := rfl
@[simp] theorem setG_win (i : Nat) (d : Dev) : (setG i d).win = d.win := rfl
@[simp] theorem setG_mbx (i : Nat) (d : Dev) : (setG i d).mbx = d.mbx := rfl
@[simp] theorem setG_tb (i : Nat) (d : Dev) : (setG i d).tb = d.tb := rfl
@[simp] theorem setG_keep (i : Nat) (d : Dev) : (setG i d).keep = d.keep := rfl
@[simp] theorem setG_fwu (i : Nat) (d : Dev) : (setG i d).fwu = d.fwu := rfl
@[simp] theorem setG_gang (i : Nat) (d : Dev) : (setG i d).gang = d.gang := rfl
@[simp] theorem setG_cmp (i : Nat) (d : Dev) : (setG i d).cmp = d.cmp := rfl
@[simp] theorem setG_core (i : Nat) (d : Dev) : (setG i d).core = d.core := rfl
@[simp] theorem setG_port (i : Nat) (d : Dev) (p : PortId) : (setG i d).port p = d.port p := by cases p <;> rfl
@[simp] theorem raise_us (i : Nat) (d : Dev) : (raise i d).us = d.us := rfl
@[simp] theorem raise_free (i : Nat) (d : Dev) : (raise i d).free = d.free := rfl
@[simp] theorem raise_pw (i : Nat) (d : Dev) : (raise i d).pw = d.pw := rfl
@[simp] theorem raise_gl (i : Nat) (d : Dev) : (raise i d).gl = d.gl := rfl
@[simp] theorem raise_q (i : Nat) (d : Dev) : (raise i d).q = d.q := rfl
@[simp] theorem raise_win (i : Nat) (d : Dev) : (raise i d).win = d.win := rfl
@[simp] theorem raise_mbx (i : Nat) (d : Dev) : (raise i d).mbx = d.mbx := rfl
@[simp] theorem raise_tb (i : Nat) (d : Dev) : (raise i d).tb = d.tb := rfl
@[simp] theorem raise_keep (i : Nat) (d : Dev) : (raise i d).keep = d.keep := rfl
@[simp] theorem raise_fwu (i : Nat) (d : Dev) : (raise i d).fwu = d.fwu := rfl
@[simp] theorem raise_gang (i : Nat) (d : Dev) : (raise i d).gang = d.gang := rfl
@[simp] theorem raise_cmp (i : Nat) (d : Dev) : (raise i d).cmp = d.cmp := rfl
@[simp] theorem raise_port (i : Nat) (d : Dev) (p : PortId) : (raise i d).port p = d.port p := by cases p <;> rfl
@[simp] theorem takeFree_us (d : Dev) : (takeFree d).2.us = d.us := rfl
@[simp] theorem takeFree_pw (d : Dev) : (takeFree d).2.pw = d.pw := rfl
@[simp] theorem takeFree_gl (d : Dev) : (takeFree d).2.gl = d.gl := rfl
@[simp] theorem takeFree_q (d : Dev) : (takeFree d).2.q = d.q := rfl
@[simp] theorem takeFree_win (d : Dev) : (takeFree d).2.win = d.win := rfl
@[simp] theorem takeFree_mbx (d : Dev) : (takeFree d).2.mbx = d.mbx := rfl
@[simp] theorem takeFree_tb (d : Dev) : (takeFree d).2.tb = d.tb := rfl
@[simp] theorem takeFree_keep (d : Dev) : (takeFree d).2.keep = d.keep := rfl
@[simp] theorem takeFree_fwu (d : Dev) : (takeFree d).2.fwu = d.fwu := rfl
@[simp] theorem takeFree_gang (d : Dev) : (takeFree d).2.gang = d.gang := rfl
@[simp] theorem takeFree_cmp (d : Dev) : (takeFree d).2.cmp = d.cmp := rfl
@[simp] theorem takeFree_core (d : Dev) : (takeFree d).2.core = d.core := rfl
@[simp] theorem takeFree_free (d : Dev) : (takeFree d).2.free = d.free + 1 := rfl
@[simp] theorem takeFree_port (d : Dev) (p : PortId) : (takeFree d).2.port p = d.port p := by cases p <;> rfl

/-! ## Updates of a core's registers (R413 to R415) -/

/-- A put of a register changes no other part of the core. -/
@[simp] theorem putReg_run (b : Byte) (n : Nat) (v : Word) (c : Core) : (putReg b n v c).run = c.run := by
  unfold putReg; repeat' split
  all_goals rfl
@[simp] theorem putReg_pc (b : Byte) (n : Nat) (v : Word) (c : Core) : (putReg b n v c).pc = c.pc := by
  unfold putReg; repeat' split
  all_goals rfl
@[simp] theorem putReg_acc (b : Byte) (n : Nat) (v : Word) (c : Core) : (putReg b n v c).acc = c.acc := by
  unfold putReg; repeat' split
  all_goals rfl
@[simp] theorem putReg_cwb (b : Byte) (n : Nat) (v : Word) (c : Core) : (putReg b n v c).cwb = c.cwb := by
  unfold putReg; repeat' split
  all_goals rfl
@[simp] theorem putReg_wres (b : Byte) (n : Nat) (v : Word) (c : Core) : (putReg b n v c).wres = c.wres := by
  unfold putReg; repeat' split
  all_goals rfl
@[simp] theorem putReg_rs (b : Byte) (n : Nat) (v : Word) (c : Core) : (putReg b n v c).rs = c.rs := by
  unfold putReg; repeat' split
  all_goals rfl
@[simp] theorem putReg_rsTop (b : Byte) (n : Nat) (v : Word) (c : Core) : (putReg b n v c).rsTop = c.rsTop := by
  unfold putReg; repeat' split
  all_goals rfl
@[simp] theorem putReg_rsCnt (b : Byte) (n : Nat) (v : Word) (c : Core) : (putReg b n v c).rsCnt = c.rsCnt := by
  unfold putReg; repeat' split
  all_goals rfl
@[simp] theorem putReg_rnd (b : Byte) (n : Nat) (v : Word) (c : Core) : (putReg b n v c).rnd = c.rnd := by
  unfold putReg; repeat' split
  all_goals rfl
@[simp] theorem putReg_rswrap (b : Byte) (n : Nat) (v : Word) (c : Core) : (putReg b n v c).rswrap = c.rswrap := by
  unfold putReg; repeat' split
  all_goals rfl
@[simp] theorem putReg_ie (b : Byte) (n : Nat) (v : Word) (c : Core) : (putReg b n v c).ie = c.ie := by
  unfold putReg; repeat' split
  all_goals rfl
@[simp] theorem putReg_th (b : Byte) (n : Nat) (v : Word) (c : Core) : (putReg b n v c).th = c.th := by
  unfold putReg; repeat' split
  all_goals rfl
@[simp] theorem putReg_sat (b : Byte) (n : Nat) (v : Word) (c : Core) : (putReg b n v c).sat = c.sat := by
  unfold putReg; repeat' split
  all_goals rfl
@[simp] theorem putReg_aov (b : Byte) (n : Nat) (v : Word) (c : Core) : (putReg b n v c).aov = c.aov := by
  unfold putReg; repeat' split
  all_goals rfl
@[simp] theorem putReg_ieSaved (b : Byte) (n : Nat) (v : Word) (c : Core) : (putReg b n v c).ieSaved = c.ieSaved := by
  unfold putReg; repeat' split
  all_goals rfl
@[simp] theorem putReg_tpc (b : Byte) (n : Nat) (v : Word) (c : Core) : (putReg b n v c).tpc = c.tpc := by
  unfold putReg; repeat' split
  all_goals rfl
@[simp] theorem putReg_tval (b : Byte) (n : Nat) (v : Word) (c : Core) : (putReg b n v c).tval = c.tval := by
  unfold putReg; repeat' split
  all_goals rfl
@[simp] theorem putReg_tcause (b : Byte) (n : Nat) (v : Word) (c : Core) : (putReg b n v c).tcause = c.tcause := by
  unfold putReg; repeat' split
  all_goals rfl
@[simp] theorem putReg_tvec (b : Byte) (n : Nat) (v : Word) (c : Core) : (putReg b n v c).tvec = c.tvec := by
  unfold putReg; repeat' split
  all_goals rfl
@[simp] theorem putReg_ien (b : Byte) (n : Nat) (v : Word) (c : Core) : (putReg b n v c).ien = c.ien := by
  unfold putReg; repeat' split
  all_goals rfl
@[simp] theorem putReg_ipend (b : Byte) (n : Nat) (v : Word) (c : Core) : (putReg b n v c).ipend = c.ipend := by
  unfold putReg; repeat' split
  all_goals rfl
@[simp] theorem putReg_evr (b : Byte) (n : Nat) (v : Word) (c : Core) : (putReg b n v c).evr = c.evr := by
  unfold putReg; repeat' split
  all_goals rfl
@[simp] theorem putReg_hwmask (b : Byte) (n : Nat) (v : Word) (c : Core) : (putReg b n v c).hwmask = c.hwmask := by
  unfold putReg; repeat' split
  all_goals rfl
@[simp] theorem putReg_compare (b : Byte) (n : Nat) (v : Word) (c : Core) : (putReg b n v c).compare = c.compare := by
  unfold putReg; repeat' split
  all_goals rfl
@[simp] theorem putReg_compareOn (b : Byte) (n : Nat) (v : Word) (c : Core) : (putReg b n v c).compareOn = c.compareOn := by
  unfold putReg; repeat' split
  all_goals rfl
@[simp] theorem putReg_resv (b : Byte) (n : Nat) (v : Word) (c : Core) : (putReg b n v c).resv = c.resv := by
  unfold putReg; repeat' split
  all_goals rfl
@[simp] theorem putReg_wait (b : Byte) (n : Nat) (v : Word) (c : Core) : (putReg b n v c).wait = c.wait := by
  unfold putReg; repeat' split
  all_goals rfl
@[simp] theorem putReg_bundle (b : Byte) (n : Nat) (v : Word) (c : Core) : (putReg b n v c).bundle = c.bundle := by
  unfold putReg; repeat' split
  all_goals rfl
@[simp] theorem putReg_ram (b : Byte) (n : Nat) (v : Word) (c : Core) : (putReg b n v c).ram = c.ram := by
  unfold putReg; repeat' split
  all_goals rfl
@[simp] theorem putReg_iram (b : Byte) (n : Nat) (v : Word) (c : Core) : (putReg b n v c).iram = c.iram := by
  unfold putReg; repeat' split
  all_goals rfl
@[simp] theorem putReg_iramFetch (b : Byte) (n : Nat) (v : Word) (c : Core) : (putReg b n v c).iramFetch = c.iramFetch := by
  unfold putReg; repeat' split
  all_goals rfl
@[simp] theorem putReg_snap (b : Byte) (n : Nat) (v : Word) (c : Core) : (putReg b n v c).snap = c.snap := by
  unfold putReg; repeat' split
  all_goals rfl
@[simp] theorem putReg_wdAt (b : Byte) (n : Nat) (v : Word) (c : Core) : (putReg b n v c).wdAt = c.wdAt := by
  unfold putReg; repeat' split
  all_goals rfl
@[simp] theorem putReg_fires (b : Byte) (n : Nat) (v : Word) (c : Core) : (putReg b n v c).fires = c.fires := by
  unfold putReg; repeat' split
  all_goals rfl
@[simp] theorem putReg_wdNow (b : Byte) (n : Nat) (v : Word) (c : Core) : (putReg b n v c).wdNow = c.wdNow := by
  unfold putReg; repeat' split
  all_goals rfl
@[simp] theorem putReg_restart (b : Byte) (n : Nat) (v : Word) (c : Core) : (putReg b n v c).restart = c.restart := by
  unfold putReg; repeat' split
  all_goals rfl
@[simp] theorem putReg_pe0In (b : Byte) (n : Nat) (v : Word) (c : Core) : (putReg b n v c).pe0In = c.pe0In := by
  unfold putReg; repeat' split
  all_goals rfl
@[simp] theorem putReg_pe1In (b : Byte) (n : Nat) (v : Word) (c : Core) : (putReg b n v c).pe1In = c.pe1In := by
  unfold putReg; repeat' split
  all_goals rfl
@[simp] theorem putReg_dmaIn (b : Byte) (n : Nat) (v : Word) (c : Core) : (putReg b n v c).dmaIn = c.dmaIn := by
  unfold putReg; repeat' split
  all_goals rfl
@[simp] theorem putReg_ramEpoch (b : Byte) (n : Nat) (v : Word) (c : Core) : (putReg b n v c).ramEpoch = c.ramEpoch := by
  unfold putReg; repeat' split
  all_goals rfl
@[simp] theorem putReg_keptEpoch (b : Byte) (n : Nat) (v : Word) (c : Core) : (putReg b n v c).keptEpoch = c.keptEpoch := by
  unfold putReg; repeat' split
  all_goals rfl

/-- A put of an accumulator changes no other part of the core. -/
@[simp] theorem putAcc_run (n : Nat) (v : Acc) (c : Core) : (putAcc n v c).run = c.run := rfl
@[simp] theorem putAcc_pc (n : Nat) (v : Acc) (c : Core) : (putAcc n v c).pc = c.pc := rfl
@[simp] theorem putAcc_cwb (n : Nat) (v : Acc) (c : Core) : (putAcc n v c).cwb = c.cwb := rfl
@[simp] theorem putAcc_wres (n : Nat) (v : Acc) (c : Core) : (putAcc n v c).wres = c.wres := rfl
@[simp] theorem putAcc_rs (n : Nat) (v : Acc) (c : Core) : (putAcc n v c).rs = c.rs := rfl
@[simp] theorem putAcc_rsTop (n : Nat) (v : Acc) (c : Core) : (putAcc n v c).rsTop = c.rsTop := rfl
@[simp] theorem putAcc_rsCnt (n : Nat) (v : Acc) (c : Core) : (putAcc n v c).rsCnt = c.rsCnt := rfl
@[simp] theorem putAcc_rnd (n : Nat) (v : Acc) (c : Core) : (putAcc n v c).rnd = c.rnd := rfl
@[simp] theorem putAcc_rswrap (n : Nat) (v : Acc) (c : Core) : (putAcc n v c).rswrap = c.rswrap := rfl
@[simp] theorem putAcc_ie (n : Nat) (v : Acc) (c : Core) : (putAcc n v c).ie = c.ie := rfl
@[simp] theorem putAcc_th (n : Nat) (v : Acc) (c : Core) : (putAcc n v c).th = c.th := rfl
@[simp] theorem putAcc_sat (n : Nat) (v : Acc) (c : Core) : (putAcc n v c).sat = c.sat := rfl
@[simp] theorem putAcc_aov (n : Nat) (v : Acc) (c : Core) : (putAcc n v c).aov = c.aov := rfl
@[simp] theorem putAcc_ieSaved (n : Nat) (v : Acc) (c : Core) : (putAcc n v c).ieSaved = c.ieSaved := rfl
@[simp] theorem putAcc_tpc (n : Nat) (v : Acc) (c : Core) : (putAcc n v c).tpc = c.tpc := rfl
@[simp] theorem putAcc_tval (n : Nat) (v : Acc) (c : Core) : (putAcc n v c).tval = c.tval := rfl
@[simp] theorem putAcc_tcause (n : Nat) (v : Acc) (c : Core) : (putAcc n v c).tcause = c.tcause := rfl
@[simp] theorem putAcc_tvec (n : Nat) (v : Acc) (c : Core) : (putAcc n v c).tvec = c.tvec := rfl
@[simp] theorem putAcc_ien (n : Nat) (v : Acc) (c : Core) : (putAcc n v c).ien = c.ien := rfl
@[simp] theorem putAcc_ipend (n : Nat) (v : Acc) (c : Core) : (putAcc n v c).ipend = c.ipend := rfl
@[simp] theorem putAcc_evr (n : Nat) (v : Acc) (c : Core) : (putAcc n v c).evr = c.evr := rfl
@[simp] theorem putAcc_hwmask (n : Nat) (v : Acc) (c : Core) : (putAcc n v c).hwmask = c.hwmask := rfl
@[simp] theorem putAcc_compare (n : Nat) (v : Acc) (c : Core) : (putAcc n v c).compare = c.compare := rfl
@[simp] theorem putAcc_compareOn (n : Nat) (v : Acc) (c : Core) : (putAcc n v c).compareOn = c.compareOn := rfl
@[simp] theorem putAcc_resv (n : Nat) (v : Acc) (c : Core) : (putAcc n v c).resv = c.resv := rfl
@[simp] theorem putAcc_wait (n : Nat) (v : Acc) (c : Core) : (putAcc n v c).wait = c.wait := rfl
@[simp] theorem putAcc_bundle (n : Nat) (v : Acc) (c : Core) : (putAcc n v c).bundle = c.bundle := rfl
@[simp] theorem putAcc_ram (n : Nat) (v : Acc) (c : Core) : (putAcc n v c).ram = c.ram := rfl
@[simp] theorem putAcc_iram (n : Nat) (v : Acc) (c : Core) : (putAcc n v c).iram = c.iram := rfl
@[simp] theorem putAcc_iramFetch (n : Nat) (v : Acc) (c : Core) : (putAcc n v c).iramFetch = c.iramFetch := rfl
@[simp] theorem putAcc_snap (n : Nat) (v : Acc) (c : Core) : (putAcc n v c).snap = c.snap := rfl
@[simp] theorem putAcc_wdAt (n : Nat) (v : Acc) (c : Core) : (putAcc n v c).wdAt = c.wdAt := rfl
@[simp] theorem putAcc_fires (n : Nat) (v : Acc) (c : Core) : (putAcc n v c).fires = c.fires := rfl
@[simp] theorem putAcc_wdNow (n : Nat) (v : Acc) (c : Core) : (putAcc n v c).wdNow = c.wdNow := rfl
@[simp] theorem putAcc_restart (n : Nat) (v : Acc) (c : Core) : (putAcc n v c).restart = c.restart := rfl
@[simp] theorem putAcc_pe0In (n : Nat) (v : Acc) (c : Core) : (putAcc n v c).pe0In = c.pe0In := rfl
@[simp] theorem putAcc_pe1In (n : Nat) (v : Acc) (c : Core) : (putAcc n v c).pe1In = c.pe1In := rfl
@[simp] theorem putAcc_dmaIn (n : Nat) (v : Acc) (c : Core) : (putAcc n v c).dmaIn = c.dmaIn := rfl
@[simp] theorem putAcc_ramEpoch (n : Nat) (v : Acc) (c : Core) : (putAcc n v c).ramEpoch = c.ramEpoch := rfl
@[simp] theorem putAcc_keptEpoch (n : Nat) (v : Acc) (c : Core) : (putAcc n v c).keptEpoch = c.keptEpoch := rfl
@[simp] theorem putAcc_phys (n : Nat) (v : Acc) (c : Core) : (putAcc n v c).phys = c.phys := rfl
@[simp] theorem putAcc_g (n : Nat) (v : Acc) (c : Core) : (putAcc n v c).g = c.g := rfl

/-! ## How commands answer -/

/-- A change of the device alone always answers a next state, and leaves the queue. -/
@[simp] theorem onDev_eq (f : Dev → Dev) (s : State) : onDev f s = .next { s with dev := f s.dev } := rfl

@[simp] theorem guardDev_true (f : Dev → Dev) (d : Dev) : guardDev true f d = f d := rfl
@[simp] theorem guardDev_false (f : Dev → Dev) (d : Dev) : guardDev false f d = d := rfl

/-- A command that only changes the device leads to what the change gives. -/
theorem leads_onDev {c : Instr} {s : State} {P : Dev → Prop} {f : Dev → Dev} (h : exec c s = onDev f s) : Leads c s P ↔ P (f s.dev) := by
  unfold Leads
  rw [h]
  constructor
  · rintro ⟨d, hd, hp⟩
    have : f s.dev = d := by injection hd with e; exact congrArg State.dev e
    rwa [this]
  · exact fun hp => ⟨_, rfl, hp⟩

end Sys2Proof.Laws
end

