-- ==== Sys2Proof/Laws/CoreFrame.lean ====
section
/-! SUPPORT. What leaves the head processor's core alone: every shared operation of the device outside the core's
own instructions, its starts and restarts, the meter, and the register dispatch leaves `coreOf`, the core with its
two event latches set aside, as it was. A frame is said once per operation here and cited after it. -/

namespace Sys2Proof.Laws

set_option linter.unusedSimpArgs false

open Sys2Proof Machine

@[simp] theorem coreOf_mk (d : Dev) (us free pw gl q win mbx p0 p1 tb keep fwu gang cmp) :
    coreOf ⟨us, free, pw, gl, q, win, mbx, p0, p1, tb, keep, fwu, gang, cmp, d.core⟩ = coreOf d := rfl

@[simp] theorem coreOf_raise (n : Nat) (d : Dev) : coreOf (raise n d) = coreOf d := rfl

@[simp] theorem coreOf_modPort (d : Dev) (p : PortId) (f : Port → Port) : coreOf (d.modPort p f) = coreOf d := by
  cases p <;> rfl

@[simp] theorem coreOf_bothPorts (d : Dev) (f : PortId → Dev → Dev) : coreOf (d.bothPorts f) = coreOf (f .p1 (f .p0 d)) := rfl

@[simp] theorem coreOf_guardDev (c : Bool) (f : Dev → Dev) (d : Dev) :
    coreOf (guardDev c f d) = if c then coreOf (f d) else coreOf d := by cases c <;> rfl

@[simp] theorem coreOf_foldDev {α : Type} (f : α → Dev → Dev) (h : ∀ a d, coreOf (f a d) = coreOf d) (l : List α) (d : Dev) :
    coreOf (foldDev f l d) = coreOf d := by
  induction l generalizing d with
  | nil => rfl
  | cons a t ih => rw [foldDev, ih, h]

@[simp] theorem coreOf_foldl {α : Type} (f : Dev → α → Dev) (h : ∀ d a, coreOf (f d a) = coreOf d) (l : List α) (d : Dev) :
    coreOf (l.foldl f d) = coreOf d := by
  induction l generalizing d with
  | nil => rfl
  | cons a t ih => rw [List.foldl, ih, h]

@[simp] theorem takeFree_coreOf (d : Dev) : coreOf (takeFree d).2 = coreOf d := by simp [takeFree]

@[simp] theorem setG_coreOf (i : Nat) (d : Dev) : coreOf (setG i d) = coreOf d := by simp [setG, apply_ite coreOf]

@[simp] theorem setOvf_coreOf (d : Dev) : coreOf (setOvf d) = coreOf d := by simp [setOvf, apply_ite coreOf]

@[simp] theorem clearG_coreOf (mask sets : Half) (d : Dev) : coreOf (clearG mask sets d) = coreOf d := by simp [clearG, apply_ite coreOf]

@[simp] theorem countUp_coreOf (c : Nat) (d : Dev) : coreOf (countUp c d) = coreOf d := by simp [countUp, apply_ite coreOf]

@[simp] theorem logEvent_coreOf (e : Event) (ms : Word) (d : Dev) : coreOf (logEvent e ms d) = coreOf d := by simp [logEvent, apply_ite coreOf]

@[simp] theorem loseEvent_coreOf (seq ms : Half) (d : Dev) : coreOf (loseEvent seq ms d) = coreOf d := by
  unfold loseEvent
  repeat' split
  all_goals first | rfl | simp [apply_ite coreOf]

@[simp] theorem post_coreOf (x : EventSpec) (d : Dev) : coreOf (post x d) = coreOf d := by simp [post, apply_ite coreOf]

@[simp] theorem postEndpoint_coreOf (typ code : Nat) (p : PortId) (i : Idx) (log : Bool) (d : Dev) : coreOf (postEndpoint typ code p i log d) = coreOf d := by simp [postEndpoint, apply_ite coreOf]

@[simp] theorem postPort_coreOf (typ code : Nat) (p : PortId) (word1 : Half) (log : Bool) (d : Dev) : coreOf (postPort typ code p word1 log d) = coreOf d := by simp [postPort, apply_ite coreOf]

@[simp] theorem postGlobal_coreOf (typ code : Nat) (word1 : Half) (log : Bool) (d : Dev) : coreOf (postGlobal typ code word1 log d) = coreOf d := by simp [postGlobal, apply_ite coreOf]

@[simp] theorem dropOvf_coreOf (d : Dev) : coreOf (dropOvf d) = coreOf d := by
  unfold dropOvf
  repeat' split
  all_goals first | rfl | simp [apply_ite coreOf]

@[simp] theorem popWord_coreOf (d : Dev) : coreOf (popWord d).2 = coreOf d := by
  unfold popWord
  dsimp only
  repeat' split
  all_goals first | rfl | simp [apply_ite coreOf] | simp_all [apply_ite coreOf]

@[simp] theorem postThrot_coreOf (p : PortId) (d : Dev) : coreOf (postThrot p d) = coreOf d := by simp [postThrot, apply_ite coreOf]

@[simp] theorem flushThrot_coreOf (p : PortId) (d : Dev) : coreOf (flushThrot p d) = coreOf d := by simp [flushThrot, apply_ite coreOf]

@[simp] theorem noteThrot_coreOf (p : PortId) (d : Dev) : coreOf (noteThrot p d) = coreOf d := by simp [noteThrot, apply_ite coreOf]

@[simp] theorem launch_coreOf (p : PortId) (d : Dev) : coreOf (launch p d) = coreOf d := by simp [launch, apply_ite coreOf]

@[simp] theorem enqueue_coreOf (p : PortId) (o : OutFrame) (d : Dev) : coreOf (enqueue p o d) = coreOf d := by simp [enqueue, apply_ite coreOf]

@[simp] theorem dropFront_coreOf (p : PortId) (d : Dev) : coreOf (dropFront p d) = coreOf d := by simp [dropFront, apply_ite coreOf]

@[simp] theorem sendTo_coreOf (p : PortId) (i : Idx) (kind : OutKind) (mt : BitVec 6) (flags : Byte) (payload : List Byte) (slot : Option (BitVec 7)) (d : Dev) : coreOf (sendTo p i kind mt flags payload slot d) = coreOf d := by simp [sendTo, apply_ite coreOf]

@[simp] theorem sendPeer_coreOf (p : PortId) (kind : OutKind) (mt : BitVec 6) (payload : List Byte) (d : Dev) : coreOf (sendPeer p kind mt payload d) = coreOf d := by simp [sendPeer, apply_ite coreOf]

@[simp] theorem endContract_coreOf (code : Nat) (p : PortId) (i : Idx) (d : Dev) : coreOf (endContract code p i d) = coreOf d := by simp [endContract, apply_ite coreOf]

@[simp] theorem dirtyPage_coreOf (p : PortId) (i : Idx) (d : Dev) : coreOf (dirtyPage p i d) = coreOf d := by simp [dirtyPage, apply_ite coreOf]

@[simp] theorem sendWithdraw_coreOf (reason : Nat) (p : PortId) (i : Idx) (slot : Option Nat) (reserve : Nat) (d : Dev) : coreOf (sendWithdraw reason p i slot reserve d) = coreOf d := by
  unfold sendWithdraw
  repeat' split
  all_goals first | rfl | simp [apply_ite coreOf]

@[simp] theorem withdrawGrant_coreOf (reason : Nat) (p : PortId) (k : Nat) (d : Dev) : coreOf (withdrawGrant reason p k d) = coreOf d := by
  unfold withdrawGrant
  repeat' split
  all_goals first | rfl | simp [apply_ite coreOf]

@[simp] theorem withdrawContract_coreOf (reason : Nat) (p : PortId) (i : Idx) (d : Dev) : coreOf (withdrawContract reason p i d) = coreOf d := by simp [withdrawContract, apply_ite coreOf]

@[simp] theorem trimGrants_coreOf (p : PortId) (d : Dev) : coreOf (trimGrants p d) = coreOf d := by simp [trimGrants, apply_ite coreOf]

@[simp] theorem shedPort_coreOf (p : PortId) (d : Dev) : coreOf (shedPort p d) = coreOf d := by simp [shedPort, apply_ite coreOf]

@[simp] theorem shedClass_coreOf (p : PortId) (c : Cls) (d : Dev) : coreOf (shedClass p c d) = coreOf d := by
  unfold shedClass
  dsimp only
  split
  · rw [coreOf_foldDev _ (by intros; simp [apply_ite coreOf]), coreOf_foldDev]
    intro k d
    repeat' split
    all_goals simp
  · rfl

@[simp] theorem shedTenant_coreOf (t : Tenant) (d : Dev) : coreOf (shedTenant t d) = coreOf d := by
  unfold shedTenant
  dsimp only
  split
  · rw [coreOf_foldDev _ (by intros; simp [apply_ite coreOf]), coreOf_foldDev, coreOf_foldDev]
    all_goals intro k d
    all_goals repeat' split
    all_goals simp
  · rfl

@[simp] theorem relieve_coreOf (d : Dev) : coreOf (relieve d) = coreOf d := by
  unfold relieve
  dsimp only
  split <;> simp

@[simp] theorem sendWaitPlain_coreOf (p : PortId) (i : Idx) (k : Option Nat) (retry : Nat) (d : Dev) : coreOf (sendWaitPlain p i k retry d) = coreOf d := by
  unfold sendWaitPlain
  repeat' split
  all_goals first | rfl | simp [apply_ite coreOf]

@[simp] theorem sendReject_coreOf (p : PortId) (i : Idx) (k : Option Nat) (reason : Nat) (d : Dev) : coreOf (sendReject p i k reason d) = coreOf d := by
  unfold sendReject
  repeat' split
  all_goals first | rfl | simp [apply_ite coreOf]

@[simp] theorem sendWait_coreOf (p : PortId) (i : Idx) (k : Option Nat) (req : RequestMsg) (arrival code bit : Nat) (d : Dev) : coreOf (sendWait p i k req arrival code bit d) = coreOf d := by
  unfold sendWait
  repeat' split
  all_goals first | rfl | simp [apply_ite coreOf]

@[simp] theorem sendAccept_coreOf (p : PortId) (i : Idx) (k : Nat) (s : Slot) (l : Level) (spec : Bool) (d : Dev) : coreOf (sendAccept p i k s l spec d) = coreOf d := by simp [sendAccept, apply_ite coreOf]

@[simp] theorem confirmSlot_coreOf (p : PortId) (k : Nat) (s : Slot) (i : Idx) (l : Level) (d : Dev) : coreOf (confirmSlot p k s i l d) = coreOf d := by simp [confirmSlot, apply_ite coreOf]

@[simp] theorem abortSlot_coreOf (sa w : Nat) (p : PortId) (x : Nat × Slot) (d : Dev) : coreOf (abortSlot sa w p x d) = coreOf d := by
  unfold abortSlot
  repeat' split
  all_goals first | rfl | simp [apply_ite coreOf]

@[simp] theorem abortSlots_coreOf (sa w : Nat) (p : PortId) (d : Dev) : coreOf (abortSlots sa w p d) = coreOf d := by simp [abortSlots, apply_ite coreOf]

@[simp] theorem levelEnds_coreOf (p : PortId) (d : Dev) : coreOf (levelEnds p d) = coreOf d := by simp [levelEnds, apply_ite coreOf]

@[simp] theorem endAll_coreOf (w : Nat) (p : PortId) (d : Dev) : coreOf (endAll w p d) = coreOf d := by simp [endAll, apply_ite coreOf]

@[simp] theorem setRole_coreOf (p : PortId) (r : Role) (d : Dev) : coreOf (setRole p r d) = coreOf d := by simp [setRole, apply_ite coreOf]

@[simp] theorem railOff_coreOf (p : PortId) (d : Dev) : coreOf (railOff p d) = coreOf d := by simp [railOff, apply_ite coreOf]

@[simp] theorem railOn_coreOf (p : PortId) (d : Dev) : coreOf (railOn p d) = coreOf d := by simp [railOn, apply_ite coreOf]

@[simp] theorem abortRun_coreOf (sa w : Nat) (p : PortId) (d : Dev) : coreOf (abortRun sa w p d) = coreOf d := by simp [abortRun, apply_ite coreOf]

@[simp] theorem safePort_coreOf (p : PortId) (d : Dev) : coreOf (safePort p d) = coreOf d := by simp [safePort, apply_ite coreOf]

@[simp] theorem postFwu_coreOf (code : Nat) (d : Dev) : coreOf (postFwu code d) = coreOf d := by simp [postFwu, apply_ite coreOf]

@[simp] theorem fwuRefused_coreOf (r : BitVec 3) (d : Dev) : coreOf (fwuRefused r d) = coreOf d := by simp [fwuRefused, apply_ite coreOf]

@[simp] theorem safeEndsWait_coreOf (d : Dev) : coreOf (safeEndsWait d) = coreOf d := by
  unfold safeEndsWait
  repeat' split
  all_goals first | rfl | simp [apply_ite coreOf]

@[simp] theorem enterSafe_coreOf (cause : Nat) (d : Dev) : coreOf (enterSafe cause d) = coreOf d := by simp [enterSafe, apply_ite coreOf]

@[simp] theorem markHost_coreOf (n : Nat) (d : Dev) : coreOf (markHost n d) = coreOf d := by simp [markHost, apply_ite coreOf]

@[simp] theorem byHost_coreOf (n : Nat) (f : Dev → Dev) (d : Dev) (h : coreOf (f d) = coreOf d) :
    coreOf (byHost n f d) = coreOf d := by
  simp [byHost, apply_ite coreOf, h]

@[simp] theorem tripRadial_coreOf (cause : Nat) (p : PortId) (d : Dev) : coreOf (tripRadial cause p d) = coreOf d := by simp [tripRadial, apply_ite coreOf]

@[simp] theorem tripRing_coreOf (cause : Nat) (p : PortId) (d : Dev) : coreOf (tripRing cause p d) = coreOf d := by simp [tripRing, apply_ite coreOf]

@[simp] theorem tripDraw_coreOf (cause : Nat) (p : PortId) (d : Dev) : coreOf (tripDraw cause p d) = coreOf d := by simp [tripDraw, apply_ite coreOf]

@[simp] theorem trip_coreOf (cause : Nat) (p : PortId) (d : Dev) : coreOf (trip cause p d) = coreOf d := by
  unfold trip
  dsimp only
  split
  · cases (d.port p).role <;> simp [apply_ite coreOf]
  · rfl

@[simp] theorem tripFirst_coreOf (own : Nat) (p : PortId) (c : Crossing) (d : Dev) : coreOf (tripFirst own p c d) = coreOf d := by simp [tripFirst, apply_ite coreOf]

@[simp] theorem mismatch_coreOf (p : PortId) (d : Dev) : coreOf (mismatch p d) = coreOf d := by simp [mismatch, apply_ite coreOf]

@[simp] theorem stopReclosing_coreOf (p : PortId) (d : Dev) : coreOf (stopReclosing p d) = coreOf d := by simp [stopReclosing, apply_ite coreOf]

@[simp] theorem guardClear_coreOf (p : PortId) (d : Dev) : coreOf (guardClear p d) = coreOf d := by simp [guardClear, apply_ite coreOf]

@[simp] theorem dueSettings_coreOf (d : Dev) : coreOf (dueSettings d) = coreOf d := by simp [dueSettings, apply_ite coreOf]

@[simp] theorem guardAuto_coreOf (v : Bool) (p : PortId) (d : Dev) : coreOf (guardAuto v p d) = coreOf d := by simp [guardAuto, apply_ite coreOf]

@[simp] theorem writeIlim_coreOf (p : PortId) (v : Half) (d : Dev) : coreOf (writeIlim p v d) = coreOf d := by simp [writeIlim, apply_ite coreOf]

@[simp] theorem writeIfast_coreOf (p : PortId) (v : Half) (d : Dev) : coreOf (writeIfast p v d) = coreOf d := by simp [writeIfast, apply_ite coreOf]

@[simp] theorem leaveSafe_coreOf (d : Dev) : coreOf (leaveSafe d) = coreOf d := by simp [leaveSafe, apply_ite coreOf]

@[simp] theorem dropAwaiting_coreOf (p : PortId) (above : Level → Bool) (d : Dev) :
    coreOf (dropAwaiting p above d) = coreOf d := by
  unfold dropAwaiting
  rw [coreOf_foldDev]
  intro x d
  repeat' split
  all_goals simp

@[simp] theorem abortStep_coreOf (p : PortId) (d : Dev) : coreOf (abortStep p d) = coreOf d := by
  unfold abortStep
  repeat' split
  all_goals first | rfl | simp [apply_ite coreOf]

@[simp] theorem shedForLevel_coreOf (p : PortId) (l : Level) (d : Dev) : coreOf (shedForLevel p l d) = coreOf d := by simp [shedForLevel, apply_ite coreOf]

@[simp] theorem shedDown_coreOf (p : PortId) (top : Level) (d : Dev) : coreOf (shedDown p top d) = coreOf d := by simp [shedDown, apply_ite coreOf]

@[simp] theorem settleStep_coreOf (p : PortId) (st : LevelStep) (d : Dev) : coreOf (settleStep p st d) = coreOf d := by simp [settleStep, apply_ite coreOf]

@[simp] theorem setFault_coreOf (p : PortId) (d : Dev) : coreOf (setFault p d) = coreOf d := by simp [setFault, apply_ite coreOf]

@[simp] theorem writeLevel_coreOf (p : PortId) (hold : Bool) (tgt : Level) (d : Dev) : coreOf (writeLevel p hold tgt d) = coreOf d := by simp [writeLevel, apply_ite coreOf]

@[simp] theorem coreTarget_coreOf (p : PortId) (l : Level) (d : Dev) : coreOf (coreTarget p l d) = coreOf d := by simp [coreTarget, apply_ite coreOf]

@[simp] theorem followTop_coreOf (p : PortId) (d : Dev) : coreOf (followTop p d) = coreOf d := by simp [followTop, apply_ite coreOf]

@[simp] theorem shedLate_coreOf (p : PortId) (d : Dev) : coreOf (shedLate p d) = coreOf d := by simp [shedLate, apply_ite coreOf]

@[simp] theorem writeLmax_coreOf (p : PortId) (l : Level) (d : Dev) : coreOf (writeLmax p l d) = coreOf d := by simp [writeLmax, apply_ite coreOf]

@[simp] theorem toneCutsPulse_coreOf (p : PortId) (d : Dev) : coreOf (toneCutsPulse p d) = coreOf d := by
  unfold toneCutsPulse
  repeat' split
  all_goals first | rfl | simp [apply_ite coreOf]

@[simp] theorem droopRespond_coreOf (p : PortId) (d : Dev) : coreOf (droopRespond p d) = coreOf d := by simp [droopRespond, apply_ite coreOf]

@[simp] theorem droopCleared_coreOf (p : PortId) (d : Dev) : coreOf (droopCleared p d) = coreOf d := by simp [droopCleared, apply_ite coreOf]

@[simp] theorem droopPersists_coreOf (p : PortId) (d : Dev) : coreOf (droopPersists p d) = coreOf d := by simp [droopPersists, apply_ite coreOf]

@[simp] theorem pllNeed_coreOf (d : Dev) : coreOf (pllNeed d) = coreOf d := by simp [pllNeed, apply_ite coreOf]

@[simp] theorem shutFeed_coreOf (p : PortId) (d : Dev) : coreOf (shutFeed p d) = coreOf d := by simp [shutFeed, apply_ite coreOf]

@[simp] theorem shutDraw_coreOf (p : PortId) (d : Dev) : coreOf (shutDraw p d) = coreOf d := by simp [shutDraw, apply_ite coreOf]

@[simp] theorem leaveRole_coreOf (p : PortId) (d : Dev) : coreOf (leaveRole p d) = coreOf d := by
  unfold leaveRole
  cases (d.port p).role <;> simp

@[simp] theorem unpark_coreOf (d : Dev) : coreOf (unpark d) = coreOf d := by simp [unpark, apply_ite coreOf]

@[simp] theorem enterFeed_coreOf (p : PortId) (d : Dev) : coreOf (enterFeed p d) = coreOf d := by simp [enterFeed, apply_ite coreOf]

@[simp] theorem enterDraw_coreOf (p : PortId) (d : Dev) : coreOf (enterDraw p d) = coreOf d := by simp [enterDraw, apply_ite coreOf]

@[simp] theorem applyRole_coreOf (p : PortId) (r : Role) (d : Dev) : coreOf (applyRole p r d) = coreOf d := by
  unfold applyRole
  repeat' split
  all_goals first | rfl | simp [apply_ite coreOf]

@[simp] theorem denyRole_coreOf (p : PortId) (code : Nat) (d : Dev) : coreOf (denyRole p code d) = coreOf d := by simp [denyRole, apply_ite coreOf]

@[simp] theorem putRole_coreOf (p : PortId) (r : Role) (d : Dev) : coreOf (putRole p r d) = coreOf d := by simp [putRole, apply_ite coreOf]

@[simp] theorem takeRole_coreOf (p : PortId) (r : Role) (d : Dev) : coreOf (takeRole p r d) = coreOf d := by simp [takeRole, apply_ite coreOf]

@[simp] theorem writeRole_coreOf (p : PortId) (c : BitVec 2) (d : Dev) : coreOf (writeRole p c d) = coreOf d := by
  unfold writeRole
  repeat' split
  all_goals first | rfl | simp [apply_ite coreOf]

@[simp] theorem disablePort_coreOf (p : PortId) (d : Dev) : coreOf (disablePort p d) = coreOf d := by simp [disablePort, apply_ite coreOf]

@[simp] theorem enablePort_coreOf (p : PortId) (d : Dev) : coreOf (enablePort p d) = coreOf d := by
  unfold enablePort
  dsimp only
  repeat' split
  all_goals first | rfl | simp [apply_ite coreOf] | simp_all [apply_ite coreOf]

@[simp] theorem writeEn_coreOf (p : PortId) (v : Bool) (d : Dev) : coreOf (writeEn p v d) = coreOf d := by simp [writeEn, apply_ite coreOf]

@[simp] theorem writeAuto_coreOf (p : PortId) (v : Bool) (d : Dev) : coreOf (writeAuto p v d) = coreOf d := by simp [writeAuto, apply_ite coreOf]

@[simp] theorem writePs2_coreOf (p : PortId) (v : Bool) (d : Dev) : coreOf (writePs2 p v d) = coreOf d := by simp [writePs2, apply_ite coreOf]

@[simp] theorem writeFixed_coreOf (p : PortId) (v : Bool) (d : Dev) : coreOf (writeFixed p v d) = coreOf d := by simp [writeFixed, apply_ite coreOf]

@[simp] theorem writePctl_coreOf (p : PortId) (v : Half) (d : Dev) : coreOf (writePctl p v d) = coreOf d := by
  unfold writePctl
  dsimp only
  repeat' split
  all_goals first | rfl | simp [apply_ite coreOf] | simp_all [apply_ite coreOf]

@[simp] theorem requestSwap_coreOf (p : PortId) (d : Dev) : coreOf (requestSwap p d) = coreOf d := by simp [requestSwap, apply_ite coreOf]

@[simp] theorem writeRailEn_coreOf (p : PortId) (v : Bool) (d : Dev) : coreOf (writeRailEn p v d) = coreOf d := by simp [writeRailEn, apply_ite coreOf]

@[simp] theorem emergencyOff_coreOf (d : Dev) : coreOf (emergencyOff d) = coreOf d := by simp [emergencyOff, apply_ite coreOf]

@[simp] theorem releaseEoff_coreOf (d : Dev) : coreOf (releaseEoff d) = coreOf d := by simp [releaseEoff, apply_ite coreOf]

@[simp] theorem writeLock_coreOf (v : Half) (d : Dev) : coreOf (writeLock v d) = coreOf d := by
  unfold writeLock
  dsimp only
  repeat' split
  all_goals first | rfl | simp [apply_ite coreOf] | simp_all [apply_ite coreOf]

@[simp] theorem bpRefused_coreOf (d : Dev) : coreOf (bpRefused d) = coreOf d := by simp [bpRefused, apply_ite coreOf]

@[simp] theorem keepRefused_coreOf (code : Nat) (d : Dev) : coreOf (keepRefused code d) = coreOf d := by simp [keepRefused, apply_ite coreOf]

@[simp] theorem issue_coreOf (c : Commit) (d : Dev) : coreOf (issue c d).2 = coreOf d := by
  unfold issue
  repeat' split
  all_goals first | rfl | simp [apply_ite coreOf]

@[simp] theorem deviceFrom_coreOf (k : Keep) (d : Dev) : coreOf (deviceFrom k d) = coreOf d := by simp [deviceFrom, apply_ite coreOf]

@[simp] theorem loadSettings_coreOf (d : Dev) : coreOf (loadSettings d) = coreOf d := by simp [loadSettings, apply_ite coreOf]

@[simp] theorem loadTuning_coreOf (d : Dev) : coreOf (loadTuning d) = coreOf d := by simp [loadTuning, apply_ite coreOf]

@[simp] theorem beginMigration_coreOf (d : Dev) : coreOf (beginMigration d) = coreOf d := by simp [beginMigration, apply_ite coreOf]

@[simp] theorem loadTenants_coreOf (d : Dev) : coreOf (loadTenants d) = coreOf d := by
  unfold loadTenants
  dsimp only
  repeat' split
  all_goals first | rfl | simp [apply_ite coreOf] | simp_all [apply_ite coreOf]

@[simp] theorem loadOwner_coreOf (d : Dev) : coreOf (loadOwner d) = coreOf d := by
  unfold loadOwner
  dsimp only
  repeat' split
  all_goals first | rfl | simp [apply_ite coreOf] | simp_all [apply_ite coreOf]

@[simp] theorem dueCopies_coreOf (d : Dev) : coreOf (dueCopies d) = coreOf d := by simp [dueCopies, apply_ite coreOf]

@[simp] theorem loadKeep_coreOf (d : Dev) : coreOf (loadKeep d) = coreOf d := by simp [loadKeep, apply_ite coreOf]

@[simp] theorem onChange_coreOf {α : Type} [DecidableEq α] (a b : α) (f : Dev → Dev) (d : Dev)
    (h : coreOf (f d) = coreOf d) : coreOf (onChange a b f d) = coreOf d := by
  simp [onChange, apply_ite coreOf, h]

@[simp] theorem ceilingActs_coreOf (p : PortId) (i : Idx) (d : Dev) : coreOf (ceilingActs p i d) = coreOf d := by simp [ceilingActs, apply_ite coreOf]

@[simp] theorem newCeilings_coreOf (p : PortId) (f : Port → RosterRec → RosterRec) (d : Dev) : coreOf (newCeilings p f d) = coreOf d := by simp [newCeilings, apply_ite coreOf]

@[simp] theorem applyPort_coreOf (p : PortId) (old new : List Byte) (d : Dev) : coreOf (applyPort p old new d) = coreOf d := by simp [applyPort, apply_ite coreOf]

@[simp] theorem applyDevice_coreOf (k0 k1 : Keep) (d : Dev) : coreOf (applyDevice k0 k1 d) = coreOf d := by simp [applyDevice, apply_ite coreOf]

@[simp] theorem keepwinApply_coreOf (ws : List Host.Cell) (k0 : Keep) (d : Dev) : coreOf (keepwinApply ws k0 d) = coreOf d := by simp [keepwinApply, apply_ite coreOf]

@[simp] theorem storeFailed_coreOf (d : Dev) : coreOf (storeFailed d) = coreOf d := by simp [storeFailed, apply_ite coreOf]

@[simp] theorem beginStore_coreOf (d : Dev) : coreOf (beginStore d) = coreOf d := by simp [beginStore, apply_ite coreOf]

@[simp] theorem requestStore_coreOf (d : Dev) : coreOf (requestStore d) = coreOf d := by simp [requestStore, apply_ite coreOf]

@[simp] theorem parkFeeds_coreOf (d : Dev) : coreOf (parkFeeds d) = coreOf d := by simp [parkFeeds, apply_ite coreOf]

@[simp] theorem parkFinish_coreOf (d : Dev) : coreOf (parkFinish d) = coreOf d := by simp [parkFinish, apply_ite coreOf]

@[simp] theorem parkStore_coreOf (d : Dev) : coreOf (parkStore d) = coreOf d := by simp [parkStore, apply_ite coreOf]

@[simp] theorem parkAfterHandOff_coreOf (d : Dev) : coreOf (parkAfterHandOff d) = coreOf d := by simp [parkAfterHandOff, apply_ite coreOf]

@[simp] theorem parkAdvance_coreOf (d : Dev) : coreOf (parkAdvance d) = coreOf d := by
  unfold parkAdvance
  repeat' split
  all_goals first | rfl | simp [apply_ite coreOf]

@[simp] theorem parkRails_coreOf (d : Dev) : coreOf (parkRails d) = coreOf d := by simp [parkRails, apply_ite coreOf]

@[simp] theorem beginPark_coreOf (d : Dev) : coreOf (beginPark d) = coreOf d := by simp [beginPark, apply_ite coreOf]

@[simp] theorem writePark_coreOf (d : Dev) : coreOf (writePark d) = coreOf d := by simp [writePark, apply_ite coreOf]

@[simp] theorem mbxOutcome_coreOf (r : Byte) (res : List Half) (d : Dev) : coreOf (mbxOutcome r res d) = coreOf d := by simp [mbxOutcome, apply_ite coreOf]

@[simp] theorem mbxEnds_coreOf (r : Byte) (res : List Half) (d : Dev) : coreOf (mbxEnds r res d) = coreOf d := by simp [mbxEnds, apply_ite coreOf]

@[simp] theorem ownerApplies_coreOf (o : Owner) (closes : Bool) (d : Dev) : coreOf (ownerApplies o closes d) = coreOf d := by simp [ownerApplies, apply_ite coreOf]

@[simp] theorem commitEnds_coreOf (c : Commit) (k0 : Keep) (d : Dev) : coreOf (commitEnds c k0 d) = coreOf d := by
  unfold commitEnds
  repeat' split
  all_goals first | rfl | simp [apply_ite coreOf]

@[simp] theorem rereadReception_coreOf (d : Dev) : coreOf (rereadReception d) = coreOf d := by simp [rereadReception, apply_ite coreOf]

@[simp] theorem dueLater_coreOf (x : Due) (d : Dev) : coreOf (dueLater x d) = coreOf d := by simp [dueLater, apply_ite coreOf]

@[simp] theorem commitLost_coreOf (d1 : Dev) (c : Commit) : coreOf (commitLost d1 c) = coreOf d1 := by
  unfold commitLost
  repeat' split
  all_goals first | rfl | simp [apply_ite coreOf]

@[simp] theorem commitRefused_coreOf (d : Dev) (c : Commit) : coreOf (commitRefused d c) = coreOf d := by simp [commitRefused, apply_ite coreOf]

@[simp] theorem commitDurable_coreOf (d : Dev) : coreOf (commitDurable d) = coreOf d := by
  unfold commitDurable
  repeat' split
  all_goals first | rfl | simp [apply_ite coreOf]

@[simp] theorem startCommit_coreOf (d : Dev) : coreOf (startCommit d) = coreOf d := by
  unfold startCommit
  repeat' split
  all_goals first | rfl | simp [apply_ite coreOf]

@[simp] theorem issueDue_coreOf (x : Due) (cs : List Commit) (d : Dev) : coreOf (issueDue x cs d) = coreOf d := by
  unfold issueDue
  repeat' split
  all_goals first | rfl | simp [apply_ite coreOf]

@[simp] theorem issueRosterPage_coreOf (p : PortId) (pg : Nat) (x : Due) (d : Dev) : coreOf (issueRosterPage p pg x d) = coreOf d := by simp [issueRosterPage, apply_ite coreOf]

@[simp] theorem issueTuningReset_coreOf (d : Dev) : coreOf (issueTuningReset d) = coreOf d := by simp [issueTuningReset, apply_ite coreOf]

@[simp] theorem issueNext_coreOf (d : Dev) : coreOf (issueNext d) = coreOf d := by
  unfold issueNext
  dsimp only
  repeat' split
  all_goals first | rfl | simp [apply_ite coreOf] | simp_all [apply_ite coreOf]

@[simp] theorem refuseQueue_coreOf (d : Dev) : coreOf (refuseQueue d) = coreOf d := by simp [refuseQueue, apply_ite coreOf]

@[simp] theorem critTrip_coreOf (d : Dev) : coreOf (critTrip d) = coreOf d := by simp [critTrip, apply_ite coreOf]

@[simp] theorem criticalClear_coreOf (d : Dev) : coreOf (criticalClear d) = coreOf d := by simp [criticalClear, apply_ite coreOf]

@[simp] theorem writeBp_coreOf (bp : BitVec 2) (d : Dev) : coreOf (writeBp bp d) = coreOf d := by simp [writeBp, apply_ite coreOf]

@[simp] theorem tickFrom_coreOf (d0 d : Dev) : coreOf (tickFrom d0 d) = coreOf d := by simp [tickFrom, apply_ite coreOf]

@[simp] theorem assignTrigger_coreOf (en : Bool) (ch : BitVec 4) (d : Dev) : coreOf (assignTrigger en ch d) = coreOf d := by simp [assignTrigger, apply_ite coreOf]

@[simp] theorem scrubRestart_coreOf (d : Dev) : coreOf (scrubRestart d) = coreOf d := by simp [scrubRestart, apply_ite coreOf]

@[simp] theorem scrubBad_coreOf (g : Nat) (d : Dev) : coreOf (scrubBad g d) = coreOf d := by
  have h : ∀ (o : Option (List Host.Cell)) (d1 : Dev), coreOf (match o with
      | some ws => (let (ok, d2) := issue ⟨ws, .restore g⟩ d1; if ok then d2 else postGlobal 0x30 0 (h16 g) true d2)
      | none => postGlobal 0x30 0 (h16 g) true d1) = coreOf d1 := by
    intro o d1
    cases o with
    | none => simp
    | some ws => simp [apply_ite coreOf]
  exact (h _ _).trans rfl

@[simp] theorem scrubVisit_coreOf (g : Nat) (r : EccResult) (d : Dev) : coreOf (scrubVisit g r d) = coreOf d := by
  unfold scrubVisit
  repeat' split
  all_goals first | rfl | simp [apply_ite coreOf]

@[simp] theorem scrubNext_coreOf (g : Nat) (d : Dev) : coreOf (scrubNext g d) = coreOf d := by simp [scrubNext, apply_ite coreOf]

@[simp] theorem modBank_coreOf (b : Bool) (g : Bank → Bank) (d : Dev) : coreOf (modBank b g d) = coreOf d := by simp [modBank, apply_ite coreOf]

@[simp] theorem addRecord_coreOf (b : Bool) (st : BitVec 3) (d : Dev) : coreOf (addRecord b st d) = coreOf d := by simp [addRecord, apply_ite coreOf]

@[simp] theorem beginMbx_coreOf (v : Half) (d : Dev) : coreOf (beginMbx v d) = coreOf d := by simp [beginMbx, apply_ite coreOf]

@[simp] theorem mbxDone_coreOf (r : Byte) (res : List Half) (d : Dev) : coreOf (mbxDone r res d) = coreOf d := by simp [mbxDone, apply_ite coreOf]

@[simp] theorem abandonBuild_coreOf (d : Dev) : coreOf (abandonBuild d) = coreOf d := by simp [abandonBuild, apply_ite coreOf]

@[simp] theorem writeMbxCmd_coreOf (v : Half) (d : Dev) : coreOf (writeMbxCmd v d) = coreOf d := by simp [writeMbxCmd, apply_ite coreOf]

@[simp] theorem writeMbxArg_coreOf (v : Half) (d : Dev) : coreOf (writeMbxArg v d) = coreOf d := by simp [writeMbxArg, apply_ite coreOf]

@[simp] theorem readMbxArg_coreOf (d : Dev) : coreOf (readMbxArg d).2 = coreOf d := by
  unfold readMbxArg
  dsimp only
  repeat' split
  all_goals first | rfl | simp [apply_ite coreOf] | simp_all [apply_ite coreOf]

@[simp] theorem drive_coreOf (x : Half × Dev) : coreOf (drive x) = coreOf x.2 := by simp [drive, apply_ite coreOf]

@[simp] theorem hostRead_coreOf (reach : Bool) (f : Dev → Half × Dev) (d : Dev) (hf : coreOf (f d).2 = coreOf d) : coreOf (hostRead reach f d) = coreOf d := by
  unfold hostRead
  repeat' split
  all_goals first | rfl | simp [apply_ite coreOf, hf]

@[simp] theorem refuseUpdate_coreOf (r : BitVec 3) (d : Dev) : coreOf (refuseUpdate r d) = coreOf d := by simp [refuseUpdate, apply_ite coreOf]

@[simp] theorem commitReception_coreOf (f : Fwu) (r : Byte) (res : List Half) (after : Dev → Dev) (d : Dev) (h : ∀ x, coreOf (after x) = coreOf x) : coreOf (commitReception f r res after d) = coreOf d := by simp [commitReception, apply_ite coreOf, h]

@[simp] theorem fwuBegin_coreOf (storeOk : Bool) (d : Dev) : coreOf (fwuBegin storeOk d) = coreOf d := by simp [fwuBegin, apply_ite coreOf]

@[simp] theorem storePiece_coreOf (i : Nat) (data : List Byte) (storeOk : Bool) (d : Dev) : coreOf (storePiece i data storeOk d) = coreOf d := by simp [storePiece, apply_ite coreOf]

@[simp] theorem fwuPiece_coreOf (vin : Nat) (storeOk : Bool) (d : Dev) : coreOf (fwuPiece vin storeOk d) = coreOf d := by
  unfold fwuPiece
  cases pieceArgs d.mbx.args with
  | none => simp
  | some x => simp [apply_ite coreOf]

@[simp] theorem cancelReception_coreOf (d : Dev) : coreOf (cancelReception d) = coreOf d := by simp [cancelReception, apply_ite coreOf]

@[simp] theorem askHandover_coreOf (waits : Bool) (d : Dev) : coreOf (askHandover waits d) = coreOf d := by simp [askHandover, apply_ite coreOf]

@[simp] theorem buildBank_coreOf (w0 : Half) (storeOk : Bool) (d : Dev) : coreOf (buildBank w0 storeOk d) = coreOf d := by
  unfold buildBank
  dsimp only
  split
  · simp
  split
  · simp
  split
  · simp
  · rw [commitReception_coreOf _ _ _ _ _ (by intro x; simp [apply_ite coreOf])]
    simp

@[simp] theorem applyBuild_coreOf (w0 : Half) (storeOk : Bool) (d : Dev) : coreOf (applyBuild w0 storeOk d) = coreOf d := by simp [applyBuild, apply_ite coreOf]

@[simp] theorem applyGoesOn_coreOf (w0 : Half) (vin : Nat) (storeOk : Bool) (d : Dev) : coreOf (applyGoesOn w0 vin storeOk d) = coreOf d := by simp [applyGoesOn, apply_ite coreOf]

@[simp] theorem fwuApplyStart_coreOf (vin : Nat) (storeOk : Bool) (d : Dev) : coreOf (fwuApplyStart vin storeOk d) = coreOf d := by simp [fwuApplyStart, apply_ite coreOf]

@[simp] theorem fwuApply_coreOf (vin : Nat) (storeOk : Bool) (d : Dev) : coreOf (fwuApply vin storeOk d) = coreOf d := by
  unfold fwuApply
  repeat' split
  all_goals first | rfl | simp [apply_ite coreOf]

@[simp] theorem commitOwner_coreOf (o : Owner) (closes : Bool) (d : Dev) : coreOf (commitOwner o closes d) = coreOf d := by simp [commitOwner, apply_ite coreOf]

@[simp] theorem ownerEnrol_coreOf (d : Dev) : coreOf (ownerEnrol d) = coreOf d := by simp [ownerEnrol, apply_ite coreOf]

@[simp] theorem fwlockSet_coreOf (d : Dev) : coreOf (fwlockSet d) = coreOf d := by simp [fwlockSet, apply_ite coreOf]

@[simp] theorem fwlockClear_coreOf (d : Dev) : coreOf (fwlockClear d) = coreOf d := by simp [fwlockClear, apply_ite coreOf]

@[simp] theorem keepDefaults_coreOf (d : Dev) : coreOf (keepDefaults d) = coreOf d := by simp [keepDefaults, apply_ite coreOf]

@[simp] theorem confirmImage_coreOf (d : Dev) : coreOf (confirmImage d) = coreOf d := by simp [confirmImage, apply_ite coreOf]

@[simp] theorem drawBelow_coreOf (n : Nat) (d : Dev) : coreOf (drawBelow n d).2 = coreOf d := by simp [drawBelow, apply_ite coreOf]

@[simp] theorem nextWindow_coreOf (p : PortId) (d : Dev) : coreOf (nextWindow p d) = coreOf d := by
  have h := drawBelow_coreOf 5001 d
  unfold nextWindow
  generalize drawBelow 5001 d = y at h ⊢
  simpa using h

@[simp] theorem probeEnds_coreOf (p : PortId) (r : ProbeReading) (d : Dev) : coreOf (probeEnds p r d) = coreOf d := by simp [probeEnds, apply_ite coreOf]

@[simp] theorem storeOrient_coreOf (p : PortId) (sigB : Bool) (d : Dev) : coreOf (storeOrient p sigB d) = coreOf d := by simp [storeOrient, apply_ite coreOf]

@[simp] theorem noteAttach_coreOf (p : PortId) (st : AttachState) (typ : BitVec 2) (sigB : Bool) (d : Dev) : coreOf (noteAttach p st typ sigB d) = coreOf d := by simp [noteAttach, apply_ite coreOf]

@[simp] theorem nextPeerWindow_coreOf (p : PortId) (d : Dev) : coreOf (nextPeerWindow p d) = coreOf d := by
  have h := drawBelow_coreOf 99000 d
  unfold nextPeerWindow
  generalize drawBelow 99000 d = y at h ⊢
  simpa using h

@[simp] theorem attachClose_coreOf (p : PortId) (d : Dev) : coreOf (attachClose p d) = coreOf d := by simp [attachClose, apply_ite coreOf]

@[simp] theorem attachEndCap_coreOf (p : PortId) (sigB : Bool) (d : Dev) : coreOf (attachEndCap p sigB d) = coreOf d := by simp [attachEndCap, apply_ite coreOf]

@[simp] theorem attachPeer_coreOf (p : PortId) (sigB : Bool) (d : Dev) : coreOf (attachPeer p sigB d) = coreOf d := by simp [attachPeer, apply_ite coreOf]

@[simp] theorem detachPort_coreOf (p : PortId) (d : Dev) : coreOf (detachPort p d) = coreOf d := by simp [detachPort, apply_ite coreOf]

@[simp] theorem drawJoins_coreOf (p : PortId) (pinB : Bool) (d : Dev) : coreOf (drawJoins p pinB d) = coreOf d := by simp [drawJoins, apply_ite coreOf]

@[simp] theorem drawLeave_coreOf (p : PortId) (d : Dev) : coreOf (drawLeave p d) = coreOf d := by simp [drawLeave, apply_ite coreOf]

@[simp] theorem pollAnswered_coreOf (p : PortId) (i : Idx) (d : Dev) : coreOf (pollAnswered p i d) = coreOf d := by
  unfold pollAnswered
  repeat' split
  all_goals first | rfl | simp [apply_ite coreOf]

@[simp] theorem ackAgain_coreOf (p : PortId) (i : Idx) (h : FrameTag) (d : Dev) : coreOf (ackAgain p i h d) = coreOf d := by simp [ackAgain, apply_ite coreOf]

@[simp] theorem nakFrame_coreOf (p : PortId) (i : Idx) (h : FrameTag) (d : Dev) : coreOf (nakFrame p i h d) = coreOf d := by simp [nakFrame, apply_ite coreOf]

@[simp] theorem ackFrame_coreOf (p : PortId) (i : Idx) (h : FrameTag) (d : Dev) : coreOf (ackFrame p i h d) = coreOf d := by simp [ackFrame, apply_ite coreOf]

@[simp] theorem resendReady_coreOf (p : PortId) (i : Idx) (d : Dev) : coreOf (resendReady p i d) = coreOf d := by simp [resendReady, apply_ite coreOf]

@[simp] theorem serveLower_coreOf (p : PortId) (k : Nat) (s : Slot) (i : Idx) (d : Dev) : coreOf (serveLower p k s i d) = coreOf d := by simp [serveLower, apply_ite coreOf]

@[simp] theorem postRequest_coreOf (p : PortId) (k : Nat) (s : Slot) (i : Idx) (d : Dev) : coreOf (postRequest p k s i d) = coreOf d := by
  unfold postRequest
  dsimp only
  repeat' split
  all_goals first | rfl | simp [apply_ite coreOf] | simp_all [apply_ite coreOf]

@[simp] theorem answerRequest_coreOf (p : PortId) (k : Nat) (s : Slot) (i : Idx) (d : Dev) : coreOf (answerRequest p k s i d) = coreOf d := by simp [answerRequest, apply_ite coreOf]

@[simp] theorem onRequest_coreOf (p : PortId) (i : Idx) (h : FrameTag) (r : RequestMsg) (d : Dev) : coreOf (onRequest p i h r d) = coreOf d := by
  unfold onRequest
  dsimp only
  repeat' split
  all_goals first | rfl | simp [apply_ite coreOf] | simp_all [apply_ite coreOf]

@[simp] theorem fromEndpoint_coreOf (p : PortId) (i : Idx) (h : FrameTag) (act : Dev → Dev) (d : Dev) (ha : coreOf (act d) = coreOf d) : coreOf (fromEndpoint p i h act d) = coreOf d := by simp [fromEndpoint, apply_ite coreOf, ha]

@[simp] theorem without_coreOf (p : PortId) (vs : List Idx) (d : Dev) : coreOf (without p vs d) = coreOf d := by simp [without, apply_ite coreOf]

@[simp] theorem passConfirm_coreOf (x : Candidate) (l : Level) (vs : List Idx) (d : Dev) : coreOf (passConfirm x l vs d) = coreOf d := by
  unfold passConfirm
  repeat' split
  all_goals first | rfl | simp [apply_ite coreOf]

@[simp] theorem passFail_coreOf (x : Candidate) (v : Verdict) (d : Dev) : coreOf (passFail x v d) = coreOf d := by
  unfold passFail
  repeat' split
  all_goals first | rfl | simp [apply_ite coreOf]

@[simp] theorem swapStops_coreOf (p : PortId) (x : Nat × Slot) (d : Dev) : coreOf (swapStops p x d) = coreOf d := by
  unfold swapStops
  repeat' split
  all_goals first | rfl | simp [apply_ite coreOf]

@[simp] theorem swapHolds_coreOf (p : PortId) (d : Dev) : coreOf (swapHolds p d) = coreOf d := by simp [swapHolds, apply_ite coreOf]

@[simp] theorem raiseAwaiting_coreOf (p : PortId) (d : Dev) : coreOf (raiseAwaiting p d) = coreOf d := by simp [raiseAwaiting, apply_ite coreOf]

@[simp] theorem applyShare_coreOf (d : Dev) : coreOf (applyShare d) = coreOf d := by
  unfold applyShare
  split
  · rw [relieve_coreOf]
    rfl
  · rfl

@[simp] theorem passOne_coreOf (st : PassState) (x : Candidate) : coreOf (passOne st x).1 = coreOf st.1 := by
  unfold passOne
  dsimp only
  repeat' split
  all_goals simp

@[simp] theorem passFold_coreOf (l : List Candidate) (st : PassState) : coreOf (l.foldl passOne st).1 = coreOf st.1 := by
  induction l generalizing st with
  | nil => rfl
  | cons a t ih => rw [List.foldl, ih, passOne_coreOf]

@[simp] theorem allocatorPass_coreOf (d : Dev) : coreOf (allocatorPass d) = coreOf d := by simp [allocatorPass, apply_ite coreOf]

@[simp] theorem coreConfirm_coreOf (p : PortId) (k : Nat) (d : Dev) : coreOf (coreConfirm p k d) = coreOf d := by
  unfold coreConfirm
  repeat' split
  all_goals first | rfl | simp [apply_ite coreOf]

@[simp] theorem coreDeny_coreOf (p : PortId) (k : Nat) (reason : Nat) (d : Dev) : coreOf (coreDeny p k reason d) = coreOf d := by
  unfold coreDeny
  repeat' split
  all_goals first | rfl | simp [apply_ite coreOf]

@[simp] theorem coreWithdraw_coreOf (p : PortId) (i : Idx) (reason : Nat) (d : Dev) : coreOf (coreWithdraw p i reason d) = coreOf d := by simp [coreWithdraw, apply_ite coreOf]

@[simp] theorem makeReady_coreOf (p : PortId) (i : Idx) (d : Dev) : coreOf (makeReady p i d) = coreOf d := by simp [makeReady, apply_ite coreOf]

@[simp] theorem sendReady_coreOf (p : PortId) (k : Nat) (s : Slot) (i : Idx) (d : Dev) : coreOf (sendReady p k s i d) = coreOf d := by simp [sendReady, apply_ite coreOf]

@[simp] theorem sendBeacon_coreOf (p : PortId) (d : Dev) : coreOf (sendBeacon p d) = coreOf d := by simp [sendBeacon, apply_ite coreOf]

@[simp] theorem sendPoll_coreOf (p : PortId) (kind : BitVec 2) (i : Idx) (d : Dev) : coreOf (sendPoll p kind i d) = coreOf d := by simp [sendPoll, apply_ite coreOf]

@[simp] theorem sendReset_coreOf (p : PortId) (i : Idx) (hard : Bool) (reason : Byte) (k : Nat) (d : Dev) : coreOf (sendReset p i hard reason k d) = coreOf d := by simp [sendReset, apply_ite coreOf]

@[simp] theorem pollGeneral_coreOf (p : PortId) (i : Idx) (d : Dev) : coreOf (pollGeneral p i d) = coreOf d := by
  unfold pollGeneral
  dsimp only
  repeat' split
  all_goals first | rfl | simp [apply_ite coreOf] | simp_all [apply_ite coreOf]

@[simp] theorem enrollDuplicate_coreOf (p : PortId) (k : Nat) (slot : BitVec 3) (i : Nat) (r : RosterRec) (m : EnrollMsg) (d : Dev) : coreOf (enrollDuplicate p k slot i r m d) = coreOf d := by simp [enrollDuplicate, apply_ite coreOf]

@[simp] theorem sendAssign_coreOf (p : PortId) (i k : Nat) (fresh : Bool) (d : Dev) : coreOf (sendAssign p i k fresh d) = coreOf d := by simp [sendAssign, apply_ite coreOf]

@[simp] theorem answerEnroll_coreOf (p : PortId) (x : BitVec 3 × EnrollMsg) (d : Dev) : coreOf (answerEnroll p x d) = coreOf d := by
  unfold answerEnroll
  dsimp only
  repeat' split
  all_goals first | rfl | simp [apply_ite coreOf] | simp_all [apply_ite coreOf]

@[simp] theorem enrolled_coreOf (p : PortId) (i : Idx) (d : Dev) : coreOf (enrolled p i d) = coreOf d := by simp [enrolled, apply_ite coreOf]

@[simp] theorem restoreWaits_coreOf (p : PortId) (i : Idx) (v : Verdict) (d : Dev) : coreOf (restoreWaits p i v d) = coreOf d := by
  unfold restoreWaits
  repeat' split
  all_goals first | rfl | simp [apply_ite coreOf]

@[simp] theorem restoreOne_coreOf (p : PortId) (i : Idx) (d : Dev) : coreOf (restoreOne p i d) = coreOf d := by
  unfold restoreOne
  repeat' split
  all_goals first | rfl | simp [apply_ite coreOf]

@[simp] theorem levelDecision_coreOf (p : PortId) (d : Dev) : coreOf (levelDecision p d) = coreOf d := by simp [levelDecision, apply_ite coreOf]

@[simp] theorem restoreDrops_coreOf (p : PortId) (i : Idx) (d : Dev) : coreOf (restoreDrops p i d) = coreOf d := by simp [restoreDrops, apply_ite coreOf]

@[simp] theorem restoreTrim_coreOf (p : PortId) (d : Dev) : coreOf (restoreTrim p d) = coreOf d := by simp [restoreTrim, apply_ite coreOf]

@[simp] theorem restoreReady_coreOf (p : PortId) (i : Idx) (d : Dev) : coreOf (restoreReady p i d) = coreOf d := by simp [restoreReady, apply_ite coreOf]

@[simp] theorem restoreBroadcast_coreOf (p : PortId) (d : Dev) : coreOf (restoreBroadcast p d) = coreOf d := by simp [restoreBroadcast, apply_ite coreOf]

@[simp] theorem consents_coreOf (p : PortId) (i : Idx) (d : Dev) : coreOf (consents p i d) = coreOf d := by simp [consents, apply_ite coreOf]

@[simp] theorem declines_coreOf (p : PortId) (i : Idx) (d : Dev) : coreOf (declines p i d) = coreOf d := by simp [declines, apply_ite coreOf]

@[simp] theorem calProgress_coreOf (p : PortId) (d : Dev) : coreOf (calProgress p d) = coreOf d := by
  unfold calProgress
  dsimp only
  repeat' split
  all_goals first | rfl | simp [apply_ite coreOf] | simp_all [apply_ite coreOf]

@[simp] theorem takeLoop_coreOf (p : PortId) (i : Idx) (rLoop : Nat) (d : Dev) : coreOf (takeLoop p i rLoop d) = coreOf d := by simp [takeLoop, apply_ite coreOf]

@[simp] theorem drawerReport_coreOf (p : PortId) (i : Idx) (want stepMa : Nat) (dv : Int) (cid : Byte) (d : Dev) : coreOf (drawerReport p i want stepMa dv cid d) = coreOf d := by simp [drawerReport, apply_ite coreOf]

@[simp] theorem otherReport_coreOf (p : PortId) (i : Idx) (di : Nat) (dvd dv : Int) (d : Dev) : coreOf (otherReport p i di dvd dv d) = coreOf d := by simp [otherReport, apply_ite coreOf]

@[simp] theorem calReport_coreOf (p : PortId) (i : Idx) (m : ReportMsg) (stepMa : Nat) (d : Dev) : coreOf (calReport p i m stepMa d) = coreOf d := by
  unfold calReport
  repeat' split
  all_goals first | rfl | simp [apply_ite coreOf]

@[simp] theorem onReport_coreOf (p : PortId) (i : Idx) (m : ReportMsg) (stepMa : Nat) (d : Dev) : coreOf (onReport p i m stepMa d) = coreOf d := by simp [onReport, apply_ite coreOf]

@[simp] theorem sendPulse_coreOf (p : PortId) (i : Idx) (stepMa dur k : Nat) (d : Dev) : coreOf (sendPulse p i stepMa dur k d) = coreOf d := by simp [sendPulse, apply_ite coreOf]

@[simp] theorem peerFrame_coreOf (p : PortId) (h : FrameTag) (needsPeer : Bool) (act : Dev → Dev) (d : Dev) (ha : coreOf (act d) = coreOf d) : coreOf (peerFrame p h needsPeer act d) = coreOf d := by simp [peerFrame, apply_ite coreOf, ha]

@[simp] theorem sendHello_coreOf (p : PortId) (d : Dev) : coreOf (sendHello p d) = coreOf d := by simp [sendHello, apply_ite coreOf]

@[simp] theorem sendSwapReq_coreOf (p : PortId) (d : Dev) : coreOf (sendSwapReq p d) = coreOf d := by simp [sendSwapReq, apply_ite coreOf]

@[simp] theorem sendSwapAck_coreOf (p : PortId) (refused : Bool) (d : Dev) : coreOf (sendSwapAck p refused d) = coreOf d := by simp [sendSwapAck, apply_ite coreOf]

@[simp] theorem beginHandOff_coreOf (p : PortId) (d : Dev) : coreOf (beginHandOff p d) = coreOf d := by
  unfold beginHandOff
  repeat' split
  all_goals first | rfl | simp [apply_ite coreOf]

@[simp] theorem sendReport_coreOf (p : PortId) (d : Dev) : coreOf (sendReport p d) = coreOf d := by simp [sendReport, apply_ite coreOf]

@[simp] theorem swapRefused_coreOf (p : PortId) (d : Dev) : coreOf (swapRefused p d) = coreOf d := by simp [swapRefused, apply_ite coreOf]

@[simp] theorem askSwap_coreOf (p : PortId) (d : Dev) : coreOf (askSwap p d) = coreOf d := by simp [askSwap, apply_ite coreOf]

@[simp] theorem gapExchange_coreOf (p : PortId) (d : Dev) : coreOf (gapExchange p d) = coreOf d := by simp [gapExchange, apply_ite coreOf]

@[simp] theorem postPeerFound_coreOf (p : PortId) (d : Dev) : coreOf (postPeerFound p d) = coreOf d := by simp [postPeerFound, apply_ite coreOf]

@[simp] theorem masterFindsPeer_coreOf (p : PortId) (d : Dev) : coreOf (masterFindsPeer p d) = coreOf d := by simp [masterFindsPeer, apply_ite coreOf]

@[simp] theorem joinerFindsPeer_coreOf (p : PortId) (d : Dev) : coreOf (joinerFindsPeer p d) = coreOf d := by simp [joinerFindsPeer, apply_ite coreOf]

@[simp] theorem onHello_coreOf (p : PortId) (m : HelloMsg) (d : Dev) : coreOf (onHello p m d) = coreOf d := by
  unfold onHello
  dsimp only
  repeat' split
  all_goals first | rfl | simp [apply_ite coreOf] | simp_all [apply_ite coreOf]

@[simp] theorem helloAcked_coreOf (p : PortId) (d : Dev) : coreOf (helloAcked p d) = coreOf d := by simp [helloAcked, apply_ite coreOf]

@[simp] theorem helloFailed_coreOf (p : PortId) (d : Dev) : coreOf (helloFailed p d) = coreOf d := by simp [helloFailed, apply_ite coreOf]

@[simp] theorem followTrim_coreOf (p : PortId) (m : PeerReportMsg) (d : Dev) : coreOf (followTrim p m d) = coreOf d := by simp [followTrim, apply_ite coreOf]

@[simp] theorem reportMismatch_coreOf (p : PortId) (m : PeerReportMsg) (d : Dev) : coreOf (reportMismatch p m d) = coreOf d := by simp [reportMismatch, apply_ite coreOf]

@[simp] theorem handOffDone_coreOf (p : PortId) (m : PeerReportMsg) (d : Dev) : coreOf (handOffDone p m d) = coreOf d := by simp [handOffDone, apply_ite coreOf]

@[simp] theorem onPeerReport_coreOf (p : PortId) (m : PeerReportMsg) (d : Dev) : coreOf (onPeerReport p m d) = coreOf d := by simp [onPeerReport, apply_ite coreOf]

@[simp] theorem startSwap_coreOf (taker : Bool) (p : PortId) (d : Dev) : coreOf (startSwap taker p d) = coreOf d := by simp [startSwap, apply_ite coreOf]

@[simp] theorem swapNaked_coreOf (p : PortId) (d : Dev) : coreOf (swapNaked p d) = coreOf d := by simp [swapNaked, apply_ite coreOf]

@[simp] theorem answerSwap_coreOf (p : PortId) (takes : Bool) (d : Dev) : coreOf (answerSwap p takes d) = coreOf d := by simp [answerSwap, apply_ite coreOf]

@[simp] theorem onSwapReq_coreOf (p : PortId) (h : FrameTag) (takes : Bool) (d : Dev) : coreOf (onSwapReq p h takes d) = coreOf d := by
  unfold onSwapReq
  dsimp only
  repeat' split
  all_goals first | rfl | simp [apply_ite coreOf] | simp_all [apply_ite coreOf]

@[simp] theorem onSwapAck_coreOf (p : PortId) (refused : Bool) (d : Dev) : coreOf (onSwapAck p refused d) = coreOf d := by simp [onSwapAck, apply_ite coreOf]

@[simp] theorem swapAckAcked_coreOf (p : PortId) (refused : Bool) (d : Dev) : coreOf (swapAckAcked p refused d) = coreOf d := by
  unfold swapAckAcked
  repeat' split
  all_goals first | rfl | simp [apply_ite coreOf]

@[simp] theorem swapAckFailed_coreOf (p : PortId) (d : Dev) : coreOf (swapAckFailed p d) = coreOf d := by
  unfold swapAckFailed
  repeat' split
  all_goals first | rfl | simp [apply_ite coreOf]

@[simp] theorem swapCompletes_coreOf (taker : Bool) (p : PortId) (d : Dev) : coreOf (swapCompletes taker p d) = coreOf d := by simp [swapCompletes, apply_ite coreOf]

@[simp] theorem swapAbandoned_coreOf (taker : Bool) (p : PortId) (d : Dev) : coreOf (swapAbandoned taker p d) = coreOf d := by simp [swapAbandoned, apply_ite coreOf]

@[simp] theorem ringEnds_coreOf (p : PortId) (d : Dev) : coreOf (ringEnds p d) = coreOf d := by simp [ringEnds, apply_ite coreOf]

@[simp] theorem losePeer_coreOf (p : PortId) (d : Dev) : coreOf (losePeer p d) = coreOf d := by simp [losePeer, apply_ite coreOf]

@[simp] theorem yieldSegment_coreOf (p : PortId) (d : Dev) : coreOf (yieldSegment p d) = coreOf d := by simp [yieldSegment, apply_ite coreOf]

@[simp] theorem mirrorDone_coreOf (p : PortId) (f : Frame) (d : Dev) : coreOf (mirrorDone p f d) = coreOf d := by simp [mirrorDone, apply_ite coreOf]

@[simp] theorem drawFrame_coreOf (p : PortId) (h : FrameTag) (bc bad : Bool) (act : Dev → Dev) (d : Dev) (ha : ∀ x, coreOf (act x) = coreOf x) : coreOf (drawFrame p h bc bad act d) = coreOf d := by simp [drawFrame, apply_ite coreOf, ha]

@[simp] theorem drawCloses_coreOf (p : PortId) (d : Dev) : coreOf (drawCloses p d) = coreOf d := by simp [drawCloses, apply_ite coreOf]

@[simp] theorem enrolLost_coreOf (p : PortId) (d : Dev) : coreOf (enrolLost p d) = coreOf d := by
  unfold enrolLost
  dsimp only
  repeat' split
  all_goals first | rfl | simp [apply_ite coreOf] | simp_all [apply_ite coreOf]

@[simp] theorem bandOf_coreOf (mv : Nat) (d : Dev) : coreOf (bandOf mv d).2 = coreOf d := by
  unfold bandOf
  repeat' split
  all_goals first | rfl | simp [apply_ite coreOf]

@[simp] theorem readyDone_coreOf (p : PortId) (o : OutFrame) (l : Level) (d : Dev) : coreOf (readyDone p o l d) = coreOf d := by simp [readyDone, apply_ite coreOf]

@[simp] theorem resetDone_coreOf (p : PortId) (o : OutFrame) (d : Dev) : coreOf (resetDone p o d) = coreOf d := by simp [resetDone, apply_ite coreOf]

@[simp] theorem pollDone_coreOf (p : PortId) (o : OutFrame) (kind : BitVec 2) (acked : Bool) (d : Dev) : coreOf (pollDone p o kind acked d) = coreOf d := by simp [pollDone, apply_ite coreOf]

@[simp] theorem assignLost_coreOf (p : PortId) (o : OutFrame) (fresh : Bool) (d : Dev) : coreOf (assignLost p o fresh d) = coreOf d := by simp [assignLost, apply_ite coreOf]

@[simp] theorem absent_coreOf (p : PortId) (i : Idx) (d : Dev) : coreOf (absent p i d) = coreOf d := by simp [absent, apply_ite coreOf]

@[simp] theorem exchangeDone_coreOf (p : PortId) (o : OutFrame) (acked : Bool) (d : Dev) : coreOf (exchangeDone p o acked d) = coreOf d := by
  unfold exchangeDone
  repeat' split
  all_goals first | rfl | simp [apply_ite coreOf]

@[simp] theorem exchangeFails_coreOf (p : PortId) (o : OutFrame) (d : Dev) : coreOf (exchangeFails p o d) = coreOf d := by
  unfold exchangeFails
  repeat' split
  all_goals first | rfl | simp [apply_ite coreOf]

@[simp] theorem answerFront_coreOf (p : PortId) (acked : Bool) (d : Dev) : coreOf (answerFront p acked d) = coreOf d := by
  unfold answerFront
  repeat' split
  all_goals first | rfl | simp [apply_ite coreOf]

@[simp] theorem onAnswer_coreOf (p : PortId) (acked : Bool) (d : Dev) : coreOf (onAnswer p acked d) = coreOf d := by simp [onAnswer, apply_ite coreOf]

@[simp] theorem answerMissing_coreOf (p : PortId) (o : OutFrame) (d : Dev) : coreOf (answerMissing p o d) = coreOf d := by simp [answerMissing, apply_ite coreOf]

@[simp] theorem nakBad_coreOf (p : PortId) (f : Frame) (d : Dev) : coreOf (nakBad p f d) = coreOf d := by simp [nakBad, apply_ite coreOf]

@[simp] theorem gangTell_coreOf (d : Dev) : coreOf (gangTell d) = coreOf d := by simp [gangTell, apply_ite coreOf]

@[simp] theorem storeShare_coreOf (d : Dev) : coreOf (storeShare d) = coreOf d := by
  unfold storeShare
  repeat' split
  all_goals first | rfl | simp [apply_ite coreOf]

@[simp] theorem followLevel_coreOf (d : Dev) : coreOf (followLevel d) = coreOf d := by simp [followLevel, apply_ite coreOf]

@[simp] theorem leadFrame_coreOf (d : Dev) : coreOf (leadFrame d) = coreOf d := by simp [leadFrame, apply_ite coreOf]

@[simp] theorem takeGlead_coreOf (m : GleadMsg) (d : Dev) : coreOf (takeGlead m d) = coreOf d := by simp [takeGlead, apply_ite coreOf]

@[simp] theorem hearGang_coreOf (d : Dev) : coreOf (hearGang d) = coreOf d := by simp [hearGang, apply_ite coreOf]

@[simp] theorem writeShelf_coreOf (v : Half) (d : Dev) : coreOf (writeShelf v d) = coreOf d := by simp [writeShelf, apply_ite coreOf]

@[simp] theorem writeGang_coreOf (v : Half) (d : Dev) : coreOf (writeGang v d) = coreOf d := by simp [writeGang, apply_ite coreOf]

@[simp] theorem modChan_coreOf (n : Nat) (f : Chan → Chan) (d : Dev) : coreOf (modChan n f d) = coreOf d := by simp [modChan, apply_ite coreOf]

@[simp] theorem writeCmpCfg_coreOf (v : Half) (d : Dev) : coreOf (writeCmpCfg v d) = coreOf d := by simp [writeCmpCfg, apply_ite coreOf]

@[simp] theorem writeCmpLvl_coreOf (v : Half) (d : Dev) : coreOf (writeCmpLvl v d) = coreOf d := by simp [writeCmpLvl, apply_ite coreOf]

@[simp] theorem writeTick_coreOf (v : Half) (d : Dev) : coreOf (writeTick v d) = coreOf d := by simp [writeTick, apply_ite coreOf]

@[simp] theorem capture_coreOf (ch kind : Nat) (d : Dev) : coreOf (capture ch kind d) = coreOf d := by simp [capture, apply_ite coreOf]

@[simp] theorem wakeCore_coreOf (c : ChanCfg) (d : Dev) : coreOf (wakeCore c d) = coreOf d := by
  unfold wakeCore
  repeat' split
  all_goals first | rfl | simp [apply_ite coreOf]

@[simp] theorem rangeMark_coreOf (ch : Nat) (c : ChanCfg) (d : Dev) : coreOf (rangeMark ch c d) = coreOf d := by simp [rangeMark, apply_ite coreOf]

@[simp] theorem postEdge_coreOf (ch kind : Nat) (d : Dev) : coreOf (postEdge ch kind d) = coreOf d := by simp [postEdge, apply_ite coreOf]

@[simp] theorem onEdge_coreOf (ch kind : Nat) (c : ChanCfg) (d : Dev) : coreOf (onEdge ch kind c d) = coreOf d := by simp [onEdge, apply_ite coreOf]

@[simp] theorem afterDecision_coreOf (ch : Nat) (c : ChanCfg) (was is : Bool) (d : Dev) : coreOf (afterDecision ch c was is d) = coreOf d := by simp [afterDecision, apply_ite coreOf]

@[simp] theorem watchTrigger_coreOf (ch : Nat) (was is : Bool) (d : Dev) : coreOf (watchTrigger ch was is d) = coreOf d := by simp [watchTrigger, apply_ite coreOf]

@[simp] theorem tickChan_coreOf (inputs : List Nat) (ch : Nat) (d : Dev) : coreOf (tickChan inputs ch d) = coreOf d := by simp [tickChan, apply_ite coreOf]

@[simp] theorem tickBank_coreOf (inputs : List Nat) (d : Dev) : coreOf (tickBank inputs d) = coreOf d := by simp [tickBank, apply_ite coreOf]

@[simp] theorem captureRead_coreOf (d : Dev) : coreOf (captureRead d).2 = coreOf d := by
  unfold captureRead
  dsimp only
  repeat' split
  all_goals first | rfl | simp [apply_ite coreOf] | simp_all [apply_ite coreOf]

@[simp] theorem pointBegins_coreOf (d : Dev) : coreOf (pointBegins d) = coreOf d := by simp [pointBegins, apply_ite coreOf]

@[simp] theorem readPoints_coreOf (a0 b0 a1 b1 : NtcReading) (d : Dev) : coreOf (readPoints a0 b0 a1 b1 d) = coreOf d := by simp [readPoints, apply_ite coreOf]

@[simp] theorem throttleStep_coreOf (d : Dev) : coreOf (throttleStep d) = coreOf d := by simp [throttleStep, apply_ite coreOf]

@[simp] theorem bundleAsk_coreOf (b : BundleRec) (tamb : Int) (heat power : Nat) (d : Dev) : coreOf (bundleAsk b tamb heat power d).2 = coreOf d := by
  unfold bundleAsk
  dsimp only
  repeat' split
  all_goals first | rfl | simp [apply_ite coreOf] | simp_all [apply_ite coreOf]

@[simp] theorem bundleLimit_coreOf (g : Nat) (b : BundleRec) (tamb : Int) (heat : Nat) (member : Bool) (p : PortId) (d : Dev) : coreOf (bundleLimit g b tamb heat member p d) = coreOf d := by simp [bundleLimit, apply_ite coreOf]

@[simp] theorem bundleDrop_coreOf (g : Nat) (d : Dev) : coreOf (bundleDrop g d) = coreOf d := by simp [bundleDrop, apply_ite coreOf]

@[simp] theorem setBundle_coreOf (g : Nat) (b : BundleRec) (d : Dev) : coreOf (setBundle g b d) = coreOf d := by simp [setBundle, apply_ite coreOf]

@[simp] theorem bundleStep_coreOf (g : Nat) (d : Dev) : coreOf (bundleStep g d) = coreOf d := by simp [bundleStep, apply_ite coreOf]

@[simp] theorem bundleModel_coreOf (d : Dev) : coreOf (bundleModel d) = coreOf d := by simp [bundleModel, apply_ite coreOf]

@[simp] theorem notePoison_coreOf (v : Bool) (d : Dev) : coreOf (notePoison v d) = coreOf d := by simp [notePoison, apply_ite coreOf]

@[simp] theorem clearWrap_coreOf (t : Nat) (p : PortId) (i : Nat) (d : Dev) : coreOf (clearWrap t p i d) = coreOf d := by simp [clearWrap, apply_ite coreOf]

@[simp] theorem hostSnap_coreOf (d : Dev) : coreOf (hostSnap d).2 = coreOf d := by
  unfold hostSnap
  repeat' split
  all_goals first | rfl | simp [apply_ite coreOf]

@[simp] theorem readTdata_coreOf (d : Dev) : coreOf (readTdata d).2 = coreOf d := by simp [readTdata, apply_ite coreOf]

@[simp] theorem earlyTdata_coreOf (d : Dev) : coreOf (earlyTdata d).2 = coreOf d := by simp [earlyTdata, apply_ite coreOf]

@[simp] theorem writeTsel_coreOf (v : Half) (d : Dev) : coreOf (writeTsel v d) = coreOf d := by simp [writeTsel, apply_ite coreOf]

@[simp] theorem writeTidx_coreOf (v : Half) (d : Dev) : coreOf (writeTidx v d) = coreOf d := by simp [writeTidx, apply_ite coreOf]

@[simp] theorem writeTdata_coreOf (v : Half) (d : Dev) : coreOf (writeTdata v d) = coreOf d := by simp [writeTdata, apply_ite coreOf]

@[simp] theorem dueOnce_coreOf (x : Due) (d : Dev) : coreOf (dueOnce x d) = coreOf d := by simp [dueOnce, apply_ite coreOf]

@[simp] theorem commitRoster_coreOf (p : PortId) (i : Nat) (st : Sparse Half) (d : Dev) : coreOf (commitRoster p i st d) = coreOf d := by simp [commitRoster, apply_ite coreOf]

@[simp] theorem commitTenant_coreOf (t : Nat) (st : Sparse Half) (d : Dev) : coreOf (commitTenant t st d) = coreOf d := by simp [commitTenant, apply_ite coreOf]

@[simp] theorem commitThermal_coreOf (i : Nat) (st : Sparse Half) (d : Dev) : coreOf (commitThermal i st d) = coreOf d := by simp [commitThermal, apply_ite coreOf]

@[simp] theorem commitBundle_coreOf (g : Nat) (st : Sparse Half) (d : Dev) : coreOf (commitBundle g st d) = coreOf d := by simp [commitBundle, apply_ite coreOf]

@[simp] theorem commitClass_coreOf (p : PortId) (n : Nat) (st : Sparse Half) (d : Dev) : coreOf (commitClass p n st d) = coreOf d := by
  unfold commitClass
  cases spFind st 0 with
  | none => rfl
  | some v => rw [relieve_coreOf, dueSettings_coreOf, coreOf_modPort]

@[simp] theorem commitKeepwin_coreOf (p i : Nat) (st : Sparse Half) (d : Dev) : coreOf (commitKeepwin p i st d) = coreOf d := by simp [commitKeepwin, apply_ite coreOf]

@[simp] theorem applyCommit_coreOf (t : Nat) (p : PortId) (i : Nat) (st : Sparse Half) (d : Dev) :
    coreOf (applyCommit t p i st d) = coreOf d := by
  unfold applyCommit
  split <;> simp

@[simp] theorem commitStaged_coreOf (d : Dev) : coreOf (commitStaged d) = coreOf d := by
  unfold commitStaged
  repeat' split
  all_goals first | rfl | simp [apply_ite coreOf]

@[simp] theorem abortStaged_coreOf (d : Dev) : coreOf (abortStaged d) = coreOf d := by simp [abortStaged, apply_ite coreOf]

@[simp] theorem writeTctl_coreOf (v : Half) (d : Dev) : coreOf (writeTctl v d) = coreOf d := by simp [writeTctl, apply_ite coreOf]

@[simp] theorem stopKeep_coreOf (pages : Nat) (d : Dev) : coreOf (stopKeep pages d) = coreOf d := by simp [stopKeep, apply_ite coreOf]

@[simp] theorem loadEnergy_coreOf (d : Dev) : coreOf (loadEnergy d) = coreOf d := by simp [loadEnergy, apply_ite coreOf]

@[simp] theorem loadShare_coreOf (d : Dev) : coreOf (loadShare d) = coreOf d := by simp [loadShare, apply_ite coreOf]

@[simp] theorem bootKeep_coreOf (cold : Bool) (d : Dev) : coreOf (bootKeep cold d).2 = coreOf d := by simp [bootKeep, apply_ite coreOf]

@[simp] theorem clearTorn_coreOf (d : Dev) : coreOf (clearTorn d) = coreOf d := by
  unfold clearTorn
  repeat' split
  all_goals first | rfl | simp [apply_ite coreOf]

@[simp] theorem bootEvents_coreOf (f : Found) (d : Dev) : coreOf (bootEvents f d) = coreOf d := by
  unfold bootEvents
  cases f.done <;> simp [apply_ite coreOf]

@[simp] theorem autoStart_coreOf (p : PortId) (d : Dev) : coreOf (autoStart p d) = coreOf d := by
  unfold autoStart
  dsimp only
  repeat' split
  all_goals first | rfl | simp [apply_ite coreOf] | simp_all [apply_ite coreOf]

@[simp] theorem rebuildGang_coreOf (d : Dev) : coreOf (rebuildGang d) = coreOf d := by simp [rebuildGang, apply_ite coreOf]

@[simp] theorem noteBudgets_coreOf (d : Dev) : coreOf (noteBudgets d) = coreOf d := by simp [noteBudgets, apply_ite coreOf]

@[simp] theorem afterHandover_coreOf (d : Dev) : coreOf (afterHandover d) = coreOf d := by simp [afterHandover, apply_ite coreOf]

@[simp] theorem readTimeLo_coreOf (d : Dev) : coreOf (readTimeLo d).2 = coreOf d := by simp [readTimeLo, apply_ite coreOf]

@[simp] theorem readEnergyLo_coreOf (p : PortId) (d : Dev) : coreOf (readEnergyLo p d).2 = coreOf d := by simp [readEnergyLo, apply_ite coreOf]

@[simp] theorem readGlobal_coreOf (a : Nat) (d : Dev) : coreOf (readGlobal a d).2 = coreOf d := by
  unfold readGlobal
  repeat' split
  all_goals first | rfl | simp [apply_ite coreOf]

@[simp] theorem readPort_coreOf (p : PortId) (off : Nat) (d : Dev) : coreOf (readPort p off d).2 = coreOf d := by
  unfold readPort
  repeat' split
  all_goals first | rfl | simp [apply_ite coreOf]

@[simp] theorem writeModeReq_coreOf (v : Half) (d : Dev) : coreOf (writeModeReq v d) = coreOf d := by simp [writeModeReq, apply_ite coreOf]

@[simp] theorem writeKeepCtl_coreOf (v : Half) (d : Dev) : coreOf (writeKeepCtl v d) = coreOf d := by simp [writeKeepCtl, apply_ite coreOf]

@[simp] theorem writeRail_coreOf (p : PortId) (v : Half) (d : Dev) : coreOf (writeRail p v d) = coreOf d := by simp [writeRail, apply_ite coreOf]

@[simp] theorem writeGuard_coreOf (p : PortId) (v : Half) (d : Dev) : coreOf (writeGuard p v d) = coreOf d := by simp [writeGuard, apply_ite coreOf]

@[simp] theorem writePort_coreOf (p : PortId) (off : Nat) (v : Half) (d : Dev) : coreOf (writePort p off v d) = coreOf d := by
  unfold writePort
  repeat' split
  all_goals first | rfl | simp [apply_ite coreOf]

@[simp] theorem clearEvr_coreOf (m : Nat) (d : Dev) : coreOf (clearEvr m d) = coreOf d := rfl

@[simp] theorem trapValue_coreOf (v : Option Word) (d : Dev) : coreOf (trapValue v d).2 = coreOf d := by
  unfold trapValue
  dsimp only
  repeat' split
  all_goals first | rfl | simp [apply_ite coreOf] | simp_all [apply_ite coreOf]

@[simp] theorem engineStore_coreOf (p : PortId) (v : Nat) (d : Dev) : coreOf (engineStore p v d) = coreOf d := by
  unfold engineStore
  repeat' split
  all_goals first | rfl | simp [apply_ite coreOf]

@[simp] theorem putMailHalf_coreOf (k : Nat) (v : Half) (d : Dev) : coreOf (putMailHalf k v d) = coreOf d := by simp [putMailHalf, apply_ite coreOf]

@[simp] theorem tenantAdd_coreOf (t : Nat) (n : Nat) (d : Dev) : coreOf (tenantAdd t n d) = coreOf d := by simp [tenantAdd, apply_ite coreOf]

@[simp] theorem creditOne_coreOf (p : PortId) (g i uj : Nat) (x : Nat × Dev) : coreOf (creditOne p g i uj x).2 = coreOf x.2 := by
  simp [creditOne, apply_ite coreOf]

@[simp] theorem creditFold_coreOf (p : PortId) (g : Nat) (l : List (Nat × Nat)) (x : Nat × Dev) :
    coreOf (l.foldl (fun x m => creditOne p g m.1 m.2 x) x).2 = coreOf x.2 := by
  induction l generalizing x with
  | nil => rfl
  | cons a t ih => rw [List.foldl, ih, creditOne_coreOf]

@[simp] theorem creditInterval_coreOf (p : PortId) (e sq : Nat) (model : List (Nat × Nat)) (d : Dev) :
    coreOf (creditInterval p e sq model d) = coreOf d := by
  simp [creditInterval, apply_ite coreOf]

@[simp] theorem creditMissed_coreOf (p : PortId) (l : List (Nat × Nat × Nat)) (d : Dev) :
    coreOf (creditMissed p l d) = coreOf d := by
  induction l generalizing d with
  | nil => rfl
  | cons x t ih => obtain ⟨e, sq, n⟩ := x; simp [creditMissed, ih]

@[simp] theorem pointPort_coreOf (p : PortId) (d : Dev) : coreOf (pointPort p d) = coreOf d := by simp [pointPort, apply_ite coreOf]

@[simp] theorem calibrationPoint_coreOf (d : Dev) : coreOf (calibrationPoint d) = coreOf d := by simp [calibrationPoint, apply_ite coreOf]

@[simp] theorem energyStore_coreOf (d : Dev) : coreOf (energyStore d) = coreOf d := by simp [energyStore, apply_ite coreOf]

end Sys2Proof.Laws
end

