-- ==== Sys2Proof/Laws/Fedora.lean ====
section
/-! SUPPORT. A word of the Fedora core that issues alone: its bundle is legal, the bundle comes to what the one operation comes to,
and an operation that only changes the core leaves the rest of the state alone. -/

namespace Sys2Proof.Laws

open Sys2Proof Machine

theorem noTwice_filter_one (a : Nat) : noTwice ([a].filter (· != 32)) = true := by
  by_cases h : a = 32 <;> simp [h, noTwice]

theorem noTwice_filter_two (a b : Nat) (h : a ≠ b) : noTwice ([a, b].filter (· != 32)) = true := by
  by_cases h1 : a = 32 <;> by_cases h2 : b = 32 <;> simp [h1, h2, noTwice, h]

/-- The word of one operation writes no register twice (R421). -/
theorem noTwice_writesOf (o : Opc) (w : OpWord) (h : wordOk o w = true) : noTwice (writesOf o w) = true := by
  unfold writesOf
  by_cases h1 : writesD o = true <;> by_cases h2 : writesBase o w ∨ o = .dbnz
  · simp only [h1, h2, if_true]
    refine noTwice_filter_two _ _ ?_
    intro he
    have he' : w.d = w.a := BitVec.eq_of_toNat_eq he
    rcases h2 with h2 | h2
    · simp only [wordOk, Bool.and_eq_true, Bool.not_eq_true'] at h
      obtain ⟨⟨⟨⟨⟨⟨⟨⟨-, -⟩, hd⟩, ha⟩, -⟩, -⟩, hb⟩, -⟩, -⟩ := h
      rw [he'] at hd
      cases o <;> simp [loadsBase, he', h2] at hb <;> simp [writesD] at h1 <;> simp [writesBase, Opc.modal] at h2
      simp [Opc.fieldD, Opc.fieldA, Field.ok] at hd ha
      omega
    · subst h2; simp [writesD] at h1
  · simp only [h1, h2, if_true, if_false, List.append_nil]; exact noTwice_filter_one _
  · simp only [h1, h2, if_true]; exact noTwice_filter_one _
  · simp [h1, h2, noTwice]

/-- A legal word with its stop is a legal bundle. -/
theorem bundleOk_alone (o : Opc) (w : OpWord) (h : wordOk o w = true) (hs : w.stop = true) : bundleOk [(o, w)] = true := by
  simp [bundleOk, h, hs, slotsRise, noTwice_writesOf o w h]

/-- A word that issues alone runs as a bundle of one. -/
theorem issueOp_alone {o : Opc} {w : OpWord} {s : State} (h : IssuesAlone o w s) :
    issueOp o w s.dev = runBundle [(o, w)] s.dev := by
  obtain ⟨h1, h2, h3, h4, h5, h6⟩ := h
  have e : settleWait s.dev = s.dev := by simp [settleWait, h2]
  have e2 : (s.dev.onCore fun c => { c with bundle := [] }) = s.dev := by
    unfold Dev.onCore; rw [← h4]
  simp only [issueOp, e, coreIssues, h1, h2, h3, h4, h5]
  simp [e2]

/-- A bundle of one comes to what its operation comes to. -/
theorem runBundle_alone {o : Opc} {w : OpWord} {s : State} (h : IssuesAlone o w s) :
    runBundle [(o, w)] s.dev = match evalOp (o, w) (if w.lit.isSome then 8 else 4) s.dev with
      | .ok e => .ok (commitOps (if w.lit.isSome then 8 else 4) [e] s.dev)
      | .trap k v => .ok (syncTrap k (trapPc k (if w.lit.isSome then 8 else 4) s.dev) v s.dev)
      | .refuse r => .error r := by
  have hb := bundleOk_alone o w h.2.2.2.2.2 h.2.2.2.2.1
  simp only [runBundle, hb, bundleLen, if_true, evalAll]
  cases evalOp (o, w) ((if w.lit.isSome = true then 8 else 4) + 0) s.dev <;> simp

/-- One operation that only changes the core, in a bundle of its own. -/
theorem coreOp_core {o : Opc} {w : OpWord} {s : State} (h : IssuesAlone o w s) (f : Core → Core) (e : OpEffect) (t : Word)
    (he : evalOp (o, w) (if w.lit.isSome then 8 else 4) s.dev = .ok e) (h1 : foldDev (applyEffect s.dev) [e] (e.pre s.dev) = s.dev.onCore f)
    (hn : e.next.getD (seqPc w s.dev.core) = t) (ht : fetchable t = true) (hw : (f s.dev.core).wait = none) :
    coreOp o w s = .next (s.onCore fun c => { f c with pc := t }) := by
  have hq : s.dev.core.pc + BitVec.ofNat 32 (if w.lit.isSome then 8 else 4) = seqPc w s.dev.core := by
    unfold seqPc; split <;> rfl
  simp only [coreOp, issueOp_alone h, runBundle_alone h, he, commitOps]
  have : foldDev OpEffect.pre [e] s.dev = e.pre s.dev := rfl
  rw [this, h1]
  have hs : sameImage s.dev (s.dev.onCore f) = true := by simp [sameImage, Dev.onCore]
  simp only [hs, if_true, nextOf, hq, hn, goTo, ht]
  simp [settleWait, Dev.onCore, hw, State.onCore]

/-- One operation that writes its d register, in a bundle of its own. -/
theorem writesD_of {o : Opc} {w : OpWord} {s : State} (h : IssuesAlone o w s) (hf : fetchable (seqPc w s.dev.core) = true) (v : Word)
   (ho : evalOp (o, w) (if w.lit.isSome then 8 else 4) s.dev = .ok (regEffect s.dev.core.cwb w.d.toNat (v, false))) :
    coreOp o w s = .next (s.writesD w v) := by
  refine coreOp_core h (fun c => putReg s.dev.core.cwb w.d.toNat v c) _ (seqPc w s.dev.core) ho ?_ rfl hf ?_
  · simp [foldDev, applyEffect, sameImage, regEffect]
  · have := h.2.1; simp only [putReg]; repeat' split
    all_goals exact this

end Sys2Proof.Laws
end

