-- ==== Sys2Proof/Laws/Sparse.lean ====
section
/-! SUPPORT. Laws of the sparse tables and byte stores: what a read finds after a write, and that every operation keeps the
canonical form. -/

namespace Sys2Proof.Laws

open Sys2Proof Machine

/-- Every key of a table is above a bound. -/
def keysAbove {α : Type} (k : Nat) (s : Sparse α) : Prop := ∀ x ∈ s, k < x.1

/-- The canonical form of a table with defaults, as a proposition on its head. -/
theorem spWfF_cons {α : Type} [DecidableEq α] (f : Nat → α) (a : Nat) (v : α) (t : Sparse α) :
    spWfF f ((a, v) :: t) = true ↔ v ≠ f a ∧ (match t with | [] => True | (b, _) :: _ => a < b) ∧ spWfF f t = true := by
  cases t <;> simp [spWfF, and_assoc]

theorem spRising_cons {α : Type} (a : Nat) (v : α) (t : Sparse α) :
    spRising ((a, v) :: t) = true ↔ (match t with | [] => True | (b, _) :: _ => a < b) ∧ spRising t = true := by
  cases t <;> simp [spRising]

/-- A table in canonical form has rising keys. -/
theorem rising_of_wf {α : Type} [DecidableEq α] (f : Nat → α) (s : Sparse α) (h : spWfF f s = true) : spRising s = true := by
  induction s with
  | nil => rfl
  | cons x t ih =>
    obtain ⟨a, v⟩ := x
    rw [spWfF_cons] at h
    rw [spRising_cons]
    exact ⟨h.2.1, ih h.2.2⟩

/-- In a rising table every later key lies above the first. -/
theorem keysAbove_of_rising {α : Type} (a : Nat) (v : α) (t : Sparse α) (h : spRising ((a, v) :: t) = true) : keysAbove a t := by
  induction t generalizing a v with
  | nil => intro x hx; cases hx
  | cons y t ih =>
    obtain ⟨b, w⟩ := y
    rw [spRising_cons] at h
    intro x hx
    cases hx with
    | head => exact h.1
    | tail _ hx => exact Nat.lt_trans h.1 (ih b w h.2 x hx)

/-- A key below every key of a table is not found in it. -/
theorem spFind_none {α : Type} (k : Nat) (s : Sparse α) (h : keysAbove k s) : spFind s k = none := by
  cases s with
  | nil => rfl
  | cons x t =>
    obtain ⟨a, v⟩ := x
    have : k < a := h (a, v) (by simp)
    simp [spFind, this, Nat.ne_of_gt this]

/-- A read of the key just put finds the value. -/
@[simp] theorem spFind_spPut {α : Type} (s : Sparse α) (k : Nat) (v : α) : spFind (spPut s k v) k = some v := by
  induction s with
  | nil => simp [spPut, spFind]
  | cons x t ih =>
    obtain ⟨a, w⟩ := x
    by_cases h : a = k
    · simp [spPut, h, spFind]
    · by_cases h2 : k < a
      · simp [spPut, h, h2, spFind]
      · simp [spPut, h, h2, spFind, ih]

/-- A put leaves every other key alone. -/
theorem spFind_spPut_ne {α : Type} (s : Sparse α) (k j : Nat) (v : α) (hj : j ≠ k) : spFind (spPut s k v) j = spFind s j := by
  induction s with
  | nil => simp [spPut, spFind, Ne.symm hj]
  | cons x t ih =>
    obtain ⟨a, w⟩ := x
    by_cases h : a = k
    · subst h
      simp [spPut, spFind, Ne.symm hj]
    · by_cases h2 : k < a
      · by_cases h3 : j < k
        · have h4 : j < a := Nat.lt_trans h3 h2
          simp [spPut, h, h2, spFind, h3, h4, Ne.symm hj, Nat.ne_of_gt h4]
        · simp [spPut, h, h2, spFind, h3, Ne.symm hj]
      · simp [spPut, h, h2, spFind, ih]

/-- An erase leaves every other key of a rising table alone. -/
theorem spFind_spErase_ne {α : Type} (s : Sparse α) (k j : Nat) (hs : spRising s = true) (hj : j ≠ k) :
    spFind (spErase s k) j = spFind s j := by
  induction s with
  | nil => rfl
  | cons x t ih =>
    obtain ⟨a, w⟩ := x
    have hab := keysAbove_of_rising a w t hs
    have ht : spRising t = true := ((spRising_cons a w t).1 hs).2
    by_cases h : a = k
    · subst h
      by_cases h3 : j < a
      · have : keysAbove j t := fun y hy => Nat.lt_trans h3 (hab y hy)
        simp [spErase, spFind, h3, spFind_none j t this, Ne.symm hj]
      · simp [spErase, spFind, h3, Ne.symm hj]
    · by_cases h2 : k < a
      · simp [spErase, h, h2]
      · simp [spErase, h, h2, spFind, ih ht]

/-- An erased key of a rising table is not found. -/
theorem spFind_spErase {α : Type} (s : Sparse α) (k : Nat) (hs : spRising s = true) : spFind (spErase s k) k = none := by
  induction s with
  | nil => rfl
  | cons x t ih =>
    obtain ⟨a, w⟩ := x
    have hab := keysAbove_of_rising a w t hs
    have ht : spRising t = true := ((spRising_cons a w t).1 hs).2
    by_cases h : a = k
    · subst h
      simp [spErase, spFind_none a t hab]
    · by_cases h2 : k < a
      · simp [spErase, h, h2, spFind]
      · simp [spErase, h, h2, spFind, ih ht]

/-- Keys above a bound stay above it. -/
theorem keysAbove_spErase {α : Type} (b k : Nat) (s : Sparse α) (h : keysAbove b s) : keysAbove b (spErase s k) := by
  induction s with
  | nil => exact h
  | cons x t ih =>
    obtain ⟨a, w⟩ := x
    have ht : keysAbove b t := fun y hy => h y (List.mem_cons_of_mem _ hy)
    by_cases h1 : a = k
    · simpa [spErase, h1] using ht
    · by_cases h2 : k < a
      · simpa [spErase, h1, h2] using h
      · intro y hy
        simp only [spErase, h1, h2, if_false] at hy
        cases hy with
        | head => exact h (a, w) (by simp)
        | tail _ hy => exact ih ht y hy

theorem keysAbove_spPut {α : Type} (b k : Nat) (v : α) (s : Sparse α) (h : keysAbove b s) (hk : b < k) :
    keysAbove b (spPut s k v) := by
  induction s with
  | nil => intro y hy; simp [spPut] at hy; subst hy; exact hk
  | cons x t ih =>
    obtain ⟨a, w⟩ := x
    have ht : keysAbove b t := fun y hy => h y (List.mem_cons_of_mem _ hy)
    intro y hy
    by_cases h1 : a = k
    · simp only [spPut, h1, if_true] at hy
      cases hy with
      | head => exact hk
      | tail _ hy => exact ht y hy
    · by_cases h2 : k < a
      · simp only [spPut, h1, h2, if_false, if_true] at hy
        cases hy with
        | head => exact hk
        | tail _ hy => exact h y hy
      · simp only [spPut, h1, h2, if_false] at hy
        cases hy with
        | head => exact h (a, w) (by simp)
        | tail _ hy => exact ih ht y hy

/-- A head below every key of a rising table extends it. -/
theorem rising_cons_of_above {α : Type} (a : Nat) (v : α) (t : Sparse α) (h : keysAbove a t) (ht : spRising t = true) :
    spRising ((a, v) :: t) = true := by
  rw [spRising_cons]
  refine ⟨?_, ht⟩
  cases t with
  | nil => trivial
  | cons y t => exact h y (by simp)

theorem wf_cons_of_above {α : Type} [DecidableEq α] (f : Nat → α) (a : Nat) (v : α) (t : Sparse α) (hv : v ≠ f a)
    (h : keysAbove a t) (ht : spWfF f t = true) : spWfF f ((a, v) :: t) = true := by
  rw [spWfF_cons]
  refine ⟨hv, ?_, ht⟩
  cases t with
  | nil => trivial
  | cons y t => exact h y (by simp)

/-- A put keeps the keys rising. -/
theorem rising_spPut {α : Type} (s : Sparse α) (k : Nat) (v : α) (hs : spRising s = true) : spRising (spPut s k v) = true := by
  induction s with
  | nil => rfl
  | cons x t ih =>
    obtain ⟨a, w⟩ := x
    have hab := keysAbove_of_rising a w t hs
    have ht : spRising t = true := ((spRising_cons a w t).1 hs).2
    by_cases h : a = k
    · subst h
      simpa [spPut] using rising_cons_of_above a v t hab ht
    · by_cases h2 : k < a
      · simp only [spPut, h, h2, if_false, if_true]
        refine rising_cons_of_above k v _ ?_ hs
        intro y hy
        cases hy with
        | head => exact h2
        | tail _ hy => exact Nat.lt_trans h2 (hab y hy)
      · simp only [spPut, h, h2, if_false]
        exact rising_cons_of_above a w _ (keysAbove_spPut a k v t hab (by omega)) (ih ht)

/-- A put of a value that is not the default keeps the canonical form. -/
theorem wf_spPut {α : Type} [DecidableEq α] (f : Nat → α) (s : Sparse α) (k : Nat) (v : α) (hv : v ≠ f k)
    (hs : spWfF f s = true) : spWfF f (spPut s k v) = true := by
  induction s with
  | nil => simp [spPut, spWfF, hv]
  | cons x t ih =>
    obtain ⟨a, w⟩ := x
    have hab := keysAbove_of_rising a w t (rising_of_wf f _ hs)
    obtain ⟨hw, _, ht⟩ := (spWfF_cons f a w t).1 hs
    by_cases h : a = k
    · subst h
      simpa [spPut] using wf_cons_of_above f a v t hv hab ht
    · by_cases h2 : k < a
      · simp only [spPut, h, h2, if_false, if_true]
        refine wf_cons_of_above f k v _ hv ?_ hs
        intro y hy
        cases hy with
        | head => exact h2
        | tail _ hy => exact Nat.lt_trans h2 (hab y hy)
      · simp only [spPut, h, h2, if_false]
        exact wf_cons_of_above f a w _ hw (keysAbove_spPut a k v t hab (by omega)) (ih ht)

/-- An erase keeps the canonical form. -/
theorem wf_spErase {α : Type} [DecidableEq α] (f : Nat → α) (s : Sparse α) (k : Nat) (hs : spWfF f s = true) :
    spWfF f (spErase s k) = true := by
  induction s with
  | nil => rfl
  | cons x t ih =>
    obtain ⟨a, w⟩ := x
    have hab := keysAbove_of_rising a w t (rising_of_wf f _ hs)
    obtain ⟨hw, _, ht⟩ := (spWfF_cons f a w t).1 hs
    by_cases h : a = k
    · simpa [spErase, h] using ht
    · by_cases h2 : k < a
      · simpa [spErase, h, h2] using hs
      · simp only [spErase, h, h2, if_false]
        exact wf_cons_of_above f a w _ hw (keysAbove_spErase a k t hab) (ih ht)

/-- A set keeps the canonical form, and setting the default removes the entry. -/
theorem wf_spSetF {α : Type} [DecidableEq α] (f : Nat → α) (s : Sparse α) (k : Nat) (v : α) (hs : spWfF f s = true) :
    spWfF f (spSetF f s k v) = true := by
  unfold spSetF
  split
  · exact wf_spErase f s k hs
  · exact wf_spPut f s k v (by assumption) hs

/-- A read of the key just set. -/
theorem spGetF_spSetF {α : Type} [DecidableEq α] (f : Nat → α) (s : Sparse α) (k : Nat) (v : α) (hs : spWfF f s = true) :
    spGetF f (spSetF f s k v) k = v := by
  unfold spSetF spGetF
  split
  · rw [spFind_spErase s k (rising_of_wf f s hs)]; simp_all
  · simp

/-- A set leaves every other key alone. -/
theorem spGetF_spSetF_ne {α : Type} [DecidableEq α] (f : Nat → α) (s : Sparse α) (k j : Nat) (v : α)
    (hs : spWfF f s = true) (hj : j ≠ k) : spGetF f (spSetF f s k v) j = spGetF f s j := by
  unfold spSetF spGetF
  split
  · rw [spFind_spErase_ne s k j (rising_of_wf f s hs) hj]
  · rw [spFind_spPut_ne s k j v hj]

/-! ## Byte stores -/

/-- One byte set. -/
theorem wf_byte (m : Sparse Byte) (a : Nat) (b : Byte) (h : Memory.wf m = true) : Memory.wf (spSet 0 m a b) = true :=
  wf_spSetF _ m a b h

/-- Every write of bytes keeps the canonical form. -/
theorem wf_writeBytes (l : List Byte) (m : Sparse Byte) (a : Nat) (h : Memory.wf m = true) :
    Memory.wf (writeBytes m a l) = true := by
  induction l generalizing m a with
  | nil => exact h
  | cons b t ih => exact ih _ _ (wf_byte m a b h)

/-- Every write of cells keeps the canonical form. -/
theorem wf_writeCells (l : List Host.Cell) (m : Sparse Byte) (h : Memory.wf m = true) : Memory.wf (writeCells m l) = true := by
  induction l generalizing m with
  | nil => exact h
  | cons x t ih => exact ih _ (wf_byte m x.1 x.2 h)

/-- Every put of bytes keeps the addresses rising. -/
theorem rising_putBytes (l : List Byte) (m : Sparse Byte) (a : Nat) (h : spRising m = true) :
    spRising (putBytes m a l) = true := by
  induction l generalizing m a with
  | nil => exact h
  | cons b t ih => exact ih _ _ (rising_spPut m a b h)

/-- A read of the byte just set. -/
theorem get_byte (m : Sparse Byte) (a : Nat) (b : Byte) (h : Memory.wf m = true) : spGet 0 (spSet 0 m a b) a = b :=
  spGetF_spSetF _ m a b h

/-- A write of bytes leaves every byte outside them alone. -/
theorem get_writeBytes_ne (l : List Byte) (m : Sparse Byte) (a j : Nat) (h : Memory.wf m = true) (hj : j < a ∨ a + l.length ≤ j) :
    spGet 0 (writeBytes m a l) j = spGet 0 m j := by
  induction l generalizing m a with
  | nil => rfl
  | cons b t ih =>
    have hne : j ≠ a := by simp at hj; omega
    rw [writeBytes, ih _ _ (wf_byte m a b h) (by simp at hj; omega)]
    exact spGetF_spSetF_ne _ m a j b h hne

/-- A put of bytes leaves every byte outside them alone. -/
theorem find_putBytes_ne (l : List Byte) (m : Sparse Byte) (a j : Nat) (hj : j < a ∨ a + l.length ≤ j) :
    spFind (putBytes m a l) j = spFind m j := by
  induction l generalizing m a with
  | nil => rfl
  | cons b t ih =>
    have hne : j ≠ a := by simp at hj; omega
    rw [putBytes, ih _ _ (by simp at hj; omega)]
    exact spFind_spPut_ne m a j b hne

end Sys2Proof.Laws
end

