-- ==== Sys2Proof/Laws/KeepFrame.lean ====
section
/-! SUPPORT. What keeps the byte stores of the Keep in canonical form: every shared operation of the device, the starts and
restarts, the register dispatch, and what a bundle of the core commits. A frame is said once per operation here and cited
after it. -/

namespace Sys2Proof.Laws

open Sys2Proof Machine

set_option linter.unusedSimpArgs false

/-- The byte stores of a Keep are in canonical form. -/
def KeepWf (k : Keep) : Prop := memWf (keepMem k)

@[simp] theorem keepWf_e (k : Keep) (h : KeepWf k) : Memory.wf k.e = true := h.1
@[simp] theorem keepWf_s (k : Keep) (h : KeepWf k) : Memory.wf k.s = true := h.2.1
@[simp] theorem keepWf_a (k : Keep) (h : KeepWf k) : Memory.wf k.shadowA.data = true := h.2.2.1
@[simp] theorem keepWf_b (k : Keep) (h : KeepWf k) : Memory.wf k.shadowB.data = true := h.2.2.2
@[simp] theorem keepWf_mk (e bad s shadowA shadowB store sfail jroll jdone bperr poison dseq bp pfch pfen queue run rollback lastNum jptr held log logPos due dueHot pageAt pageDirty scrubLater scrubAt scrubHours scrubFast snapNum ringPage energyAt) :
    KeepWf ⟨e, bad, s, shadowA, shadowB, store, sfail, jroll, jdone, bperr, poison, dseq, bp, pfch, pfen, queue, run, rollback, lastNum, jptr, held, log, logPos, due, dueHot, pageAt, pageDirty, scrubLater, scrubAt, scrubHours, scrubFast, snapNum, ringPage, energyAt⟩ ↔ Memory.wf e = true ∧ Memory.wf s = true ∧ Memory.wf shadowA.data = true ∧ Memory.wf shadowB.data = true :=
  Iff.rfl

@[simp] theorem wf_byte' (m : Sparse Byte) (a : Nat) (b : Byte) (h : Memory.wf m = true) : Memory.wf (spSet 0 m a b) = true :=
  wf_byte m a b h
@[simp] theorem wf_writeBytes' (l : List Byte) (m : Sparse Byte) (a : Nat) (h : Memory.wf m = true) :
    Memory.wf (writeBytes m a l) = true := wf_writeBytes l m a h
@[simp] theorem wf_writeCells' (l : List Host.Cell) (m : Sparse Byte) (h : Memory.wf m = true) :
    Memory.wf (writeCells m l) = true := wf_writeCells l m h
@[simp] theorem wf_nil : Memory.wf [] = true := rfl

@[simp] theorem setG_keepWf (i : Nat) (d : Dev) (h : KeepWf d.keep) : KeepWf (setG i d).keep := h
@[simp] theorem raise_keepWf (n : Nat) (d : Dev) (h : KeepWf d.keep) : KeepWf (raise n d).keep := h
@[simp] theorem onCore_keepWf (f : Core → Core) (d : Dev) (h : KeepWf d.keep) : KeepWf (d.onCore f).keep := h
@[simp] theorem takeFree_keepWf (d : Dev) (h : KeepWf d.keep) : KeepWf (takeFree d).2.keep := h

@[simp] theorem bothPorts_keepWf (d : Dev) (f : PortId → Dev → Dev) (hf : ∀ p x, KeepWf x.keep → KeepWf (f p x).keep)
    (h : KeepWf d.keep) : KeepWf (d.bothPorts f).keep := hf _ _ (hf _ _ h)

@[simp] theorem guardDev_keepWf (c : Bool) (f : Dev → Dev) (d : Dev) (hf : KeepWf (f d).keep) (h : KeepWf d.keep) :
    KeepWf (guardDev c f d).keep := by cases c <;> assumption

@[simp] theorem foldDev_keepWf {α : Type} (f : α → Dev → Dev) (hf : ∀ a x, KeepWf x.keep → KeepWf (f a x).keep) (l : List α)
    (d : Dev) (h : KeepWf d.keep) : KeepWf (foldDev f l d).keep := by
  induction l generalizing d with
  | nil => exact h
  | cons a t ih => exact ih _ (hf _ _ h)

@[simp] theorem foldl_keepWf {α : Type} (f : Dev → α → Dev) (hf : ∀ x a, KeepWf x.keep → KeepWf (f x a).keep) (l : List α)
    (d : Dev) (h : KeepWf d.keep) : KeepWf (l.foldl f d).keep := by
  induction l generalizing d with
  | nil => exact h
  | cons a t ih => exact ih _ (hf _ _ h)

@[simp] theorem foldlKeep_keepWf {α : Type} (f : Keep → α → Keep) (hf : ∀ x a, KeepWf x → KeepWf (f x a)) (l : List α)
    (k : Keep) (h : KeepWf k) : KeepWf (l.foldl f k) := by
  induction l generalizing k with
  | nil => exact h
  | cons a t ih => exact ih _ (hf _ _ h)

theorem onChange_keepWf_of {α : Type} [DecidableEq α] (a b : α) (f : Dev → Dev) (hf : ∀ x, KeepWf x.keep → KeepWf (f x).keep)
    (d : Dev) (h : KeepWf d.keep) : KeepWf (onChange a b f d).keep := by
  unfold onChange
  split
  · exact h
  · exact hf _ h
theorem modPort_keepWf (p : PortId) (f : Port → Port) (d : Dev) (h : KeepWf d.keep) : KeepWf (d.modPort p f).keep := by
  rw [modPort_keep]
  exact h
theorem bothPorts_keepWf_of (f : PortId → Dev → Dev) (hf : ∀ p x, KeepWf x.keep → KeepWf (f p x).keep) (d : Dev)
    (h : KeepWf d.keep) : KeepWf (d.bothPorts f).keep := hf _ _ (hf _ _ h)

@[simp] theorem setOvf_keepWf (d : Dev) (hw : KeepWf d.keep) : KeepWf (setOvf d).keep := by
  simp [setOvf, -setG_keep, -raise_keep, -onCore_keep, -takeFree_keep, apply_ite KeepWf, apply_ite Dev.keep, hw]

@[simp] theorem clearG_keepWf (mask sets : Half) (d : Dev) (hw : KeepWf d.keep) : KeepWf (clearG mask sets d).keep := by
  simp [clearG, -setG_keep, -raise_keep, -onCore_keep, -takeFree_keep, apply_ite KeepWf, apply_ite Dev.keep, hw]

@[simp] theorem eWrite_keepWf (a : Nat) (l : List Byte) (k : Keep) (hw : KeepWf k) : KeepWf (eWrite a l k) := by
  simp [eWrite, -setG_keep, -raise_keep, -onCore_keep, -takeFree_keep, apply_ite KeepWf, apply_ite Dev.keep, hw]

@[simp] theorem tallyWrite_keepWf (c v : Nat) (sat : Bool) (k : Keep) (hw : KeepWf k) :
    KeepWf (tallyWrite c v sat k) := by
  simp [tallyWrite, -setG_keep, -raise_keep, -onCore_keep, -takeFree_keep, apply_ite KeepWf, apply_ite Dev.keep, hw]

@[simp] theorem tallyInc_keepWf (c : Nat) (k : Keep) (hw : KeepWf k) : KeepWf (tallyInc c k) := by
  simp [tallyInc, -setG_keep, -raise_keep, -onCore_keep, -takeFree_keep, apply_ite KeepWf, apply_ite Dev.keep, hw]

@[simp] theorem tallyAdvance_keepWf (c v : Nat) (k : Keep) (hw : KeepWf k) : KeepWf (tallyAdvance c v k) := by
  simp [tallyAdvance, -setG_keep, -raise_keep, -onCore_keep, -takeFree_keep, apply_ite KeepWf, apply_ite Dev.keep, hw]

@[simp] theorem countUp_keepWf (c : Nat) (d : Dev) (hw : KeepWf d.keep) : KeepWf (countUp c d).keep := by
  simp [countUp, -setG_keep, -raise_keep, -onCore_keep, -takeFree_keep, apply_ite KeepWf, apply_ite Dev.keep, hw]

@[simp] theorem sysWrite_keepWf (g : Nat) (l : List Byte) (k : Keep) (hw : KeepWf k) : KeepWf (sysWrite g l k) := by
  simp [sysWrite, -setG_keep, -raise_keep, -onCore_keep, -takeFree_keep, apply_ite KeepWf, apply_ite Dev.keep, hw]

@[simp] theorem sysCrit_keepWf (set : Bool) (k : Keep) (hw : KeepWf k) : KeepWf (sysCrit set k) := by
  simp [sysCrit, -setG_keep, -raise_keep, -onCore_keep, -takeFree_keep, apply_ite KeepWf, apply_ite Dev.keep, hw]

@[simp] theorem sysCtl_keepWf (k : Keep) (hw : KeepWf k) : KeepWf (sysCtl k) := by
  simp [sysCtl, -setG_keep, -raise_keep, -onCore_keep, -takeFree_keep, apply_ite KeepWf, apply_ite Dev.keep, hw]

@[simp] theorem sysScrub_keepWf (g : Nat) (k : Keep) (hw : KeepWf k) : KeepWf (sysScrub g k) := by
  simp [sysScrub, -setG_keep, -raise_keep, -onCore_keep, -takeFree_keep, apply_ite KeepWf, apply_ite Dev.keep, hw]

@[simp] theorem sysCommit_keepWf (n : Word) (k : Keep) (hw : KeepWf k) : KeepWf (sysCommit n k) := by
  simp [sysCommit, -setG_keep, -raise_keep, -onCore_keep, -takeFree_keep, apply_ite KeepWf, apply_ite Dev.keep, hw]

@[simp] theorem poisonPut_keepWf (i v : Nat) (k : Keep) (hw : KeepWf k) : KeepWf (poisonPut i v k) := by
  simp [poisonPut, -setG_keep, -raise_keep, -onCore_keep, -takeFree_keep, apply_ite KeepWf, apply_ite Dev.keep, hw]

@[simp] theorem poisonAdd_keepWf (g : Nat) (page : Bool) (k : Keep) (hw : KeepWf k) : KeepWf (poisonAdd g page k) := by
  unfold poisonAdd
  repeat' split
  all_goals first | rfl | exact hw | simp [-setG_keep, -raise_keep, -onCore_keep, -takeFree_keep, apply_ite KeepWf, apply_ite Dev.keep, hw]

@[simp] theorem poisonClearAt_keepWf (g : Nat) (l : List Nat) (i : Nat) (k : Keep) (h : KeepWf k) :
    KeepWf (poisonClearAt g l i k) := by
  induction l generalizing i k with
  | nil => exact h
  | cons e t ih =>
    apply ih
    split
    · exact poisonPut_keepWf _ _ _ h
    · exact h

@[simp] theorem poisonClear_keepWf (g : Nat) (k : Keep) (hw : KeepWf k) : KeepWf (poisonClear g k) := by
  simp [poisonClear, -setG_keep, -raise_keep, -onCore_keep, -takeFree_keep, apply_ite KeepWf, apply_ite Dev.keep, hw]

@[simp] theorem logRing_keepWf (l : LogEntry) (k : Keep) (hw : KeepWf k) : KeepWf (logRing l k) := by
  simp [logRing, -setG_keep, -raise_keep, -onCore_keep, -takeFree_keep, apply_ite KeepWf, apply_ite Dev.keep, hw]

@[simp] theorem logEvent_keepWf (e : Event) (ms : Word) (d : Dev) (hw : KeepWf d.keep) : KeepWf (logEvent e ms d).keep := by
  simp [logEvent, -setG_keep, -raise_keep, -onCore_keep, -takeFree_keep, apply_ite KeepWf, apply_ite Dev.keep, hw]

@[simp] theorem loseEvent_keepWf (seq ms : Half) (d : Dev) (hw : KeepWf d.keep) : KeepWf (loseEvent seq ms d).keep := by
  unfold loseEvent
  repeat' split
  all_goals first | rfl | exact hw | simp [-setG_keep, -raise_keep, -onCore_keep, -takeFree_keep, apply_ite KeepWf, apply_ite Dev.keep, hw]

@[simp] theorem post_keepWf (x : EventSpec) (d : Dev) (hw : KeepWf d.keep) : KeepWf (post x d).keep := by
  simp [post, -setG_keep, -raise_keep, -onCore_keep, -takeFree_keep, apply_ite KeepWf, apply_ite Dev.keep, hw]

@[simp] theorem postEndpoint_keepWf (typ code : Nat) (p : PortId) (i : Idx) (log : Bool) (d : Dev) (hw : KeepWf d.keep) :
    KeepWf (postEndpoint typ code p i log d).keep := by
  simp [postEndpoint, -setG_keep, -raise_keep, -onCore_keep, -takeFree_keep, apply_ite KeepWf, apply_ite Dev.keep, hw]

@[simp] theorem postPort_keepWf (typ code : Nat) (p : PortId) (word1 : Half) (log : Bool) (d : Dev) (hw : KeepWf d.keep) :
    KeepWf (postPort typ code p word1 log d).keep := by
  simp [postPort, -setG_keep, -raise_keep, -onCore_keep, -takeFree_keep, apply_ite KeepWf, apply_ite Dev.keep, hw]

@[simp] theorem postGlobal_keepWf (typ code : Nat) (word1 : Half) (log : Bool) (d : Dev) (hw : KeepWf d.keep) :
    KeepWf (postGlobal typ code word1 log d).keep := by
  simp [postGlobal, -setG_keep, -raise_keep, -onCore_keep, -takeFree_keep, apply_ite KeepWf, apply_ite Dev.keep, hw]

@[simp] theorem dropOvf_keepWf (d : Dev) (hw : KeepWf d.keep) : KeepWf (dropOvf d).keep := by
  unfold dropOvf
  repeat' split
  all_goals first | rfl | exact hw | simp [-setG_keep, -raise_keep, -onCore_keep, -takeFree_keep, apply_ite KeepWf, apply_ite Dev.keep, hw]

@[simp] theorem popWord_keepWf (d : Dev) (hw : KeepWf d.keep) : KeepWf (popWord d).2.keep := by
  unfold popWord
  dsimp only
  repeat' split
  all_goals first | rfl | exact hw | simp [-setG_keep, -raise_keep, -onCore_keep, -takeFree_keep, apply_ite KeepWf, apply_ite Dev.keep, hw] | simp_all [-setG_keep, -raise_keep, -onCore_keep, -takeFree_keep, apply_ite KeepWf, apply_ite Dev.keep]

@[simp] theorem postThrot_keepWf (p : PortId) (d : Dev) (hw : KeepWf d.keep) : KeepWf (postThrot p d).keep := by
  simp [postThrot, -setG_keep, -raise_keep, -onCore_keep, -takeFree_keep, apply_ite KeepWf, apply_ite Dev.keep, hw]

@[simp] theorem flushThrot_keepWf (p : PortId) (d : Dev) (hw : KeepWf d.keep) : KeepWf (flushThrot p d).keep := by
  simp [flushThrot, -setG_keep, -raise_keep, -onCore_keep, -takeFree_keep, apply_ite KeepWf, apply_ite Dev.keep, hw]

@[simp] theorem noteThrot_keepWf (p : PortId) (d : Dev) (hw : KeepWf d.keep) : KeepWf (noteThrot p d).keep := by
  simp [noteThrot, -setG_keep, -raise_keep, -onCore_keep, -takeFree_keep, apply_ite KeepWf, apply_ite Dev.keep, hw]

@[simp] theorem launch_keepWf (p : PortId) (d : Dev) (hw : KeepWf d.keep) : KeepWf (launch p d).keep := by
  simp [launch, -setG_keep, -raise_keep, -onCore_keep, -takeFree_keep, apply_ite KeepWf, apply_ite Dev.keep, hw]

@[simp] theorem enqueue_keepWf (p : PortId) (o : OutFrame) (d : Dev) (hw : KeepWf d.keep) :
    KeepWf (enqueue p o d).keep := by
  simp [enqueue, -setG_keep, -raise_keep, -onCore_keep, -takeFree_keep, apply_ite KeepWf, apply_ite Dev.keep, hw]

@[simp] theorem dropFront_keepWf (p : PortId) (d : Dev) (hw : KeepWf d.keep) : KeepWf (dropFront p d).keep := by
  simp [dropFront, -setG_keep, -raise_keep, -onCore_keep, -takeFree_keep, apply_ite KeepWf, apply_ite Dev.keep, hw]

@[simp] theorem sendTo_keepWf (p : PortId) (i : Idx) (kind : OutKind) (mt : BitVec 6) (flags : Byte) (payload : List Byte) (slot : Option (BitVec 7)) (d : Dev) (hw : KeepWf d.keep) :
    KeepWf (sendTo p i kind mt flags payload slot d).keep := by
  simp [sendTo, -setG_keep, -raise_keep, -onCore_keep, -takeFree_keep, apply_ite KeepWf, apply_ite Dev.keep, hw]

@[simp] theorem sendPeer_keepWf (p : PortId) (kind : OutKind) (mt : BitVec 6) (payload : List Byte) (d : Dev) (hw : KeepWf d.keep) :
    KeepWf (sendPeer p kind mt payload d).keep := by
  simp [sendPeer, -setG_keep, -raise_keep, -onCore_keep, -takeFree_keep, apply_ite KeepWf, apply_ite Dev.keep, hw]

@[simp] theorem endContract_keepWf (code : Nat) (p : PortId) (i : Idx) (d : Dev) (hw : KeepWf d.keep) :
    KeepWf (endContract code p i d).keep := by
  simp [endContract, -setG_keep, -raise_keep, -onCore_keep, -takeFree_keep, apply_ite KeepWf, apply_ite Dev.keep, hw]

@[simp] theorem dirtyPage_keepWf (p : PortId) (i : Idx) (d : Dev) (hw : KeepWf d.keep) :
    KeepWf (dirtyPage p i d).keep := by
  simp [dirtyPage, -setG_keep, -raise_keep, -onCore_keep, -takeFree_keep, apply_ite KeepWf, apply_ite Dev.keep, hw]

@[simp] theorem sendWithdraw_keepWf (reason : Nat) (p : PortId) (i : Idx) (slot : Option Nat) (reserve : Nat) (d : Dev) (hw : KeepWf d.keep) : KeepWf (sendWithdraw reason p i slot reserve d).keep := by
  unfold sendWithdraw
  repeat' split
  all_goals first | rfl | exact hw | simp [-setG_keep, -raise_keep, -onCore_keep, -takeFree_keep, apply_ite KeepWf, apply_ite Dev.keep, hw]

@[simp] theorem withdrawGrant_keepWf (reason : Nat) (p : PortId) (k : Nat) (d : Dev) (hw : KeepWf d.keep) : KeepWf (withdrawGrant reason p k d).keep := by
  unfold withdrawGrant
  repeat' split
  all_goals first | rfl | exact hw | simp [-setG_keep, -raise_keep, -onCore_keep, -takeFree_keep, apply_ite KeepWf, apply_ite Dev.keep, hw]

@[simp] theorem withdrawContract_keepWf (reason : Nat) (p : PortId) (i : Idx) (d : Dev) (hw : KeepWf d.keep) :
    KeepWf (withdrawContract reason p i d).keep := by
  simp [withdrawContract, -setG_keep, -raise_keep, -onCore_keep, -takeFree_keep, apply_ite KeepWf, apply_ite Dev.keep, hw]

@[simp] theorem trimGrants_keepWf (p : PortId) (d : Dev) (hw : KeepWf d.keep) : KeepWf (trimGrants p d).keep := by
  unfold trimGrants
  try dsimp only
  repeat' first
    | exact hw
    | assumption
    | split
    | refine foldDev_keepWf _ (fun _ _ _ => ?_) _ _ ?_
    | refine foldl_keepWf _ (fun _ _ _ => ?_) _ _ ?_
    | (simp [-setG_keep, -raise_keep, -onCore_keep, -takeFree_keep, apply_ite KeepWf, apply_ite Dev.keep, *]; done)

@[simp] theorem shedPort_keepWf (p : PortId) (d : Dev) (h : KeepWf d.keep) : KeepWf (shedPort p d).keep := by
  unfold shedPort
  dsimp only
  split
  · refine foldDev_keepWf _ (fun x d hd => ?_) _ _ (foldDev_keepWf _ (fun k d hd => withdrawGrant_keepWf _ _ _ _ hd) _ _ h)
    split
    · exact withdrawContract_keepWf _ _ _ _ hd
    · exact hd
  · exact h

@[simp] theorem shedClass_keepWf (p : PortId) (c : Cls) (d : Dev) (h : KeepWf d.keep) : KeepWf (shedClass p c d).keep := by
  unfold shedClass
  dsimp only
  split
  · refine foldDev_keepWf _ (fun x d hd => ?_) _ _ (foldDev_keepWf _ (fun k d hd => ?_) _ _ h)
    · split
      · exact withdrawContract_keepWf _ _ _ _ hd
      · exact hd
    · repeat' split
      all_goals first | exact hd | exact withdrawGrant_keepWf _ _ _ _ hd
  · exact h

@[simp] theorem shedTenant_keepWf (t : Tenant) (d : Dev) (h : KeepWf d.keep) : KeepWf (shedTenant t d).keep := by
  unfold shedTenant
  dsimp only
  split
  · refine foldDev_keepWf _ (fun x d hd => ?_) _ _ (foldDev_keepWf _ (fun k d hd => ?_) _ _ (foldDev_keepWf _ (fun k d hd => ?_) _ _ h))
    · split
      · exact withdrawContract_keepWf _ _ _ _ hd
      · exact hd
    · repeat' split
      all_goals first | exact hd | exact withdrawGrant_keepWf _ _ _ _ hd
    · repeat' split
      all_goals first | exact hd | exact withdrawGrant_keepWf _ _ _ _ hd
  · exact h

@[simp] theorem relieve_keepWf (d : Dev) (h : KeepWf d.keep) : KeepWf (relieve d).keep := by
  have h0 : KeepWf (d.bothPorts noteThrot).keep := bothPorts_keepWf _ _ (fun _ _ hx => noteThrot_keepWf _ _ hx) h
  unfold relieve
  dsimp only
  generalize d.bothPorts noteThrot = e at h0 ⊢
  have h1 : KeepWf (trimGrants .p1 (trimGrants .p0 e)).keep := trimGrants_keepWf _ _ (trimGrants_keepWf _ _ h0)
  generalize trimGrants .p1 (trimGrants .p0 e) = f at h1 ⊢
  have h2 : KeepWf (shedPort .p1 (shedPort .p0 f)).keep := shedPort_keepWf _ _ (shedPort_keepWf _ _ h1)
  split
  · exact foldDev_keepWf _ (fun t d hd => shedTenant_keepWf t d hd) _ _
      (foldDev_keepWf _ (fun c d hd => shedClass_keepWf _ _ _ (shedClass_keepWf _ _ _ hd)) _ _ h2)
  · exact h1

@[simp] theorem sendWaitPlain_keepWf (p : PortId) (i : Idx) (k : Option Nat) (retry : Nat) (d : Dev) (hw : KeepWf d.keep) : KeepWf (sendWaitPlain p i k retry d).keep := by
  unfold sendWaitPlain
  repeat' split
  all_goals first | rfl | exact hw | simp [-setG_keep, -raise_keep, -onCore_keep, -takeFree_keep, apply_ite KeepWf, apply_ite Dev.keep, hw]

@[simp] theorem sendReject_keepWf (p : PortId) (i : Idx) (k : Option Nat) (reason : Nat) (d : Dev) (hw : KeepWf d.keep) : KeepWf (sendReject p i k reason d).keep := by
  unfold sendReject
  repeat' split
  all_goals first | rfl | exact hw | simp [-setG_keep, -raise_keep, -onCore_keep, -takeFree_keep, apply_ite KeepWf, apply_ite Dev.keep, hw]

@[simp] theorem sendWait_keepWf (p : PortId) (i : Idx) (k : Option Nat) (req : RequestMsg) (arrival code bit : Nat) (d : Dev) (hw : KeepWf d.keep) : KeepWf (sendWait p i k req arrival code bit d).keep := by
  unfold sendWait
  repeat' split
  all_goals first | rfl | exact hw | simp [-setG_keep, -raise_keep, -onCore_keep, -takeFree_keep, apply_ite KeepWf, apply_ite Dev.keep, hw]

@[simp] theorem sendAccept_keepWf (p : PortId) (i : Idx) (k : Nat) (s : Slot) (l : Level) (spec : Bool) (d : Dev) (hw : KeepWf d.keep) :
    KeepWf (sendAccept p i k s l spec d).keep := by
  simp [sendAccept, -setG_keep, -raise_keep, -onCore_keep, -takeFree_keep, apply_ite KeepWf, apply_ite Dev.keep, hw]

@[simp] theorem confirmSlot_keepWf (p : PortId) (k : Nat) (s : Slot) (i : Idx) (l : Level) (d : Dev) (hw : KeepWf d.keep) :
    KeepWf (confirmSlot p k s i l d).keep := by
  simp [confirmSlot, -setG_keep, -raise_keep, -onCore_keep, -takeFree_keep, apply_ite KeepWf, apply_ite Dev.keep, hw]

@[simp] theorem abortSlot_keepWf (sa w : Nat) (p : PortId) (x : Nat × Slot) (d : Dev) (hw : KeepWf d.keep) : KeepWf (abortSlot sa w p x d).keep := by
  unfold abortSlot
  repeat' split
  all_goals first | rfl | exact hw | simp [-setG_keep, -raise_keep, -onCore_keep, -takeFree_keep, apply_ite KeepWf, apply_ite Dev.keep, hw]

@[simp] theorem abortSlots_keepWf (sa w : Nat) (p : PortId) (d : Dev) (hw : KeepWf d.keep) : KeepWf (abortSlots sa w p d).keep := by
  unfold abortSlots
  try dsimp only
  repeat' first
    | exact hw
    | assumption
    | split
    | refine foldDev_keepWf _ (fun _ _ _ => ?_) _ _ ?_
    | refine foldl_keepWf _ (fun _ _ _ => ?_) _ _ ?_
    | (simp [-setG_keep, -raise_keep, -onCore_keep, -takeFree_keep, apply_ite KeepWf, apply_ite Dev.keep, *]; done)

@[simp] theorem levelEnds_keepWf (p : PortId) (d : Dev) (hw : KeepWf d.keep) : KeepWf (levelEnds p d).keep := by
  simp [levelEnds, -setG_keep, -raise_keep, -onCore_keep, -takeFree_keep, apply_ite KeepWf, apply_ite Dev.keep, hw]

@[simp] theorem endAll_keepWf (w : Nat) (p : PortId) (d : Dev) (h : KeepWf d.keep) : KeepWf (endAll w p d).keep := by
  unfold endAll
  split
  · simp [h]
  · exact foldDev_keepWf _ (fun x d hd => endContract_keepWf _ _ _ _ hd) _ _ h

@[simp] theorem setRole_keepWf (p : PortId) (r : Role) (d : Dev) (hw : KeepWf d.keep) : KeepWf (setRole p r d).keep := by
  simp [setRole, -setG_keep, -raise_keep, -onCore_keep, -takeFree_keep, apply_ite KeepWf, apply_ite Dev.keep, hw]

@[simp] theorem railOff_keepWf (p : PortId) (d : Dev) (hw : KeepWf d.keep) : KeepWf (railOff p d).keep := by
  simp [railOff, -setG_keep, -raise_keep, -onCore_keep, -takeFree_keep, apply_ite KeepWf, apply_ite Dev.keep, hw]

@[simp] theorem railOn_keepWf (p : PortId) (d : Dev) (hw : KeepWf d.keep) : KeepWf (railOn p d).keep := by
  simp [railOn, -setG_keep, -raise_keep, -onCore_keep, -takeFree_keep, apply_ite KeepWf, apply_ite Dev.keep, hw]

@[simp] theorem abortRun_keepWf (sa w : Nat) (p : PortId) (d : Dev) (hw : KeepWf d.keep) :
    KeepWf (abortRun sa w p d).keep := by
  simp (maxDischargeDepth := 40) [abortRun, -setG_keep, -raise_keep, -onCore_keep, -takeFree_keep, apply_ite KeepWf, apply_ite Dev.keep, hw]

@[simp] theorem safePort_keepWf (p : PortId) (d : Dev) (hw : KeepWf d.keep) : KeepWf (safePort p d).keep := by
  simp [safePort, -setG_keep, -raise_keep, -onCore_keep, -takeFree_keep, apply_ite KeepWf, apply_ite Dev.keep, hw]

@[simp] theorem postFwu_keepWf (code : Nat) (d : Dev) (hw : KeepWf d.keep) : KeepWf (postFwu code d).keep := by
  simp [postFwu, -setG_keep, -raise_keep, -onCore_keep, -takeFree_keep, apply_ite KeepWf, apply_ite Dev.keep, hw]

@[simp] theorem fwuRefused_keepWf (r : BitVec 3) (d : Dev) (hw : KeepWf d.keep) : KeepWf (fwuRefused r d).keep := by
  simp [fwuRefused, -setG_keep, -raise_keep, -onCore_keep, -takeFree_keep, apply_ite KeepWf, apply_ite Dev.keep, hw]

@[simp] theorem safeEndsWait_keepWf (d : Dev) (hw : KeepWf d.keep) : KeepWf (safeEndsWait d).keep := by
  unfold safeEndsWait
  repeat' split
  all_goals first | rfl | exact hw | simp [-setG_keep, -raise_keep, -onCore_keep, -takeFree_keep, apply_ite KeepWf, apply_ite Dev.keep, hw]

@[simp] theorem enterSafe_keepWf (cause : Nat) (d : Dev) (h : KeepWf d.keep) : KeepWf (enterSafe cause d).keep := by
  unfold enterSafe
  split
  · exact h
  · refine safeEndsWait_keepWf _ (modPort_keepWf _ _ _ (modPort_keepWf _ _ _ (bothPorts_keepWf_of _ (fun p x hx => railOff_keepWf _ _ hx) _
      (bothPorts_keepWf_of _ (fun p x hx => setRole_keepWf _ _ _ hx) _ (bothPorts_keepWf_of _ (fun p x hx => safePort_keepWf _ _ hx) _
      (postGlobal_keepWf _ _ _ _ _ (modPort_keepWf _ _ _ (modPort_keepWf _ _ _ h))))))))

@[simp] theorem markHost_keepWf (n : Nat) (d : Dev) (hw : KeepWf d.keep) : KeepWf (markHost n d).keep := by
  simp [markHost, -setG_keep, -raise_keep, -onCore_keep, -takeFree_keep, apply_ite KeepWf, apply_ite Dev.keep, hw]

@[simp] theorem byHost_keepWf (n : Nat) (f : Dev → Dev) (d : Dev) (hf : KeepWf (f d).keep) (h : KeepWf d.keep) :
    KeepWf (byHost n f d).keep := by
  simp [byHost, apply_ite KeepWf, apply_ite Dev.keep, h, hf]

@[simp] theorem tripRadial_keepWf (cause : Nat) (p : PortId) (d : Dev) (hw : KeepWf d.keep) :
    KeepWf (tripRadial cause p d).keep := by
  simp (maxDischargeDepth := 40) [tripRadial, -setG_keep, -raise_keep, -onCore_keep, -takeFree_keep, apply_ite KeepWf, apply_ite Dev.keep, hw]

@[simp] theorem tripRing_keepWf (cause : Nat) (p : PortId) (d : Dev) (hw : KeepWf d.keep) :
    KeepWf (tripRing cause p d).keep := by
  simp (maxDischargeDepth := 40) [tripRing, -setG_keep, -raise_keep, -onCore_keep, -takeFree_keep, apply_ite KeepWf, apply_ite Dev.keep, hw]

@[simp] theorem tripDraw_keepWf (cause : Nat) (p : PortId) (d : Dev) (hw : KeepWf d.keep) :
    KeepWf (tripDraw cause p d).keep := by
  simp (maxDischargeDepth := 40) [tripDraw, -setG_keep, -raise_keep, -onCore_keep, -takeFree_keep, apply_ite KeepWf, apply_ite Dev.keep, hw]

@[simp] theorem trip_keepWf (cause : Nat) (p : PortId) (d : Dev) (h : KeepWf d.keep) : KeepWf (trip cause p d).keep := by
  unfold trip
  dsimp only
  split
  · split
    · split
      · exact tripRing_keepWf _ _ _ h
      · exact tripRadial_keepWf _ _ _ h
    · exact tripDraw_keepWf _ _ _ h
    · exact h
  · exact h

@[simp] theorem tripFirst_keepWf (own : Nat) (p : PortId) (c : Crossing) (d : Dev) (hw : KeepWf d.keep) : KeepWf (tripFirst own p c d).keep := by
  simp [tripFirst, -setG_keep, -raise_keep, -onCore_keep, -takeFree_keep, apply_ite KeepWf, apply_ite Dev.keep, hw]

@[simp] theorem mismatch_keepWf (p : PortId) (d : Dev) (hw : KeepWf d.keep) : KeepWf (mismatch p d).keep := by
  simp [mismatch, -setG_keep, -raise_keep, -onCore_keep, -takeFree_keep, apply_ite KeepWf, apply_ite Dev.keep, hw]

@[simp] theorem stopReclosing_keepWf (p : PortId) (d : Dev) (hw : KeepWf d.keep) : KeepWf (stopReclosing p d).keep := by
  simp [stopReclosing, -setG_keep, -raise_keep, -onCore_keep, -takeFree_keep, apply_ite KeepWf, apply_ite Dev.keep, hw]

@[simp] theorem guardClear_keepWf (p : PortId) (d : Dev) (hw : KeepWf d.keep) : KeepWf (guardClear p d).keep := by
  simp [guardClear, -setG_keep, -raise_keep, -onCore_keep, -takeFree_keep, apply_ite KeepWf, apply_ite Dev.keep, hw]

@[simp] theorem dueSettings_keepWf (d : Dev) (hw : KeepWf d.keep) : KeepWf (dueSettings d).keep := by
  simp [dueSettings, -setG_keep, -raise_keep, -onCore_keep, -takeFree_keep, apply_ite KeepWf, apply_ite Dev.keep, hw]

@[simp] theorem guardAuto_keepWf (v : Bool) (p : PortId) (d : Dev) (hw : KeepWf d.keep) :
    KeepWf (guardAuto v p d).keep := by
  simp [guardAuto, -setG_keep, -raise_keep, -onCore_keep, -takeFree_keep, apply_ite KeepWf, apply_ite Dev.keep, hw]

@[simp] theorem writeIlim_keepWf (p : PortId) (v : Half) (d : Dev) (hw : KeepWf d.keep) :
    KeepWf (writeIlim p v d).keep := by
  simp [writeIlim, -setG_keep, -raise_keep, -onCore_keep, -takeFree_keep, apply_ite KeepWf, apply_ite Dev.keep, hw]

@[simp] theorem writeIfast_keepWf (p : PortId) (v : Half) (d : Dev) (hw : KeepWf d.keep) :
    KeepWf (writeIfast p v d).keep := by
  simp [writeIfast, -setG_keep, -raise_keep, -onCore_keep, -takeFree_keep, apply_ite KeepWf, apply_ite Dev.keep, hw]

@[simp] theorem leaveSafe_keepWf (d : Dev) (hw : KeepWf d.keep) : KeepWf (leaveSafe d).keep := by
  simp [leaveSafe, -setG_keep, -raise_keep, -onCore_keep, -takeFree_keep, apply_ite KeepWf, apply_ite Dev.keep, hw]

@[simp] theorem dropAwaiting_keepWf (p : PortId) (above : Level → Bool) (d : Dev) (hw : KeepWf d.keep) : KeepWf (dropAwaiting p above d).keep := by
  unfold dropAwaiting
  try dsimp only
  repeat' first
    | exact hw
    | assumption
    | split
    | refine foldDev_keepWf _ (fun _ _ _ => ?_) _ _ ?_
    | refine foldl_keepWf _ (fun _ _ _ => ?_) _ _ ?_
    | (simp [-setG_keep, -raise_keep, -onCore_keep, -takeFree_keep, apply_ite KeepWf, apply_ite Dev.keep, *]; done)

@[simp] theorem abortStep_keepWf (p : PortId) (d : Dev) (hw : KeepWf d.keep) : KeepWf (abortStep p d).keep := by
  unfold abortStep
  repeat' split
  all_goals first | rfl | exact hw | simp [-setG_keep, -raise_keep, -onCore_keep, -takeFree_keep, apply_ite KeepWf, apply_ite Dev.keep, hw]

@[simp] theorem shedForLevel_keepWf (p : PortId) (l : Level) (d : Dev) (h : KeepWf d.keep) : KeepWf (shedForLevel p l d).keep := by
  unfold shedForLevel
  dsimp only
  refine foldDev_keepWf _ (fun x d hd => ?_) _ _ (foldDev_keepWf _ (fun x d hd => ?_) _ _ h)
  · split
    · exact withdrawContract_keepWf _ _ _ _ hd
    · exact hd
  · split
    · exact withdrawContract_keepWf _ _ _ _ hd
    · exact hd

@[simp] theorem shedDown_keepWf (p : PortId) (top : Level) (d : Dev) (hw : KeepWf d.keep) : KeepWf (shedDown p top d).keep := by
  simp [shedDown, -setG_keep, -raise_keep, -onCore_keep, -takeFree_keep, apply_ite KeepWf, apply_ite Dev.keep, hw]

@[simp] theorem settleStep_keepWf (p : PortId) (st : LevelStep) (d : Dev) (hw : KeepWf d.keep) : KeepWf (settleStep p st d).keep := by
  simp (maxDischargeDepth := 40) [settleStep, -setG_keep, -raise_keep, -onCore_keep, -takeFree_keep, apply_ite KeepWf, apply_ite Dev.keep, hw]

@[simp] theorem setFault_keepWf (p : PortId) (d : Dev) (hw : KeepWf d.keep) : KeepWf (setFault p d).keep := by
  simp [setFault, -setG_keep, -raise_keep, -onCore_keep, -takeFree_keep, apply_ite KeepWf, apply_ite Dev.keep, hw]

@[simp] theorem writeLevel_keepWf (p : PortId) (hold : Bool) (tgt : Level) (d : Dev) (hw : KeepWf d.keep) :
    KeepWf (writeLevel p hold tgt d).keep := by
  simp [writeLevel, -setG_keep, -raise_keep, -onCore_keep, -takeFree_keep, apply_ite KeepWf, apply_ite Dev.keep, hw]

@[simp] theorem coreTarget_keepWf (p : PortId) (l : Level) (d : Dev) (hw : KeepWf d.keep) :
    KeepWf (coreTarget p l d).keep := by
  simp [coreTarget, -setG_keep, -raise_keep, -onCore_keep, -takeFree_keep, apply_ite KeepWf, apply_ite Dev.keep, hw]

@[simp] theorem followTop_keepWf (p : PortId) (d : Dev) (hw : KeepWf d.keep) : KeepWf (followTop p d).keep := by
  simp [followTop, -setG_keep, -raise_keep, -onCore_keep, -takeFree_keep, apply_ite KeepWf, apply_ite Dev.keep, hw]

@[simp] theorem shedLate_keepWf (p : PortId) (d : Dev) (hw : KeepWf d.keep) : KeepWf (shedLate p d).keep := by
  simp [shedLate, -setG_keep, -raise_keep, -onCore_keep, -takeFree_keep, apply_ite KeepWf, apply_ite Dev.keep, hw]

@[simp] theorem writeLmax_keepWf (p : PortId) (l : Level) (d : Dev) (hw : KeepWf d.keep) :
    KeepWf (writeLmax p l d).keep := by
  simp [writeLmax, -setG_keep, -raise_keep, -onCore_keep, -takeFree_keep, apply_ite KeepWf, apply_ite Dev.keep, hw]

@[simp] theorem toneCutsPulse_keepWf (p : PortId) (d : Dev) (hw : KeepWf d.keep) : KeepWf (toneCutsPulse p d).keep := by
  unfold toneCutsPulse
  repeat' split
  all_goals first | rfl | exact hw | simp [-setG_keep, -raise_keep, -onCore_keep, -takeFree_keep, apply_ite KeepWf, apply_ite Dev.keep, hw]

@[simp] theorem droopRespond_keepWf (p : PortId) (d : Dev) (hw : KeepWf d.keep) : KeepWf (droopRespond p d).keep := by
  simp (maxDischargeDepth := 40) [droopRespond, -setG_keep, -raise_keep, -onCore_keep, -takeFree_keep, apply_ite KeepWf, apply_ite Dev.keep, hw]

@[simp] theorem droopCleared_keepWf (p : PortId) (d : Dev) (hw : KeepWf d.keep) : KeepWf (droopCleared p d).keep := by
  simp [droopCleared, -setG_keep, -raise_keep, -onCore_keep, -takeFree_keep, apply_ite KeepWf, apply_ite Dev.keep, hw]

@[simp] theorem droopPersists_keepWf (p : PortId) (d : Dev) (hw : KeepWf d.keep) : KeepWf (droopPersists p d).keep := by
  simp (maxDischargeDepth := 40) [droopPersists, -setG_keep, -raise_keep, -onCore_keep, -takeFree_keep, apply_ite KeepWf, apply_ite Dev.keep, hw]

@[simp] theorem pllNeed_keepWf (d : Dev) (hw : KeepWf d.keep) : KeepWf (pllNeed d).keep := by
  simp [pllNeed, -setG_keep, -raise_keep, -onCore_keep, -takeFree_keep, apply_ite KeepWf, apply_ite Dev.keep, hw]

@[simp] theorem shutFeed_keepWf (p : PortId) (d : Dev) (hw : KeepWf d.keep) : KeepWf (shutFeed p d).keep := by
  simp (maxDischargeDepth := 40) [shutFeed, -setG_keep, -raise_keep, -onCore_keep, -takeFree_keep, apply_ite KeepWf, apply_ite Dev.keep, hw]

@[simp] theorem shutDraw_keepWf (p : PortId) (d : Dev) (hw : KeepWf d.keep) : KeepWf (shutDraw p d).keep := by
  simp [shutDraw, -setG_keep, -raise_keep, -onCore_keep, -takeFree_keep, apply_ite KeepWf, apply_ite Dev.keep, hw]

@[simp] theorem leaveRole_keepWf (p : PortId) (d : Dev) (h : KeepWf d.keep) : KeepWf (leaveRole p d).keep := by
  unfold leaveRole
  split
  · exact relieve_keepWf _ (shutFeed_keepWf _ _ h)
  · exact relieve_keepWf _ (shutDraw_keepWf _ _ h)
  · exact h

@[simp] theorem unpark_keepWf (d : Dev) (hw : KeepWf d.keep) : KeepWf (unpark d).keep := by
  simp [unpark, -setG_keep, -raise_keep, -onCore_keep, -takeFree_keep, apply_ite KeepWf, apply_ite Dev.keep, hw]

@[simp] theorem enterFeed_keepWf (p : PortId) (d : Dev) (hw : KeepWf d.keep) : KeepWf (enterFeed p d).keep := by
  simp [enterFeed, -setG_keep, -raise_keep, -onCore_keep, -takeFree_keep, apply_ite KeepWf, apply_ite Dev.keep, hw]

@[simp] theorem enterDraw_keepWf (p : PortId) (d : Dev) (hw : KeepWf d.keep) : KeepWf (enterDraw p d).keep := by
  simp [enterDraw, -setG_keep, -raise_keep, -onCore_keep, -takeFree_keep, apply_ite KeepWf, apply_ite Dev.keep, hw]

@[simp] theorem applyRole_keepWf (p : PortId) (r : Role) (d : Dev) (hw : KeepWf d.keep) : KeepWf (applyRole p r d).keep := by
  unfold applyRole
  repeat' split
  all_goals first | rfl | exact hw | simp (maxDischargeDepth := 40) [-setG_keep, -raise_keep, -onCore_keep, -takeFree_keep, apply_ite KeepWf, apply_ite Dev.keep, hw]

@[simp] theorem denyRole_keepWf (p : PortId) (code : Nat) (d : Dev) (hw : KeepWf d.keep) :
    KeepWf (denyRole p code d).keep := by
  simp [denyRole, -setG_keep, -raise_keep, -onCore_keep, -takeFree_keep, apply_ite KeepWf, apply_ite Dev.keep, hw]

@[simp] theorem putRole_keepWf (p : PortId) (r : Role) (d : Dev) (hw : KeepWf d.keep) : KeepWf (putRole p r d).keep := by
  simp [putRole, -setG_keep, -raise_keep, -onCore_keep, -takeFree_keep, apply_ite KeepWf, apply_ite Dev.keep, hw]

@[simp] theorem takeRole_keepWf (p : PortId) (r : Role) (d : Dev) (hw : KeepWf d.keep) : KeepWf (takeRole p r d).keep := by
  simp [takeRole, -setG_keep, -raise_keep, -onCore_keep, -takeFree_keep, apply_ite KeepWf, apply_ite Dev.keep, hw]

@[simp] theorem writeRole_keepWf (p : PortId) (c : BitVec 2) (d : Dev) (hw : KeepWf d.keep) : KeepWf (writeRole p c d).keep := by
  unfold writeRole
  repeat' split
  all_goals first | rfl | exact hw | simp [-setG_keep, -raise_keep, -onCore_keep, -takeFree_keep, apply_ite KeepWf, apply_ite Dev.keep, hw]

@[simp] theorem disablePort_keepWf (p : PortId) (d : Dev) (hw : KeepWf d.keep) : KeepWf (disablePort p d).keep := by
  simp [disablePort, -setG_keep, -raise_keep, -onCore_keep, -takeFree_keep, apply_ite KeepWf, apply_ite Dev.keep, hw]

@[simp] theorem enablePort_keepWf (p : PortId) (d : Dev) (hw : KeepWf d.keep) : KeepWf (enablePort p d).keep := by
  unfold enablePort
  dsimp only
  repeat' split
  all_goals first | rfl | exact hw | simp [-setG_keep, -raise_keep, -onCore_keep, -takeFree_keep, apply_ite KeepWf, apply_ite Dev.keep, hw] | simp_all [-setG_keep, -raise_keep, -onCore_keep, -takeFree_keep, apply_ite KeepWf, apply_ite Dev.keep]

@[simp] theorem writeEn_keepWf (p : PortId) (v : Bool) (d : Dev) (hw : KeepWf d.keep) : KeepWf (writeEn p v d).keep := by
  simp [writeEn, -setG_keep, -raise_keep, -onCore_keep, -takeFree_keep, apply_ite KeepWf, apply_ite Dev.keep, hw]

@[simp] theorem writeAuto_keepWf (p : PortId) (v : Bool) (d : Dev) (hw : KeepWf d.keep) :
    KeepWf (writeAuto p v d).keep := by
  simp [writeAuto, -setG_keep, -raise_keep, -onCore_keep, -takeFree_keep, apply_ite KeepWf, apply_ite Dev.keep, hw]

@[simp] theorem writePs2_keepWf (p : PortId) (v : Bool) (d : Dev) (hw : KeepWf d.keep) :
    KeepWf (writePs2 p v d).keep := by
  simp [writePs2, -setG_keep, -raise_keep, -onCore_keep, -takeFree_keep, apply_ite KeepWf, apply_ite Dev.keep, hw]

@[simp] theorem writeFixed_keepWf (p : PortId) (v : Bool) (d : Dev) (hw : KeepWf d.keep) :
    KeepWf (writeFixed p v d).keep := by
  simp [writeFixed, -setG_keep, -raise_keep, -onCore_keep, -takeFree_keep, apply_ite KeepWf, apply_ite Dev.keep, hw]

@[simp] theorem writePctl_keepWf (p : PortId) (v : Half) (d : Dev) (hw : KeepWf d.keep) : KeepWf (writePctl p v d).keep := by
  unfold writePctl
  dsimp only
  repeat' split
  all_goals first | rfl | exact hw | simp (maxDischargeDepth := 40) [-setG_keep, -raise_keep, -onCore_keep, -takeFree_keep, apply_ite KeepWf, apply_ite Dev.keep, hw] | simp_all [-setG_keep, -raise_keep, -onCore_keep, -takeFree_keep, apply_ite KeepWf, apply_ite Dev.keep]

@[simp] theorem requestSwap_keepWf (p : PortId) (d : Dev) (hw : KeepWf d.keep) : KeepWf (requestSwap p d).keep := by
  simp [requestSwap, -setG_keep, -raise_keep, -onCore_keep, -takeFree_keep, apply_ite KeepWf, apply_ite Dev.keep, hw]

@[simp] theorem writeRailEn_keepWf (p : PortId) (v : Bool) (d : Dev) (hw : KeepWf d.keep) :
    KeepWf (writeRailEn p v d).keep := by
  simp [writeRailEn, -setG_keep, -raise_keep, -onCore_keep, -takeFree_keep, apply_ite KeepWf, apply_ite Dev.keep, hw]

@[simp] theorem emergencyOff_keepWf (d : Dev) (hw : KeepWf d.keep) : KeepWf (emergencyOff d).keep := by
  simp [emergencyOff, -setG_keep, -raise_keep, -onCore_keep, -takeFree_keep, apply_ite KeepWf, apply_ite Dev.keep, hw]

@[simp] theorem releaseEoff_keepWf (d : Dev) (hw : KeepWf d.keep) : KeepWf (releaseEoff d).keep := by
  simp [releaseEoff, -setG_keep, -raise_keep, -onCore_keep, -takeFree_keep, apply_ite KeepWf, apply_ite Dev.keep, hw]

@[simp] theorem writeLock_keepWf (v : Half) (d : Dev) (hw : KeepWf d.keep) : KeepWf (writeLock v d).keep := by
  unfold writeLock
  dsimp only
  repeat' split
  all_goals first | rfl | exact hw | simp [-setG_keep, -raise_keep, -onCore_keep, -takeFree_keep, apply_ite KeepWf, apply_ite Dev.keep, hw] | simp_all [-setG_keep, -raise_keep, -onCore_keep, -takeFree_keep, apply_ite KeepWf, apply_ite Dev.keep]

@[simp] theorem bpRefused_keepWf (d : Dev) (hw : KeepWf d.keep) : KeepWf (bpRefused d).keep := by
  simp [bpRefused, -setG_keep, -raise_keep, -onCore_keep, -takeFree_keep, apply_ite KeepWf, apply_ite Dev.keep, hw]

@[simp] theorem keepRefused_keepWf (code : Nat) (d : Dev) (hw : KeepWf d.keep) : KeepWf (keepRefused code d).keep := by
  simp (maxDischargeDepth := 40) [keepRefused, -setG_keep, -raise_keep, -onCore_keep, -takeFree_keep, apply_ite KeepWf, apply_ite Dev.keep, hw]

@[simp] theorem issue_keepWf (c : Commit) (d : Dev) (hw : KeepWf d.keep) : KeepWf (issue c d).2.keep := by
  unfold issue
  repeat' split
  all_goals first | rfl | exact hw | simp [-setG_keep, -raise_keep, -onCore_keep, -takeFree_keep, apply_ite KeepWf, apply_ite Dev.keep, hw]

@[simp] theorem keepAhead_keepWf (k : Keep) (h : KeepWf k) : KeepWf (keepAhead k) := by
  have hf : ∀ (l : List Commit) (m : Sparse Byte), Memory.wf m = true →
      Memory.wf (l.foldl (fun e c => writeCells e c.writes) m) = true := by
    intro l
    induction l with
    | nil => intro m hm; exact hm
    | cons c t ih => intro m hm; exact ih _ (wf_writeCells _ _ hm)
  refine ⟨hf _ _ ?_, h.2⟩
  cases k.run with
  | none => exact h.1
  | some r => exact wf_writeCells _ _ h.1

@[simp] theorem pageWrite_keepWf (x : Nat × List Byte) (k : Keep) (hw : KeepWf k) : KeepWf (pageWrite x k) := by
  simp [pageWrite, -setG_keep, -raise_keep, -onCore_keep, -takeFree_keep, apply_ite KeepWf, apply_ite Dev.keep, hw]

@[simp] theorem commitWrites_keepWf (n : Nat) (r : Running) (k : Keep) (h : KeepWf k) : KeepWf (commitWrites n r k) := by
  unfold commitWrites
  exact foldlKeep_keepWf _ (fun x a hx => pageWrite_keepWf a x hx) _ _ h

@[simp] theorem cleanGroups_keepWf (ws : List Host.Cell) (k : Keep) (h : KeepWf k) : KeepWf (cleanGroups ws k) := by
  unfold cleanGroups
  refine foldlKeep_keepWf _ (fun x g hx => ?_) _ _ h
  apply poisonClear_keepWf
  exact hx

@[simp] theorem interruptCommit_keepWf (n : Nat) (k : Keep) (hw : KeepWf k) : KeepWf (interruptCommit n k) := by
  unfold interruptCommit
  repeat' split
  all_goals first | rfl | exact hw | simp [-setG_keep, -raise_keep, -onCore_keep, -takeFree_keep, apply_ite KeepWf, apply_ite Dev.keep, hw]

@[simp] theorem stopCommit_keepWf (n : Nat) (r : Running) (k : Keep) (hw : KeepWf k) : KeepWf (stopCommit n r k) := by
  simp (maxDischargeDepth := 40) [stopCommit, -setG_keep, -raise_keep, -onCore_keep, -takeFree_keep, apply_ite KeepWf, apply_ite Dev.keep, hw]

@[simp] theorem rollBack_keepWf (r : Running) (k : Keep) (h : KeepWf k) : KeepWf (rollBack r k) := by
  unfold rollBack
  exact pageWrite_keepWf _ _ (foldlKeep_keepWf _ (fun x a hx => pageWrite_keepWf a x hx) _ _ h)

@[simp] theorem writeHome_keepWf (j : JHeader) (off : Nat) (l : List (Nat × Nat)) (k : Keep) (h : KeepWf k) :
    KeepWf (writeHome j off l k) := by
  induction l generalizing k with
  | nil => exact h
  | cons x t ih =>
    obtain ⟨pg, i⟩ := x
    apply ih
    split
    · exact eWrite_keepWf _ _ _ h
    · exact poisonAdd_keepWf _ _ _ h

@[simp] theorem deviceFrom_keepWf (k : Keep) (d : Dev) (hw : KeepWf d.keep) : KeepWf (deviceFrom k d).keep := by
  simp [deviceFrom, -setG_keep, -raise_keep, -onCore_keep, -takeFree_keep, apply_ite KeepWf, apply_ite Dev.keep, hw]

@[simp] theorem loadSettings_keepWf (d : Dev) (hw : KeepWf d.keep) : KeepWf (loadSettings d).keep := by
  simp [loadSettings, -setG_keep, -raise_keep, -onCore_keep, -takeFree_keep, apply_ite KeepWf, apply_ite Dev.keep, hw]

@[simp] theorem loadTuning_keepWf (d : Dev) (hw : KeepWf d.keep) : KeepWf (loadTuning d).keep := by
  simp [loadTuning, -setG_keep, -raise_keep, -onCore_keep, -takeFree_keep, apply_ite KeepWf, apply_ite Dev.keep, hw]

@[simp] theorem beginMigration_keepWf (d : Dev) (hw : KeepWf d.keep) : KeepWf (beginMigration d).keep := by
  simp [beginMigration, -setG_keep, -raise_keep, -onCore_keep, -takeFree_keep, apply_ite KeepWf, apply_ite Dev.keep, hw]

@[simp] theorem loadTenants_keepWf (d : Dev) (hw : KeepWf d.keep) : KeepWf (loadTenants d).keep := by
  unfold loadTenants
  dsimp only
  repeat' split
  all_goals first | rfl | exact hw | simp [-setG_keep, -raise_keep, -onCore_keep, -takeFree_keep, apply_ite KeepWf, apply_ite Dev.keep, hw] | simp_all [-setG_keep, -raise_keep, -onCore_keep, -takeFree_keep, apply_ite KeepWf, apply_ite Dev.keep]

@[simp] theorem loadOwner_keepWf (d : Dev) (hw : KeepWf d.keep) : KeepWf (loadOwner d).keep := by
  unfold loadOwner
  dsimp only
  repeat' split
  all_goals first | rfl | exact hw | simp [-setG_keep, -raise_keep, -onCore_keep, -takeFree_keep, apply_ite KeepWf, apply_ite Dev.keep, hw] | simp_all [-setG_keep, -raise_keep, -onCore_keep, -takeFree_keep, apply_ite KeepWf, apply_ite Dev.keep]

@[simp] theorem dueCopies_keepWf (d : Dev) (hw : KeepWf d.keep) : KeepWf (dueCopies d).keep := by
  simp [dueCopies, -setG_keep, -raise_keep, -onCore_keep, -takeFree_keep, apply_ite KeepWf, apply_ite Dev.keep, hw]

@[simp] theorem loadKeep_keepWf (d : Dev) (hw : KeepWf d.keep) : KeepWf (loadKeep d).keep := by
  simp (maxDischargeDepth := 40) [loadKeep, -setG_keep, -raise_keep, -onCore_keep, -takeFree_keep, apply_ite KeepWf, apply_ite Dev.keep, hw]

@[simp] theorem onChange_keepWf {α : Type} [DecidableEq α] (a b : α) (f : Dev → Dev) (d : Dev)
    (hf : KeepWf (f d).keep) (h : KeepWf d.keep) : KeepWf (onChange a b f d).keep := by
  simp [onChange, apply_ite KeepWf, apply_ite Dev.keep, h, hf]

@[simp] theorem ceilingActs_keepWf (p : PortId) (i : Idx) (d : Dev) (hw : KeepWf d.keep) :
    KeepWf (ceilingActs p i d).keep := by
  simp [ceilingActs, -setG_keep, -raise_keep, -onCore_keep, -takeFree_keep, apply_ite KeepWf, apply_ite Dev.keep, hw]

@[simp] theorem newCeilings_keepWf (p : PortId) (f : Port → RosterRec → RosterRec) (d : Dev) (hw : KeepWf d.keep) :
    KeepWf (newCeilings p f d).keep := by
  refine foldDev_keepWf _ (fun x d hd => ?_) _ _ hw
  dsimp only
  split
  · exact hd
  · exact ceilingActs_keepWf _ _ _ (dirtyPage_keepWf _ _ _ (modPort_keepWf _ _ _ hd))

@[simp] theorem applyPort_keepWf (p : PortId) (old new : List Byte) (d : Dev) (h : KeepWf d.keep) :
    KeepWf (applyPort p old new d).keep := by
  unfold applyPort
  generalize portFrom old {} = o
  generalize portFrom new {} = n
  dsimp only
  iterate 25
    refine onChange_keepWf_of _ _ _ (fun x hx => ?_) _ ?_
    · try dsimp only [Function.comp_apply]
      with_reducible first
        | exact modPort_keepWf _ _ _ hx
        | exact relieve_keepWf _ (modPort_keepWf _ _ _ hx)
        | exact newCeilings_keepWf _ _ _ (relieve_keepWf _ (modPort_keepWf _ _ _ hx))
        | exact newCeilings_keepWf _ _ _ (modPort_keepWf _ _ _ hx)
        | exact writeLmax_keepWf _ _ _ hx
        | exact writeFixed_keepWf _ _ _ hx
        | exact writePs2_keepWf _ _ _ hx
        | exact writeAuto_keepWf _ _ _ hx
        | exact writeIfast_keepWf _ _ _ hx
        | exact writeIlim_keepWf _ _ _ hx
        | exact guardAuto_keepWf _ _ _ hx
        | exact writeRailEn_keepWf _ _ _ hx
  exact h

@[simp] theorem applyDevice_keepWf (k0 k1 : Keep) (d : Dev) (hw : KeepWf d.keep) :
    KeepWf (applyDevice k0 k1 d).keep := by
  simp [applyDevice, -setG_keep, -raise_keep, -onCore_keep, -takeFree_keep, apply_ite KeepWf, apply_ite Dev.keep, hw]

@[simp] theorem keepwinApply_keepWf (ws : List Host.Cell) (k0 : Keep) (d : Dev) (hw : KeepWf d.keep) :
    KeepWf (keepwinApply ws k0 d).keep := by
  simp (maxDischargeDepth := 40) [keepwinApply, -setG_keep, -raise_keep, -onCore_keep, -takeFree_keep, apply_ite KeepWf, apply_ite Dev.keep, hw]

@[simp] theorem storeFailed_keepWf (d : Dev) (hw : KeepWf d.keep) : KeepWf (storeFailed d).keep := by
  simp (maxDischargeDepth := 40) [storeFailed, -setG_keep, -raise_keep, -onCore_keep, -takeFree_keep, apply_ite KeepWf, apply_ite Dev.keep, hw]

@[simp] theorem beginStore_keepWf (d : Dev) (hw : KeepWf d.keep) : KeepWf (beginStore d).keep := by
  simp [beginStore, -setG_keep, -raise_keep, -onCore_keep, -takeFree_keep, apply_ite KeepWf, apply_ite Dev.keep, hw]

@[simp] theorem requestStore_keepWf (d : Dev) (hw : KeepWf d.keep) : KeepWf (requestStore d).keep := by
  simp [requestStore, -setG_keep, -raise_keep, -onCore_keep, -takeFree_keep, apply_ite KeepWf, apply_ite Dev.keep, hw]

@[simp] theorem finishStore_keepWf (k : Keep) (hw : KeepWf k) : KeepWf (finishStore k) := by
  unfold finishStore
  repeat' split
  all_goals first | rfl | exact hw | simp [-setG_keep, -raise_keep, -onCore_keep, -takeFree_keep, apply_ite KeepWf, apply_ite Dev.keep, hw]

@[simp] theorem writeS_keepWf (a : Nat) (l : List Byte) (now : Nat) (k : Keep) (hw : KeepWf k) : KeepWf (writeS a l now k) := by
  unfold writeS
  repeat' split
  all_goals first | rfl | exact hw | simp [-setG_keep, -raise_keep, -onCore_keep, -takeFree_keep, apply_ite KeepWf, apply_ite Dev.keep, hw]

@[simp] theorem parkFeeds_keepWf (d : Dev) (h : KeepWf d.keep) : KeepWf (parkFeeds d).keep := by
  refine bothPorts_keepWf_of _ (fun p x hx => ?_) _ h
  split
  · exact leaveRole_keepWf _ _ hx
  · exact hx

@[simp] theorem parkFinish_keepWf (d : Dev) (h : KeepWf d.keep) : KeepWf (parkFinish d).keep :=
  postGlobal_keepWf _ _ _ _ _ (bothPorts_keepWf_of _ (fun _ _ hx => leaveRole_keepWf _ _ hx) _ h)

@[simp] theorem parkStore_keepWf (d : Dev) (hw : KeepWf d.keep) : KeepWf (parkStore d).keep := by
  simp [parkStore, -setG_keep, -raise_keep, -onCore_keep, -takeFree_keep, apply_ite KeepWf, apply_ite Dev.keep, hw]

@[simp] theorem parkAfterHandOff_keepWf (d : Dev) (hw : KeepWf d.keep) : KeepWf (parkAfterHandOff d).keep := by
  simp [parkAfterHandOff, -setG_keep, -raise_keep, -onCore_keep, -takeFree_keep, apply_ite KeepWf, apply_ite Dev.keep, hw]

@[simp] theorem parkAdvance_keepWf (d : Dev) (hw : KeepWf d.keep) : KeepWf (parkAdvance d).keep := by
  unfold parkAdvance
  repeat' split
  all_goals first | rfl | exact hw | simp [-setG_keep, -raise_keep, -onCore_keep, -takeFree_keep, apply_ite KeepWf, apply_ite Dev.keep, hw]

@[simp] theorem parkRails_keepWf (d : Dev) (h : KeepWf d.keep) : KeepWf (parkRails d).keep := by
  unfold parkRails
  refine bothPorts_keepWf _ _ (fun p x hx => ?_) h
  split
  · exact requestSwap_keepWf _ _ hx
  · exact hx

@[simp] theorem beginPark_keepWf (d : Dev) (hw : KeepWf d.keep) : KeepWf (beginPark d).keep := by
  simp [beginPark, -setG_keep, -raise_keep, -onCore_keep, -takeFree_keep, apply_ite KeepWf, apply_ite Dev.keep, hw]

@[simp] theorem writePark_keepWf (d : Dev) (hw : KeepWf d.keep) : KeepWf (writePark d).keep := by
  simp [writePark, -setG_keep, -raise_keep, -onCore_keep, -takeFree_keep, apply_ite KeepWf, apply_ite Dev.keep, hw]

@[simp] theorem mbxOutcome_keepWf (r : Byte) (res : List Half) (d : Dev) (hw : KeepWf d.keep) :
    KeepWf (mbxOutcome r res d).keep := by
  simp [mbxOutcome, -setG_keep, -raise_keep, -onCore_keep, -takeFree_keep, apply_ite KeepWf, apply_ite Dev.keep, hw]

@[simp] theorem mbxEnds_keepWf (r : Byte) (res : List Half) (d : Dev) (hw : KeepWf d.keep) :
    KeepWf (mbxEnds r res d).keep := by
  simp [mbxEnds, -setG_keep, -raise_keep, -onCore_keep, -takeFree_keep, apply_ite KeepWf, apply_ite Dev.keep, hw]

@[simp] theorem ownerApplies_keepWf (o : Owner) (closes : Bool) (d : Dev) (hw : KeepWf d.keep) :
    KeepWf (ownerApplies o closes d).keep := by
  simp [ownerApplies, -setG_keep, -raise_keep, -onCore_keep, -takeFree_keep, apply_ite KeepWf, apply_ite Dev.keep, hw]

@[simp] theorem commitEnds_keepWf (c : Commit) (k0 : Keep) (d : Dev) (hw : KeepWf d.keep) : KeepWf (commitEnds c k0 d).keep := by
  unfold commitEnds
  repeat' split
  all_goals first | rfl | exact hw | simp [-setG_keep, -raise_keep, -onCore_keep, -takeFree_keep, apply_ite KeepWf, apply_ite Dev.keep, hw]

@[simp] theorem rereadReception_keepWf (d : Dev) (hw : KeepWf d.keep) : KeepWf (rereadReception d).keep := by
  simp [rereadReception, -setG_keep, -raise_keep, -onCore_keep, -takeFree_keep, apply_ite KeepWf, apply_ite Dev.keep, hw]

@[simp] theorem dueLater_keepWf (x : Due) (d : Dev) (hw : KeepWf d.keep) : KeepWf (dueLater x d).keep := by
  simp [dueLater, -setG_keep, -raise_keep, -onCore_keep, -takeFree_keep, apply_ite KeepWf, apply_ite Dev.keep, hw]

@[simp] theorem commitLost_keepWf (d1 : Dev) (c : Commit) (hw : KeepWf d1.keep) : KeepWf (commitLost d1 c).keep := by
  unfold commitLost
  repeat' split
  all_goals first | rfl | exact hw | simp [-setG_keep, -raise_keep, -onCore_keep, -takeFree_keep, apply_ite KeepWf, apply_ite Dev.keep, hw]

@[simp] theorem commitRefused_keepWf (d : Dev) (c : Commit) (hw : KeepWf d.keep) : KeepWf (commitRefused d c).keep := by
  simp [commitRefused, -setG_keep, -raise_keep, -onCore_keep, -takeFree_keep, apply_ite KeepWf, apply_ite Dev.keep, hw]

@[simp] theorem commitDurable_keepWf (d : Dev) (hw : KeepWf d.keep) : KeepWf (commitDurable d).keep := by
  unfold commitDurable
  repeat' split
  all_goals first | rfl | exact hw | simp (maxDischargeDepth := 40) [-setG_keep, -raise_keep, -onCore_keep, -takeFree_keep, apply_ite KeepWf, apply_ite Dev.keep, hw]

@[simp] theorem startCommit_keepWf (d : Dev) (hw : KeepWf d.keep) : KeepWf (startCommit d).keep := by
  unfold startCommit
  repeat' split
  all_goals first | rfl | exact hw | simp [-setG_keep, -raise_keep, -onCore_keep, -takeFree_keep, apply_ite KeepWf, apply_ite Dev.keep, hw]

@[simp] theorem issueDue_keepWf (x : Due) (cs : List Commit) (d : Dev) (h : KeepWf d.keep) : KeepWf (issueDue x cs d).keep := by
  unfold issueDue
  split
  · have h0 : KeepWf { d.keep with due := d.keep.due.erase x } := h
    cases cs with
    | nil => exact h0
    | cons c t =>
      dsimp only
      have h1 := issue_keepWf c { d with keep := { d.keep with due := d.keep.due.erase x } } h0
      dsimp only at h1
      split
      · exact foldl_keepWf _ (fun d c hd => issue_keepWf _ _ hd) _ _ h1
      · split
        · exact dueLater_keepWf _ _ h1
        · exact h1
  · exact h

@[simp] theorem issueRosterPage_keepWf (p : PortId) (pg : Nat) (x : Due) (d : Dev) (hw : KeepWf d.keep) :
    KeepWf (issueRosterPage p pg x d).keep := by
  simp [issueRosterPage, -setG_keep, -raise_keep, -onCore_keep, -takeFree_keep, apply_ite KeepWf, apply_ite Dev.keep, hw]

@[simp] theorem issueTuningReset_keepWf (d : Dev) (hw : KeepWf d.keep) : KeepWf (issueTuningReset d).keep := by
  simp [issueTuningReset, -setG_keep, -raise_keep, -onCore_keep, -takeFree_keep, apply_ite KeepWf, apply_ite Dev.keep, hw]

@[simp] theorem issueNext_keepWf (d : Dev) (hw : KeepWf d.keep) : KeepWf (issueNext d).keep := by
  unfold issueNext
  dsimp only
  repeat' split
  all_goals first | rfl | exact hw | simp [-setG_keep, -raise_keep, -onCore_keep, -takeFree_keep, apply_ite KeepWf, apply_ite Dev.keep, hw]

@[simp] theorem refuseQueue_keepWf (d : Dev) (hw : KeepWf d.keep) : KeepWf (refuseQueue d).keep := by
  unfold refuseQueue
  dsimp only
  repeat' split
  all_goals first | rfl | exact hw | simp [-setG_keep, -raise_keep, -onCore_keep, -takeFree_keep, apply_ite KeepWf, apply_ite Dev.keep, hw] | simp_all [-setG_keep, -raise_keep, -onCore_keep, -takeFree_keep, apply_ite KeepWf, apply_ite Dev.keep]

@[simp] theorem critTrip_keepWf (d : Dev) (hw : KeepWf d.keep) : KeepWf (critTrip d).keep := by
  simp (maxDischargeDepth := 40) [critTrip, -setG_keep, -raise_keep, -onCore_keep, -takeFree_keep, apply_ite KeepWf, apply_ite Dev.keep, hw]

@[simp] theorem criticalClear_keepWf (d : Dev) (hw : KeepWf d.keep) : KeepWf (criticalClear d).keep := by
  simp (maxDischargeDepth := 40) [criticalClear, -setG_keep, -raise_keep, -onCore_keep, -takeFree_keep, apply_ite KeepWf, apply_ite Dev.keep, hw]

@[simp] theorem writeBp_keepWf (bp : BitVec 2) (d : Dev) (hw : KeepWf d.keep) : KeepWf (writeBp bp d).keep := by
  simp [writeBp, -setG_keep, -raise_keep, -onCore_keep, -takeFree_keep, apply_ite KeepWf, apply_ite Dev.keep, hw]

@[simp] theorem tickFrom_keepWf (d0 d : Dev) (hw : KeepWf d.keep) : KeepWf (tickFrom d0 d).keep := by
  simp [tickFrom, -setG_keep, -raise_keep, -onCore_keep, -takeFree_keep, apply_ite KeepWf, apply_ite Dev.keep, hw]

@[simp] theorem assignTrigger_keepWf (en : Bool) (ch : BitVec 4) (d : Dev) (hw : KeepWf d.keep) :
    KeepWf (assignTrigger en ch d).keep := by
  simp (maxDischargeDepth := 40) [assignTrigger, -setG_keep, -raise_keep, -onCore_keep, -takeFree_keep, apply_ite KeepWf, apply_ite Dev.keep, hw]

@[simp] theorem scrubRestart_keepWf (d : Dev) (hw : KeepWf d.keep) : KeepWf (scrubRestart d).keep := by
  simp [scrubRestart, -setG_keep, -raise_keep, -onCore_keep, -takeFree_keep, apply_ite KeepWf, apply_ite Dev.keep, hw]

theorem keepWf_bad (k : Keep) (l : List Nat) (h : KeepWf k) : KeepWf { k with bad := l } := h

@[simp] theorem scrubBad_keepWf (g : Nat) (d : Dev) (h : KeepWf d.keep) : KeepWf (scrubBad g d).keep := by
  have hh : ∀ (o : Option (List Host.Cell)) (d1 : Dev), KeepWf d1.keep → KeepWf (match o with
      | some ws => (let (ok, d2) := issue ⟨ws, .restore g⟩ d1; if ok then d2 else postGlobal 0x30 0 (h16 g) true d2)
      | none => postGlobal 0x30 0 (h16 g) true d1).keep := by
    intro o d1 h1
    cases o with
    | none => exact postGlobal_keepWf _ _ _ _ _ h1
    | some ws =>
      dsimp only
      split
      · exact issue_keepWf _ _ h1
      · exact postGlobal_keepWf _ _ _ _ _ (issue_keepWf _ _ h1)
  have hi : ∀ (c : Bool) (k : Keep), KeepWf k → KeepWf (if c then k else poisonAdd g false k) := by
    intro c k hk
    cases c
    · exact poisonAdd_keepWf _ _ _ hk
    · exact hk
  unfold scrubBad
  exact hh _ _ (hi _ _ (keepWf_bad _ _ h))

@[simp] theorem scrubVisit_keepWf (g : Nat) (r : EccResult) (d : Dev) (hw : KeepWf d.keep) : KeepWf (scrubVisit g r d).keep := by
  unfold scrubVisit
  repeat' split
  all_goals first | rfl | exact hw | simp [-setG_keep, -raise_keep, -onCore_keep, -takeFree_keep, apply_ite KeepWf, apply_ite Dev.keep, hw]

@[simp] theorem scrubNext_keepWf (g : Nat) (d : Dev) (hw : KeepWf d.keep) : KeepWf (scrubNext g d).keep := by
  simp [scrubNext, -setG_keep, -raise_keep, -onCore_keep, -takeFree_keep, apply_ite KeepWf, apply_ite Dev.keep, hw]

@[simp] theorem modBank_keepWf (b : Bool) (g : Bank → Bank) (d : Dev) (hw : KeepWf d.keep) :
    KeepWf (modBank b g d).keep := by
  simp [modBank, -setG_keep, -raise_keep, -onCore_keep, -takeFree_keep, apply_ite KeepWf, apply_ite Dev.keep, hw]

@[simp] theorem addRecord_keepWf (b : Bool) (st : BitVec 3) (d : Dev) (hw : KeepWf d.keep) :
    KeepWf (addRecord b st d).keep := by
  simp [addRecord, -setG_keep, -raise_keep, -onCore_keep, -takeFree_keep, apply_ite KeepWf, apply_ite Dev.keep, hw]

@[simp] theorem beginMbx_keepWf (v : Half) (d : Dev) (hw : KeepWf d.keep) : KeepWf (beginMbx v d).keep := by
  simp [beginMbx, -setG_keep, -raise_keep, -onCore_keep, -takeFree_keep, apply_ite KeepWf, apply_ite Dev.keep, hw]

@[simp] theorem writeMbxArg_keepWf (v : Half) (d : Dev) (hw : KeepWf d.keep) : KeepWf (writeMbxArg v d).keep := by
  simp [writeMbxArg, -setG_keep, -raise_keep, -onCore_keep, -takeFree_keep, apply_ite KeepWf, apply_ite Dev.keep, hw]

@[simp] theorem readMbxArg_keepWf (d : Dev) (hw : KeepWf d.keep) : KeepWf (readMbxArg d).2.keep := by
  unfold readMbxArg
  dsimp only
  repeat' split
  all_goals first | rfl | exact hw | simp [-setG_keep, -raise_keep, -onCore_keep, -takeFree_keep, apply_ite KeepWf, apply_ite Dev.keep, hw] | simp_all [-setG_keep, -raise_keep, -onCore_keep, -takeFree_keep, apply_ite KeepWf, apply_ite Dev.keep]

@[simp] theorem mbxDone_keepWf (r : Byte) (res : List Half) (d : Dev) (hw : KeepWf d.keep) :
    KeepWf (mbxDone r res d).keep := by
  simp [mbxDone, -setG_keep, -raise_keep, -onCore_keep, -takeFree_keep, apply_ite KeepWf, apply_ite Dev.keep, hw]

@[simp] theorem abandonBuild_keepWf (d : Dev) (hw : KeepWf d.keep) : KeepWf (abandonBuild d).keep := by
  simp [abandonBuild, -setG_keep, -raise_keep, -onCore_keep, -takeFree_keep, apply_ite KeepWf, apply_ite Dev.keep, hw]

@[simp] theorem writeMbxCmd_keepWf (v : Half) (d : Dev) (hw : KeepWf d.keep) : KeepWf (writeMbxCmd v d).keep := by
  simp (maxDischargeDepth := 40) [writeMbxCmd, -setG_keep, -raise_keep, -onCore_keep, -takeFree_keep, apply_ite KeepWf, apply_ite Dev.keep, hw]

@[simp] theorem drive_keepWf (x : Half × Dev) (hw : KeepWf x.2.keep) : KeepWf (drive x).keep := by
  simp [drive, -setG_keep, -raise_keep, -onCore_keep, -takeFree_keep, apply_ite KeepWf, apply_ite Dev.keep, hw]

@[simp] theorem hostRead_keepWf (reach : Bool) (f : Dev → Half × Dev) (d : Dev) (hf : KeepWf (f d).2.keep) (hw : KeepWf d.keep) : KeepWf (hostRead reach f d).keep := by
  unfold hostRead
  repeat' first
    | exact hw
    | assumption
    | split
    | refine foldDev_keepWf _ (fun _ _ _ => ?_) _ _ ?_
    | refine foldl_keepWf _ (fun _ _ _ => ?_) _ _ ?_
    | refine modPort_keepWf _ _ _ ?_
    | refine guardDev_keepWf _ _ _ ?_ ?_
    | (simp [-setG_keep, -raise_keep, -onCore_keep, -takeFree_keep, apply_ite KeepWf, apply_ite Dev.keep, *]; done)

@[simp] theorem refuseUpdate_keepWf (r : BitVec 3) (d : Dev) (hw : KeepWf d.keep) : KeepWf (refuseUpdate r d).keep := by
  simp [refuseUpdate, -setG_keep, -raise_keep, -onCore_keep, -takeFree_keep, apply_ite KeepWf, apply_ite Dev.keep, hw]

@[simp] theorem commitReception_keepWf (f : Fwu) (r : Byte) (res : List Half) (after : Dev → Dev) (d : Dev)
    (ha : ∀ x, KeepWf x.keep → KeepWf (after x).keep) (h : KeepWf d.keep) : KeepWf (commitReception f r res after d).keep := by
  have h1 : KeepWf ({ d with fwu := f } : Dev).keep := h
  have h2 := issue_keepWf ⟨settingsCommit { d with fwu := f }, .mailbox⟩ _ h1
  unfold commitReception
  dsimp only
  generalize issue ⟨settingsCommit { d with fwu := f }, .mailbox⟩ { d with fwu := f } = y at h2 ⊢
  obtain ⟨ok, d2⟩ := y
  dsimp only at h2 ⊢
  split
  · refine ha _ ?_
    split
    · exact h2
    · exact setG_keepWf gFwu _ h2
  · exact mbxOutcome_keepWf _ _ _ h2

@[simp] theorem fwuBegin_keepWf (storeOk : Bool) (d : Dev) (h : KeepWf d.keep) : KeepWf (fwuBegin storeOk d).keep := by
  have hm : ∀ r l, KeepWf (mbxOutcome r l d).keep := fun _ _ => mbxOutcome_keepWf _ _ _ h
  have hr : ∀ r, KeepWf (refuseUpdate r d).keep := fun _ => refuseUpdate_keepWf _ _ h
  unfold fwuBegin
  dsimp only
  iterate 9
    split
    · first | exact hm _ _ | exact hr _
  exact commitReception_keepWf _ _ _ _ _ (fun x hx => postFwu_keepWf _ _ hx) (modBank_keepWf _ _ _ h)

@[simp] theorem storePiece_keepWf (i : Nat) (data : List Byte) (storeOk : Bool) (d : Dev) (h : KeepWf d.keep) :
    KeepWf (storePiece i data storeOk d).keep := by
  have h1 : KeepWf ({ d with fwu := { d.fwu with torn := some i } } : Dev).keep := h
  have h2 := issue_keepWf ⟨settingsCommit { d with fwu := { d.fwu with torn := some i } }, if storeOk then .due .settings else .mailbox⟩ _ h1
  unfold storePiece
  dsimp only
  generalize issue ⟨settingsCommit { d with fwu := { d.fwu with torn := some i } }, if storeOk then .due .settings else .mailbox⟩
    { d with fwu := { d.fwu with torn := some i } } = y at h2 ⊢
  obtain ⟨ok, d2⟩ := y
  dsimp only at h2 ⊢
  split
  · exact mbxOutcome_keepWf _ _ _ h2
  split
  · exact h2
  · refine commitReception_keepWf _ _ _ _ _ (fun x hx => ?_) (modBank_keepWf _ _ _ h2)
    split
    · exact postFwu_keepWf _ _ hx
    · exact hx

@[simp] theorem fwuPiece_keepWf (vin : Nat) (storeOk : Bool) (d : Dev) (h : KeepWf d.keep) : KeepWf (fwuPiece vin storeOk d).keep := by
  have hm : ∀ r l, KeepWf (mbxOutcome r l d).keep := fun _ _ => mbxOutcome_keepWf _ _ _ h
  have hr : ∀ r, KeepWf (refuseUpdate r d).keep := fun _ => refuseUpdate_keepWf _ _ h
  unfold fwuPiece
  split
  · exact hm _ _
  · iterate 7
      split
      · first | exact hm _ _ | exact hr _
    exact storePiece_keepWf _ _ _ _ h

@[simp] theorem cancelReception_keepWf (d : Dev) (h : KeepWf d.keep) : KeepWf (cancelReception d).keep := by
  unfold cancelReception
  split
  · exact commitReception_keepWf _ _ _ _ _ (fun x hx => hx) h
  · exact mbxOutcome_keepWf _ _ _ h

@[simp] theorem askHandover_keepWf (waits : Bool) (d : Dev) (hw : KeepWf d.keep) :
    KeepWf (askHandover waits d).keep := by
  simp [askHandover, -setG_keep, -raise_keep, -onCore_keep, -takeFree_keep, apply_ite KeepWf, apply_ite Dev.keep, hw]

@[simp] theorem buildBank_keepWf (w0 : Half) (storeOk : Bool) (d : Dev) (h : KeepWf d.keep) :
    KeepWf (buildBank w0 storeOk d).keep := by
  have h1 := abandonBuild_keepWf d h
  unfold buildBank
  dsimp only
  split
  · exact mbxOutcome_keepWf _ _ _ h1
  split
  · exact refuseUpdate_keepWf _ _ h1
  split
  · exact refuseUpdate_keepWf _ _ h1
  · refine commitReception_keepWf _ _ _ _ _ (fun x hx => ?_) (addRecord_keepWf _ _ _ (modBank_keepWf _ _ _ h1))
    split
    · exact askHandover_keepWf _ _ (postFwu_keepWf _ _ hx)
    · exact postFwu_keepWf _ _ hx

@[simp] theorem applyBuild_keepWf (w0 : Half) (storeOk : Bool) (d : Dev) (hw : KeepWf d.keep) :
    KeepWf (applyBuild w0 storeOk d).keep := by
  simp [applyBuild, -setG_keep, -raise_keep, -onCore_keep, -takeFree_keep, apply_ite KeepWf, apply_ite Dev.keep, hw]

@[simp] theorem applyGoesOn_keepWf (w0 : Half) (vin : Nat) (storeOk : Bool) (d : Dev) (hw : KeepWf d.keep) : KeepWf (applyGoesOn w0 vin storeOk d).keep := by
  simp [applyGoesOn, -setG_keep, -raise_keep, -onCore_keep, -takeFree_keep, apply_ite KeepWf, apply_ite Dev.keep, hw]

@[simp] theorem fwuApplyStart_keepWf (vin : Nat) (storeOk : Bool) (d : Dev) (hw : KeepWf d.keep) : KeepWf (fwuApplyStart vin storeOk d).keep := by
  simp [fwuApplyStart, -setG_keep, -raise_keep, -onCore_keep, -takeFree_keep, apply_ite KeepWf, apply_ite Dev.keep, hw]

@[simp] theorem fwuApply_keepWf (vin : Nat) (storeOk : Bool) (d : Dev) (hw : KeepWf d.keep) : KeepWf (fwuApply vin storeOk d).keep := by
  unfold fwuApply
  repeat' split
  all_goals first | rfl | exact hw | simp [-setG_keep, -raise_keep, -onCore_keep, -takeFree_keep, apply_ite KeepWf, apply_ite Dev.keep, hw]

@[simp] theorem commitOwner_keepWf (o : Owner) (closes : Bool) (d : Dev) (hw : KeepWf d.keep) :
    KeepWf (commitOwner o closes d).keep := by
  simp [commitOwner, -setG_keep, -raise_keep, -onCore_keep, -takeFree_keep, apply_ite KeepWf, apply_ite Dev.keep, hw]

@[simp] theorem ownerEnrol_keepWf (d : Dev) (hw : KeepWf d.keep) : KeepWf (ownerEnrol d).keep := by
  simp [ownerEnrol, -setG_keep, -raise_keep, -onCore_keep, -takeFree_keep, apply_ite KeepWf, apply_ite Dev.keep, hw]

@[simp] theorem fwlockSet_keepWf (d : Dev) (hw : KeepWf d.keep) : KeepWf (fwlockSet d).keep := by
  simp [fwlockSet, -setG_keep, -raise_keep, -onCore_keep, -takeFree_keep, apply_ite KeepWf, apply_ite Dev.keep, hw]

@[simp] theorem fwlockClear_keepWf (d : Dev) (hw : KeepWf d.keep) : KeepWf (fwlockClear d).keep := by
  simp [fwlockClear, -setG_keep, -raise_keep, -onCore_keep, -takeFree_keep, apply_ite KeepWf, apply_ite Dev.keep, hw]

@[simp] theorem keepDefaults_keepWf (d : Dev) (hw : KeepWf d.keep) : KeepWf (keepDefaults d).keep := by
  simp [keepDefaults, -setG_keep, -raise_keep, -onCore_keep, -takeFree_keep, apply_ite KeepWf, apply_ite Dev.keep, hw]

@[simp] theorem confirmImage_keepWf (d : Dev) (hw : KeepWf d.keep) : KeepWf (confirmImage d).keep := by
  simp (maxDischargeDepth := 40) [confirmImage, -setG_keep, -raise_keep, -onCore_keep, -takeFree_keep, apply_ite KeepWf, apply_ite Dev.keep, hw]

@[simp] theorem drawBelow_keepWf (n : Nat) (d : Dev) (hw : KeepWf d.keep) : KeepWf (drawBelow n d).2.keep := by
  simp [drawBelow, -setG_keep, -raise_keep, -onCore_keep, -takeFree_keep, apply_ite KeepWf, apply_ite Dev.keep, hw]

@[simp] theorem nextWindow_keepWf (p : PortId) (d : Dev) (hw : KeepWf d.keep) : KeepWf (nextWindow p d).keep := by
  simp [nextWindow, -setG_keep, -raise_keep, -onCore_keep, -takeFree_keep, apply_ite KeepWf, apply_ite Dev.keep, hw]

@[simp] theorem probeEnds_keepWf (p : PortId) (r : ProbeReading) (d : Dev) (hw : KeepWf d.keep) : KeepWf (probeEnds p r d).keep := by
  simp [probeEnds, -setG_keep, -raise_keep, -onCore_keep, -takeFree_keep, apply_ite KeepWf, apply_ite Dev.keep, hw]

@[simp] theorem storeOrient_keepWf (p : PortId) (sigB : Bool) (d : Dev) (hw : KeepWf d.keep) :
    KeepWf (storeOrient p sigB d).keep := by
  simp [storeOrient, -setG_keep, -raise_keep, -onCore_keep, -takeFree_keep, apply_ite KeepWf, apply_ite Dev.keep, hw]

@[simp] theorem noteAttach_keepWf (p : PortId) (st : AttachState) (typ : BitVec 2) (sigB : Bool) (d : Dev) (hw : KeepWf d.keep) :
    KeepWf (noteAttach p st typ sigB d).keep := by
  simp [noteAttach, -setG_keep, -raise_keep, -onCore_keep, -takeFree_keep, apply_ite KeepWf, apply_ite Dev.keep, hw]

@[simp] theorem nextPeerWindow_keepWf (p : PortId) (d : Dev) (hw : KeepWf d.keep) : KeepWf (nextPeerWindow p d).keep := by
  simp [nextPeerWindow, -setG_keep, -raise_keep, -onCore_keep, -takeFree_keep, apply_ite KeepWf, apply_ite Dev.keep, hw]

@[simp] theorem attachClose_keepWf (p : PortId) (d : Dev) (hw : KeepWf d.keep) : KeepWf (attachClose p d).keep := by
  simp [attachClose, -setG_keep, -raise_keep, -onCore_keep, -takeFree_keep, apply_ite KeepWf, apply_ite Dev.keep, hw]

@[simp] theorem attachEndCap_keepWf (p : PortId) (sigB : Bool) (d : Dev) (hw : KeepWf d.keep) : KeepWf (attachEndCap p sigB d).keep := by
  unfold attachEndCap
  repeat' first
    | exact hw
    | assumption
    | split
    | refine foldDev_keepWf _ (fun _ _ _ => ?_) _ _ ?_
    | refine foldl_keepWf _ (fun _ _ _ => ?_) _ _ ?_
    | refine modPort_keepWf _ _ _ ?_
    | refine guardDev_keepWf _ _ _ ?_ ?_
    | (simp [-setG_keep, -raise_keep, -onCore_keep, -takeFree_keep, apply_ite KeepWf, apply_ite Dev.keep, *]; done)

@[simp] theorem attachPeer_keepWf (p : PortId) (sigB : Bool) (d : Dev) (hw : KeepWf d.keep) :
    KeepWf (attachPeer p sigB d).keep := by
  simp [attachPeer, -setG_keep, -raise_keep, -onCore_keep, -takeFree_keep, apply_ite KeepWf, apply_ite Dev.keep, hw]

@[simp] theorem detachPort_keepWf (p : PortId) (d : Dev) (hw : KeepWf d.keep) : KeepWf (detachPort p d).keep := by
  simp (maxDischargeDepth := 40) [detachPort, -setG_keep, -raise_keep, -onCore_keep, -takeFree_keep, apply_ite KeepWf, apply_ite Dev.keep, hw]

@[simp] theorem drawJoins_keepWf (p : PortId) (pinB : Bool) (d : Dev) (hw : KeepWf d.keep) : KeepWf (drawJoins p pinB d).keep := by
  simp [drawJoins, -setG_keep, -raise_keep, -onCore_keep, -takeFree_keep, apply_ite KeepWf, apply_ite Dev.keep, hw]

@[simp] theorem drawLeave_keepWf (p : PortId) (d : Dev) (hw : KeepWf d.keep) : KeepWf (drawLeave p d).keep := by
  simp [drawLeave, -setG_keep, -raise_keep, -onCore_keep, -takeFree_keep, apply_ite KeepWf, apply_ite Dev.keep, hw]

@[simp] theorem pollAnswered_keepWf (p : PortId) (i : Idx) (d : Dev) (hw : KeepWf d.keep) : KeepWf (pollAnswered p i d).keep := by
  unfold pollAnswered
  repeat' split
  all_goals first | rfl | exact hw | simp [-setG_keep, -raise_keep, -onCore_keep, -takeFree_keep, apply_ite KeepWf, apply_ite Dev.keep, hw]

@[simp] theorem ackAgain_keepWf (p : PortId) (i : Idx) (h : FrameTag) (d : Dev) (hw : KeepWf d.keep) :
    KeepWf (ackAgain p i h d).keep := by
  simp [ackAgain, -setG_keep, -raise_keep, -onCore_keep, -takeFree_keep, apply_ite KeepWf, apply_ite Dev.keep, hw]

@[simp] theorem nakFrame_keepWf (p : PortId) (i : Idx) (h : FrameTag) (d : Dev) (hw : KeepWf d.keep) :
    KeepWf (nakFrame p i h d).keep := by
  simp [nakFrame, -setG_keep, -raise_keep, -onCore_keep, -takeFree_keep, apply_ite KeepWf, apply_ite Dev.keep, hw]

@[simp] theorem ackFrame_keepWf (p : PortId) (i : Idx) (h : FrameTag) (d : Dev) (hw : KeepWf d.keep) :
    KeepWf (ackFrame p i h d).keep := by
  simp [ackFrame, -setG_keep, -raise_keep, -onCore_keep, -takeFree_keep, apply_ite KeepWf, apply_ite Dev.keep, hw]

@[simp] theorem resendReady_keepWf (p : PortId) (i : Idx) (d : Dev) (hw : KeepWf d.keep) :
    KeepWf (resendReady p i d).keep := by
  simp [resendReady, -setG_keep, -raise_keep, -onCore_keep, -takeFree_keep, apply_ite KeepWf, apply_ite Dev.keep, hw]

@[simp] theorem serveLower_keepWf (p : PortId) (k : Nat) (s : Slot) (i : Idx) (d : Dev) (hw : KeepWf d.keep) : KeepWf (serveLower p k s i d).keep := by
  simp [serveLower, -setG_keep, -raise_keep, -onCore_keep, -takeFree_keep, apply_ite KeepWf, apply_ite Dev.keep, hw]

@[simp] theorem postRequest_keepWf (p : PortId) (k : Nat) (s : Slot) (i : Idx) (d : Dev) (hw : KeepWf d.keep) : KeepWf (postRequest p k s i d).keep := by
  unfold postRequest
  dsimp only
  repeat' split
  all_goals first | rfl | exact hw | simp [-setG_keep, -raise_keep, -onCore_keep, -takeFree_keep, apply_ite KeepWf, apply_ite Dev.keep, hw] | simp_all [-setG_keep, -raise_keep, -onCore_keep, -takeFree_keep, apply_ite KeepWf, apply_ite Dev.keep]

@[simp] theorem answerRequest_keepWf (p : PortId) (k : Nat) (s : Slot) (i : Idx) (d : Dev) (hw : KeepWf d.keep) :
    KeepWf (answerRequest p k s i d).keep := by
  simp [answerRequest, -setG_keep, -raise_keep, -onCore_keep, -takeFree_keep, apply_ite KeepWf, apply_ite Dev.keep, hw]

@[simp] theorem onRequest_keepWf (p : PortId) (i : Idx) (h : FrameTag) (r : RequestMsg) (d : Dev) (hw : KeepWf d.keep) : KeepWf (onRequest p i h r d).keep := by
  unfold onRequest
  dsimp only
  repeat' split
  all_goals first | rfl | exact hw | simp [-setG_keep, -raise_keep, -onCore_keep, -takeFree_keep, apply_ite KeepWf, apply_ite Dev.keep, hw] | simp_all [-setG_keep, -raise_keep, -onCore_keep, -takeFree_keep, apply_ite KeepWf, apply_ite Dev.keep]

@[simp] theorem fromEndpoint_keepWf (p : PortId) (i : Idx) (h : FrameTag) (act : Dev → Dev) (d : Dev) (ha : KeepWf (act d).keep) (hw : KeepWf d.keep) : KeepWf (fromEndpoint p i h act d).keep := by
  unfold fromEndpoint
  repeat' first
    | exact hw
    | assumption
    | split
    | refine foldDev_keepWf _ (fun _ _ _ => ?_) _ _ ?_
    | refine foldl_keepWf _ (fun _ _ _ => ?_) _ _ ?_
    | refine modPort_keepWf _ _ _ ?_
    | refine guardDev_keepWf _ _ _ ?_ ?_
    | (simp [-setG_keep, -raise_keep, -onCore_keep, -takeFree_keep, apply_ite KeepWf, apply_ite Dev.keep, *]; done)

@[simp] theorem without_keepWf (p : PortId) (vs : List Idx) (d : Dev) (hw : KeepWf d.keep) :
    KeepWf (without p vs d).keep := by
  simp [without, -setG_keep, -raise_keep, -onCore_keep, -takeFree_keep, apply_ite KeepWf, apply_ite Dev.keep, hw]

@[simp] theorem passConfirm_keepWf (x : Candidate) (l : Level) (vs : List Idx) (d : Dev) (hw : KeepWf d.keep) : KeepWf (passConfirm x l vs d).keep := by
  unfold passConfirm
  repeat' split
  all_goals first | rfl | exact hw | simp [-setG_keep, -raise_keep, -onCore_keep, -takeFree_keep, apply_ite KeepWf, apply_ite Dev.keep, hw]

@[simp] theorem passFail_keepWf (x : Candidate) (v : Verdict) (d : Dev) (hw : KeepWf d.keep) : KeepWf (passFail x v d).keep := by
  unfold passFail
  repeat' split
  all_goals first | rfl | exact hw | simp [-setG_keep, -raise_keep, -onCore_keep, -takeFree_keep, apply_ite KeepWf, apply_ite Dev.keep, hw]

@[simp] theorem swapStops_keepWf (p : PortId) (x : Nat × Slot) (d : Dev) (hw : KeepWf d.keep) : KeepWf (swapStops p x d).keep := by
  unfold swapStops
  repeat' split
  all_goals first | rfl | exact hw | simp [-setG_keep, -raise_keep, -onCore_keep, -takeFree_keep, apply_ite KeepWf, apply_ite Dev.keep, hw]

@[simp] theorem swapHolds_keepWf (p : PortId) (d : Dev) (hw : KeepWf d.keep) : KeepWf (swapHolds p d).keep := by
  unfold swapHolds
  repeat' first
    | exact hw
    | assumption
    | split
    | refine foldDev_keepWf _ (fun _ _ _ => ?_) _ _ ?_
    | refine foldl_keepWf _ (fun _ _ _ => ?_) _ _ ?_
    | refine modPort_keepWf _ _ _ ?_
    | refine guardDev_keepWf _ _ _ ?_ ?_
    | (simp [-setG_keep, -raise_keep, -onCore_keep, -takeFree_keep, apply_ite KeepWf, apply_ite Dev.keep, *]; done)

@[simp] theorem raiseAwaiting_keepWf (p : PortId) (d : Dev) (hw : KeepWf d.keep) : KeepWf (raiseAwaiting p d).keep := by
  simp [raiseAwaiting, -setG_keep, -raise_keep, -onCore_keep, -takeFree_keep, apply_ite KeepWf, apply_ite Dev.keep, hw]

@[simp] theorem applyShare_keepWf (d : Dev) (h : KeepWf d.keep) : KeepWf (applyShare d).keep := by
  unfold applyShare
  split
  · exact relieve_keepWf _ h
  · exact h

theorem passOne_keepWf (st : PassState) (x : Candidate) (h : KeepWf st.1.keep) : KeepWf (passOne st x).1.keep := by
  obtain ⟨d, l⟩ := st
  unfold passOne
  dsimp only
  split
  · exact passConfirm_keepWf _ _ _ _ h
  · split
    · rename_i vs _
      have h1 := foldDev_keepWf (fun i d => withdrawContract 3 x.p i d) (fun i y hy => withdrawContract_keepWf _ _ _ _ hy) vs d h
      split
      · exact passConfirm_keepWf _ _ _ _ h1
      · exact h1
    · exact passFail_keepWf _ _ _ h

theorem passAll_keepWf (l : List Candidate) (st : PassState) (h : KeepWf st.1.keep) : KeepWf (l.foldl passOne st).1.keep := by
  induction l generalizing st with
  | nil => exact h
  | cons a t ih => exact ih _ (passOne_keepWf _ _ h)

@[simp] theorem allocatorPass_keepWf (d : Dev) (h : KeepWf d.keep) : KeepWf (allocatorPass d).keep := by
  have h0 : ∀ x y, KeepWf (applyShare { d with tb := x, fwu := y }).keep := fun x y => applyShare_keepWf _ h
  unfold allocatorPass
  apply relieve_keepWf
  apply raiseAwaiting_keepWf
  apply raiseAwaiting_keepWf
  apply bothPorts_keepWf
  · exact fun _ _ hx => swapHolds_keepWf _ _ hx
  apply passAll_keepWf
  exact h0 _ _

@[simp] theorem coreConfirm_keepWf (p : PortId) (k : Nat) (d : Dev) (hw : KeepWf d.keep) : KeepWf (coreConfirm p k d).keep := by
  unfold coreConfirm
  repeat' split
  all_goals first | rfl | exact hw | simp [-setG_keep, -raise_keep, -onCore_keep, -takeFree_keep, apply_ite KeepWf, apply_ite Dev.keep, hw]

@[simp] theorem coreDeny_keepWf (p : PortId) (k : Nat) (reason : Nat) (d : Dev) (hw : KeepWf d.keep) : KeepWf (coreDeny p k reason d).keep := by
  unfold coreDeny
  repeat' split
  all_goals first | rfl | exact hw | simp [-setG_keep, -raise_keep, -onCore_keep, -takeFree_keep, apply_ite KeepWf, apply_ite Dev.keep, hw]

@[simp] theorem coreWithdraw_keepWf (p : PortId) (i : Idx) (reason : Nat) (d : Dev) (hw : KeepWf d.keep) :
    KeepWf (coreWithdraw p i reason d).keep := by
  simp [coreWithdraw, -setG_keep, -raise_keep, -onCore_keep, -takeFree_keep, apply_ite KeepWf, apply_ite Dev.keep, hw]

@[simp] theorem makeReady_keepWf (p : PortId) (i : Idx) (d : Dev) (hw : KeepWf d.keep) :
    KeepWf (makeReady p i d).keep := by
  simp [makeReady, -setG_keep, -raise_keep, -onCore_keep, -takeFree_keep, apply_ite KeepWf, apply_ite Dev.keep, hw]

@[simp] theorem sendReady_keepWf (p : PortId) (k : Nat) (s : Slot) (i : Idx) (d : Dev) (hw : KeepWf d.keep) :
    KeepWf (sendReady p k s i d).keep := by
  simp [sendReady, -setG_keep, -raise_keep, -onCore_keep, -takeFree_keep, apply_ite KeepWf, apply_ite Dev.keep, hw]

@[simp] theorem sendBeacon_keepWf (p : PortId) (d : Dev) (hw : KeepWf d.keep) : KeepWf (sendBeacon p d).keep := by
  simp [sendBeacon, -setG_keep, -raise_keep, -onCore_keep, -takeFree_keep, apply_ite KeepWf, apply_ite Dev.keep, hw]

@[simp] theorem sendPoll_keepWf (p : PortId) (kind : BitVec 2) (i : Idx) (d : Dev) (hw : KeepWf d.keep) :
    KeepWf (sendPoll p kind i d).keep := by
  simp [sendPoll, -setG_keep, -raise_keep, -onCore_keep, -takeFree_keep, apply_ite KeepWf, apply_ite Dev.keep, hw]

@[simp] theorem sendReset_keepWf (p : PortId) (i : Idx) (hard : Bool) (reason : Byte) (k : Nat) (d : Dev) (hw : KeepWf d.keep) :
    KeepWf (sendReset p i hard reason k d).keep := by
  simp [sendReset, -setG_keep, -raise_keep, -onCore_keep, -takeFree_keep, apply_ite KeepWf, apply_ite Dev.keep, hw]

@[simp] theorem pollGeneral_keepWf (p : PortId) (i : Idx) (d : Dev) (hw : KeepWf d.keep) : KeepWf (pollGeneral p i d).keep := by
  unfold pollGeneral
  dsimp only
  repeat' split
  all_goals first | rfl | exact hw | simp [-setG_keep, -raise_keep, -onCore_keep, -takeFree_keep, apply_ite KeepWf, apply_ite Dev.keep, hw] | simp_all [-setG_keep, -raise_keep, -onCore_keep, -takeFree_keep, apply_ite KeepWf, apply_ite Dev.keep]

@[simp] theorem enrollDuplicate_keepWf (p : PortId) (k : Nat) (slot : BitVec 3) (i : Nat) (r : RosterRec) (m : EnrollMsg) (d : Dev) (hw : KeepWf d.keep) : KeepWf (enrollDuplicate p k slot i r m d).keep := by
  simp [enrollDuplicate, -setG_keep, -raise_keep, -onCore_keep, -takeFree_keep, apply_ite KeepWf, apply_ite Dev.keep, hw]

@[simp] theorem sendAssign_keepWf (p : PortId) (i k : Nat) (fresh : Bool) (d : Dev) (hw : KeepWf d.keep) :
    KeepWf (sendAssign p i k fresh d).keep := by
  simp [sendAssign, -setG_keep, -raise_keep, -onCore_keep, -takeFree_keep, apply_ite KeepWf, apply_ite Dev.keep, hw]

@[simp] theorem answerEnroll_keepWf (p : PortId) (x : BitVec 3 × EnrollMsg) (d : Dev) (hw : KeepWf d.keep) : KeepWf (answerEnroll p x d).keep := by
  unfold answerEnroll
  dsimp only
  repeat' split
  all_goals first | rfl | exact hw | simp [-setG_keep, -raise_keep, -onCore_keep, -takeFree_keep, apply_ite KeepWf, apply_ite Dev.keep, hw]

@[simp] theorem enrolled_keepWf (p : PortId) (i : Idx) (d : Dev) (hw : KeepWf d.keep) :
    KeepWf (enrolled p i d).keep := by
  simp [enrolled, -setG_keep, -raise_keep, -onCore_keep, -takeFree_keep, apply_ite KeepWf, apply_ite Dev.keep, hw]

@[simp] theorem restoreWaits_keepWf (p : PortId) (i : Idx) (v : Verdict) (d : Dev) (hw : KeepWf d.keep) : KeepWf (restoreWaits p i v d).keep := by
  unfold restoreWaits
  repeat' split
  all_goals first | rfl | exact hw | simp [-setG_keep, -raise_keep, -onCore_keep, -takeFree_keep, apply_ite KeepWf, apply_ite Dev.keep, hw]

@[simp] theorem restoreOne_keepWf (p : PortId) (i : Idx) (d : Dev) (hw : KeepWf d.keep) : KeepWf (restoreOne p i d).keep := by
  unfold restoreOne
  repeat' split
  all_goals first | rfl | exact hw | simp [-setG_keep, -raise_keep, -onCore_keep, -takeFree_keep, apply_ite KeepWf, apply_ite Dev.keep, hw]

@[simp] theorem levelDecision_keepWf (p : PortId) (d : Dev) (h : KeepWf d.keep) : KeepWf (levelDecision p d).keep := by
  unfold levelDecision
  dsimp only
  rw [modPort_keep]
  refine foldDev_keepWf _ (fun x d hd => restoreOne_keepWf _ _ _ hd) _ _ ?_
  rw [modPort_keep]
  exact h

@[simp] theorem restoreDrops_keepWf (p : PortId) (i : Idx) (d : Dev) (hw : KeepWf d.keep) :
    KeepWf (restoreDrops p i d).keep := by
  simp [restoreDrops, -setG_keep, -raise_keep, -onCore_keep, -takeFree_keep, apply_ite KeepWf, apply_ite Dev.keep, hw]

@[simp] theorem restoreTrim_keepWf (p : PortId) (d : Dev) (hw : KeepWf d.keep) : KeepWf (restoreTrim p d).keep := by
  unfold restoreTrim
  try dsimp only
  repeat' first
    | exact hw
    | assumption
    | split
    | refine foldDev_keepWf _ (fun _ _ _ => ?_) _ _ ?_
    | refine foldl_keepWf _ (fun _ _ _ => ?_) _ _ ?_
    | (simp [-setG_keep, -raise_keep, -onCore_keep, -takeFree_keep, apply_ite KeepWf, apply_ite Dev.keep, *]; done)

@[simp] theorem restoreReady_keepWf (p : PortId) (i : Idx) (d : Dev) (hw : KeepWf d.keep) :
    KeepWf (restoreReady p i d).keep := by
  simp [restoreReady, -setG_keep, -raise_keep, -onCore_keep, -takeFree_keep, apply_ite KeepWf, apply_ite Dev.keep, hw]

@[simp] theorem restoreBroadcast_keepWf (p : PortId) (d : Dev) (h : KeepWf d.keep) : KeepWf (restoreBroadcast p d).keep := by
  unfold restoreBroadcast
  dsimp only
  rw [modPort_keep]
  refine foldDev_keepWf _ (fun i d hd => restoreReady_keepWf _ _ _ hd) _ _ ?_
  rw [modPort_keep]
  exact h

@[simp] theorem consents_keepWf (p : PortId) (i : Idx) (d : Dev) (hw : KeepWf d.keep) :
    KeepWf (consents p i d).keep := by
  simp [consents, -setG_keep, -raise_keep, -onCore_keep, -takeFree_keep, apply_ite KeepWf, apply_ite Dev.keep, hw]

@[simp] theorem declines_keepWf (p : PortId) (i : Idx) (d : Dev) (hw : KeepWf d.keep) :
    KeepWf (declines p i d).keep := by
  simp [declines, -setG_keep, -raise_keep, -onCore_keep, -takeFree_keep, apply_ite KeepWf, apply_ite Dev.keep, hw]

@[simp] theorem calProgress_keepWf (p : PortId) (d : Dev) (hw : KeepWf d.keep) : KeepWf (calProgress p d).keep := by
  unfold calProgress
  dsimp only
  repeat' split
  all_goals first | rfl | exact hw | simp [-setG_keep, -raise_keep, -onCore_keep, -takeFree_keep, apply_ite KeepWf, apply_ite Dev.keep, hw] | simp_all [-setG_keep, -raise_keep, -onCore_keep, -takeFree_keep, apply_ite KeepWf, apply_ite Dev.keep]

@[simp] theorem takeLoop_keepWf (p : PortId) (i : Idx) (rLoop : Nat) (d : Dev) (hw : KeepWf d.keep) :
    KeepWf (takeLoop p i rLoop d).keep := by
  simp [takeLoop, -setG_keep, -raise_keep, -onCore_keep, -takeFree_keep, apply_ite KeepWf, apply_ite Dev.keep, hw]

@[simp] theorem drawerReport_keepWf (p : PortId) (i : Idx) (want stepMa : Nat) (dv : Int) (cid : Byte) (d : Dev) (hw : KeepWf d.keep) :
    KeepWf (drawerReport p i want stepMa dv cid d).keep := by
  simp [drawerReport, -setG_keep, -raise_keep, -onCore_keep, -takeFree_keep, apply_ite KeepWf, apply_ite Dev.keep, hw]

@[simp] theorem otherReport_keepWf (p : PortId) (i : Idx) (di : Nat) (dvd dv : Int) (d : Dev) (hw : KeepWf d.keep) :
    KeepWf (otherReport p i di dvd dv d).keep := by
  simp [otherReport, -setG_keep, -raise_keep, -onCore_keep, -takeFree_keep, apply_ite KeepWf, apply_ite Dev.keep, hw]

@[simp] theorem calReport_keepWf (p : PortId) (i : Idx) (m : ReportMsg) (stepMa : Nat) (d : Dev) (hw : KeepWf d.keep) :
    KeepWf (calReport p i m stepMa d).keep := by
  unfold calReport
  dsimp only
  repeat' split
  all_goals first | exact hw | exact drawerReport_keepWf _ _ _ _ _ _ _ hw | exact otherReport_keepWf _ _ _ _ _ _ hw

@[simp] theorem onReport_keepWf (p : PortId) (i : Idx) (m : ReportMsg) (stepMa : Nat) (d : Dev) (hw : KeepWf d.keep) :
    KeepWf (onReport p i m stepMa d).keep := by
  simp (maxDischargeDepth := 40) [onReport, -setG_keep, -raise_keep, -onCore_keep, -takeFree_keep, apply_ite KeepWf, apply_ite Dev.keep, hw]

@[simp] theorem sendPulse_keepWf (p : PortId) (i : Idx) (stepMa dur k : Nat) (d : Dev) (hw : KeepWf d.keep) : KeepWf (sendPulse p i stepMa dur k d).keep := by
  unfold sendPulse
  try dsimp only
  repeat' first
    | exact hw
    | assumption
    | split
    | refine foldDev_keepWf _ (fun _ _ _ => ?_) _ _ ?_
    | refine foldl_keepWf _ (fun _ _ _ => ?_) _ _ ?_
    | (simp [-setG_keep, -raise_keep, -onCore_keep, -takeFree_keep, apply_ite KeepWf, apply_ite Dev.keep, *]; done)

@[simp] theorem peerFrame_keepWf (p : PortId) (h : FrameTag) (needsPeer : Bool) (act : Dev → Dev) (d : Dev) (ha : KeepWf (act d).keep) (hw : KeepWf d.keep) : KeepWf (peerFrame p h needsPeer act d).keep := by
  unfold peerFrame
  repeat' first
    | exact hw
    | assumption
    | split
    | refine foldDev_keepWf _ (fun _ _ _ => ?_) _ _ ?_
    | refine foldl_keepWf _ (fun _ _ _ => ?_) _ _ ?_
    | refine modPort_keepWf _ _ _ ?_
    | refine guardDev_keepWf _ _ _ ?_ ?_
    | (simp [-setG_keep, -raise_keep, -onCore_keep, -takeFree_keep, apply_ite KeepWf, apply_ite Dev.keep, *]; done)

@[simp] theorem sendHello_keepWf (p : PortId) (d : Dev) (hw : KeepWf d.keep) : KeepWf (sendHello p d).keep := by
  simp [sendHello, -setG_keep, -raise_keep, -onCore_keep, -takeFree_keep, apply_ite KeepWf, apply_ite Dev.keep, hw]

@[simp] theorem sendSwapReq_keepWf (p : PortId) (d : Dev) (hw : KeepWf d.keep) : KeepWf (sendSwapReq p d).keep := by
  simp [sendSwapReq, -setG_keep, -raise_keep, -onCore_keep, -takeFree_keep, apply_ite KeepWf, apply_ite Dev.keep, hw]

@[simp] theorem sendSwapAck_keepWf (p : PortId) (refused : Bool) (d : Dev) (hw : KeepWf d.keep) :
    KeepWf (sendSwapAck p refused d).keep := by
  simp [sendSwapAck, -setG_keep, -raise_keep, -onCore_keep, -takeFree_keep, apply_ite KeepWf, apply_ite Dev.keep, hw]

@[simp] theorem beginHandOff_keepWf (p : PortId) (d : Dev) (hw : KeepWf d.keep) : KeepWf (beginHandOff p d).keep := by
  unfold beginHandOff
  repeat' split
  all_goals first | rfl | exact hw | simp [-setG_keep, -raise_keep, -onCore_keep, -takeFree_keep, apply_ite KeepWf, apply_ite Dev.keep, hw]

@[simp] theorem sendReport_keepWf (p : PortId) (d : Dev) (hw : KeepWf d.keep) : KeepWf (sendReport p d).keep := by
  simp [sendReport, -setG_keep, -raise_keep, -onCore_keep, -takeFree_keep, apply_ite KeepWf, apply_ite Dev.keep, hw]

@[simp] theorem swapRefused_keepWf (p : PortId) (d : Dev) (hw : KeepWf d.keep) : KeepWf (swapRefused p d).keep := by
  simp [swapRefused, -setG_keep, -raise_keep, -onCore_keep, -takeFree_keep, apply_ite KeepWf, apply_ite Dev.keep, hw]

@[simp] theorem askSwap_keepWf (p : PortId) (d : Dev) (hw : KeepWf d.keep) : KeepWf (askSwap p d).keep := by
  simp [askSwap, -setG_keep, -raise_keep, -onCore_keep, -takeFree_keep, apply_ite KeepWf, apply_ite Dev.keep, hw]

@[simp] theorem gapExchange_keepWf (p : PortId) (d : Dev) (hw : KeepWf d.keep) : KeepWf (gapExchange p d).keep := by
  simp [gapExchange, -setG_keep, -raise_keep, -onCore_keep, -takeFree_keep, apply_ite KeepWf, apply_ite Dev.keep, hw]

@[simp] theorem postPeerFound_keepWf (p : PortId) (d : Dev) (hw : KeepWf d.keep) : KeepWf (postPeerFound p d).keep := by
  simp [postPeerFound, -setG_keep, -raise_keep, -onCore_keep, -takeFree_keep, apply_ite KeepWf, apply_ite Dev.keep, hw]

@[simp] theorem masterFindsPeer_keepWf (p : PortId) (d : Dev) (hw : KeepWf d.keep) : KeepWf (masterFindsPeer p d).keep := by
  simp [masterFindsPeer, -setG_keep, -raise_keep, -onCore_keep, -takeFree_keep, apply_ite KeepWf, apply_ite Dev.keep, hw]

@[simp] theorem joinerFindsPeer_keepWf (p : PortId) (d : Dev) (hw : KeepWf d.keep) :
    KeepWf (joinerFindsPeer p d).keep := by
  simp [joinerFindsPeer, -setG_keep, -raise_keep, -onCore_keep, -takeFree_keep, apply_ite KeepWf, apply_ite Dev.keep, hw]

@[simp] theorem onHello_keepWf (p : PortId) (m : HelloMsg) (d : Dev) (hw : KeepWf d.keep) : KeepWf (onHello p m d).keep := by
  unfold onHello
  dsimp only
  repeat' split
  all_goals first | rfl | exact hw | simp [-setG_keep, -raise_keep, -onCore_keep, -takeFree_keep, apply_ite KeepWf, apply_ite Dev.keep, hw]

@[simp] theorem helloAcked_keepWf (p : PortId) (d : Dev) (hw : KeepWf d.keep) : KeepWf (helloAcked p d).keep := by
  simp [helloAcked, -setG_keep, -raise_keep, -onCore_keep, -takeFree_keep, apply_ite KeepWf, apply_ite Dev.keep, hw]

@[simp] theorem helloFailed_keepWf (p : PortId) (d : Dev) (hw : KeepWf d.keep) : KeepWf (helloFailed p d).keep := by
  simp [helloFailed, -setG_keep, -raise_keep, -onCore_keep, -takeFree_keep, apply_ite KeepWf, apply_ite Dev.keep, hw]

@[simp] theorem followTrim_keepWf (p : PortId) (m : PeerReportMsg) (d : Dev) (hw : KeepWf d.keep) :
    KeepWf (followTrim p m d).keep := by
  simp [followTrim, -setG_keep, -raise_keep, -onCore_keep, -takeFree_keep, apply_ite KeepWf, apply_ite Dev.keep, hw]

@[simp] theorem reportMismatch_keepWf (p : PortId) (m : PeerReportMsg) (d : Dev) (hw : KeepWf d.keep) :
    KeepWf (reportMismatch p m d).keep := by
  simp [reportMismatch, -setG_keep, -raise_keep, -onCore_keep, -takeFree_keep, apply_ite KeepWf, apply_ite Dev.keep, hw]

@[simp] theorem handOffDone_keepWf (p : PortId) (m : PeerReportMsg) (d : Dev) (hw : KeepWf d.keep) :
    KeepWf (handOffDone p m d).keep := by
  simp [handOffDone, -setG_keep, -raise_keep, -onCore_keep, -takeFree_keep, apply_ite KeepWf, apply_ite Dev.keep, hw]

@[simp] theorem onPeerReport_keepWf (p : PortId) (m : PeerReportMsg) (d : Dev) (hw : KeepWf d.keep) :
    KeepWf (onPeerReport p m d).keep := by
  simp (maxDischargeDepth := 40) [onPeerReport, -setG_keep, -raise_keep, -onCore_keep, -takeFree_keep, apply_ite KeepWf, apply_ite Dev.keep, hw]

@[simp] theorem startSwap_keepWf (taker : Bool) (p : PortId) (d : Dev) (hw : KeepWf d.keep) :
    KeepWf (startSwap taker p d).keep := by
  simp [startSwap, -setG_keep, -raise_keep, -onCore_keep, -takeFree_keep, apply_ite KeepWf, apply_ite Dev.keep, hw]

@[simp] theorem swapNaked_keepWf (p : PortId) (d : Dev) (hw : KeepWf d.keep) : KeepWf (swapNaked p d).keep := by
  simp [swapNaked, -setG_keep, -raise_keep, -onCore_keep, -takeFree_keep, apply_ite KeepWf, apply_ite Dev.keep, hw]

@[simp] theorem answerSwap_keepWf (p : PortId) (takes : Bool) (d : Dev) (hw : KeepWf d.keep) :
    KeepWf (answerSwap p takes d).keep := by
  simp [answerSwap, -setG_keep, -raise_keep, -onCore_keep, -takeFree_keep, apply_ite KeepWf, apply_ite Dev.keep, hw]

@[simp] theorem onSwapReq_keepWf (p : PortId) (h : FrameTag) (takes : Bool) (d : Dev) (hw : KeepWf d.keep) : KeepWf (onSwapReq p h takes d).keep := by
  unfold onSwapReq
  dsimp only
  repeat' split
  all_goals first | rfl | exact hw | simp [-setG_keep, -raise_keep, -onCore_keep, -takeFree_keep, apply_ite KeepWf, apply_ite Dev.keep, hw] | simp_all [-setG_keep, -raise_keep, -onCore_keep, -takeFree_keep, apply_ite KeepWf, apply_ite Dev.keep]

@[simp] theorem onSwapAck_keepWf (p : PortId) (refused : Bool) (d : Dev) (hw : KeepWf d.keep) :
    KeepWf (onSwapAck p refused d).keep := by
  simp [onSwapAck, -setG_keep, -raise_keep, -onCore_keep, -takeFree_keep, apply_ite KeepWf, apply_ite Dev.keep, hw]

@[simp] theorem swapAckAcked_keepWf (p : PortId) (refused : Bool) (d : Dev) (hw : KeepWf d.keep) : KeepWf (swapAckAcked p refused d).keep := by
  unfold swapAckAcked
  repeat' split
  all_goals first | rfl | exact hw | simp [-setG_keep, -raise_keep, -onCore_keep, -takeFree_keep, apply_ite KeepWf, apply_ite Dev.keep, hw]

@[simp] theorem swapAckFailed_keepWf (p : PortId) (d : Dev) (hw : KeepWf d.keep) : KeepWf (swapAckFailed p d).keep := by
  unfold swapAckFailed
  repeat' split
  all_goals first | rfl | exact hw | simp [-setG_keep, -raise_keep, -onCore_keep, -takeFree_keep, apply_ite KeepWf, apply_ite Dev.keep, hw]

@[simp] theorem swapCompletes_keepWf (taker : Bool) (p : PortId) (d : Dev) (hw : KeepWf d.keep) :
    KeepWf (swapCompletes taker p d).keep := by
  simp [swapCompletes, -setG_keep, -raise_keep, -onCore_keep, -takeFree_keep, apply_ite KeepWf, apply_ite Dev.keep, hw]

@[simp] theorem swapAbandoned_keepWf (taker : Bool) (p : PortId) (d : Dev) (hw : KeepWf d.keep) :
    KeepWf (swapAbandoned taker p d).keep := by
  simp [swapAbandoned, -setG_keep, -raise_keep, -onCore_keep, -takeFree_keep, apply_ite KeepWf, apply_ite Dev.keep, hw]

@[simp] theorem ringEnds_keepWf (p : PortId) (d : Dev) (hw : KeepWf d.keep) : KeepWf (ringEnds p d).keep := by
  simp [ringEnds, -setG_keep, -raise_keep, -onCore_keep, -takeFree_keep, apply_ite KeepWf, apply_ite Dev.keep, hw]

@[simp] theorem losePeer_keepWf (p : PortId) (d : Dev) (hw : KeepWf d.keep) : KeepWf (losePeer p d).keep := by
  simp (maxDischargeDepth := 40) [losePeer, -setG_keep, -raise_keep, -onCore_keep, -takeFree_keep, apply_ite KeepWf, apply_ite Dev.keep, hw]

@[simp] theorem yieldSegment_keepWf (p : PortId) (d : Dev) (hw : KeepWf d.keep) : KeepWf (yieldSegment p d).keep := by
  simp [yieldSegment, -setG_keep, -raise_keep, -onCore_keep, -takeFree_keep, apply_ite KeepWf, apply_ite Dev.keep, hw]

@[simp] theorem mirrorDone_keepWf (p : PortId) (f : Frame) (d : Dev) (hw : KeepWf d.keep) :
    KeepWf (mirrorDone p f d).keep := by
  simp [mirrorDone, -setG_keep, -raise_keep, -onCore_keep, -takeFree_keep, apply_ite KeepWf, apply_ite Dev.keep, hw]

@[simp] theorem drawFrame_keepWf (p : PortId) (h : FrameTag) (bc bad : Bool) (act : Dev → Dev) (d : Dev) (ha : ∀ x, KeepWf x.keep → KeepWf (act x).keep) (hw : KeepWf d.keep) : KeepWf (drawFrame p h bc bad act d).keep := by
  unfold drawFrame
  repeat' first
    | exact hw
    | assumption
    | split
    | refine foldDev_keepWf _ (fun _ _ _ => ?_) _ _ ?_
    | refine foldl_keepWf _ (fun _ _ _ => ?_) _ _ ?_
    | refine modPort_keepWf _ _ _ ?_
    | refine guardDev_keepWf _ _ _ ?_ ?_
    | (simp [-setG_keep, -raise_keep, -onCore_keep, -takeFree_keep, apply_ite KeepWf, apply_ite Dev.keep, *]; done)

@[simp] theorem drawCloses_keepWf (p : PortId) (d : Dev) (hw : KeepWf d.keep) : KeepWf (drawCloses p d).keep := by
  simp [drawCloses, -setG_keep, -raise_keep, -onCore_keep, -takeFree_keep, apply_ite KeepWf, apply_ite Dev.keep, hw]

@[simp] theorem enrolLost_keepWf (p : PortId) (d : Dev) (hw : KeepWf d.keep) : KeepWf (enrolLost p d).keep := by
  unfold enrolLost
  dsimp only
  repeat' split
  all_goals first | rfl | exact hw | simp [-setG_keep, -raise_keep, -onCore_keep, -takeFree_keep, apply_ite KeepWf, apply_ite Dev.keep, hw] | simp_all [-setG_keep, -raise_keep, -onCore_keep, -takeFree_keep, apply_ite KeepWf, apply_ite Dev.keep]

@[simp] theorem bandOf_keepWf (mv : Nat) (d : Dev) (hw : KeepWf d.keep) : KeepWf (bandOf mv d).2.keep := by
  unfold bandOf
  repeat' split
  all_goals first | rfl | exact hw | simp [-setG_keep, -raise_keep, -onCore_keep, -takeFree_keep, apply_ite KeepWf, apply_ite Dev.keep, hw]

@[simp] theorem readyDone_keepWf (p : PortId) (o : OutFrame) (l : Level) (d : Dev) (hw : KeepWf d.keep) :
    KeepWf (readyDone p o l d).keep := by
  simp [readyDone, -setG_keep, -raise_keep, -onCore_keep, -takeFree_keep, apply_ite KeepWf, apply_ite Dev.keep, hw]

@[simp] theorem resetDone_keepWf (p : PortId) (o : OutFrame) (d : Dev) (hw : KeepWf d.keep) :
    KeepWf (resetDone p o d).keep := by
  simp [resetDone, -setG_keep, -raise_keep, -onCore_keep, -takeFree_keep, apply_ite KeepWf, apply_ite Dev.keep, hw]

@[simp] theorem pollDone_keepWf (p : PortId) (o : OutFrame) (kind : BitVec 2) (acked : Bool) (d : Dev) (hw : KeepWf d.keep) :
    KeepWf (pollDone p o kind acked d).keep := by
  simp [pollDone, -setG_keep, -raise_keep, -onCore_keep, -takeFree_keep, apply_ite KeepWf, apply_ite Dev.keep, hw]

@[simp] theorem assignLost_keepWf (p : PortId) (o : OutFrame) (fresh : Bool) (d : Dev) (hw : KeepWf d.keep) :
    KeepWf (assignLost p o fresh d).keep := by
  simp [assignLost, -setG_keep, -raise_keep, -onCore_keep, -takeFree_keep, apply_ite KeepWf, apply_ite Dev.keep, hw]

@[simp] theorem absent_keepWf (p : PortId) (i : Idx) (d : Dev) (hw : KeepWf d.keep) : KeepWf (absent p i d).keep := by
  simp [absent, -setG_keep, -raise_keep, -onCore_keep, -takeFree_keep, apply_ite KeepWf, apply_ite Dev.keep, hw]

@[simp] theorem exchangeDone_keepWf (p : PortId) (o : OutFrame) (acked : Bool) (d : Dev) (hw : KeepWf d.keep) : KeepWf (exchangeDone p o acked d).keep := by
  unfold exchangeDone
  repeat' split
  all_goals first | rfl | exact hw | simp [-setG_keep, -raise_keep, -onCore_keep, -takeFree_keep, apply_ite KeepWf, apply_ite Dev.keep, hw]

@[simp] theorem exchangeFails_keepWf (p : PortId) (o : OutFrame) (d : Dev) (hw : KeepWf d.keep) : KeepWf (exchangeFails p o d).keep := by
  unfold exchangeFails
  repeat' split
  all_goals first | rfl | exact hw | simp [-setG_keep, -raise_keep, -onCore_keep, -takeFree_keep, apply_ite KeepWf, apply_ite Dev.keep, hw]

@[simp] theorem answerFront_keepWf (p : PortId) (acked : Bool) (d : Dev) (hw : KeepWf d.keep) : KeepWf (answerFront p acked d).keep := by
  unfold answerFront
  repeat' split
  all_goals first | rfl | exact hw | simp (maxDischargeDepth := 40) [-setG_keep, -raise_keep, -onCore_keep, -takeFree_keep, apply_ite KeepWf, apply_ite Dev.keep, hw]

@[simp] theorem onAnswer_keepWf (p : PortId) (acked : Bool) (d : Dev) (hw : KeepWf d.keep) :
    KeepWf (onAnswer p acked d).keep := by
  simp [onAnswer, -setG_keep, -raise_keep, -onCore_keep, -takeFree_keep, apply_ite KeepWf, apply_ite Dev.keep, hw]

@[simp] theorem answerMissing_keepWf (p : PortId) (o : OutFrame) (d : Dev) (hw : KeepWf d.keep) : KeepWf (answerMissing p o d).keep := by
  simp (maxDischargeDepth := 40) [answerMissing, -setG_keep, -raise_keep, -onCore_keep, -takeFree_keep, apply_ite KeepWf, apply_ite Dev.keep, hw]

@[simp] theorem nakBad_keepWf (p : PortId) (f : Frame) (d : Dev) (hw : KeepWf d.keep) : KeepWf (nakBad p f d).keep := by
  simp [nakBad, -setG_keep, -raise_keep, -onCore_keep, -takeFree_keep, apply_ite KeepWf, apply_ite Dev.keep, hw]

@[simp] theorem gangTell_keepWf (d : Dev) (hw : KeepWf d.keep) : KeepWf (gangTell d).keep := by
  simp [gangTell, -setG_keep, -raise_keep, -onCore_keep, -takeFree_keep, apply_ite KeepWf, apply_ite Dev.keep, hw]

@[simp] theorem storeShare_keepWf (d : Dev) (hw : KeepWf d.keep) : KeepWf (storeShare d).keep := by
  unfold storeShare
  repeat' split
  all_goals first | rfl | exact hw | simp [-setG_keep, -raise_keep, -onCore_keep, -takeFree_keep, apply_ite KeepWf, apply_ite Dev.keep, hw]

@[simp] theorem followLevel_keepWf (d : Dev) (hw : KeepWf d.keep) : KeepWf (followLevel d).keep := by
  simp [followLevel, -setG_keep, -raise_keep, -onCore_keep, -takeFree_keep, apply_ite KeepWf, apply_ite Dev.keep, hw]

@[simp] theorem leadFrame_keepWf (d : Dev) (hw : KeepWf d.keep) : KeepWf (leadFrame d).keep := by
  simp (maxDischargeDepth := 40) [leadFrame, -setG_keep, -raise_keep, -onCore_keep, -takeFree_keep, apply_ite KeepWf, apply_ite Dev.keep, hw]

@[simp] theorem takeGlead_keepWf (m : GleadMsg) (d : Dev) (hw : KeepWf d.keep) : KeepWf (takeGlead m d).keep := by
  simp (maxDischargeDepth := 40) [takeGlead, -setG_keep, -raise_keep, -onCore_keep, -takeFree_keep, apply_ite KeepWf, apply_ite Dev.keep, hw]

@[simp] theorem hearGang_keepWf (d : Dev) (hw : KeepWf d.keep) : KeepWf (hearGang d).keep := by
  simp [hearGang, -setG_keep, -raise_keep, -onCore_keep, -takeFree_keep, apply_ite KeepWf, apply_ite Dev.keep, hw]

@[simp] theorem writeShelf_keepWf (v : Half) (d : Dev) (hw : KeepWf d.keep) : KeepWf (writeShelf v d).keep := by
  simp [writeShelf, -setG_keep, -raise_keep, -onCore_keep, -takeFree_keep, apply_ite KeepWf, apply_ite Dev.keep, hw]

@[simp] theorem writeGang_keepWf (v : Half) (d : Dev) (hw : KeepWf d.keep) : KeepWf (writeGang v d).keep := by
  simp [writeGang, -setG_keep, -raise_keep, -onCore_keep, -takeFree_keep, apply_ite KeepWf, apply_ite Dev.keep, hw]

@[simp] theorem modChan_keepWf (n : Nat) (f : Chan → Chan) (d : Dev) (hw : KeepWf d.keep) :
    KeepWf (modChan n f d).keep := by
  simp [modChan, -setG_keep, -raise_keep, -onCore_keep, -takeFree_keep, apply_ite KeepWf, apply_ite Dev.keep, hw]

@[simp] theorem writeCmpCfg_keepWf (v : Half) (d : Dev) (hw : KeepWf d.keep) : KeepWf (writeCmpCfg v d).keep := by
  simp [writeCmpCfg, -setG_keep, -raise_keep, -onCore_keep, -takeFree_keep, apply_ite KeepWf, apply_ite Dev.keep, hw]

@[simp] theorem writeCmpLvl_keepWf (v : Half) (d : Dev) (hw : KeepWf d.keep) : KeepWf (writeCmpLvl v d).keep := by
  simp [writeCmpLvl, -setG_keep, -raise_keep, -onCore_keep, -takeFree_keep, apply_ite KeepWf, apply_ite Dev.keep, hw]

@[simp] theorem writeTick_keepWf (v : Half) (d : Dev) (hw : KeepWf d.keep) : KeepWf (writeTick v d).keep := by
  simp [writeTick, -setG_keep, -raise_keep, -onCore_keep, -takeFree_keep, apply_ite KeepWf, apply_ite Dev.keep, hw]

@[simp] theorem capture_keepWf (ch kind : Nat) (d : Dev) (hw : KeepWf d.keep) : KeepWf (capture ch kind d).keep := by
  simp [capture, -setG_keep, -raise_keep, -onCore_keep, -takeFree_keep, apply_ite KeepWf, apply_ite Dev.keep, hw]

@[simp] theorem wakeCore_keepWf (c : ChanCfg) (d : Dev) (hw : KeepWf d.keep) : KeepWf (wakeCore c d).keep := by
  simp [wakeCore, -setG_keep, -raise_keep, -onCore_keep, -takeFree_keep, apply_ite KeepWf, apply_ite Dev.keep, hw]

@[simp] theorem rangeMark_keepWf (ch : Nat) (c : ChanCfg) (d : Dev) (hw : KeepWf d.keep) :
    KeepWf (rangeMark ch c d).keep := by
  simp [rangeMark, -setG_keep, -raise_keep, -onCore_keep, -takeFree_keep, apply_ite KeepWf, apply_ite Dev.keep, hw]

@[simp] theorem postEdge_keepWf (ch kind : Nat) (d : Dev) (hw : KeepWf d.keep) : KeepWf (postEdge ch kind d).keep := by
  simp [postEdge, -setG_keep, -raise_keep, -onCore_keep, -takeFree_keep, apply_ite KeepWf, apply_ite Dev.keep, hw]

@[simp] theorem onEdge_keepWf (ch kind : Nat) (c : ChanCfg) (d : Dev) (hw : KeepWf d.keep) :
    KeepWf (onEdge ch kind c d).keep := by
  simp (maxDischargeDepth := 40) [onEdge, -setG_keep, -raise_keep, -onCore_keep, -takeFree_keep, apply_ite KeepWf, apply_ite Dev.keep, hw]

@[simp] theorem afterDecision_keepWf (ch : Nat) (c : ChanCfg) (was is : Bool) (d : Dev) (hw : KeepWf d.keep) :
    KeepWf (afterDecision ch c was is d).keep := by
  simp [afterDecision, -setG_keep, -raise_keep, -onCore_keep, -takeFree_keep, apply_ite KeepWf, apply_ite Dev.keep, hw]

@[simp] theorem watchTrigger_keepWf (ch : Nat) (was is : Bool) (d : Dev) (hw : KeepWf d.keep) :
    KeepWf (watchTrigger ch was is d).keep := by
  simp [watchTrigger, -setG_keep, -raise_keep, -onCore_keep, -takeFree_keep, apply_ite KeepWf, apply_ite Dev.keep, hw]

@[simp] theorem tickChan_keepWf (inputs : List Nat) (ch : Nat) (d : Dev) (hw : KeepWf d.keep) :
    KeepWf (tickChan inputs ch d).keep := by
  simp (maxDischargeDepth := 40) [tickChan, -setG_keep, -raise_keep, -onCore_keep, -takeFree_keep, apply_ite KeepWf, apply_ite Dev.keep, hw]

@[simp] theorem tickBank_keepWf (inputs : List Nat) (d : Dev) (h : KeepWf d.keep) : KeepWf (tickBank inputs d).keep := by
  unfold tickBank
  exact foldDev_keepWf _ (fun n d hd => tickChan_keepWf _ _ _ hd) _ _ h

@[simp] theorem captureRead_keepWf (d : Dev) (hw : KeepWf d.keep) : KeepWf (captureRead d).2.keep := by
  unfold captureRead
  dsimp only
  repeat' split
  all_goals first | rfl | exact hw | simp [-setG_keep, -raise_keep, -onCore_keep, -takeFree_keep, apply_ite KeepWf, apply_ite Dev.keep, hw] | simp_all [-setG_keep, -raise_keep, -onCore_keep, -takeFree_keep, apply_ite KeepWf, apply_ite Dev.keep]

@[simp] theorem pointBegins_keepWf (d : Dev) (hw : KeepWf d.keep) : KeepWf (pointBegins d).keep := by
  simp [pointBegins, -setG_keep, -raise_keep, -onCore_keep, -takeFree_keep, apply_ite KeepWf, apply_ite Dev.keep, hw]

@[simp] theorem readPoints_keepWf (a0 b0 a1 b1 : NtcReading) (d : Dev) (hw : KeepWf d.keep) :
    KeepWf (readPoints a0 b0 a1 b1 d).keep := by
  simp [readPoints, -setG_keep, -raise_keep, -onCore_keep, -takeFree_keep, apply_ite KeepWf, apply_ite Dev.keep, hw]

@[simp] theorem throttleStep_keepWf (d : Dev) (hw : KeepWf d.keep) : KeepWf (throttleStep d).keep := by
  simp [throttleStep, -setG_keep, -raise_keep, -onCore_keep, -takeFree_keep, apply_ite KeepWf, apply_ite Dev.keep, hw]

@[simp] theorem bundleAsk_keepWf (b : BundleRec) (tamb : Int) (heat power : Nat) (d : Dev) (hw : KeepWf d.keep) : KeepWf (bundleAsk b tamb heat power d).2.keep := by
  unfold bundleAsk
  dsimp only
  repeat' split
  all_goals first | rfl | exact hw | simp [-setG_keep, -raise_keep, -onCore_keep, -takeFree_keep, apply_ite KeepWf, apply_ite Dev.keep, hw] | simp_all [-setG_keep, -raise_keep, -onCore_keep, -takeFree_keep, apply_ite KeepWf, apply_ite Dev.keep]

@[simp] theorem bundleLimit_keepWf (g : Nat) (b : BundleRec) (tamb : Int) (heat : Nat) (member : Bool) (p : PortId) (d : Dev) (hw : KeepWf d.keep) :
    KeepWf (bundleLimit g b tamb heat member p d).keep := by
  simp [bundleLimit, -setG_keep, -raise_keep, -onCore_keep, -takeFree_keep, apply_ite KeepWf, apply_ite Dev.keep, hw]

@[simp] theorem bundleDrop_keepWf (g : Nat) (d : Dev) (hw : KeepWf d.keep) : KeepWf (bundleDrop g d).keep := by
  simp [bundleDrop, -setG_keep, -raise_keep, -onCore_keep, -takeFree_keep, apply_ite KeepWf, apply_ite Dev.keep, hw]

@[simp] theorem setBundle_keepWf (g : Nat) (b : BundleRec) (d : Dev) (hw : KeepWf d.keep) :
    KeepWf (setBundle g b d).keep := by
  simp [setBundle, -setG_keep, -raise_keep, -onCore_keep, -takeFree_keep, apply_ite KeepWf, apply_ite Dev.keep, hw]

@[simp] theorem bundleStep_keepWf (g : Nat) (d : Dev) (hw : KeepWf d.keep) : KeepWf (bundleStep g d).keep := by
  simp (maxDischargeDepth := 40) [bundleStep, -setG_keep, -raise_keep, -onCore_keep, -takeFree_keep, apply_ite KeepWf, apply_ite Dev.keep, hw]

@[simp] theorem bundleModel_keepWf (d : Dev) (h : KeepWf d.keep) : KeepWf (bundleModel d).keep := by
  have h1 := foldDev_keepWf bundleStep (fun n x hx => bundleStep_keepWf _ _ hx) (List.range 8) d h
  unfold bundleModel
  dsimp only
  generalize foldDev bundleStep (List.range 8) d = d1 at h1 ⊢
  apply relieve_keepWf
  exact modPort_keepWf .p1 secondDone _ (modPort_keepWf .p0 secondDone _ h1)

@[simp] theorem notePoison_keepWf (v : Bool) (d : Dev) (hw : KeepWf d.keep) : KeepWf (notePoison v d).keep := by
  simp [notePoison, -setG_keep, -raise_keep, -onCore_keep, -takeFree_keep, apply_ite KeepWf, apply_ite Dev.keep, hw]

@[simp] theorem clearWrap_keepWf (t : Nat) (p : PortId) (i : Nat) (d : Dev) (hw : KeepWf d.keep) :
    KeepWf (clearWrap t p i d).keep := by
  simp [clearWrap, -setG_keep, -raise_keep, -onCore_keep, -takeFree_keep, apply_ite KeepWf, apply_ite Dev.keep, hw]

@[simp] theorem hostSnap_keepWf (d : Dev) (hw : KeepWf d.keep) : KeepWf (hostSnap d).2.keep := by
  unfold hostSnap
  repeat' split
  all_goals first | rfl | exact hw | simp [-setG_keep, -raise_keep, -onCore_keep, -takeFree_keep, apply_ite KeepWf, apply_ite Dev.keep, hw]

@[simp] theorem readTdata_keepWf (d : Dev) (hw : KeepWf d.keep) : KeepWf (readTdata d).2.keep := by
  simp [readTdata, -setG_keep, -raise_keep, -onCore_keep, -takeFree_keep, apply_ite KeepWf, apply_ite Dev.keep, hw]

@[simp] theorem earlyTdata_keepWf (d : Dev) (hw : KeepWf d.keep) : KeepWf (earlyTdata d).2.keep := by
  simp [earlyTdata, -setG_keep, -raise_keep, -onCore_keep, -takeFree_keep, apply_ite KeepWf, apply_ite Dev.keep, hw]

@[simp] theorem writeTsel_keepWf (v : Half) (d : Dev) (hw : KeepWf d.keep) : KeepWf (writeTsel v d).keep := by
  simp [writeTsel, -setG_keep, -raise_keep, -onCore_keep, -takeFree_keep, apply_ite KeepWf, apply_ite Dev.keep, hw]

@[simp] theorem writeTidx_keepWf (v : Half) (d : Dev) (hw : KeepWf d.keep) : KeepWf (writeTidx v d).keep := by
  simp [writeTidx, -setG_keep, -raise_keep, -onCore_keep, -takeFree_keep, apply_ite KeepWf, apply_ite Dev.keep, hw]

@[simp] theorem writeTdata_keepWf (v : Half) (d : Dev) (hw : KeepWf d.keep) : KeepWf (writeTdata v d).keep := by
  simp [writeTdata, -setG_keep, -raise_keep, -onCore_keep, -takeFree_keep, apply_ite KeepWf, apply_ite Dev.keep, hw]

@[simp] theorem dueOnce_keepWf (x : Due) (d : Dev) (hw : KeepWf d.keep) : KeepWf (dueOnce x d).keep := by
  simp [dueOnce, -setG_keep, -raise_keep, -onCore_keep, -takeFree_keep, apply_ite KeepWf, apply_ite Dev.keep, hw]

@[simp] theorem commitRoster_keepWf (p : PortId) (i : Nat) (st : Sparse Half) (d : Dev) (hw : KeepWf d.keep) :
    KeepWf (commitRoster p i st d).keep := by
  simp [commitRoster, -setG_keep, -raise_keep, -onCore_keep, -takeFree_keep, apply_ite KeepWf, apply_ite Dev.keep, hw]

@[simp] theorem commitTenant_keepWf (t : Nat) (st : Sparse Half) (d : Dev) (hw : KeepWf d.keep) :
    KeepWf (commitTenant t st d).keep := by
  simp [commitTenant, -setG_keep, -raise_keep, -onCore_keep, -takeFree_keep, apply_ite KeepWf, apply_ite Dev.keep, hw]

@[simp] theorem commitThermal_keepWf (i : Nat) (st : Sparse Half) (d : Dev) (hw : KeepWf d.keep) :
    KeepWf (commitThermal i st d).keep := by
  simp [commitThermal, -setG_keep, -raise_keep, -onCore_keep, -takeFree_keep, apply_ite KeepWf, apply_ite Dev.keep, hw]

@[simp] theorem commitBundle_keepWf (g : Nat) (st : Sparse Half) (d : Dev) (hw : KeepWf d.keep) :
    KeepWf (commitBundle g st d).keep := by
  simp (maxDischargeDepth := 40) [commitBundle, -setG_keep, -raise_keep, -onCore_keep, -takeFree_keep, apply_ite KeepWf, apply_ite Dev.keep, hw]

@[simp] theorem commitClass_keepWf (p : PortId) (n : Nat) (st : Sparse Half) (d : Dev) (h : KeepWf d.keep) :
    KeepWf (commitClass p n st d).keep := by
  unfold commitClass
  split
  · exact h
  · exact relieve_keepWf _ (dueSettings_keepWf _ (modPort_keepWf _ _ _ h))

@[simp] theorem commitKeepwin_keepWf (p i : Nat) (st : Sparse Half) (d : Dev) (hw : KeepWf d.keep) :
    KeepWf (commitKeepwin p i st d).keep := by
  simp [commitKeepwin, -setG_keep, -raise_keep, -onCore_keep, -takeFree_keep, apply_ite KeepWf, apply_ite Dev.keep, hw]

@[simp] theorem applyCommit_keepWf (t : Nat) (p : PortId) (i : Nat) (st : Sparse Half) (d : Dev) (h : KeepWf d.keep) :
    KeepWf (applyCommit t p i st d).keep := by
  unfold applyCommit
  split
  · exact commitRoster_keepWf _ _ _ _ h
  · exact commitTenant_keepWf _ _ _ h
  · exact commitThermal_keepWf _ _ _ h
  · exact commitKeepwin_keepWf _ _ _ _ h
  · exact commitBundle_keepWf _ _ _ h
  · exact commitClass_keepWf _ _ _ _ h

@[simp] theorem commitStaged_keepWf (d : Dev) (hw : KeepWf d.keep) : KeepWf (commitStaged d).keep := by
  unfold commitStaged
  repeat' split
  all_goals first | rfl | exact hw | simp [-setG_keep, -raise_keep, -onCore_keep, -takeFree_keep, apply_ite KeepWf, apply_ite Dev.keep, hw]

@[simp] theorem abortStaged_keepWf (d : Dev) (hw : KeepWf d.keep) : KeepWf (abortStaged d).keep := by
  simp [abortStaged, -setG_keep, -raise_keep, -onCore_keep, -takeFree_keep, apply_ite KeepWf, apply_ite Dev.keep, hw]

@[simp] theorem writeTctl_keepWf (v : Half) (d : Dev) (hw : KeepWf d.keep) : KeepWf (writeTctl v d).keep := by
  unfold writeTctl
  repeat' split
  all_goals first | rfl | exact hw | simp [-setG_keep, -raise_keep, -onCore_keep, -takeFree_keep, apply_ite KeepWf, apply_ite Dev.keep, hw]

@[simp] theorem freshDev_keepWf (d : Dev) (hw : KeepWf d.keep) : KeepWf (freshDev d).keep := by
  simp [freshDev, -setG_keep, -raise_keep, -onCore_keep, -takeFree_keep, apply_ite KeepWf, apply_ite Dev.keep, hw]

@[simp] theorem stopKeep_keepWf (pages : Nat) (d : Dev) (hw : KeepWf d.keep) : KeepWf (stopKeep pages d).keep := by
  unfold stopKeep
  repeat' split
  all_goals first | rfl | exact hw | simp (maxDischargeDepth := 40) [-setG_keep, -raise_keep, -onCore_keep, -takeFree_keep, apply_ite KeepWf, apply_ite Dev.keep, hw]

@[simp] theorem loadEnergy_keepWf (d : Dev) (hw : KeepWf d.keep) : KeepWf (loadEnergy d).keep := by
  simp [loadEnergy, -setG_keep, -raise_keep, -onCore_keep, -takeFree_keep, apply_ite KeepWf, apply_ite Dev.keep, hw]

@[simp] theorem loadShare_keepWf (d : Dev) (hw : KeepWf d.keep) : KeepWf (loadShare d).keep := by
  simp [loadShare, -setG_keep, -raise_keep, -onCore_keep, -takeFree_keep, apply_ite KeepWf, apply_ite Dev.keep, hw]

@[simp] theorem enterImage_keepWf (img : List Byte) (d : Dev) (hw : KeepWf d.keep) : KeepWf (enterImage img d).keep := by
  simp [enterImage, -setG_keep, -raise_keep, -onCore_keep, -takeFree_keep, apply_ite KeepWf, apply_ite Dev.keep, hw]

@[simp] theorem recallStore_keepWf (k : Keep) (hw : KeepWf k) : KeepWf (recallStore k) := by
  unfold recallStore
  repeat' split
  all_goals first | rfl | exact hw | simp [-setG_keep, -raise_keep, -onCore_keep, -takeFree_keep, apply_ite KeepWf, apply_ite Dev.keep, hw]

theorem void_keepWf (p : Nat) (k : Keep) (h : KeepWf k) :
    KeepWf (tallyInc 9 { pageWrite (journalPage p, [hVoid]) k with jroll := true }) :=
  tallyInc_keepWf _ _ (show KeepWf (pageWrite (journalPage p, [hVoid]) k) from pageWrite_keepWf _ _ h)

@[simp] theorem resolveJournal_keepWf (k : Keep) (h : KeepWf k) : KeepWf (resolveJournal k).keep := by
  unfold resolveJournal
  dsimp only
  split
  · exact h
  split
  · exact h
  split
  · exact void_keepWf _ _ h
  split
  · exact tallyInc_keepWf _ _ (tallyInc_keepWf _ _ (show KeepWf (pageWrite _ _) from pageWrite_keepWf _ _
      (foldlKeep_keepWf _ (fun _ _ hk => poisonClear_keepWf _ _ hk) _ _ (writeHome_keepWf _ _ _ _ h))))
  split
  · exact void_keepWf _ _ (writeHome_keepWf _ _ _ _ h)
  · exact void_keepWf _ _ (writeHome_keepWf _ _ _ _ h)

theorem bootLoad_keepWf (k : Keep) (l : List LogEntry) (g : Global) (d : Dev) (h : KeepWf k) :
    KeepWf (loadShare (loadEnergy (loadKeep { d with keep := { k with log := l }, gl := g }))).keep :=
  loadShare_keepWf _ (loadEnergy_keepWf _ (loadKeep_keepWf _ h))

@[simp] theorem bootKeep_keepWf (cold : Bool) (d : Dev) (h : KeepWf d.keep) : KeepWf (bootKeep cold d).2.keep := by
  have hi : ∀ (c : Bool) (a b : Keep), KeepWf a → KeepWf b → KeepWf (if c then a else b) := by
    intro c a b ha hb
    cases c
    · exact hb
    · exact ha
  have h1 := resolveJournal_keepWf _ (hi cold _ _ (recallStore_keepWf _ h) h)
  have h2 := tallyInc_keepWf 1 _ h1
  have h3 := hi cold _ _ (tallyInc_keepWf 2 _ h2) h2
  unfold bootKeep
  dsimp only
  apply bootLoad_keepWf
  apply hi _ _ _ ?_ h3
  exact tallyInc_keepWf 13 _ h3

@[simp] theorem clearTorn_keepWf (d : Dev) (hw : KeepWf d.keep) : KeepWf (clearTorn d).keep := by
  unfold clearTorn
  repeat' split
  all_goals first | rfl | exact hw | simp [-setG_keep, -raise_keep, -onCore_keep, -takeFree_keep, apply_ite KeepWf, apply_ite Dev.keep, hw]

@[simp] theorem bootEvents_keepWf (f : Found) (d : Dev) (h : KeepWf d.keep) : KeepWf (bootEvents f d).keep := by
  have hf : ∀ (l : List Nat) (m : Nat → Nat) (x : Dev), KeepWf x.keep →
      KeepWf (foldDev (fun g d => postGlobal 0x30 0 (h16 (m g)) true d) l x).keep :=
    fun l m x hx => foldDev_keepWf _ (fun a y hy => postGlobal_keepWf _ _ _ _ _ hy) l x hx
  have h1 : KeepWf (if f.sfail then postGlobal 0x33 0 0 true (setG gKeep d) else d).keep := by
    split
    · exact postGlobal_keepWf _ _ _ _ _ h
    · exact h
  have h2 : ∀ x : Dev, KeepWf x.keep → KeepWf (match f.done with
      | some n => postGlobal 0x31 0 (h16 n) false (setG gKeep x) | none => x).keep := by
    intro x hx
    cases f.done with
    | none => exact hx
    | some n => exact postGlobal_keepWf _ _ _ _ _ hx
  unfold bootEvents
  dsimp only
  split
  · exact postFwu_keepWf _ _ (hf _ id _ (hf _ (fun g => 16 * g) _ (h2 _ h1)))
  · exact hf _ id _ (hf _ (fun g => 16 * g) _ (h2 _ h1))

@[simp] theorem autoStart_keepWf (p : PortId) (d : Dev) (hw : KeepWf d.keep) : KeepWf (autoStart p d).keep := by
  unfold autoStart
  dsimp only
  repeat' split
  all_goals first | rfl | exact hw | simp [-setG_keep, -raise_keep, -onCore_keep, -takeFree_keep, apply_ite KeepWf, apply_ite Dev.keep, hw]

@[simp] theorem startFirmware_keepWf (cause : BitVec 2) (b : Bool) (f : Found) (d : Dev) (h : KeepWf d.keep) :
    KeepWf (startFirmware cause b f d).keep := by
  unfold startFirmware
  dsimp only
  generalize hg : Dev.bothPorts _ _ = d2
  have h2 : KeepWf d2.keep := by
    rw [← hg]
    refine bothPorts_keepWf_of _ (fun p x hx => modPort_keepWf _ _ _ hx) _ ?_
    apply enterImage_keepWf
    exact h
  have h3 : KeepWf (bootEvents f (postGlobal 0x01 0 (h16 cause.toNat) true (setG gBoot (clearTorn d2)))).keep :=
    bootEvents_keepWf _ _ (postGlobal_keepWf _ _ _ _ _ (clearTorn_keepWf _ h2))
  split
  · exact h3
  · exact bothPorts_keepWf_of _ (fun p x hx => autoStart_keepWf _ _ hx) _ h3

theorem failPending_keepWf (b : Bool) (r : Found × Dev) (h : KeepWf r.2.keep) : KeepWf (failPending b r).2.keep := by
  unfold failPending
  split
  · exact addRecord_keepWf _ _ _ (countUp_keepWf _ _ h)
  · exact h

@[simp] theorem romboot_keepWf (cause : BitVec 2) (cold recovery : Bool) (d : Dev) (h : KeepWf d.keep) :
    KeepWf (romboot cause cold recovery d).keep := by
  unfold romboot
  generalize hg : bootKeep cold _ = y
  have h1 : KeepWf y.2.keep := by
    rw [← hg]
    apply bootKeep_keepWf
    exact h
  have h2 := failPending_keepWf true _ (failPending_keepWf false _ h1)
  generalize failPending true (failPending false y) = z at h2 ⊢
  obtain ⟨f, d1⟩ := z
  dsimp only
  split
  · exact startFirmware_keepWf _ _ _ _ h2
  · exact h2

@[simp] theorem resetDev_keepWf (pages : Nat) (d : Dev) (hw : KeepWf d.keep) : KeepWf (resetDev pages d).keep := by
  simp [resetDev, -setG_keep, -raise_keep, -onCore_keep, -takeFree_keep, apply_ite KeepWf, apply_ite Dev.keep, hw]

@[simp] theorem recoveryFinish_keepWf (d : Dev) (h : KeepWf d.keep) : KeepWf (recoveryFinish d).keep := by
  unfold recoveryFinish
  dsimp only
  split
  · exact mbxOutcome_keepWf _ _ _ h
  · exact romboot_keepWf _ _ _ _ (resetDev_keepWf _ _ (addRecord_keepWf _ _ _ (modBank_keepWf _ _ _ h)))

@[simp] theorem recoveryPiece_keepWf (storeOk : Bool) (d : Dev) (h : KeepWf d.keep) : KeepWf (recoveryPiece storeOk d).keep := by
  have h1 : KeepWf (if d.fwu.recOpen then d else modBank (recoveryBank d.fwu) (fun x => { x with status := [], image := [] }) d).keep := by
    split
    · exact h
    · exact modBank_keepWf _ _ _ h
  unfold recoveryPiece
  split
  · exact mbxOutcome_keepWf _ _ _ h
  split
  · exact mbxOutcome_keepWf _ _ _ h
  split
  · exact mbxOutcome_keepWf _ _ _ h
  · dsimp only
    generalize (if d.fwu.recOpen then d else modBank (recoveryBank d.fwu) (fun x => { x with status := [], image := [] }) d) = d1 at h1 ⊢
    split
    · exact mbxOutcome_keepWf _ _ _ h1
    split
    · exact recoveryFinish_keepWf _ h1
    · exact mbxOutcome_keepWf _ _ _ h1

@[simp] theorem writeBlock_keepWf (cause : Nat) (toB : Bool) (payload : Nat) (d : Dev) (hw : KeepWf d.keep) :
    KeepWf (writeBlock cause toB payload d).keep := by
  simp [writeBlock, -setG_keep, -raise_keep, -onCore_keep, -takeFree_keep, apply_ite KeepWf, apply_ite Dev.keep, hw]

@[simp] theorem placePayload_keepWf (d : Dev) (hw : KeepWf d.keep) : KeepWf (placePayload d).2.2.keep := by
  simp [placePayload, -setG_keep, -raise_keep, -onCore_keep, -takeFree_keep, apply_ite KeepWf, apply_ite Dev.keep, hw]

@[simp] theorem enterBank_keepWf (cause : BitVec 2) (toB rebuild : Bool) (d : Dev) (hw : KeepWf d.keep) :
    KeepWf (enterBank cause toB rebuild d).keep := by
  simp [enterBank, -setG_keep, -raise_keep, -onCore_keep, -takeFree_keep, apply_ite KeepWf, apply_ite Dev.keep, hw]

@[simp] theorem handTo_keepWf (cause : BitVec 2) (failed : Bool) (d : Dev) (hw : KeepWf d.keep) :
    KeepWf (handTo cause failed d).keep := by
  simp (maxDischargeDepth := 40) [handTo, -setG_keep, -raise_keep, -onCore_keep, -takeFree_keep, apply_ite KeepWf, apply_ite Dev.keep, hw]

@[simp] theorem handBack_keepWf (cause : BitVec 2) (d : Dev) (hw : KeepWf d.keep) : KeepWf (handBack cause d).keep := by
  simp [handBack, -setG_keep, -raise_keep, -onCore_keep, -takeFree_keep, apply_ite KeepWf, apply_ite Dev.keep, hw]

@[simp] theorem handover_keepWf (d : Dev) (hw : KeepWf d.keep) : KeepWf (handover d).keep := by
  simp (maxDischargeDepth := 40) [handover, -setG_keep, -raise_keep, -onCore_keep, -takeFree_keep, apply_ite KeepWf, apply_ite Dev.keep, hw]

@[simp] theorem rebuildState_keepWf (d : Dev) (hw : KeepWf d.keep) : KeepWf (rebuildState d).keep := by
  simp [rebuildState, -setG_keep, -raise_keep, -onCore_keep, -takeFree_keep, apply_ite KeepWf, apply_ite Dev.keep, hw]

@[simp] theorem rebuildGang_keepWf (d : Dev) (hw : KeepWf d.keep) : KeepWf (rebuildGang d).keep := by
  simp [rebuildGang, -setG_keep, -raise_keep, -onCore_keep, -takeFree_keep, apply_ite KeepWf, apply_ite Dev.keep, hw]

@[simp] theorem noteBudgets_keepWf (d : Dev) (hw : KeepWf d.keep) : KeepWf (noteBudgets d).keep := by
  simp [noteBudgets, -setG_keep, -raise_keep, -onCore_keep, -takeFree_keep, apply_ite KeepWf, apply_ite Dev.keep, hw]

@[simp] theorem resumeAllocator_keepWf (d : Dev) (hw : KeepWf d.keep) : KeepWf (resumeAllocator d).keep := by
  unfold resumeAllocator
  refine relieve_keepWf _ (pointBegins_keepWf _ (bothPorts_keepWf _ _ (fun _ _ hx => shedLate_keepWf _ _ hx) ?_))
  exact hw

@[simp] theorem afterHandover_keepWf (d : Dev) (hw : KeepWf d.keep) : KeepWf (afterHandover d).keep := by
  simp [afterHandover, -setG_keep, -raise_keep, -onCore_keep, -takeFree_keep, apply_ite KeepWf, apply_ite Dev.keep, hw]

@[simp] theorem handoverResume_keepWf (i : HandInfo) (d : Dev) (hw : KeepWf d.keep) : KeepWf (handoverResume i d).keep := by
  simp (maxDischargeDepth := 40) [handoverResume, -setG_keep, -raise_keep, -onCore_keep, -takeFree_keep, apply_ite KeepWf, apply_ite Dev.keep, hw]

@[simp] theorem restartCore_keepWf (d : Dev) (hw : KeepWf d.keep) : KeepWf (restartCore d).keep := by
  simp [restartCore, -setG_keep, -raise_keep, -onCore_keep, -takeFree_keep, apply_ite KeepWf, apply_ite Dev.keep, hw]

@[simp] theorem watchdogReset_keepWf (d : Dev) (hw : KeepWf d.keep) : KeepWf (watchdogReset d).keep := by
  simp (maxDischargeDepth := 40) [watchdogReset, -setG_keep, -raise_keep, -onCore_keep, -takeFree_keep, apply_ite KeepWf, apply_ite Dev.keep, hw]

@[simp] theorem watchdogFires_keepWf (d : Dev) (h : KeepWf d.keep) : KeepWf (watchdogFires d).keep := by
  unfold watchdogFires
  dsimp only
  generalize hg : countUp 6 _ = d1
  have h1 : KeepWf d1.keep := by
    rw [← hg]
    apply countUp_keepWf
    exact h
  split
  · exact watchdogReset_keepWf _ h1
  · split
    · apply handTo_keepWf
      exact noteBudgets_keepWf _ h1
    · exact restartCore_keepWf _ h1

@[simp] theorem throtSync_keepWf (p : PortId) (d : Dev) (hw : KeepWf d.keep) : KeepWf (throtSync p d).keep := by
  simp [throtSync, -setG_keep, -raise_keep, -onCore_keep, -takeFree_keep, apply_ite KeepWf, apply_ite Dev.keep, hw]

@[simp] theorem readTimeLo_keepWf (d : Dev) (hw : KeepWf d.keep) : KeepWf (readTimeLo d).2.keep := by
  simp [readTimeLo, -setG_keep, -raise_keep, -onCore_keep, -takeFree_keep, apply_ite KeepWf, apply_ite Dev.keep, hw]

@[simp] theorem readEnergyLo_keepWf (p : PortId) (d : Dev) (hw : KeepWf d.keep) : KeepWf (readEnergyLo p d).2.keep := by
  simp [readEnergyLo, -setG_keep, -raise_keep, -onCore_keep, -takeFree_keep, apply_ite KeepWf, apply_ite Dev.keep, hw]

@[simp] theorem readGlobal_keepWf (a : Nat) (d : Dev) (hw : KeepWf d.keep) : KeepWf (readGlobal a d).2.keep := by
  unfold readGlobal
  repeat' split
  all_goals first | rfl | exact hw | simp [-setG_keep, -raise_keep, -onCore_keep, -takeFree_keep, apply_ite KeepWf, apply_ite Dev.keep, hw]

@[simp] theorem readPort_keepWf (p : PortId) (off : Nat) (d : Dev) (hw : KeepWf d.keep) : KeepWf (readPort p off d).2.keep := by
  unfold readPort
  repeat' split
  all_goals first | rfl | exact hw | simp [-setG_keep, -raise_keep, -onCore_keep, -takeFree_keep, apply_ite KeepWf, apply_ite Dev.keep, hw]

@[simp] theorem readReg_keepWf (a : Nat) (d : Dev) (h : KeepWf d.keep) : KeepWf (readReg a d).2.keep := by
  have hi : ∀ (P : Prop) [Decidable P] (x y : Half × Dev), KeepWf x.2.keep → KeepWf y.2.keep →
      KeepWf (if P then x else y).2.keep := by
    intro P _ x y hx hy
    split
    · exact hx
    · exact hy
  refine hi _ _ _ h (hi _ _ _ h (hi _ _ _ h (hi _ _ _ h (hi _ _ _ (hi _ _ _ (readMbxArg_keepWf _ h) h) (hi _ _ _ h
    (hi _ _ _ h (hi _ _ _ (readGlobal_keepWf _ _ h) (hi _ _ _ (readPort_keepWf _ _ _ h) (hi _ _ _ (readPort_keepWf _ _ _ h) h)))))))))

@[simp] theorem writeModeReq_keepWf (v : Half) (d : Dev) (hw : KeepWf d.keep) : KeepWf (writeModeReq v d).keep := by
  unfold writeModeReq
  repeat' split
  all_goals first | rfl | exact hw | simp (maxDischargeDepth := 40) [-setG_keep, -raise_keep, -onCore_keep, -takeFree_keep, apply_ite KeepWf, apply_ite Dev.keep, hw]

@[simp] theorem writeKeepCtl_keepWf (v : Half) (d : Dev) (hw : KeepWf d.keep) : KeepWf (writeKeepCtl v d).keep := by
  simp (maxDischargeDepth := 40) [writeKeepCtl, -setG_keep, -raise_keep, -onCore_keep, -takeFree_keep, apply_ite KeepWf, apply_ite Dev.keep, hw]

@[simp] theorem writeFwuCtl_keepWf (byCore : Bool) (v : Half) (d : Dev) (hw : KeepWf d.keep) : KeepWf (writeFwuCtl byCore v d).keep := by
  unfold writeFwuCtl
  dsimp only
  repeat' split
  all_goals first | rfl | exact hw | simp (maxDischargeDepth := 40) [-setG_keep, -raise_keep, -onCore_keep, -takeFree_keep, apply_ite KeepWf, apply_ite Dev.keep, hw] | simp_all [-setG_keep, -raise_keep, -onCore_keep, -takeFree_keep, apply_ite KeepWf, apply_ite Dev.keep]

@[simp] theorem writeGlobal_keepWf (byCore : Bool) (a : Nat) (v : Half) (d : Dev) (h : KeepWf d.keep) :
    KeepWf (writeGlobal byCore a v d).keep := by
  unfold writeGlobal
  split
  · exact writeModeReq_keepWf _ _ h
  · exact clearG_keepWf _ _ _ h
  · exact h
  · exact writeTsel_keepWf _ _ h
  · exact writeTidx_keepWf _ _ h
  · exact writeTdata_keepWf _ _ h
  · exact writeTctl_keepWf _ _ h
  · exact dueSettings_keepWf _ (writeShelf_keepWf _ _ h)
  · exact dueSettings_keepWf _ (writeGang_keepWf _ _ h)
  · exact writeKeepCtl_keepWf _ _ h
  · exact writeFwuCtl_keepWf _ _ _ h
  · exact h
  · exact writeCmpCfg_keepWf _ _ h
  · exact writeCmpLvl_keepWf _ _ h
  · exact writeTick_keepWf _ _ h
  · exact writeLock_keepWf _ _ h
  · exact h
  · exact h

@[simp] theorem writeRail_keepWf (p : PortId) (v : Half) (d : Dev) (hw : KeepWf d.keep) : KeepWf (writeRail p v d).keep := by
  unfold writeRail
  repeat' split
  all_goals first | rfl | exact hw | simp [-setG_keep, -raise_keep, -onCore_keep, -takeFree_keep, apply_ite KeepWf, apply_ite Dev.keep, hw]

@[simp] theorem writeGuard_keepWf (p : PortId) (v : Half) (d : Dev) (hw : KeepWf d.keep) : KeepWf (writeGuard p v d).keep := by
  unfold writeGuard
  repeat' split
  all_goals first | rfl | exact hw | simp [-setG_keep, -raise_keep, -onCore_keep, -takeFree_keep, apply_ite KeepWf, apply_ite Dev.keep, hw]

@[simp] theorem writePort_keepWf (p : PortId) (off : Nat) (v : Half) (d : Dev) (hw : KeepWf d.keep) : KeepWf (writePort p off v d).keep := by
  unfold writePort
  repeat' split
  all_goals first | rfl | exact hw | simp [-setG_keep, -raise_keep, -onCore_keep, -takeFree_keep, apply_ite KeepWf, apply_ite Dev.keep, hw]

@[simp] theorem writeReg_keepWf (byCore : Bool) (a : Nat) (v : Half) (d : Dev) (hw : KeepWf d.keep) :
    KeepWf (writeReg byCore a v d).keep := by
  simp [writeReg, -setG_keep, -raise_keep, -onCore_keep, -takeFree_keep, apply_ite KeepWf, apply_ite Dev.keep, hw]

@[simp] theorem clearEvr_keepWf (m : Nat) (d : Dev) (hw : KeepWf d.keep) : KeepWf (clearEvr m d).keep := by
  simp [clearEvr, -setG_keep, -raise_keep, -onCore_keep, -takeFree_keep, apply_ite KeepWf, apply_ite Dev.keep, hw]

@[simp] theorem trapValue_keepWf (v : Option Word) (d : Dev) (hw : KeepWf d.keep) : KeepWf (trapValue v d).2.keep := by
  unfold trapValue
  dsimp only
  repeat' split
  all_goals first | rfl | exact hw | simp [-setG_keep, -raise_keep, -onCore_keep, -takeFree_keep, apply_ite KeepWf, apply_ite Dev.keep, hw] | simp_all [-setG_keep, -raise_keep, -onCore_keep, -takeFree_keep, apply_ite KeepWf, apply_ite Dev.keep]

@[simp] theorem trapEntry_keepWf (cause : Nat) (tpc : Word) (val : Option Word) (d : Dev) (hw : KeepWf d.keep) :
    KeepWf (trapEntry cause tpc val d).keep := by
  simp [trapEntry, -setG_keep, -raise_keep, -onCore_keep, -takeFree_keep, apply_ite KeepWf, apply_ite Dev.keep, hw]

@[simp] theorem syncTrap_keepWf (cause : Nat) (tpc : Word) (val : Option Word) (d : Dev) (hw : KeepWf d.keep) :
    KeepWf (syncTrap cause tpc val d).keep := by
  simp [syncTrap, -setG_keep, -raise_keep, -onCore_keep, -takeFree_keep, apply_ite KeepWf, apply_ite Dev.keep, hw]

@[simp] theorem goTo_keepWf (a : Word) (d : Dev) (hw : KeepWf d.keep) : KeepWf (goTo a d).keep := by
  simp [goTo, -setG_keep, -raise_keep, -onCore_keep, -takeFree_keep, apply_ite KeepWf, apply_ite Dev.keep, hw]

@[simp] theorem settleWait_keepWf (d : Dev) (hw : KeepWf d.keep) : KeepWf (settleWait d).keep := by
  unfold settleWait
  repeat' split
  all_goals first | rfl | exact hw | simp (maxDischargeDepth := 40) [-setG_keep, -raise_keep, -onCore_keep, -takeFree_keep, apply_ite KeepWf, apply_ite Dev.keep, hw]

@[simp] theorem freeWord_keepWf (d : Dev) (hw : KeepWf d.keep) : KeepWf (freeWord d).2.keep := by
  simp [freeWord, -setG_keep, -raise_keep, -onCore_keep, -takeFree_keep, apply_ite KeepWf, apply_ite Dev.keep, hw]

@[simp] theorem coreSnap_keepWf (p : PortId) (t i : Nat) (d : Dev) (hw : KeepWf d.keep) :
    KeepWf (coreSnap p t i d).keep := by
  simp [coreSnap, -setG_keep, -raise_keep, -onCore_keep, -takeFree_keep, apply_ite KeepWf, apply_ite Dev.keep, hw]

@[simp] theorem mirrorWord_keepWf (b : Nat) (d : Dev) (hw : KeepWf d.keep) : KeepWf (mirrorWord b d).2.keep := by
  unfold mirrorWord
  dsimp only
  repeat' split
  all_goals first | rfl | exact hw | simp [-setG_keep, -raise_keep, -onCore_keep, -takeFree_keep, apply_ite KeepWf, apply_ite Dev.keep, hw] | simp_all [-setG_keep, -raise_keep, -onCore_keep, -takeFree_keep, apply_ite KeepWf, apply_ite Dev.keep]

@[simp] theorem mailHalf_keepWf (k : Nat) (d : Dev) (hw : KeepWf d.keep) : KeepWf (mailHalf k d).2.keep := by
  unfold mailHalf
  dsimp only
  repeat' split
  all_goals first | rfl | exact hw | simp [-setG_keep, -raise_keep, -onCore_keep, -takeFree_keep, apply_ite KeepWf, apply_ite Dev.keep, hw] | simp_all [-setG_keep, -raise_keep, -onCore_keep, -takeFree_keep, apply_ite KeepWf, apply_ite Dev.keep]

@[simp] theorem areaWord_keepWf (r : Area) (d : Dev) (hw : KeepWf d.keep) : KeepWf (areaWord r d).2.keep := by
  unfold areaWord
  dsimp only
  repeat' split
  all_goals first | rfl | exact hw | simp [-setG_keep, -raise_keep, -onCore_keep, -takeFree_keep, apply_ite KeepWf, apply_ite Dev.keep, hw] | simp_all [-setG_keep, -raise_keep, -onCore_keep, -takeFree_keep, apply_ite KeepWf, apply_ite Dev.keep]

@[simp] theorem loadBytes_keepWf (r : Area) (n : Nat) (d : Dev) (hw : KeepWf d.keep) : KeepWf (loadBytes r n d).2.keep := by
  unfold loadBytes
  dsimp only
  repeat' split
  all_goals first | rfl | exact hw | simp [-setG_keep, -raise_keep, -onCore_keep, -takeFree_keep, apply_ite KeepWf, apply_ite Dev.keep, hw] | simp_all [-setG_keep, -raise_keep, -onCore_keep, -takeFree_keep, apply_ite KeepWf, apply_ite Dev.keep]

@[simp] theorem engineStore_keepWf (p : PortId) (v : Nat) (d : Dev) (hw : KeepWf d.keep) : KeepWf (engineStore p v d).keep := by
  unfold engineStore
  repeat' split
  all_goals first | rfl | exact hw | simp [-setG_keep, -raise_keep, -onCore_keep, -takeFree_keep, apply_ite KeepWf, apply_ite Dev.keep, hw]

@[simp] theorem putMailHalf_keepWf (k : Nat) (v : Half) (d : Dev) (hw : KeepWf d.keep) :
    KeepWf (putMailHalf k v d).keep := by
  simp [putMailHalf, -setG_keep, -raise_keep, -onCore_keep, -takeFree_keep, apply_ite KeepWf, apply_ite Dev.keep, hw]

@[simp] theorem putMail_keepWf (off : Nat) (l : List Byte) (d : Dev) (h : KeepWf d.keep) : KeepWf (putMail off l d).keep := by
  induction l generalizing off d with
  | nil => exact h
  | cons b t ih => exact ih _ _ (putMailHalf_keepWf _ _ _ (mailHalf_keepWf _ _ h))

@[simp] theorem storeBytes_keepWf (r : Area) (l : List Byte) (d : Dev) (hw : KeepWf d.keep) : KeepWf (storeBytes r l d).keep := by
  unfold storeBytes
  repeat' split
  all_goals first | rfl | exact hw | simp [-setG_keep, -raise_keep, -onCore_keep, -takeFree_keep, apply_ite KeepWf, apply_ite Dev.keep, hw]

@[simp] theorem writeBack_keepWf (o : Opc) (w : OpWord) (c0 : Core) (d : Dev) (hw : KeepWf d.keep) :
    KeepWf (writeBack o w c0 d).keep := by
  simp [writeBack, -setG_keep, -raise_keep, -onCore_keep, -takeFree_keep, apply_ite KeepWf, apply_ite Dev.keep, hw]

@[simp] theorem loadAct_keepWf (o : Opc) (w : OpWord) (c : Core) (r : Area) (d : Dev) (hw : KeepWf d.keep) :
    KeepWf (loadAct o w c r d).keep := by
  simp (maxDischargeDepth := 40) [loadAct, -setG_keep, -raise_keep, -onCore_keep, -takeFree_keep, apply_ite KeepWf, apply_ite Dev.keep, hw]

@[simp] theorem blockMove_keepWf (w : OpWord) (src : Bool) (c0 : Core) (d : Dev) (hw : KeepWf d.keep) :
    KeepWf (blockMove w src c0 d).keep := by
  simp [blockMove, -setG_keep, -raise_keep, -onCore_keep, -takeFree_keep, apply_ite KeepWf, apply_ite Dev.keep, hw]

@[simp] theorem copyAct_keepWf (w : OpWord) (c : Core) (x y : Area) (d : Dev) (hw : KeepWf d.keep) :
    KeepWf (copyAct w c x y d).keep := by
  simp (maxDischargeDepth := 40) [copyAct, -setG_keep, -raise_keep, -onCore_keep, -takeFree_keep, apply_ite KeepWf, apply_ite Dev.keep, hw]

@[simp] theorem diffLoads_keepWf (w : OpWord) (x y : Area) (d : Dev) (hw : KeepWf d.keep) :
    KeepWf (diffLoads w x y d).2.keep := by
  simp [diffLoads, -setG_keep, -raise_keep, -onCore_keep, -takeFree_keep, apply_ite KeepWf, apply_ite Dev.keep, hw]

@[simp] theorem diffAct_keepWf (w : OpWord) (c : Core) (x y : Area) (d : Dev) (hw : KeepWf d.keep) :
    KeepWf (diffAct w c x y d).keep := by
  simp [diffAct, -setG_keep, -raise_keep, -onCore_keep, -takeFree_keep, apply_ite KeepWf, apply_ite Dev.keep, hw]

@[simp] theorem sampleDev_keepWf (a b : Sample) (d : Dev) (h : KeepWf d.keep) : KeepWf (sampleDev a b d).keep := by
  unfold sampleDev
  dsimp only
  split
  · exact settleWait_keepWf _ (bothPorts_keepWf _ _ (fun p x hx => noteThrot_keepWf _ _ hx) h)
  · exact h

@[simp] theorem tenantAdd_keepWf (t : Nat) (n : Nat) (d : Dev) (hw : KeepWf d.keep) : KeepWf (tenantAdd t n d).keep := by
  simp [tenantAdd, -setG_keep, -raise_keep, -onCore_keep, -takeFree_keep, apply_ite KeepWf, apply_ite Dev.keep, hw]

@[simp] theorem creditOne_keepWf (p : PortId) (g i uj : Nat) (x : Nat × Dev) (h : KeepWf x.2.keep) :
    KeepWf (creditOne p g i uj x).2.keep := by
  simp [creditOne, apply_ite KeepWf, apply_ite Dev.keep, h]

theorem creditFold_keepWf (p : PortId) (g : Nat) (l : List (Nat × Nat)) (x : Nat × Dev) (h : KeepWf x.2.keep) :
    KeepWf (l.foldl (fun x m => creditOne p g m.1 m.2 x) x).2.keep := by
  induction l generalizing x with
  | nil => exact h
  | cons a t ih => exact ih _ (creditOne_keepWf _ _ _ _ _ h)

@[simp] theorem creditInterval_keepWf (p : PortId) (e sq : Nat) (model : List (Nat × Nat)) (d : Dev) (h : KeepWf d.keep) :
    KeepWf (creditInterval p e sq model d).keep := by
  unfold creditInterval
  dsimp only
  split
  · rw [modPort_keep]
    exact creditFold_keepWf _ _ _ _ h
  · rw [modPort_keep]
    exact h

@[simp] theorem creditMissed_keepWf (p : PortId) (l : List (Nat × Nat × Nat)) (d : Dev) (h : KeepWf d.keep) :
    KeepWf (creditMissed p l d).keep := by
  induction l generalizing d with
  | nil => exact h
  | cons x t ih =>
    obtain ⟨e, sq, n⟩ := x
    exact ih _ (creditInterval_keepWf _ _ _ _ _ (by simp [h]))

@[simp] theorem pointPort_keepWf (p : PortId) (d : Dev) (hw : KeepWf d.keep) : KeepWf (pointPort p d).keep := by
  simp [pointPort, -setG_keep, -raise_keep, -onCore_keep, -takeFree_keep, apply_ite KeepWf, apply_ite Dev.keep, hw]

@[simp] theorem calibrationPoint_keepWf (d : Dev) (hw : KeepWf d.keep) : KeepWf (calibrationPoint d).keep := by
  unfold calibrationPoint
  dsimp only
  repeat' split
  all_goals first | rfl | exact hw | simp [-setG_keep, -raise_keep, -onCore_keep, -takeFree_keep, apply_ite KeepWf, apply_ite Dev.keep, hw] | simp_all [-setG_keep, -raise_keep, -onCore_keep, -takeFree_keep, apply_ite KeepWf, apply_ite Dev.keep]

@[simp] theorem ringWrite_keepWf (k : Keep) (l : List Byte) (hw : KeepWf k) : KeepWf (ringWrite k l) := by
  simp (maxDischargeDepth := 40) [ringWrite, -setG_keep, -raise_keep, -onCore_keep, -takeFree_keep, apply_ite KeepWf, apply_ite Dev.keep, hw]

@[simp] theorem energyStore_keepWf (d : Dev) (h : KeepWf d.keep) : KeepWf (energyStore d).keep := by
  unfold energyStore
  dsimp only
  split
  · exact keepRefused_keepWf _ _ (bpRefused_keepWf _ h)
  · split
    · exact keepRefused_keepWf _ _ h
    · exact foldlKeep_keepWf _ (fun k a hk => ringWrite_keepWf _ _ hk) _ _ h

@[simp] theorem syncFetch_keepWf (d : Dev) (hw : KeepWf d.keep) : KeepWf (syncFetch d).keep := by
  simp [syncFetch, -setG_keep, -raise_keep, -onCore_keep, -takeFree_keep, apply_ite KeepWf, apply_ite Dev.keep, hw]

@[simp] theorem putSpecial_keepWf (n : Nat) (v : Word) (d : Dev) (hw : KeepWf d.keep) : KeepWf (putSpecial n v d).keep := by
  unfold putSpecial
  repeat' split
  all_goals first | rfl | exact hw | simp [-setG_keep, -raise_keep, -onCore_keep, -takeFree_keep, apply_ite KeepWf, apply_ite Dev.keep, hw]

@[simp] theorem endWait_keepWf (d : Dev) (hw : KeepWf d.keep) : KeepWf (endWait d).keep := by
  unfold endWait
  repeat' split
  all_goals first | rfl | exact hw | simp [-setG_keep, -raise_keep, -onCore_keep, -takeFree_keep, apply_ite KeepWf, apply_ite Dev.keep, hw]

@[simp] theorem takeInterrupt_keepWf (d0 : Dev) (hw : KeepWf d0.keep) : KeepWf (takeInterrupt d0).keep := by
  unfold takeInterrupt
  dsimp only
  repeat' split
  all_goals first | rfl | exact hw | simp (maxDischargeDepth := 40) [-setG_keep, -raise_keep, -onCore_keep, -takeFree_keep, apply_ite KeepWf, apply_ite Dev.keep, hw] | simp_all [-setG_keep, -raise_keep, -onCore_keep, -takeFree_keep, apply_ite KeepWf, apply_ite Dev.keep]

/-! ## The core: what a bundle commits -/

/-- What an operation commits keeps the byte stores of the Keep canonical. -/
def EffectWf (e : OpEffect) : Prop :=
  (∀ d, KeepWf d.keep → KeepWf (e.pre d).keep) ∧ ∀ d, KeepWf d.keep → KeepWf (e.act d).keep

/-- So does whatever an operation answers. -/
def OutWf (o : CoreOut OpEffect) : Prop := ∀ e, o = .ok e → EffectWf e

theorem outWf_ok (e : OpEffect) (h : EffectWf e) : OutWf (.ok e) := fun _ hx => by cases hx; exact h

theorem outWf_trap (n : Nat) (v : Option Word) : OutWf (.trap n v) := fun _ hx => by cases hx

theorem outWf_refuse (r : Refusal) : OutWf (.refuse r) := fun _ hx => by cases hx

theorem outWf_act (f : Dev → Dev) (x : Option Word) (h : ∀ d, KeepWf d.keep → KeepWf (f d).keep) :
    OutWf (.ok { act := f, next := x }) := outWf_ok _ ⟨fun _ hd => hd, h⟩

theorem effectWf_core (f : Core → Core) : EffectWf { act := fun d => d.onCore f } := ⟨fun _ hd => hd, fun _ hd => hd⟩

theorem effectWf_none : EffectWf {} := ⟨fun _ hd => hd, fun _ hd => hd⟩

theorem arithEval_wf (o : Opc) (w : OpWord) (c : Core) : EffectWf (arithEval o w c) := by
  unfold arithEval
  split
  · exact effectWf_core _
  · split
    all_goals try exact effectWf_core _
    unfold accShiftEffect
    dsimp only
    split
    · exact effectWf_core _
    · exact ⟨fun _ hd => hd, fun d hd => takeFree_keepWf d hd⟩

theorem branchTo_wf (t : Word) (f : Dev → Dev) (h : ∀ d, KeepWf d.keep → KeepWf (f d).keep) : OutWf (branchTo t f) := by
  unfold branchTo
  split
  · exact outWf_trap _ _
  · exact outWf_act _ _ h

theorem branchIf_wf (c : Bool) (t : Word) (f : Dev → Dev) (h : ∀ d, KeepWf d.keep → KeepWf (f d).keep) :
    OutWf (branchIf c t f) := by
  cases c
  · exact outWf_act _ _ h
  · exact branchTo_wf _ _ h

theorem callEval_wf (t ra : Word) (c : Core) : OutWf (callEval t ra c) := by
  unfold callEval
  split
  · exact outWf_trap _ _
  split
  · exact outWf_trap _ _
  split
  · exact outWf_trap _ _
  · exact branchTo_wf _ _ fun _ hd => hd

theorem retEval_wf (c : Core) : OutWf (retEval c) := by
  unfold retEval
  dsimp only
  split
  · exact outWf_trap _ _
  split
  · exact outWf_trap _ _
  split
  · exact outWf_trap _ _
  · exact branchTo_wf _ _ fun _ hd => hd

theorem mfsEval_wf (w : OpWord) (d : Dev) : EffectWf (mfsEval w d) := by
  unfold mfsEval
  split
  · unfold readRsBot
    split
    · exact ⟨fun _ hd => hd, fun d hd => takeFree_keepWf d hd⟩
    · exact effectWf_core _
  · exact effectWf_core _

theorem mtsEval_wf (w : OpWord) (c : Core) : OutWf (mtsEval w c) := by
  unfold mtsEval
  dsimp only
  split
  · exact outWf_trap _ _
  · exact outWf_ok _ ⟨fun d hd => putSpecial_keepWf _ _ d hd, fun _ hd => hd⟩

theorem controlEval_wf (o : Opc) (w : OpWord) (n : Nat) (d : Dev) : OutWf (controlEval o w n d) := by
  unfold controlEval
  dsimp only
  split
  all_goals first
    | exact branchTo_wf _ _ fun _ hd => hd
    | exact branchIf_wf _ _ _ fun _ hd => hd
    | exact callEval_wf _ _ _
    | exact retEval_wf _
    | exact outWf_trap _ _
    | exact mtsEval_wf _ _
    | exact outWf_ok _ (mfsEval_wf _ _)
    | exact outWf_act _ _ fun _ hd => hd
    | skip
  · unfold ewaitEval
    dsimp only
    split
    · exact outWf_trap _ _
    · exact outWf_act _ _ fun _ hd => hd
  · unfold epostEval
    dsimp only
    split
    · exact outWf_trap _ _
    · exact outWf_act _ _ fun _ hd => hd

theorem atomicEval_wf (o : Opc) (w : OpWord) (c : Core) : OutWf (atomicEval o w c) := by
  unfold atomicEval
  split
  · refine outWf_ok _ ?_
    split <;> exact ⟨fun _ hd => hd, fun _ hd => hd⟩
  · exact outWf_trap _ _
  · exact outWf_refuse _

theorem blockEval_wf (o : Opc) (w : OpWord) (d : Dev) : OutWf (blockEval o w d) := by
  unfold blockEval
  split
  · exact outWf_ok _ effectWf_none
  split
  · unfold copyEval
    split
    · exact outWf_act _ _ fun d hd => copyAct_keepWf _ _ _ _ d hd
    · exact outWf_trap _ _
    · exact outWf_refuse _
  · unfold fillEval
    split
    · exact outWf_act _ _ fun d hd => storeBytes_keepWf _ _ _ (blockMove_keepWf _ _ _ _ hd)
    · exact outWf_trap _ _
    · exact outWf_refuse _
  · unfold diffEval
    dsimp only
    split
    · exact outWf_act _ _ fun d hd => diffAct_keepWf _ _ _ _ d hd
    · exact outWf_trap _ _
    · exact outWf_refuse _

theorem memEval_wf (o : Opc) (w : OpWord) (d : Dev) : OutWf (memEval o w d) := by
  have hs : OutWf (storeEval o w d.core) := by
    unfold storeEval
    split
    · exact outWf_act _ _ fun d hd => storeBytes_keepWf _ _ _ (writeBack_keepWf _ _ _ _ hd)
    · exact outWf_trap _ _
    · exact outWf_refuse _
  have hl : OutWf (loadEval o w d.core) := by
    unfold loadEval
    split
    · exact outWf_act _ _ fun d hd => loadAct_keepWf _ _ _ _ d hd
    · exact outWf_trap _ _
    · exact outWf_refuse _
  unfold memEval
  dsimp only
  split
  all_goals first
    | exact hs
    | exact hl
    | exact atomicEval_wf _ _ _
    | exact blockEval_wf _ _ _
    | skip
  exact outWf_act _ _ fun d hd => writeBack_keepWf _ _ _ _ hd

theorem evalOp_wf (x : BundleOp) (n : Nat) (d : Dev) : OutWf (evalOp x n d) := by
  unfold evalOp
  split
  · exact memEval_wf _ _ _
  · exact controlEval_wf _ _ _ _
  · exact outWf_ok _ (arithEval_wf _ _ _)

theorem evalAll_wf (n : Nat) (d : Dev) (l : List BundleOp) (es : List OpEffect) (h : evalAll n d l = .ok es) :
    ∀ e ∈ es, EffectWf e := by
  induction l generalizing es with
  | nil =>
    cases h
    intro e he
    cases he
  | cons x t ih =>
    unfold evalAll at h
    split at h
    · rename_i e he
      split at h
      · rename_i l2 hl
        cases h
        intro e' he'
        rcases List.mem_cons.mp he' with rfl | hm
        · exact evalOp_wf x n d _ he
        · exact ih _ hl _ hm
      · cases h
      · cases h
    · cases h
    · split at h <;> cases h

theorem foldMem_keepWf (f : OpEffect → Dev → Dev) (l : List OpEffect) (hf : ∀ e ∈ l, ∀ x, KeepWf x.keep → KeepWf (f e x).keep)
    (d : Dev) (h : KeepWf d.keep) : KeepWf (foldDev f l d).keep := by
  induction l generalizing d with
  | nil => exact h
  | cons a t ih => exact ih (fun e he => hf e (List.mem_cons_of_mem _ he)) _ (hf a (List.mem_cons_self ..) _ h)

theorem commitOps_keepWf (n : Nat) (l : List OpEffect) (hl : ∀ e ∈ l, EffectWf e) (d : Dev) (h : KeepWf d.keep) :
    KeepWf (commitOps n l d).keep := by
  have h1 : KeepWf (foldDev (applyEffect d) l (foldDev OpEffect.pre l d)).keep := by
    refine foldMem_keepWf _ _ (fun e he x hx => ?_) _ (foldMem_keepWf _ _ (fun e he x hx => (hl e he).1 x hx) _ h)
    unfold applyEffect
    split
    · exact (hl e he).2 x hx
    · exact hx
  unfold commitOps
  dsimp only
  split
  · exact settleWait_keepWf _ (goTo_keepWf _ _ h1)
  · exact h1

theorem runBundle_keepWf (l : List BundleOp) (d d' : Dev) (hr : runBundle l d = .ok d') (h : KeepWf d.keep) : KeepWf d'.keep := by
  unfold runBundle at hr
  dsimp only at hr
  split at hr
  · split at hr
    · rename_i es he
      cases hr
      exact commitOps_keepWf _ _ (evalAll_wf _ _ _ _ he) _ h
    · cases hr
      exact syncTrap_keepWf _ _ _ _ h
    · cases hr
  · cases hr
    exact syncTrap_keepWf _ _ _ _ h

theorem issueOp_keepWf (o : Opc) (w : OpWord) (d d' : Dev) (hr : issueOp o w d = .ok d') (h : KeepWf d.keep) : KeepWf d'.keep := by
  unfold issueOp at hr
  dsimp only at hr
  have h1 := settleWait_keepWf _ h
  split at hr
  · split at hr
    · exact runBundle_keepWf _ _ _ hr h1
    · cases hr
      exact h1
  · cases hr
    exact h1

theorem coreOp_keepWf (o : Opc) (w : OpWord) (s t : State) (hr : coreOp o w s = .next t) (h : KeepWf s.dev.keep) :
    KeepWf t.dev.keep := by
  unfold coreOp at hr
  split at hr
  · rename_i d hd
    cases hr
    exact issueOp_keepWf _ _ _ _ hd h
  · cases hr

theorem onDev_keepWf (f : Dev → Dev) (hf : ∀ d, KeepWf d.keep → KeepWf (f d).keep) (s t : State) (hr : onDev f s = .next t)
    (h : KeepWf s.dev.keep) : KeepWf t.dev.keep := by
  cases hr
  exact hf _ h

theorem guarded_keepWf (c : Dev → Bool) (f : Dev → Dev) (hf : ∀ d, KeepWf d.keep → KeepWf (f d).keep) (s t : State)
    (hr : onDev (fun d => guardDev (c d) (f) d) s = .next t) (h : KeepWf s.dev.keep) : KeepWf t.dev.keep := by
  cases hr
  exact guardDev_keepWf _ _ _ (hf _ h) h

end Sys2Proof.Laws
end

