-- ==== Sys2Proof/Laws/Traffic.lean ====
section
/-! SUPPORT. What the traffic of the line leaves alone: posting events, sending frames, taking and freeing slots, ending
contracts, shedding to a limit and storing settings change records, queues and the log, and nothing of `steady`: the pins, the
settings, the roles, the guards, the paths, the droop responder, the rail, the ring, the image store, the gang and the core. -/

namespace Sys2Proof.Laws

set_option linter.unusedSimpArgs false

open Sys2Proof Machine

/-- A port without the records, the slots, the requests, the frames, the level target and the counts of the peer gap that
traffic changes. -/
def Port.steady (q : Port) : Port :=
  { q with
    ring := { q.ring with pseq := 0, gapDue := 0 }
    roster := [], contract := [], slots := [], sig := false, issue := 0, pend := [], hints := [], ceilAt := none
    lev := { q.lev with tgt := 0, step := none, idleSince := none }
    line := { silent := q.line.silent, seqRun := q.line.seqRun, bper := q.line.bper, enr := q.line.enr } }

/-- A device without what traffic changes. -/
def steady (d : Dev) : Dev :=
  { d with
    free := 0, gl := { d.gl with gstat := 0, ovfOcc := {} }, q := {}, p0 := Port.steady d.p0, p1 := Port.steady d.p1
    keep := { d.keep with e := [], bad := [], held := [], log := [], logPos := 0, pageDirty := [], due := [] }
    core := coreOf d }

/-- Keep without its bytes, its log and what is due in it. -/
def Keep.steady (k : Keep) : Keep := { k with e := [], bad := [], held := [], log := [], logPos := 0, pageDirty := [], due := [] }

/-- The global block without GSTAT and its count. -/
def Global.steady (g : Global) : Global := { g with gstat := 0, ovfOcc := {} }

@[simp] theorem Keep.steady_mk (k : Keep) (e bad held log logPos pageDirty due) :
    Keep.steady { k with e := e, bad := bad, held := held, log := log, logPos := logPos, pageDirty := pageDirty, due := due } = Keep.steady k := rfl

@[simp] theorem steady_setFree (d : Dev) (x) : steady { d with free := x } = steady d := rfl
@[simp] theorem steady_setQ (d : Dev) (x) : steady { d with q := x } = steady d := rfl
@[simp] theorem steady_setFreeQ (d : Dev) (x y) : steady { d with free := y, q := x } = steady d := rfl
@[simp] theorem steady_setKeep (d : Dev) (k) (h : Keep.steady k = Keep.steady d.keep) : steady { d with keep := k } = steady d := by
  show { steady d with keep := Keep.steady k } = _
  rw [h]; rfl
@[simp] theorem steady_setGl (d : Dev) (g) (h : Global.steady g = Global.steady d.gl) : steady { d with gl := g } = steady d := by
  show { steady d with gl := Global.steady g } = _
  rw [h]; rfl
@[simp] theorem steady_setCore (d : Dev) (c) (h : { c with ipend := 0, evr := 0 } = coreOf d) : steady { d with core := c } = steady d := by
  show { steady d with core := { c with ipend := 0, evr := 0 } } = _
  rw [h]; rfl

theorem steady_eta (d : Dev) : steady d =
      ⟨d.us, 0, d.pw, { d.gl with gstat := 0, ovfOcc := {} }, {}, d.win, d.mbx, Port.steady d.p0, Port.steady d.p1, d.tb,
         Keep.steady d.keep, d.fwu, d.gang, d.cmp, { d.core with ipend := 0, evr := 0 }⟩ := rfl

theorem steady_modPort (d : Dev) (p : PortId) (f : Port → Port) (h : ∀ q, Port.steady (f q) = Port.steady q) :
    steady (d.modPort p f) = steady d := by
  cases p <;> simp [Dev.modPort, steady_eta, h]

@[simp] theorem steady_foldDev {α : Type} (f : α → Dev → Dev) (h : ∀ a d, steady (f a d) = steady d) (l : List α) (d : Dev) :
    steady (foldDev f l d) = steady d := by
  induction l generalizing d with
  | nil => rfl
  | cons a t ih => rw [foldDev, ih, h]

@[simp] theorem steady_portFoldl {α : Type} (f : Port → α → Port) (h : ∀ d a, Port.steady (f d a) = Port.steady d) (l : List α) (d : Port) :
    Port.steady (l.foldl f d) = Port.steady d := by
  induction l generalizing d with
  | nil => rfl
  | cons a t ih => rw [List.foldl, ih, h]

@[simp] theorem steady_bothPorts (d : Dev) (f : PortId → Dev → Dev) : steady (d.bothPorts f) = steady (f .p1 (f .p0 d)) := rfl

@[simp] theorem emit_line (x : TxItem) (q : Port) : Port.steady (emit x q) = Port.steady q := by
  unfold emit; split <;> rfl

@[simp] theorem steady_setLine (q : Port) (l : Line) (h1 : l.silent = q.line.silent) (h2 : l.seqRun = q.line.seqRun)
    (h3 : l.bper = q.line.bper) (h4 : l.enr = q.line.enr) : Port.steady { q with line := l } = Port.steady q := by
  simp [Port.steady, h1, h2, h3, h4]

@[simp] theorem steady_guardDev (c : Bool) (f : Dev → Dev) (d : Dev) :
    steady (guardDev c f d) = if c then steady (f d) else steady d := by cases c <;> rfl

@[simp] theorem takeFree_steady (d : Dev) : steady (takeFree d).2 = steady d := by simp [takeFree, apply_ite steady, apply_ite Port.steady, apply_ite Keep.steady]

@[simp] theorem setG_steady (i : Nat) (d : Dev) : steady (setG i d) = steady d := by
  unfold setG
  repeat' split
  all_goals first | rfl | simp [steady_modPort, apply_ite steady, apply_ite Port.steady, apply_ite Keep.steady]

@[simp] theorem setOvf_steady (d : Dev) : steady (setOvf d) = steady d := by
  unfold setOvf
  repeat' split
  all_goals first | rfl | simp [steady_modPort, apply_ite steady, apply_ite Port.steady, apply_ite Keep.steady]

@[simp] theorem clearG_steady (mask sets : Half) (d : Dev) : steady (clearG mask sets d) = steady d := by
  unfold clearG
  repeat' split
  all_goals first | rfl | simp [steady_modPort, apply_ite steady, apply_ite Port.steady, apply_ite Keep.steady]

@[simp] theorem raise_steady (n : Nat) (d : Dev) : steady (raise n d) = steady d := by
  unfold raise
  repeat' split
  all_goals first | rfl | simp [steady_modPort, apply_ite steady, apply_ite Port.steady, apply_ite Keep.steady]

@[simp] theorem eWrite_steady (a : Nat) (l : List Byte) (k : Keep) : Keep.steady (eWrite a l k) = Keep.steady k := by simp [eWrite, apply_ite steady, apply_ite Port.steady, apply_ite Keep.steady]

@[simp] theorem tallyWrite_steady (c v : Nat) (sat : Bool) (k : Keep) : Keep.steady (tallyWrite c v sat k) = Keep.steady k := by simp [tallyWrite, apply_ite steady, apply_ite Port.steady, apply_ite Keep.steady]

@[simp] theorem tallyInc_steady (c : Nat) (k : Keep) : Keep.steady (tallyInc c k) = Keep.steady k := by simp [tallyInc, apply_ite steady, apply_ite Port.steady, apply_ite Keep.steady]

@[simp] theorem tallyAdvance_steady (c v : Nat) (k : Keep) : Keep.steady (tallyAdvance c v k) = Keep.steady k := by simp [tallyAdvance, apply_ite steady, apply_ite Port.steady, apply_ite Keep.steady]

@[simp] theorem countUp_steady (c : Nat) (d : Dev) : steady (countUp c d) = steady d := by simp [countUp, apply_ite steady, apply_ite Port.steady, apply_ite Keep.steady]

@[simp] theorem sysWrite_steady (g : Nat) (l : List Byte) (k : Keep) : Keep.steady (sysWrite g l k) = Keep.steady k := by simp [sysWrite, apply_ite steady, apply_ite Port.steady, apply_ite Keep.steady]

@[simp] theorem sysCrit_steady (set : Bool) (k : Keep) : Keep.steady (sysCrit set k) = Keep.steady k := by simp [sysCrit, apply_ite steady, apply_ite Port.steady, apply_ite Keep.steady]

@[simp] theorem sysCtl_steady (k : Keep) : Keep.steady (sysCtl k) = Keep.steady k := by simp [sysCtl, apply_ite steady, apply_ite Port.steady, apply_ite Keep.steady]

@[simp] theorem sysScrub_steady (g : Nat) (k : Keep) : Keep.steady (sysScrub g k) = Keep.steady k := by simp [sysScrub, apply_ite steady, apply_ite Port.steady, apply_ite Keep.steady]

@[simp] theorem sysCommit_steady (n : Word) (k : Keep) : Keep.steady (sysCommit n k) = Keep.steady k := by simp [sysCommit, apply_ite steady, apply_ite Port.steady, apply_ite Keep.steady]

@[simp] theorem poisonPut_steady (i v : Nat) (k : Keep) : Keep.steady (poisonPut i v k) = Keep.steady k := by simp [poisonPut, apply_ite steady, apply_ite Port.steady, apply_ite Keep.steady]

@[simp] theorem poisonAdd_steady (g : Nat) (page : Bool) (k : Keep) : Keep.steady (poisonAdd g page k) = Keep.steady k := by
  unfold poisonAdd
  repeat' split
  all_goals first | rfl | simp [apply_ite steady, apply_ite Port.steady, apply_ite Keep.steady]

@[simp] theorem poisonClearAt_steady (g : Nat) (l : List Nat) (i : Nat) (k : Keep) :
    Keep.steady (poisonClearAt g l i k) = Keep.steady k := by
  induction l generalizing i k with
  | nil => rfl
  | cons e t ih => simp [poisonClearAt, ih, apply_ite Keep.steady]

@[simp] theorem poisonClear_steady (g : Nat) (k : Keep) : Keep.steady (poisonClear g k) = Keep.steady k := by simp [poisonClear, apply_ite steady, apply_ite Port.steady, apply_ite Keep.steady]

@[simp] theorem logRing_steady (l : LogEntry) (k : Keep) : Keep.steady (logRing l k) = Keep.steady k := by simp [logRing, apply_ite steady, apply_ite Port.steady, apply_ite Keep.steady]

@[simp] theorem logEvent_steady (e : Event) (ms : Word) (d : Dev) : steady (logEvent e ms d) = steady d := by simp [logEvent, apply_ite steady, apply_ite Port.steady, apply_ite Keep.steady]

@[simp] theorem loseEvent_steady (seq ms : Half) (d : Dev) : steady (loseEvent seq ms d) = steady d := by
  unfold loseEvent
  repeat' split
  all_goals first | rfl | simp [steady_modPort, apply_ite steady, apply_ite Port.steady, apply_ite Keep.steady]

@[simp] theorem post_steady (x : EventSpec) (d : Dev) : steady (post x d) = steady d := by simp [post, apply_ite steady, apply_ite Port.steady, apply_ite Keep.steady]

@[simp] theorem postEndpoint_steady (typ code : Nat) (p : PortId) (i : Idx) (log : Bool) (d : Dev) : steady (postEndpoint typ code p i log d) = steady d := by simp [postEndpoint, apply_ite steady, apply_ite Port.steady, apply_ite Keep.steady]

@[simp] theorem postPort_steady (typ code : Nat) (p : PortId) (word1 : Half) (log : Bool) (d : Dev) : steady (postPort typ code p word1 log d) = steady d := by simp [postPort, apply_ite steady, apply_ite Port.steady, apply_ite Keep.steady]

@[simp] theorem postGlobal_steady (typ code : Nat) (word1 : Half) (log : Bool) (d : Dev) : steady (postGlobal typ code word1 log d) = steady d := by simp [postGlobal, apply_ite steady, apply_ite Port.steady, apply_ite Keep.steady]

@[simp] theorem dropOvf_steady (d : Dev) : steady (dropOvf d) = steady d := by
  unfold dropOvf
  repeat' split
  all_goals first | rfl | simp [steady_modPort, apply_ite steady, apply_ite Port.steady, apply_ite Keep.steady]

@[simp] theorem popWord_steady (d : Dev) : steady (popWord d).2 = steady d := by
  unfold popWord
  dsimp only
  repeat' split
  all_goals first | rfl | simp [steady_modPort, apply_ite steady, apply_ite Port.steady, apply_ite Keep.steady] | simp_all [steady_modPort, apply_ite steady, apply_ite Port.steady, apply_ite Keep.steady]

@[simp] theorem setRoster_steady (i : Nat) (r : RosterRec) (q : Port) : Port.steady (setRoster i r q) = Port.steady q := by
  unfold setRoster
  repeat' split
  all_goals first | rfl | simp [apply_ite steady, apply_ite Port.steady, apply_ite Keep.steady]

@[simp] theorem setContract_steady (i : Nat) (c : ContractRec) (q : Port) : Port.steady (setContract i c q) = Port.steady q := by
  unfold setContract
  repeat' split
  all_goals first | rfl | simp [apply_ite steady, apply_ite Port.steady, apply_ite Keep.steady]

@[simp] theorem rateFor_steady (i : Idx) (p us : Nat) (q : Port) : Port.steady (rateFor i p us q) = Port.steady q := by simp [rateFor, apply_ite steady, apply_ite Port.steady, apply_ite Keep.steady]

@[simp] theorem shedRate_steady (us : Nat) (q : Port) (x : Nat × ContractRec) : Port.steady (shedRate us q x) = Port.steady q := by simp [shedRate, apply_ite steady, apply_ite Port.steady, apply_ite Keep.steady]

@[simp] theorem shedRates_steady (us : Nat) (q : Port) : Port.steady (shedRates us q) = Port.steady q := by simp [shedRates, apply_ite steady, apply_ite Port.steady, apply_ite Keep.steady]

@[simp] theorem releaseRate_steady (us : Nat) (q : Port) (x : Nat × RosterRec) : Port.steady (releaseRate us q x) = Port.steady q := by
  unfold releaseRate
  repeat' split
  all_goals first | rfl | simp [apply_ite steady, apply_ite Port.steady, apply_ite Keep.steady]

@[simp] theorem releaseRates_steady (us : Nat) (q : Port) : Port.steady (releaseRates us q) = Port.steady q := by simp [releaseRates, apply_ite steady, apply_ite Port.steady, apply_ite Keep.steady]

@[simp] theorem emit_steady (x : TxItem) (q : Port) : Port.steady (emit x q) = Port.steady q := by
  unfold emit
  repeat' split
  all_goals first | rfl | simp [apply_ite steady, apply_ite Port.steady, apply_ite Keep.steady]

@[simp] theorem emitTone_steady (q : Port) : Port.steady (emitTone q) = Port.steady q := by simp [emitTone, apply_ite steady, apply_ite Port.steady, apply_ite Keep.steady]

@[simp] theorem sendGroup_steady (index : Idx) (mt : BitVec 6) (flags : Byte) (payload : List Byte) (q : Port) : Port.steady (sendGroup index mt flags payload q) = Port.steady q := by simp [sendGroup, apply_ite steady, apply_ite Port.steady, apply_ite Keep.steady]

@[simp] theorem holdGroup_steady (index : Idx) (mt : BitVec 6) (flags : Byte) (payload : List Byte) (q : Port) : Port.steady (holdGroup index mt flags payload q) = Port.steady q := rfl

@[simp] theorem useGap_steady (q : Port) : Port.steady (useGap q) = Port.steady q := rfl

@[simp] theorem broadcast_steady (mt : BitVec 6) (flags : Byte) (payload : List Byte) (q : Port) : Port.steady (broadcast mt flags payload q) = Port.steady q := by simp [broadcast, apply_ite steady, apply_ite Port.steady, apply_ite Keep.steady]

@[simp] theorem broadcastWithdraw_steady (reason : Byte) (classes : BitVec 4) (q : Port) : Port.steady (broadcastWithdraw reason classes q) = Port.steady q := by simp [broadcastWithdraw, apply_ite steady, apply_ite Port.steady, apply_ite Keep.steady]

@[simp] theorem freeEnrolSlot_steady (o : OutFrame) (q : Port) : Port.steady (freeEnrolSlot o q) = Port.steady q := by
  unfold freeEnrolSlot
  repeat' split
  all_goals first | rfl | simp [apply_ite steady, apply_ite Port.steady, apply_ite Keep.steady]

@[simp] theorem launchOn_steady (now : Nat) (q : Port) : Port.steady (launchOn now q) = Port.steady q := by
  unfold launchOn
  split
  · rfl
  dsimp only
  split
  · rfl
  rw [emit_steady, freeEnrolSlot_steady]
  split <;> rfl

@[simp] theorem launch_steady (p : PortId) (d : Dev) : steady (launch p d) = steady d :=
  steady_modPort _ _ _ fun q => launchOn_steady d.us q

@[simp] theorem enqueue_steady (p : PortId) (o : OutFrame) (d : Dev) : steady (enqueue p o d) = steady d := by
  unfold enqueue
  repeat' split
  all_goals first | rfl | simp [steady_modPort, apply_ite steady, apply_ite Port.steady, apply_ite Keep.steady]

@[simp] theorem dropFront_steady (p : PortId) (d : Dev) : steady (dropFront p d) = steady d := by
  unfold dropFront
  repeat' split
  all_goals first | rfl | simp [steady_modPort, apply_ite steady, apply_ite Port.steady, apply_ite Keep.steady]

@[simp] theorem sendTo_steady (p : PortId) (i : Idx) (kind : OutKind) (mt : BitVec 6) (flags : Byte) (payload : List Byte) (slot : Option (BitVec 7)) (d : Dev) : steady (sendTo p i kind mt flags payload slot d) = steady d := by
  unfold sendTo
  repeat' split
  all_goals first | rfl | simp [steady_modPort, apply_ite steady, apply_ite Port.steady, apply_ite Keep.steady]

@[simp] theorem sendPeer_steady (p : PortId) (kind : OutKind) (mt : BitVec 6) (payload : List Byte) (d : Dev) : steady (sendPeer p kind mt payload d) = steady d := by
  unfold sendPeer
  dsimp only
  split
  · simp [steady_modPort]
  · rw [enqueue_steady]
    exact steady_modPort _ _ _ fun _ => rfl

@[simp] theorem answerShort_steady (nak : Bool) (seq : BitVec 3) (q : Port) : Port.steady (answerShort nak seq q) = Port.steady q := by simp [answerShort, apply_ite steady, apply_ite Port.steady, apply_ite Keep.steady]

@[simp] theorem noteSeq_steady (i : Idx) (h : FrameTag) (q : Port) : Port.steady (noteSeq i h q) = Port.steady q := by simp [noteSeq, apply_ite steady, apply_ite Port.steady, apply_ite Keep.steady]

@[simp] theorem putSlot_steady (k : Nat) (s : Slot) (q : Port) : Port.steady (putSlot k s q) = Port.steady q := by
  unfold putSlot
  repeat' split
  all_goals first | rfl | simp [apply_ite steady, apply_ite Port.steady, apply_ite Keep.steady]

@[simp] theorem dropSlot_steady (k : Nat) (q : Port) : Port.steady (dropSlot k q) = Port.steady q := by
  unfold dropSlot
  repeat' split
  all_goals first | rfl | simp [apply_ite steady, apply_ite Port.steady, apply_ite Keep.steady]

@[simp] theorem takeSlot_steady (k : Nat) (s : Slot) (q : Port) : Port.steady (takeSlot k s q) = Port.steady q := by
  unfold takeSlot
  repeat' split
  all_goals first | rfl | simp [apply_ite steady, apply_ite Port.steady, apply_ite Keep.steady]

@[simp] theorem closeSlot_steady (k : Nat) (q : Port) : Port.steady (closeSlot k q) = Port.steady q := by
  unfold closeSlot
  repeat' split
  all_goals first | rfl | simp [apply_ite steady, apply_ite Port.steady, apply_ite Keep.steady]

@[simp] theorem dropPending_steady (i : Idx) (q : Port) : Port.steady (dropPending i q) = Port.steady q := by
  unfold dropPending
  repeat' split
  all_goals first | rfl | simp [apply_ite steady, apply_ite Port.steady, apply_ite Keep.steady]

@[simp] theorem dropHint_steady (i : Idx) (q : Port) : Port.steady (dropHint i q) = Port.steady q := by
  unfold dropHint
  repeat' split
  all_goals first | rfl | simp [apply_ite steady, apply_ite Port.steady, apply_ite Keep.steady]

@[simp] theorem clearContract_steady (i : Idx) (q : Port) : Port.steady (clearContract i q) = Port.steady q := by simp [clearContract, apply_ite steady, apply_ite Port.steady, apply_ite Keep.steady]

@[simp] theorem endContract_steady (code : Nat) (p : PortId) (i : Idx) (d : Dev) : steady (endContract code p i d) = steady d := by
  unfold endContract
  repeat' split
  all_goals first | rfl | simp [steady_modPort, apply_ite steady, apply_ite Port.steady, apply_ite Keep.steady]

@[simp] theorem dirtyPage_steady (p : PortId) (i : Idx) (d : Dev) : steady (dirtyPage p i d) = steady d := by
  unfold dirtyPage
  dsimp only
  repeat' split
  all_goals first | rfl | simp [steady_modPort, apply_ite steady, apply_ite Port.steady, apply_ite Keep.steady] | simp_all [steady_modPort, apply_ite steady, apply_ite Port.steady, apply_ite Keep.steady]

@[simp] theorem sendWithdraw_steady (reason : Nat) (p : PortId) (i : Idx) (slot : Option Nat) (reserve : Nat) (d : Dev) : steady (sendWithdraw reason p i slot reserve d) = steady d := by
  unfold sendWithdraw
  repeat' split
  all_goals first | rfl | simp [steady_modPort, apply_ite steady, apply_ite Port.steady, apply_ite Keep.steady]

@[simp] theorem withdrawGrant_steady (reason : Nat) (p : PortId) (k : Nat) (d : Dev) : steady (withdrawGrant reason p k d) = steady d := by
  unfold withdrawGrant
  repeat' split
  all_goals first | rfl | simp [steady_modPort, apply_ite steady, apply_ite Port.steady, apply_ite Keep.steady]

@[simp] theorem withdrawContract_steady (reason : Nat) (p : PortId) (i : Idx) (d : Dev) : steady (withdrawContract reason p i d) = steady d := by simp [withdrawContract, apply_ite steady, apply_ite Port.steady, apply_ite Keep.steady]

@[simp] theorem trimGrants_steady (p : PortId) (d : Dev) : steady (trimGrants p d) = steady d := by simp [trimGrants, apply_ite steady, apply_ite Port.steady, apply_ite Keep.steady]

@[simp] theorem shedPort_steady (p : PortId) (d : Dev) : steady (shedPort p d) = steady d := by simp [shedPort, apply_ite steady, apply_ite Port.steady, apply_ite Keep.steady]

@[simp] theorem shedClass_steady (p : PortId) (c : Cls) (d : Dev) : steady (shedClass p c d) = steady d := by
  unfold shedClass
  dsimp only
  split
  · rw [steady_foldDev _ (by intro a x; (repeat' split) <;> simp), steady_foldDev _ (by intro a x; (repeat' split) <;> simp)]
  · rfl

@[simp] theorem shedTenant_steady (t : Tenant) (d : Dev) : steady (shedTenant t d) = steady d := by
  unfold shedTenant
  dsimp only
  split
  · rw [steady_foldDev _ (by intro a x; (repeat' split) <;> simp), steady_foldDev _ (by intro a x; (repeat' split) <;> simp), steady_foldDev _ (by intro a x; (repeat' split) <;> simp)]
  · rfl

/-- Relieving a limit is traffic, but for what it notes of THROT first. -/
@[simp] theorem relieve_steady (d : Dev) : steady (relieve d) = steady (d.bothPorts noteThrot) := by
  unfold relieve
  dsimp only
  generalize d.bothPorts noteThrot = e
  split
  · rw [steady_foldDev _ (by intro a x; simp), steady_foldDev _ (by intro a x; simp)]; simp
  · simp

@[simp] theorem sendWaitPlain_steady (p : PortId) (i : Idx) (k : Option Nat) (retry : Nat) (d : Dev) : steady (sendWaitPlain p i k retry d) = steady d := by
  unfold sendWaitPlain
  repeat' split
  all_goals first | rfl | simp [steady_modPort, apply_ite steady, apply_ite Port.steady, apply_ite Keep.steady]

@[simp] theorem sendReject_steady (p : PortId) (i : Idx) (k : Option Nat) (reason : Nat) (d : Dev) :
    steady (sendReject p i k reason d) = steady d := by
  unfold sendReject
  dsimp only
  rw [postEndpoint_steady, sendTo_steady, steady_modPort _ _ _ (by intro q; split <;> simp <;> rfl)]
  cases k with
  | none => rfl
  | some k => exact steady_modPort _ _ _ (by simp)

@[simp] theorem sendWait_steady (p : PortId) (i : Idx) (k : Option Nat) (req : RequestMsg) (arrival code bit : Nat) (d : Dev) :
    steady (sendWait p i k req arrival code bit d) = steady d := by
  unfold sendWait
  dsimp only
  rw [postEndpoint_steady, sendTo_steady, steady_modPort _ _ _ (fun q => by exact dropPending_steady i q)]
  cases k with
  | none => rfl
  | some k => exact steady_modPort _ _ _ (by simp)

@[simp] theorem sendAccept_steady (p : PortId) (i : Idx) (k : Nat) (s : Slot) (l : Level) (spec : Bool) (d : Dev) : steady (sendAccept p i k s l spec d) = steady d := by
  unfold sendAccept
  repeat' split
  all_goals first | rfl | simp [steady_modPort, apply_ite steady, apply_ite Port.steady, apply_ite Keep.steady]

@[simp] theorem raiseTgt_steady (l : Level) (now : Nat) (q : Port) : Port.steady (raiseTgt l now q) = Port.steady q := by
  unfold raiseTgt
  repeat' split
  all_goals first | rfl | simp [apply_ite steady, apply_ite Port.steady, apply_ite Keep.steady]

@[simp] theorem beginStep_steady (now : Nat) (q : Port) : Port.steady (beginStep now q) = Port.steady q := by
  unfold beginStep
  dsimp only
  split <;> rfl

@[simp] theorem writeContract_steady (i : Idx) (req : RequestMsg) (l : Level) (grant : Byte) (now : Word) (q : Port) : Port.steady (writeContract i req l grant now q) = Port.steady q := by simp [writeContract, apply_ite steady, apply_ite Port.steady, apply_ite Keep.steady]

@[simp] theorem confirmSlot_steady (p : PortId) (k : Nat) (s : Slot) (i : Idx) (l : Level) (d : Dev) : steady (confirmSlot p k s i l d) = steady d := by
  unfold confirmSlot
  repeat' split
  all_goals first | rfl | simp [steady_modPort, apply_ite steady, apply_ite Port.steady, apply_ite Keep.steady]

@[simp] theorem abortSlot_steady (sa w : Nat) (p : PortId) (x : Nat × Slot) (d : Dev) : steady (abortSlot sa w p x d) = steady d := by
  unfold abortSlot
  repeat' split
  all_goals first | rfl | simp [steady_modPort, apply_ite steady, apply_ite Port.steady, apply_ite Keep.steady]

@[simp] theorem abortSlots_steady (sa w : Nat) (p : PortId) (d : Dev) : steady (abortSlots sa w p d) = steady d := by simp [abortSlots, apply_ite steady, apply_ite Port.steady, apply_ite Keep.steady]

@[simp] theorem clearAll_steady (q : Port) : Port.steady (clearAll q) = Port.steady q := by simp [clearAll, apply_ite steady, apply_ite Port.steady, apply_ite Keep.steady]

@[simp] theorem endAll_steady (w : Nat) (p : PortId) (d : Dev) : steady (endAll w p d) = steady d := by
  unfold endAll
  repeat' split
  all_goals first | rfl | simp [steady_modPort, apply_ite steady, apply_ite Port.steady, apply_ite Keep.steady]

@[simp] theorem dropTraffic_steady (q : Port) : Port.steady (dropTraffic q) = Port.steady q := by
  unfold dropTraffic
  repeat' split
  all_goals first | rfl | simp [apply_ite steady, apply_ite Port.steady, apply_ite Keep.steady]

@[simp] theorem postFwu_steady (code : Nat) (d : Dev) : steady (postFwu code d) = steady d := by simp [postFwu, apply_ite steady, apply_ite Port.steady, apply_ite Keep.steady]

@[simp] theorem markHost_steady (n : Nat) (d : Dev) : steady (markHost n d) = steady d := by simp [markHost, apply_ite steady, apply_ite Port.steady, apply_ite Keep.steady]

@[simp] theorem byHost_steady (n : Nat) (f : Dev → Dev) (d : Dev) (h : steady (f d) = steady d) :
    steady (byHost n f d) = steady d := by
  simp [byHost, apply_ite steady, h]

@[simp] theorem dueSettings_steady (d : Dev) : steady (dueSettings d) = steady d := by
  unfold dueSettings
  repeat' split
  all_goals first | rfl | simp [steady_modPort, apply_ite steady, apply_ite Port.steady, apply_ite Keep.steady]

@[simp] theorem dropAwaiting_steady (p : PortId) (above : Level → Bool) (d : Dev) :
    steady (dropAwaiting p above d) = steady d := by
  unfold dropAwaiting
  exact steady_foldDev _ (by intro a x; (repeat' split) <;> simp) _ _

@[simp] theorem reachSlots_steady (l : Level) (q : Port) : Port.steady (reachSlots l q) = Port.steady q := by
  unfold reachSlots
  repeat' split
  all_goals first | rfl | simp [apply_ite steady, apply_ite Port.steady, apply_ite Keep.steady]

@[simp] theorem shedForLevel_steady (p : PortId) (l : Level) (d : Dev) : steady (shedForLevel p l d) = steady d := by simp [shedForLevel, apply_ite steady, apply_ite Port.steady, apply_ite Keep.steady]

@[simp] theorem toneCutsPulse_steady (p : PortId) (d : Dev) : steady (toneCutsPulse p d) = steady d := by
  unfold toneCutsPulse
  repeat' split
  all_goals first | rfl | simp [steady_modPort, apply_ite steady, apply_ite Port.steady, apply_ite Keep.steady]

/-- Two devices whose steady parts agree have ports whose steady parts agree. -/
theorem port_of_steady {a b : Dev} (h : steady a = steady b) (p : PortId) : Port.steady (a.port p) = Port.steady (b.port p) := by
  cases p
  · exact congrArg Dev.p0 h
  · exact congrArg Dev.p1 h

/-! ## What agreement of the steady parts gives, field by field -/

theorem ctl_of_steady {a b : Dev} (h : steady a = steady b) (p : PortId) : (a.port p).ctl = (b.port p).ctl := by
  have e := congrArg Port.ctl (port_of_steady h p)
  exact e
theorem role_of_steady {a b : Dev} (h : steady a = steady b) (p : PortId) : (a.port p).role = (b.port p).role := by
  have e := congrArg Port.role (port_of_steady h p)
  exact e
theorem gate_of_steady {a b : Dev} (h : steady a = steady b) (p : PortId) : (a.port p).gate = (b.port p).gate := by
  have e := congrArg Port.gate (port_of_steady h p)
  exact e
theorem pevt_of_steady {a b : Dev} (h : steady a = steady b) (p : PortId) : (a.port p).pevt = (b.port p).pevt := by
  have e := congrArg Port.pevt (port_of_steady h p)
  exact e
theorem cfg_of_steady {a b : Dev} (h : steady a = steady b) (p : PortId) : (a.port p).cfg = (b.port p).cfg := by
  have e := congrArg Port.cfg (port_of_steady h p)
  exact e
theorem att_of_steady {a b : Dev} (h : steady a = steady b) (p : PortId) : (a.port p).att = (b.port p).att := by
  have e := congrArg Port.att (port_of_steady h p)
  exact e
theorem met_of_steady {a b : Dev} (h : steady a = steady b) (p : PortId) : (a.port p).met = (b.port p).met := by
  have e := congrArg Port.met (port_of_steady h p)
  exact e
theorem grd_of_steady {a b : Dev} (h : steady a = steady b) (p : PortId) : (a.port p).grd = (b.port p).grd := by
  have e := congrArg Port.grd (port_of_steady h p)
  exact e
theorem drp_of_steady {a b : Dev} (h : steady a = steady b) (p : PortId) : (a.port p).drp = (b.port p).drp := by
  have e := congrArg Port.drp (port_of_steady h p)
  exact e
theorem rail_of_steady {a b : Dev} (h : steady a = steady b) (p : PortId) : (a.port p).rail = (b.port p).rail := by
  have e := congrArg Port.rail (port_of_steady h p)
  exact e
theorem throt_of_steady {a b : Dev} (h : steady a = steady b) (p : PortId) : (a.port p).throt = (b.port p).throt := by
  have e := congrArg Port.throt (port_of_steady h p)
  exact e
theorem ring_of_steady {a b : Dev} (h : steady a = steady b) (p : PortId) : { (a.port p).ring with pseq := 0, gapDue := 0 } = { (b.port p).ring with pseq := 0, gapDue := 0 } := by
  have e := congrArg Port.ring (port_of_steady h p)
  exact e
theorem drw_of_steady {a b : Dev} (h : steady a = steady b) (p : PortId) : (a.port p).drw = (b.port p).drw := by
  have e := congrArg Port.drw (port_of_steady h p)
  exact e
theorem thermal_of_steady {a b : Dev} (h : steady a = steady b) (p : PortId) : (a.port p).thermal = (b.port p).thermal := by
  have e := congrArg Port.thermal (port_of_steady h p)
  exact e
theorem bundle_of_steady {a b : Dev} (h : steady a = steady b) (p : PortId) : (a.port p).bundle = (b.port p).bundle := by
  have e := congrArg Port.bundle (port_of_steady h p)
  exact e
theorem emeter_of_steady {a b : Dev} (h : steady a = steady b) (p : PortId) : (a.port p).emeter = (b.port p).emeter := by
  have e := congrArg Port.emeter (port_of_steady h p)
  exact e
theorem cap0_of_steady {a b : Dev} (h : steady a = steady b) (p : PortId) : (a.port p).cap0 = (b.port p).cap0 := by
  have e := congrArg Port.cap0 (port_of_steady h p)
  exact e
theorem cap1_of_steady {a b : Dev} (h : steady a = steady b) (p : PortId) : (a.port p).cap1 = (b.port p).cap1 := by
  have e := congrArg Port.cap1 (port_of_steady h p)
  exact e
theorem cap2_of_steady {a b : Dev} (h : steady a = steady b) (p : PortId) : (a.port p).cap2 = (b.port p).cap2 := by
  have e := congrArg Port.cap2 (port_of_steady h p)
  exact e
theorem cap3_of_steady {a b : Dev} (h : steady a = steady b) (p : PortId) : (a.port p).cap3 = (b.port p).cap3 := by
  have e := congrArg Port.cap3 (port_of_steady h p)
  exact e
theorem lev_cur_of_steady {a b : Dev} (h : steady a = steady b) (p : PortId) : (a.port p).lev.cur = (b.port p).lev.cur := by
  have e := congrArg (fun q : Port => q.lev.cur) (port_of_steady h p)
  exact e
theorem lev_lfault_of_steady {a b : Dev} (h : steady a = steady b) (p : PortId) : (a.port p).lev.lfault = (b.port p).lev.lfault := by
  have e := congrArg (fun q : Port => q.lev.lfault) (port_of_steady h p)
  exact e
theorem lev_code_of_steady {a b : Dev} (h : steady a = steady b) (p : PortId) : (a.port p).lev.code = (b.port p).lev.code := by
  have e := congrArg (fun q : Port => q.lev.code) (port_of_steady h p)
  exact e
theorem lev_hold_of_steady {a b : Dev} (h : steady a = steady b) (p : PortId) : (a.port p).lev.hold = (b.port p).lev.hold := by
  have e := congrArg (fun q : Port => q.lev.hold) (port_of_steady h p)
  exact e
theorem lev_raiseFrom_of_steady {a b : Dev} (h : steady a = steady b) (p : PortId) : (a.port p).lev.raiseFrom = (b.port p).lev.raiseFrom := by
  have e := congrArg (fun q : Port => q.lev.raiseFrom) (port_of_steady h p)
  exact e
theorem lev_calAt_of_steady {a b : Dev} (h : steady a = steady b) (p : PortId) : (a.port p).lev.calAt = (b.port p).lev.calAt := by
  have e := congrArg (fun q : Port => q.lev.calAt) (port_of_steady h p)
  exact e
theorem lev_driveAt_of_steady {a b : Dev} (h : steady a = steady b) (p : PortId) : (a.port p).lev.driveAt = (b.port p).lev.driveAt := by
  have e := congrArg (fun q : Port => q.lev.driveAt) (port_of_steady h p)
  exact e
theorem lev_trimmed_of_steady {a b : Dev} (h : steady a = steady b) (p : PortId) : (a.port p).lev.trimmed = (b.port p).lev.trimmed := by
  have e := congrArg (fun q : Port => q.lev.trimmed) (port_of_steady h p)
  exact e
theorem lev_tgtNext_of_steady {a b : Dev} (h : steady a = steady b) (p : PortId) : (a.port p).lev.tgtNext = (b.port p).lev.tgtNext := by
  have e := congrArg (fun q : Port => q.lev.tgtNext) (port_of_steady h p)
  exact e
theorem line_silent_of_steady {a b : Dev} (h : steady a = steady b) (p : PortId) : (a.port p).line.silent = (b.port p).line.silent := by
  have e := congrArg (fun q : Port => q.line.silent) (port_of_steady h p)
  exact e
theorem line_seqRun_of_steady {a b : Dev} (h : steady a = steady b) (p : PortId) : (a.port p).line.seqRun = (b.port p).line.seqRun := by
  have e := congrArg (fun q : Port => q.line.seqRun) (port_of_steady h p)
  exact e
theorem line_bper_of_steady {a b : Dev} (h : steady a = steady b) (p : PortId) : (a.port p).line.bper = (b.port p).line.bper := by
  have e := congrArg (fun q : Port => q.line.bper) (port_of_steady h p)
  exact e
theorem line_enr_of_steady {a b : Dev} (h : steady a = steady b) (p : PortId) : (a.port p).line.enr = (b.port p).line.enr := by
  have e := congrArg (fun q : Port => q.line.enr) (port_of_steady h p)
  exact e
theorem us_of_steady {a b : Dev} (h : steady a = steady b) : a.us = b.us := by
  have e := congrArg Dev.us h
  exact e
theorem pw_of_steady {a b : Dev} (h : steady a = steady b) : a.pw = b.pw := by
  have e := congrArg Dev.pw h
  exact e
theorem win_of_steady {a b : Dev} (h : steady a = steady b) : a.win = b.win := by
  have e := congrArg Dev.win h
  exact e
theorem mbx_of_steady {a b : Dev} (h : steady a = steady b) : a.mbx = b.mbx := by
  have e := congrArg Dev.mbx h
  exact e
theorem tb_of_steady {a b : Dev} (h : steady a = steady b) : a.tb = b.tb := by
  have e := congrArg Dev.tb h
  exact e
theorem fwu_of_steady {a b : Dev} (h : steady a = steady b) : a.fwu = b.fwu := by
  have e := congrArg Dev.fwu h
  exact e
theorem gang_of_steady {a b : Dev} (h : steady a = steady b) : a.gang = b.gang := by
  have e := congrArg Dev.gang h
  exact e
theorem cmp_of_steady {a b : Dev} (h : steady a = steady b) : a.cmp = b.cmp := by
  have e := congrArg Dev.cmp h
  exact e
theorem gl_safe_of_steady {a b : Dev} (h : steady a = steady b) : a.gl.safe = b.gl.safe := by
  have e := congrArg (fun x : Dev => x.gl.safe) h
  exact e
theorem gl_eoff_of_steady {a b : Dev} (h : steady a = steady b) : a.gl.eoff = b.gl.eoff := by
  have e := congrArg (fun x : Dev => x.gl.eoff) h
  exact e
theorem gl_crit_of_steady {a b : Dev} (h : steady a = steady b) : a.gl.crit = b.gl.crit := by
  have e := congrArg (fun x : Dev => x.gl.crit) h
  exact e
theorem gl_park_of_steady {a b : Dev} (h : steady a = steady b) : a.gl.park = b.gl.park := by
  have e := congrArg (fun x : Dev => x.gl.park) h
  exact e
theorem gl_parkWaits_of_steady {a b : Dev} (h : steady a = steady b) : a.gl.parkWaits = b.gl.parkWaits := by
  have e := congrArg (fun x : Dev => x.gl.parkWaits) h
  exact e
theorem gl_owner_of_steady {a b : Dev} (h : steady a = steady b) : a.gl.owner = b.gl.owner := by
  have e := congrArg (fun x : Dev => x.gl.owner) h
  exact e
theorem gl_lockOpen_of_steady {a b : Dev} (h : steady a = steady b) : a.gl.lockOpen = b.gl.lockOpen := by
  have e := congrArg (fun x : Dev => x.gl.lockOpen) h
  exact e
theorem gl_shelf_of_steady {a b : Dev} (h : steady a = steady b) : a.gl.shelf = b.gl.shelf := by
  have e := congrArg (fun x : Dev => x.gl.shelf) h
  exact e
theorem gl_khot_of_steady {a b : Dev} (h : steady a = steady b) : a.gl.khot = b.gl.khot := by
  have e := congrArg (fun x : Dev => x.gl.khot) h
  exact e
theorem gl_rel_of_steady {a b : Dev} (h : steady a = steady b) : a.gl.rel = b.gl.rel := by
  have e := congrArg (fun x : Dev => x.gl.rel) h
  exact e
theorem gl_scratch_of_steady {a b : Dev} (h : steady a = steady b) : a.gl.scratch = b.gl.scratch := by
  have e := congrArg (fun x : Dev => x.gl.scratch) h
  exact e
theorem gl_timeHi_of_steady {a b : Dev} (h : steady a = steady b) : a.gl.timeHi = b.gl.timeHi := by
  have e := congrArg (fun x : Dev => x.gl.timeHi) h
  exact e
theorem keep_queue_of_steady {a b : Dev} (h : steady a = steady b) : a.keep.queue = b.keep.queue := by
  have e := congrArg (fun x : Dev => x.keep.queue) h
  exact e
theorem keep_run_of_steady {a b : Dev} (h : steady a = steady b) : a.keep.run = b.keep.run := by
  have e := congrArg (fun x : Dev => x.keep.run) h
  exact e
theorem keep_rollback_of_steady {a b : Dev} (h : steady a = steady b) : a.keep.rollback = b.keep.rollback := by
  have e := congrArg (fun x : Dev => x.keep.rollback) h
  exact e
theorem keep_bp_of_steady {a b : Dev} (h : steady a = steady b) : a.keep.bp = b.keep.bp := by
  have e := congrArg (fun x : Dev => x.keep.bp) h
  exact e
theorem keep_store_of_steady {a b : Dev} (h : steady a = steady b) : a.keep.store = b.keep.store := by
  have e := congrArg (fun x : Dev => x.keep.store) h
  exact e
theorem keep_sfail_of_steady {a b : Dev} (h : steady a = steady b) : a.keep.sfail = b.keep.sfail := by
  have e := congrArg (fun x : Dev => x.keep.sfail) h
  exact e
theorem keep_pfen_of_steady {a b : Dev} (h : steady a = steady b) : a.keep.pfen = b.keep.pfen := by
  have e := congrArg (fun x : Dev => x.keep.pfen) h
  exact e
theorem keep_pfch_of_steady {a b : Dev} (h : steady a = steady b) : a.keep.pfch = b.keep.pfch := by
  have e := congrArg (fun x : Dev => x.keep.pfch) h
  exact e
theorem keep_s_of_steady {a b : Dev} (h : steady a = steady b) : a.keep.s = b.keep.s := by
  have e := congrArg (fun x : Dev => x.keep.s) h
  exact e
theorem keep_jroll_of_steady {a b : Dev} (h : steady a = steady b) : a.keep.jroll = b.keep.jroll := by
  have e := congrArg (fun x : Dev => x.keep.jroll) h
  exact e
theorem keep_dseq_of_steady {a b : Dev} (h : steady a = steady b) : a.keep.dseq = b.keep.dseq := by
  have e := congrArg (fun x : Dev => x.keep.dseq) h
  exact e
theorem keep_pageAt_of_steady {a b : Dev} (h : steady a = steady b) : a.keep.pageAt = b.keep.pageAt := by
  have e := congrArg (fun x : Dev => x.keep.pageAt) h
  exact e
theorem keep_scrubAt_of_steady {a b : Dev} (h : steady a = steady b) : a.keep.scrubAt = b.keep.scrubAt := by
  have e := congrArg (fun x : Dev => x.keep.scrubAt) h
  exact e
theorem keep_scrubHours_of_steady {a b : Dev} (h : steady a = steady b) : a.keep.scrubHours = b.keep.scrubHours := by
  have e := congrArg (fun x : Dev => x.keep.scrubHours) h
  exact e
theorem keep_scrubFast_of_steady {a b : Dev} (h : steady a = steady b) : a.keep.scrubFast = b.keep.scrubFast := by
  have e := congrArg (fun x : Dev => x.keep.scrubFast) h
  exact e
theorem keep_snapNum_of_steady {a b : Dev} (h : steady a = steady b) : a.keep.snapNum = b.keep.snapNum := by
  have e := congrArg (fun x : Dev => x.keep.snapNum) h
  exact e
theorem keep_dueHot_of_steady {a b : Dev} (h : steady a = steady b) : a.keep.dueHot = b.keep.dueHot := by
  have e := congrArg (fun x : Dev => x.keep.dueHot) h
  exact e
theorem keep_energyAt_of_steady {a b : Dev} (h : steady a = steady b) : a.keep.energyAt = b.keep.energyAt := by
  have e := congrArg (fun x : Dev => x.keep.energyAt) h
  exact e
theorem keep_shadowA_of_steady {a b : Dev} (h : steady a = steady b) : a.keep.shadowA = b.keep.shadowA := by
  have e := congrArg (fun x : Dev => x.keep.shadowA) h
  exact e
theorem keep_shadowB_of_steady {a b : Dev} (h : steady a = steady b) : a.keep.shadowB = b.keep.shadowB := by
  have e := congrArg (fun x : Dev => x.keep.shadowB) h
  exact e
theorem coreOf_of_steady {a b : Dev} (h : steady a = steady b) : coreOf a = coreOf b := congrArg Dev.core h

end Sys2Proof.Laws
end

