-- ==== Sys2Proof/Tests/Slice0.lean ====
section
/-! SUPPORT. The model's own tests: an ill-formed term that WellFormed refuses for each of its checks; for each statement, states and
operands that meet its hypotheses, clause by clause, at the boundary values where a clause has a range; and single steps whose
results are the spec's own. -/

namespace Sys2Proof.Tests

open Sys2Proof Machine

/-! ## States that the tests start from -/

/-- A device that runs its firmware. -/
def dv : Dev :=
  { us := 200000000, pw := { phase := .running, latchArmed := false }, core := { run := true }, tb := { alloc := true }
    gl := { rel := true } }

/-- A state with that device. -/
def st (d : Dev) : State := { dev := d }

/-- A FEED port that is attached, its path closed, its rail on. -/
def feedQ : Port :=
  { ctl := { role := .feed, en := true }, role := .feed, gate := .closed, att := { state := .attached, att := true, typ := 1 }
    rail := { sw := .on }, cfg := { shunt := 5000, xfer := some (11000, 36000) } }

/-- A DRAW port that has joined as index 5. -/
def drawQ : Port :=
  { ctl := { role := .draw, en := true }, role := .draw, att := { state := .attached, att := true, typ := 3 }
    drw := { joined := true, idx := some 5 }, cfg := { shunt := 5000 } }

/-- A state with one port as given. -/
def atP (q : Port) : State := { dev := { dv with p0 := q } }

/-! ## Witnesses: the guard and SAFE -/

theorem witness_GuardTripOpensAndLatches :
    (guardRuns feedQ = true ∧ feedQ.grd.latch = false)
    ∧ (fastUv feedQ : Int) < forwardUv feedQ 90000 ∧ forwardUv feedQ (fastUv feedQ) ≤ fastUv feedQ
    ∧ forwardUv feedQ (-1501) < -1500 ∧ -1500 ≤ forwardUv feedQ (-1500)
    ∧ (fastUv drawQ : Int) < forwardUv drawQ (-90000) ∧ forwardUv drawQ 1501 < -1500
    ∧ (let q : Port := { feedQ with grd := { full := true } }
       q.grd.full = true ∧ guardRuns q = true ∧ q.grd.latch = false
       ∧ (0x02 : BitVec 7).getLsbD 1 = true ∧ (0x02 : BitVec 7).getLsbD 5 = false ∧ (0x02 : BitVec 7).getLsbD 6 = false
       ∧ (0x10 : BitVec 7).getLsbD 4 = true ∧ (0x10 : BitVec 7).getLsbD 1 = false
       ∧ overTrips { q with met := { overRun := 18 } } = true
       ∧ (0x08 : BitVec 7).getLsbD 3 = true ∧ (0x08 : BitVec 7).getLsbD 1 = false ∧ (0x08 : BitVec 7).getLsbD 4 = false)
    ∧ feedQ.grd.full = false ∧ overTrips feedQ = false ∧ (0x20 : BitVec 7).getLsbD 5 = true ∧ (0x40 : BitVec 7).getLsbD 6 = true
    ∧ overTrips { feedQ with met := { overRun := 18 } } = true ∧ guardRuns { feedQ with met := { overRun := 18 } } = true
    ∧ feedQ.ringFeeder = false ∧ ({ feedQ with grd := { latch := true } } : Port).grd.latch = true := by decide

/-- A ring feeder. -/
def ringQ : Port := { feedQ with ring := { en := true, peer := true, synced := true, join := .joined } }

theorem witness_RingFeederBlocksAndRecloses :
    ringQ.ringFeeder = true ∧ guardRuns ringQ = true ∧ ringQ.gate ≠ .opened
    ∧ (let q : Port := { ringQ with gate := .opened, ring := { ringQ.ring with block := true, blockAt := 199900000 }, met := { match2 := 1000 } }
       q.ringFeeder = true ∧ q.ring.block = true ∧ q.ring.heldOpen = false ∧ 1000 ≤ q.met.match2
       ∧ q.ring.blockAt + 100000 ≤ dv.us)
    ∧ (let q : Port := { ringQ with gate := .opened, ring := { ringQ.ring with block := true, blocks := [0, 0, 0] } }
       q.ringFeeder = true ∧ q.ring.block = true ∧ 3 ≤ q.ring.blocks.length) := by decide

theorem witness_GuardRestart_CurrentThresholdWrites :
    (let q : Port := { feedQ with gate := .opened, grd := { latch := true, cause := 1, cool := some 200000000 } }
     q.grd.cool = some 200000000 ∧ 200000000 ≤ dv.us ∧ hostOk dv = true ∧ q.grd.latch = true ∧ 1 ≤ q.grd.cause.toNat
     ∧ q.grd.cause.toNat ≤ 4 ∧ dv.gl.safe = false ∧ q.grd.tripAt ≠ dv.us
     ∧ ({ q with grd := { q.grd with tripAt := 200000000 } } : Port).grd.tripAt = dv.us)
    ∧ mayReclose { dv with p0 := { feedQ with gate := .opened, grd := { cause := 1, reclose := true, tripAt := 199900000 } } } .p0 = true
    ∧ mayReclose { dv with p0 := { ringQ with gate := .opened, grd := { cause := 1, reclose := true, tripAt := 199900000 }
                                              met := { ringQ.met with match2 := 1000 } } } .p0 = true
    ∧ (let q : Port := { feedQ with gate := .closing 199999000, met := { near := 1000 } }
       q.gate = .closing 199999000 ∧ 1000 ≤ q.met.near) := by decide

theorem witness_SafeEntryAndExit :
    (hostOk dv = true ∧ dv.gl.safe = false ∧ dv.pw.supply = true ∧ dv.gl.crit = false ∧ dv.up = true)
    ∧ (let d : Dev := { dv with gl := { safe := true, eoff := true } }
       hostOk d = true ∧ d.gl.safe = true ∧ d.gl.crit = false)
    ∧ (let d : Dev := { dv with gl := { safe := true } }
       d.gl.safe = true ∧ d.gl.crit = false ∧ d.gl.eoff = false)
    ∧ (let d : Dev := { dv with gl := { safe := true, crit := true, rel := true } }
       hostOk d = true ∧ d.gl.crit = true ∧ d.gl.rel = true ∧ d.keep.rollback = none) := by decide

/-- R252: a trip of cause 1 opens the path and sets the latch; a second comparator changes nothing further. -/
theorem test_trip_latches :
    (match exec (.fastOverCurrent .p0 ⟨45001, 0⟩) (atP feedQ) with
     | .next s => (s.dev.p0.gate, s.dev.p0.grd.latch, s.dev.p0.grd.cause) | _ => (.closed, false, 0)) = (.opened, true, 1) := by decide

/-- R249: under PS2 at L3 the breaker's reference is 2164 mA, and the fast threshold is at most that of 4328 mA: 21.75 mV over 5 mΩ,
in steps of 0.25 mV. -/
theorem test_ps2_reference :
    (let q : Port := { feedQ with ctl := { feedQ.ctl with ps2 := true }, grd := { ilim := 8000, ifast := 9000 }, lev := { cur := 3, tgt := 3 } }
     (breakerRef q, fastMa q, fastUv q)) = (2164, 4328, 21750) := by decide

/-- R247: IFAST of 60 A over 5 mΩ is reduced to 9 A, where the threshold is 45 mV. -/
theorem test_ifast_reduced :
    (match exec (.ifastWrite .p0 60000) (atP feedQ) with | .next s => s.dev.p0.grd.ifast | _ => 0) = 9000 := by decide

/-! ## Witnesses: roles, PCTL, the rail, the owner lock, attach and detach -/

theorem witness_RoleWritten :
    (hostOk dv = true ∧ parking dv = false)
    ∧ (roleOfCode 1 = some .feed ∧ roleRefusal { dv with p0 := { cfg := { shunt := 5000 } } } .p0 .feed true = none)
    ∧ (roleOfCode 2 = some .draw
       ∧ roleRefusal { dv with p0 := { ctl := { en := true }, cfg := { shunt := 5000 } }, p1 := drawQ } .p0 .draw true = some 2)
    ∧ (roleOfCode 0 = some .off ∧ roleRefusal { dv with p0 := feedQ } .p0 .off true = none)
    ∧ (let d : Dev := { dv with p1 := { ctl := { role := .feed }, cfg := { shunt := 5000 } } }
       hostOk d = true ∧ (d.port .p1).ctl.en = false ∧ parking d = false ∧ roleRefusal d .p1 (d.port .p1).ctl.role true = none) := by
  decide

theorem witness_PctlFieldsWritten :
    hostOk { dv with p0 := { feedQ with lev := { step := some ⟨0, 1, .due 0, 0⟩ } } } = true
    ∧ ({ feedQ with lev := { step := some ⟨0, 1, .due 0, 0⟩ } } : Port).follower = false := by decide

theorem witness_TapRail :
    hostOk dv = true
    ∧ (let q : Port := { feedQ with met := { railLim := 20000 } }
       q.master = true ∧ q.rail.oc = false ∧ 1000 ≤ q.met.railLim ∧ 20000 ≤ q.met.railLim)
    ∧ (let q : Port := { feedQ with rail := { sw := .off, retryAt := some 200000000 } }
       q.rail.retryAt = some 200000000 ∧ 200000000 ≤ dv.us ∧ q.rail.en = true)
    ∧ (let q : Port := { feedQ with rail := { sw := .on, oc := true }, met := { railOk := 10000 } }
       q.rail.oc = true ∧ q.rail.sw = .on ∧ 10000 ≤ q.met.railOk) := by decide

theorem witness_OwnerLockCode :
    (let d : Dev := { dv with gl := { owner := { enrolled := true, code := 0x12345678 } } }
     hostOk d = true ∧ d.gl.lockBlocked = false ∧ d.gl.owner.enrolled = true ∧ d.gl.lockArmed = none)
    ∧ (let d : Dev := { dv with gl := { owner := { enrolled := true, code := 0x12345678 }, lockArmed := some (0x1234, 199999000) } }
       hostOk d = true ∧ d.gl.lockArmed = some (0x1234, 199999000) ∧ d.us ≤ 199999000 + 1000
       ∧ ((0x1234 : Half) ++ (0x5678 : Half) : Word) = d.gl.owner.code ∧ ((0x1234 : Half) ++ (0x5679 : Half) : Word) ≠ d.gl.owner.code)
    ∧ (let d : Dev := { dv with gl := { owner := { enrolled := true }, lockArmed := some (0x1234, 199998999) } }
       d.gl.lockArmed = some (0x1234, 199998999) ∧ 199998999 + 1000 < d.us) := by decide

theorem witness_Attaches :
    (let q : Port := { feedQ with gate := .opened, att := { debounce := some (.endCap true, 199900000) }, rail := {} }
     q.att.debounce = some (.endCap true, 199900000) ∧ probes q = true ∧ 199900000 + 100000 ≤ dv.us ∧ q.rail.en = true
     ∧ q.grd.latch = false ∧ q.cfg.xfer.isSome = true)
    ∧ (let q : Port := { feedQ with gate := .opened, att := { debounce := some (.peerHead false, 199900000), windows := 3 } }
       q.att.debounce = some (.peerHead false, 199900000) ∧ probes q = true ∧ 3 ≤ q.att.windows)
    ∧ (let q : Port := { drawQ with att := {}, drw := { pinB := 2 } }
       q.role = .draw ∧ q.ctl.en = true ∧ q.drw.joined = false ∧ 2 ≤ q.drw.pinB ∧ q.drw.pinA = 0)
    ∧ (let q : Port := { drawQ with att := {}, drw := { pinA := 2 } }
       q.drw.joined = false ∧ 2 ≤ q.drw.pinA ∧ q.drw.pinB = 0)
    ∧ (let q : Port := { drawQ with att := {}, drw := { pinA := 1, pinB := 1 } }
       q.role = .draw ∧ q.ctl.en = true ∧ q.drw.joined = false ∧ 1 ≤ q.drw.pinA ∧ 1 ≤ q.drw.pinB) := by decide

theorem witness_Probing :
    (let q : Port := { feedQ with att := { nextProbe := 200000000 } }
     probes q = true ∧ q.att.nextProbe ≤ dv.us ∧ q.ring.en = false)
    ∧ (let q : Port := { feedQ with att := { nextProbe := 200000000 }, ring := { en := true } }
       probes q = true ∧ q.att.nextProbe ≤ dv.us ∧ q.ring.en = true)
    ∧ windowEnds dv.us { feedQ with ring := { en := true }, att := { feedQ.att with windowAt := 199999000 } } = true
    ∧ (let q : Port := { feedQ with ring := { en := true }, cfg := { ringOrient := some true }, att := { fruitless := 100 } }
       probes q = true ∧ pauses q = true ∧ 100 ≤ q.att.fruitless ∧ (200 ≤ 200 ∧ 200 ≤ 1000) ∧ 1000 ≤ 1000)
    ∧ (let q : Port := { feedQ with att := { pause := some 200000000 } }
       q.att.pause = some 200000000 ∧ 200000000 ≤ dv.us)
    ∧ (let q : Port := { feedQ with att := { resumeAt := some 200000000 } }
       q.att.resumeAt = some 200000000 ∧ q.role = .feed) := by decide

theorem witness_Detaches :
    detachHolds { feedQ with met := { cwOut := 8000 } } = true ∧ detachHolds { feedQ with met := { railLow := 8000 } } = true
    ∧ detachHolds { feedQ with met := { cwOut := 7999, railLow := 7999 } } = false
    ∧ (let q : Port := { drawQ with drw := { joined := true, heardAt := 196700000 } }
       q.role = .draw ∧ q.drw.joined = true ∧ q.drw.heardAt + 3300000 ≤ dv.us) := by decide

/-- R93: FEED written to an enabled port whose shunt value is known comes into force. -/
theorem test_role_feed :
    (match exec (.roleWrite .p0 1) (atP { ctl := { en := true }, cfg := { shunt := 5000 } }) with
     | .next s => (s.dev.p0.ctl.role, s.dev.p0.role) | _ => (.off, .off)) = (.feed, .feed) := by decide

/-- R93, R15: a second DRAW port is refused with PEVT.ROLE. -/
theorem test_role_denied :
    (match exec (.roleWrite .p1 2) { dev := { dv with p0 := drawQ, p1 := { ctl := { en := true }, cfg := { shunt := 5000 } } } } with
     | .next s => (s.dev.p1.role, s.dev.p1.pevt.getLsbD eRole) | _ => (.draw, false)) = (.off, true) := by decide

/-! ## Witnesses: levels and the droop responder -/

/-- A port with a level step from L0 to L1 in a stage. -/
def stepQ (g : StepStage) : Port := { feedQ with lev := { step := some ⟨0, 1, g, 0⟩ } }

theorem witness_LevelStepStages :
    ((stepQ (.due 199999000)).lev.step = some ⟨0, 1, .due 199999000, 0⟩ ∧ 199999000 + 1000 ≤ dv.us ∧ 5 ≤ 5 ∧ 5 ≤ 10 ∧ 5 ≤ 10 ∧ 10 ≤ 10
      ∧ mayBroadcast dv.us (stepQ (.due 199999000)) = true)
    ∧ ((stepQ (.noticed 199994722 5)).lev.step = some ⟨0, 1, .noticed 199994722 5, 0⟩ ∧ 199994722 + 278 + 5 * 1000 ≤ dv.us
      ∧ (stepQ (.noticed 199994722 5)).drp.hold = false)
    ∧ ((stepQ (.ramp 199960000 199972000)).lev.step = some ⟨0, 1, .ramp 199960000 199972000, 0⟩ ∧ 199972000 + 0 + 28000 ≤ dv.us)
    ∧ (let q : Port := { stepQ (.settling 199960000 199998000) with met := { vsegIn := 2000 } }
       q.lev.step = some ⟨0, 1, .settling 199960000 199998000, 0⟩
       ∧ settled q ⟨0, 1, .settling 199960000 199998000, 0⟩ 199998000 dv.us = true)
    ∧ (let x : LevelStep := ⟨0, 1, .settling 199940000 199970000, 0⟩
       (stepQ x.stage).lev.step = some x ∧ stepStart x = some 199940000 ∧ 199940000 + Nat.min (60000 + x.frozen) 70000 ≤ dv.us
       ∧ masterSettled (stepQ x.stage) x = false ∧ x.src < x.dst) := by decide

theorem witness_LevelTargets :
    (let q : Port := { feedQ with lev := { idleSince := some 190100000 } }
     q.lev.hold = false ∧ dv.tb.alloc = true ∧ q.isHead = true ∧ (gangMember dv && decide (dv.gang.modeIn = 1)) = false
     ∧ q.lev.idleSince = some 190100000 ∧ 190100000 + 9900000 ≤ dv.us)
    ∧ (dv.core.run = true ∧ feedQ.follower = false ∧ feedQ.lev.step = none ∧ feedQ.lev.cur ≠ clampTop feedQ 1
       ∧ feedQ.gate = .closed ∧ feedQ.isHead = true ∧ feedQ.line.first = none ∧ feedQ.lev.tgt < clampTop feedQ 1
       ∧ raiseAllowed dv.us feedQ = true)
    ∧ (let q : Port := { feedQ with lev := { raiseFrom := 200000001 } }
       q.lev.hold = false ∧ q.lev.tgt < clampTop q 1 ∧ raiseAllowed dv.us q = false) := by decide

theorem witness_LevelTrimAndFaults :
    (let q : Port := { feedQ with lev := { code := 1 } }
     q.role = .feed ∧ q.gate = .closed ∧ q.lev.step = none ∧ q.drp.hold = false ∧ q.drp.act = false ∧ q.follower = false
     ∧ q.lev.trimMs < dv.us / 1000 ∧ q.lev.code ≤ upperCode q q.lev.cur ∧ 1 ≤ q.lev.code)
    ∧ (nominalMv 0 * 1005 < 13000 * 1000 ∧ 11000 * 1000 < nominalMv 0 * 995
       ∧ nominalMv 0 * 995 ≤ nominalMv 0 * 1000 ∧ nominalMv 0 * 1000 ≤ nominalMv 0 * 1005)
    ∧ 105000 ≤ ({ feedQ with met := { vfeedOut := 105000 } } : Port).met.vfeedOut
    ∧ (let q : Port := { feedQ with lev := { driveAt := some 199940000 } }
       q.lev.driveAt = some 199940000 ∧ 199940000 + 60000 ≤ dv.us)
    ∧ (let q : Port := { feedQ with lev := { lfault := true }, met := { vfeedIn := 1000000 } }
       q.lev.lfault = true ∧ q.lev.step = none ∧ 1000000 ≤ q.met.vfeedIn)
    ∧ (let q : Port := { feedQ with lev := { calAt := some 199960000 } }
       q.lev.calAt = some 199960000 ∧ 199960000 + 40000 ≤ dv.us ∧ 11400 ≤ 11400 ∧ 46200 ≤ 46200 ∧ 55000 ≤ 55000
       ∧ 11400 < 11401 ∧ 46199 < 46200 ∧ 55000 < 55001) := by decide

theorem witness_DroopResponse :
    (let q : Port := { feedQ with met := { vsegDroop := 1 } }
     droopReady { dv with p0 := q } .p0 = true ∧ q.follower = false)
    ∧ (let q : Port := { feedQ with drp := { hold := true }, met := { vsegUp := 1000 } }
       q.drp.hold = true ∧ q.follower = false ∧ 1000 ≤ q.met.vsegUp)
    ∧ (let q : Port := { feedQ with drp := { hold := true, at_ := 199995100 }, met := { vsegUp := 999 } }
       q.drp.hold = true ∧ q.met.vsegUp < 1000 ∧ q.drp.at_ + 4900 ≤ dv.us)
    ∧ (let q : Port := { feedQ with drp := { removeAt := some 199998400, applied := 16, act := true } }
       q.drp.removeAt = some 199998400 ∧ 199998400 + 100 * q.drp.applied ≤ dv.us)
    ∧ (let q : Port := { feedQ with drp := { act := true, limit := some 500, fallAt := 200000000, admit0 := 1000 } }
       droopPersistent q = true ∧ q.drp.limit = some 500 ∧ q.drp.fallAt ≤ dv.us)
    ∧ (let q : Port := { feedQ with drp := { at_ := 140000000, limit := some 500 }, met := { vsegOk := 60000000 } }
       q.drp.hold = false ∧ q.drp.at_ + 60000000 ≤ dv.us ∧ 60000000 ≤ q.met.vsegOk) := by decide

/-- R219: LFAULT and the level event after a step that timed out. -/
theorem test_step_times_out :
    (match exec (.levelStepTimeout .p0) (atP (stepQ (.settling 199940000 199970000))) with
     | .next s => (s.dev.p0.lev.lfault, s.dev.p0.lev.step) | _ => (false, none)) = (true, none) := by decide

/-! ## Witnesses: the line and admission -/

/-- A head with one endpoint, index 7, in service at L0 with 6 W. -/
def headQ : Port :=
  { feedQ with roster := [(7, { state := 2, mask := 15, calable := true, calDue := true })]
               contract := [(7, { state := 2, power := 60, mask := 15, admissions := 1 })] }

/-- A REQUEST of 6 W at any level. -/
def req60 : RequestMsg := ⟨60, 0, 15⟩

/-- An ENROLL. -/
def enr : EnrollMsg := ⟨0x112233445566, 1, 3, true, true, true, 9600, 15, 1⟩

theorem witness_BeaconsEnrolmentAndPolls :
    (let q : Port := { headQ with line := { due := 200000000 } }
     beaconDue q dv.us = true ∧ opensWindow q dv.us = false)
    ∧ (let q : Port := { headQ with line := { due := 200000000, sinceWindow := 3 } }
       beaconDue q dv.us = true ∧ opensWindow q dv.us = true)
    ∧ (let q : Port := { headQ with line := { window := some 200000000, enrolls := [(0, enr)] } }
       q.isHead = true ∧ q.line.window = some 200000000 ∧ dv.us ≤ 200000000 ∧ 200000000 ≤ dv.us ∧ q.line.enrolls = [(0, enr)]
       ∧ findEui q enr.eui = none ∧ freeSlot q = some 0 ∧ freeIndex q = some 0 ∧ 0 < 1024)
    ∧ (headQ.isHead = true ∧ lineFree dv.us headQ = true ∧ pollAllowed headQ 0 7 dv.us = true ∧ (rosterOf headQ 7).resetDue = none)
    ∧ pollAllowed { headQ with line := { pass := some [7], polled := 63 } } 1 7 dv.us = true
    ∧ pollAllowed { headQ with roster := [(1023, { state := 3, polledAt := 140000000 })] } 3 1023 dv.us = true := by decide

/-- A frame under way to index 7. -/
def outPoll : OutFrame := { kind := .poll 0, idx := 7, frame := ⟨0x03, 7, 0, 0, []⟩, sent := true }

theorem witness_ExchangeEnds :
    drawQ.role = .draw
    ∧ (let q : Port := { headQ with line := { out := [{ outPoll with kind := .assign true }] } }
       q.role ≠ .draw ∧ q.line.out = { outPoll with kind := .assign true } :: [] ∧ outPoll.sent = true)
    ∧ (let q : Port := { headQ with line := { out := [{ outPoll with retries := 2 }] } }
       q.line.out = { outPoll with retries := 2 } :: [] ∧ outPoll.sent = true ∧ idleFor 48 dv.us q = true ∧ 2 < 3
       ∧ mayStart (again { outPoll with retries := 2 }) dv.us q = true)
    ∧ (discarded ⟨0x3F, 7, 2, 0x20, []⟩ = false ∧ frameBad ⟨0x3F, 7, 2, 0x20, []⟩ = true
       ∧ addressed { dv with p0 := headQ } .p0 ⟨0x3F, 7, 2, 0x20, []⟩ = true ∧ headQ.role ≠ .draw ∧ headQ.line.out = [])
    ∧ (discarded ⟨0x03, 7, 2, 0x20, List.replicate 24 0⟩ = false ∧ actsOn ⟨0x03, 7, 2, 0x20, List.replicate 24 0⟩ = false
       ∧ discarded ⟨0x03, 7, 2, 0x20, List.replicate 25 0⟩ = true)
    ∧ (let q : Port := { headQ with line := { reloadDue := true, due := 200032000, beaconEnd := 199999988 } }
       reloadMoment dv.us q = true ∧ q.isHead = true)
    ∧ ({ headQ with line := { reloadAt := some 5 } } : Port).line.reloadAt = some 5 := by decide

theorem witness_FirstSecond :
    (let q : Port := { headQ with lev := { driveAt := some 199970000 }, met := { last := ⟨12000, 12100, 0, 0, 0, 0⟩ } }
     q.isHead = true ∧ q.lev.driveAt.isSome = true ∧ inBand 0 q.met.last.vseg = true)
    ∧ (let q : Port := { headQ with line := { first := some 199000000, beaconEnd := 199600374 } }
       q.line.first = some 199000000 ∧ 199000000 + 1000000 ≤ dv.us ∧ decisionDue { dv with p0 := q } .p0 = true)
    ∧ (let q : Port := { headQ with line := { restored := [7] } }
       restoreSettled q = true ∧ ∀ i ∈ q.line.restored, (contractOf q i.toNat).held = true → restoreFits q i = true) := by decide

theorem witness_RequestAnswered :
    (let q : Port := { feedQ with roster := [(7, { state := 2, mask := 15 })] }
     let d : Dev := { dv with p0 := q }
     (headHears d .p0 7 = true ∧ duplicateFrom q 7 ⟨0, false⟩ = false) ∧ resyncs q 7 req60 = false ∧ slotOf q 7 = none
     ∧ freeSlot q = some 0 ∧ q.line.out = []
     ∧ (requestMalformed ⟨601, 0, 15⟩ = true ∧ resyncs q 7 ⟨601, 0, 15⟩ = false)
     ∧ requestMalformed ⟨600, 600, 15⟩ = false ∧ requestMalformed ⟨0, 0, 15⟩ = true
     ∧ requestMalformed req60 = false ∧ aboveLmax q req60 = false ∧ q.rail.swap = .none ∧ (contractOf q 7).held = false
     ∧ allocRuns d = true ∧ txHold q = false) := by decide

/-- A head whose endpoint 7 has a slot. -/
def slotQ (x : Slot) : Port := { headQ with contract := [], slots := [(127, { x with idx := some 7, req := req60, mtype := 0x08 })] }

theorem witness_EngineStores :
    (let q := slotQ { state := 1, posted := true }
     dv.core.run = true ∧ spFind q.slots (127 : BitVec 7).toNat = some { state := 1, posted := true, idx := some 7, req := req60, mtype := 0x08 }
     ∧ slotOpen dv.us { state := 1, posted := true, idx := some 7, req := req60, mtype := 0x08 } = true)
    ∧ (let q := slotQ { state := 2, since := 199980001 }
       spFind q.slots (127 : BitVec 7).toNat = some { state := 2, since := 199980001, idx := some 7, req := req60, mtype := 0x08 }
       ∧ slotOpen dv.us { state := 2, since := 199980001, idx := some 7, req := req60, mtype := 0x08 } = true
       ∧ q.rail.swap = .none
       ∧ confirmLevel { dv with p0 := q } .p0 { state := 2, since := 199980001, idx := some 7, req := req60, mtype := 0x08 } 7 = some 0)
    ∧ (let x : Slot := { state := 1, posted := true, idx := some 7, req := { req60 with mask := 0 }, mtype := 0x08 }
       slotOpen dv.us x = true ∧ confirmLevel { dv with p0 := headQ } .p0 x 7 = none)
    ∧ ({ headQ with rail := { sw := .on, swap := .asked } } : Port).rail.swap ≠ .none
    ∧ (contractOf headQ 7).held = true := by decide

theorem witness_SlotsExpireOrReady :
    (let x : Slot := { state := 2, since := 199980000, idx := some 7, req := req60, mtype := 0x08 }
     spFind (slotQ x).slots (127 : BitVec 7).toNat = some x ∧ x.idx = some 7 ∧ x.state = 2 ∧ x.since + 20000 ≤ dv.us)
    ∧ (let x : Slot := { state := 1, posted := true, since := 199980000, idx := some 7, req := req60, mtype := 0x08 }
       spFind (slotQ x).slots (127 : BitVec 7).toNat = some x ∧ x.state = 1 ∧ x.posted = true ∧ x.since + 20000 ≤ dv.us)
    ∧ (let x : Slot := { state := 3, reached := true, readyFrom := 200000000, idx := some 7, req := req60, mtype := 0x08 }
       spFind (slotQ x).slots (127 : BitVec 7).toNat = some x ∧ readyDue dv.us x = true ∧ (slotQ x).isHead = true
       ∧ (rosterOf (slotQ x) 7).state ≠ 0)
    ∧ (let x : Slot := { state := 1, since := 199982000, idx := some 7, req := req60, mtype := 0x08 }
       spFind (slotQ x).slots (127 : BitVec 7).toNat = some x ∧ x.since + 18000 ≤ dv.us) := by decide

theorem witness_AllocatorPasses :
    (let d : Dev := { dv with tb := { alloc := true, passAt := 199996200 } }
     d.core.run = true ∧ allocRuns d = true ∧ d.tb.passAt + 3800 ≤ d.us) := by decide

theorem witness_Forecasts :
    (headHears { dv with p0 := headQ } .p0 7 = true ∧ duplicateFrom headQ 7 ⟨1, true⟩ = false ∧ hintRefused headQ ⟨600, 0, 3600⟩ = false)
    ∧ (let x : Reservation := { idx := 7, forecast := 900, delta := 350, holdAt := 0, startAt := 200200000, endAt := 200000001 }
       let q : Port := { headQ with hints := [x] }
       let d : Dev := { dv with p0 := q }
       q.hints.find? (fun h => h.idx == 7) = some x ∧ d.core.run = true ∧ q.isHead = true ∧ x.startAt ≤ d.us + 200000
       ∧ d.us < x.endAt ∧ hintLevel q x.delta = some 3 ∧ levelCapped d .p0 3 = false ∧ q.lev.hold = false ∧ q.lev.raiseFrom = 0
       ∧ q.lev.tgt < clampTop q 3)
    ∧ (let x : Reservation := { idx := 7, forecast := 900, delta := 300, holdAt := 0, startAt := 100, endAt := 200000000 }
       ({ headQ with hints := [x] } : Port).hints.find? (fun h => h.idx == 7) = some x ∧ x.endAt ≤ dv.us) := by decide

theorem witness_ReportsAndCalibration :
    (headHears { dv with p0 := headQ } .p0 7 = true ∧ duplicateFrom headQ 7 ⟨1, true⟩ = false ∧ (contractOf headQ 7).state = 2)
    ∧ (freeSlot headQ = some 0 ∧ mayPulse { dv with p0 := headQ } .p0 7 1 20 = true)
    ∧ (let q : Port := { headQ with ceilAt := some 190100000 }
       q.ceilAt = some 190100000 ∧ 190100000 + 9900000 ≤ dv.us) := by decide

/-- R182: a REQUEST of 60.1 W is malformed; its REJECT is sent. -/
theorem test_request_malformed :
    (match exec (.request .p0 7 ⟨0, false⟩ ⟨601, 0, 15⟩) (atP { feedQ with roster := [(7, { state := 2, mask := 15 })] }) with
     | .next s => s.dev.p0.line.out.map (·.kind) | _ => []) = [.reject] := by decide

/-! ## Witnesses: the ring, the rail swap, PARK -/

/-- A ring feeder that supplies no rail: the follower. -/
def follQ : Port := { ringQ with rail := { sw := .backup } }

theorem witness_PeerGapCarriesOne :
    (let q : Port := { ringQ with line := { due := 200000500, bcount := 1 }, ring := { ringQ.ring with helloDue := true } }
     peerHears q = true ∧ q.line.out = [] ∧ q.line.reloadAt = none ∧ inGap q dv.us = true ∧ swapSilences q.rail.swap = false
     ∧ idleFor (if q.master then 24 else 12) dv.us q = true ∧ q.ring.gapDue ≠ q.line.due ∧ helloWanted q = true)
    ∧ (let q : Port := { ringQ with line := { due := 200001000, bcount := 1 } }
       peerHears q = true ∧ inGap q dv.us = true ∧ idleFor (if q.master then 24 else 12) dv.us q = true ∧ q.ring.gapDue ≠ q.line.due ∧ helloWanted q = false ∧ swapDecided q = false
       ∧ heldReady q = false ∧ q.ring.peer = true ∧ ownParity q = true) := by decide

/-- A port that joins as a peer head. -/
def joinQ : Port :=
  { feedQ with gate := .opened, att := { state := .peerHead, att := true, typ := 2 }, rail := {}
               ring := { en := true, join := .hello 2 1 } }

theorem witness_RingJoins :
    (peerHears joinQ = true ∧ peerDuplicate joinQ ⟨3, false⟩ = false ∧ joinQ.ring.peer = false ∧ joinQ.ring.join = .hello 2 1
      ∧ (0x0100 : Half).toNat / 256 = 1 ∧ (0x01FF : Half).toNat / 256 = 1)
    ∧ (let q : Port := { feedQ with ring := { en := true } }
       peerHears q = true ∧ q.ring.peer = false ∧ q.ring.join = .none ∧ q.isHead = true)
    ∧ (let q : Port := { joinQ with ring := { joinQ.ring with peer := true, join := .trimming 199800000 }, met := { match2 := 5000 } }
       q.ring.join = .trimming 199800000 ∧ q.ring.peer = true ∧ 5000 ≤ q.met.match2 ∧ dv.us ≤ 199800000 + 200000
       ∧ q.grd.latch = false)
    ∧ (joinFails { joinQ with ring := { joinQ.ring with join := .trimming 199799999 } } dv.us .trim = true
       ∧ joinFails { joinQ with ring := { joinQ.ring with join := .hello 0 4 } } dv.us .noAnswer = true
       ∧ joinFails { joinQ with ring := { joinQ.ring with join := .hello 0 0, verBad := true } } dv.us .version = true)
    ∧ (let q : Port := { joinQ with ring := { joinQ.ring with join := .failed 200000000 } }
       q.ring.join = .failed 200000000 ∧ q.role = .feed ∧ q.att.att = true)
    ∧ (let q : Port := { ringQ with ring := { ringQ.ring with joinAt := some 197500000, synced := false } }
       q.ring.joinAt = some 197500000 ∧ q.ring.peer = true ∧ 197500000 + 2500000 ≤ dv.us) := by decide

/-- A PEER_REPORT of a feeder at L1. -/
def peerL1 : PeerReportMsg := ⟨24000, 0, 0, 1, false, false, 100, 50, 0⟩

theorem witness_RingReportsAndMirror :
    (peerHears ringQ = true ∧ ringQ.ring.peer = true ∧ peerDuplicate ringQ ⟨3, false⟩ = false ∧ ringQ.ring.handOff = none
      ∧ ringQ.follower = false ∧ levelsDiffer ringQ peerL1 = true)
    ∧ (mirrors follQ ⟨0x08, 7, 0, 0x20, []⟩ = true ∧ (0x20 : Byte) &&& flPeer = 0 ∧ (0x20 : Byte) &&& flDir ≠ 0)
    ∧ (mirrors follQ ⟨0x03, 7, 0, 0, []⟩ = true ∧ (0 : Byte) &&& flPeer = 0 ∧ (0 : Byte) &&& flDir = 0 ∧ (0x03 : BitVec 6) ≠ 0x11)
    ∧ (discarded ⟨0x08, 7, 0, 0x20, []⟩ = false ∧ discarded ⟨0x03, 7, 0, 0, []⟩ = false
       ∧ mirrors follQ ⟨0x01, 7, 0, flBc, []⟩ = true ∧ flBc &&& flPeer = 0 ∧ discarded ⟨0x01, 7, 0, flBc, []⟩ = true)
    ∧ (follQ.follower = true ∧ levelsDiffer follQ { peerL1 with cur := 0 } = false) := by
  decide

theorem witness_RingPeerLost :
    (let q : Port := { ringQ with ring := { ringQ.ring with missed := 4 } }
     q.role = .feed ∧ q.ring.peer = true ∧ q.master = true ∧ 4 ≤ q.ring.missed ∧ dv.gl.park = none)
    ∧ (follQ.follower = true ∧ 1000 ≤ 1000 ∧ masterSilent { follQ with ring := { follQ.ring with heardAt := 199975000 } } dv.us = true)
    ∧ (feedQ.isHead = true ∧ ({ feedQ with ring := { en := true } } : Port).isHead = true) := by decide

/-- R157 on port 1: a beacon of an EUI-48 that is not higher than the head's own. -/
theorem witness_foreign : ownLower .p1 Config.headEui = false := by simp [ownLower]

theorem witness_RailSwaps :
    (peerHears ringQ = true ∧ ringQ.ring.peer = true ∧ peerDuplicate ringQ ⟨3, false⟩ = false ∧ true = ringQ.master
      ∧ swapOutstanding ringQ = false ∧ nakedHere ringQ = none ∧ swapRefusal ringQ true = false ∧ slotsFree ringQ = true
      ∧ dv.gl.park = none)
    ∧ (let q : Port := { ringQ with slots := [(0, { state := 1 })] }
       swapRefusal q true = false ∧ slotsFree q = false)
    ∧ swapRefusal { ringQ with ring := { ringQ.ring with synced := false } } true = true
    ∧ (false = follQ.master ∧ swapRefusal follQ false = false)
    ∧ (awaitsSwapAck { ringQ with rail := { sw := .on, swap := .asked } } = true
       ∧ awaitsSwapAck { follQ with rail := { sw := .backup, swap := .asked } } = true
       ∧ ({ follQ with rail := { sw := .backup, swap := .asked } } : Port).master = false)
    ∧ (let q : Port := { ringQ with rail := { sw := .on, swap := .running 199999100 false } }
       q.rail.swap = .running 199999100 false ∧ 199999100 + 900 ≤ dv.us ∧ q.rail.sw = .on)
    ∧ (let q : Port := { ringQ with rail := { sw := .on, swap := .running 199998000 true } }
       q.rail.swap = .running 199998000 true ∧ 199998000 + 2000 ≤ dv.us ∧ 50 < 51 ∧ 50 ≤ 50)
    ∧ (let q : Port := { ringQ with rail := { sw := .on, swap := .held 199800000 } }
       q.rail.swap = .held 199800000 ∧ 199800000 + 200000 ≤ dv.us) := by decide

theorem witness_ParkTakesPortsOff :
    (let d : Dev := { dv with p0 := feedQ }
     hostOk d = true ∧ d.gl.safe = false ∧ parking d = false ∧ d.fwu.hand = none ∧ d.p0.ringFeeder = false ∧ d.p1.ringFeeder = false
     ∧ (d.port .p0).role = .feed)
    ∧ (let d : Dev := { dv with fwu := { hand := some ⟨0, true, .off, .off, false, false⟩ } }
       hostOk d = true ∧ parking d = false ∧ d.fwu.hand.isSome = true)
    ∧ (let q : Port := { ringQ with ring := { ringQ.ring with handOff := some 199970000 } }
       q.ring.handOff = some 199970000 ∧ 199970000 + 30000 ≤ dv.us)
    ∧ (let d : Dev := { dv with p0 := ringQ, gl := { park := some (.handOff 199905000) } }
       d.p0.ring.handOff = none ∧ d.gl.park = some (.handOff 199905000) ∧ d.p0.ringFeeder = true ∧ 199905000 + 95000 ≤ d.us) := by decide

/-! ## Witnesses: the DRAW port, the gang, heat and the meter -/

/-- A DRAW port that may transmit. -/
def drawT : Port := { drawQ with drw := { joined := true, idx := some 5, beacons := 2, bits := [1, 1] } }

theorem witness_DrawContractFrames :
    drawNamed drawT = true ∧ drawDuplicate drawT ⟨4, true⟩ false = false ∧ drawSpeaks dv drawT = true
    ∧ drawT.drw.shed = false ∧ drawT.gate = .opened ∧ drawT.grd.latch = false ∧ drawT.grd.reclose = false
    ∧ (let q : Port := { drawT with drw := { drawT.drw with open_ := some (req60, 199000000) } }
       drawNamed q = true ∧ q.drw.open_ = some (req60, 199000000) ∧ req60.power ≠ 0)
    ∧ (withdrawBad 1 = false ∧ withdrawBad 8 = false ∧ waitBad 0 9 = true ∧ waitBad 1 10 = true ∧ waitBad 1 9 = false
       ∧ rejectBad 9 0 = false ∧ rejectBad 8 7 = false) := by decide

theorem witness_DrawControls :
    drawHears drawT = true ∧ drawDuplicate drawT ⟨4, false⟩ false = false ∧ drawDuplicate drawT ⟨4, true⟩ true = false
    ∧ drawNamed drawT = true ∧ drawT.drw.idx ≠ some 6
    ∧ (let q : Port := { drawT with drw := { drawT.drw with grant := some (⟨60, 0, 1, 0, true⟩, 199600000), open_ := some (req60, 199600001) } }
       drawHears q = true ∧ 199600000 + 400000 ≤ dv.us ∧ dv.us < 199600001 + 400000 ∧ q.drw.reply = none)
    ∧ (assignHere drawT 5 = true ∧ assignHere drawT 6 = false
       ∧ (let q : Port := { drawT with drw := { drawT.drw with idx := none } }
          drawHears q = true ∧ q.drw.idx = none ∧ assignHere q 1023 = true))
    ∧ (pulseBad 20 = false ∧ pulseBad 100 = false)
    ∧ onLine 5 { drawT with line := { drawT.line with flight := [(0, 10, .full ⟨0x04, 0x3FF, 0, flBc ||| flDir, []⟩)] } }
        = some ⟨0x04, 0x3FF, 0, flBc ||| flDir, []⟩ := by decide

/-- The EUI-48 that an ASSIGN names is the head's own, or another. -/
theorem witness_assign : (⟨Config.headEui, 1, 2, true, false⟩ : AssignMsg).eui = Config.headEui
    ∧ (⟨Config.headEui + 1, 1, 2, true, false⟩ : AssignMsg).eui ≠ Config.headEui := by simp

theorem witness_DrawHearsItsHead :
    hearsBeacon drawT false = true ∧ drawDuplicate drawT ⟨4, false⟩ true = false ∧ drawT.drw.tried = none ∧ drawT.drw.restoreAt = none
    ∧ hearsBeacon { drawT with drw := {}, att := {} } true = true
    ∧ drawDuplicate { drawT with drw := { drawT.drw with seqRxBc := some 4 } } ⟨4, true⟩ true = true
    ∧ (let q : Port := { drawT with drw := { drawT.drw with shed := true, toneAt := 199999625 } }
       drawHears q = true ∧ q.drw.shed = true ∧ beaconAfterTone q.drw dv.us = true)
    ∧ (drawNamed drawT = true ∧ (0 : BitVec 2) = 0 ∧ 650 ≤ 650 ∧ 1250 ≤ 1250 ∧ drawSpeaks dv drawT = true ∧ drawT.drw.reply = none)
    ∧ (let q : Port := { drawT with drw := { drawT.drw with reply := some ⟨0x08, 5, 1, 0x20, []⟩ } }
       drawNamed q = true ∧ drawSpeaks dv q = true ∧ q.drw.reply = some ⟨0x08, 5, 1, 0x20, []⟩)
    ∧ (let q : Port := { drawT with drw := { drawT.drw with idx := none, enrw := true, winAt := 199999000 } }
       mayEnrol dv q = true ∧ 1350 < 1351 ∧ ({ dv with us := minislotAt q.drw 3 0 } : Dev).us = minislotAt q.drw 3 0
       ∧ mayEnrol { dv with us := minislotAt q.drw 3 0 } q = true) := by decide

/-- A device in a gang in a phase. -/
def gangD (ph : GangPhase) : Dev := { dv with gang := { mode := 1, id := 3, phase := ph, edgeAt := 199800000 } }

theorem witness_GangMembership :
    (gangDrives (gangD (.listening 199900000 2)) = true ∧ (gangD (.listening 199900000 2)).gang.phase = .listening 199900000 2)
    ∧ gsyncIdle (gangD (.listening 199885000 0)) 199885000 0 = true
    ∧ (gangDrives (gangD .member) = true ∧ gsyncIdle (gangD .member) 0 (2000 * 3) = true)
    ∧ 3 ≤ ({ (gangD .member).gang with badReads := 3 } : Gang).badReads
    ∧ (gangDrives (gangD (.backedOff 200000000)) = true ∧ 200000000 ≤ dv.us) := by decide

/-- A leader's frame whose bitmap names members 3 and 4. -/
def glead (l : BitVec 4) : GleadMsg := ⟨l, 1, 9, 2, false, 500, 0x18, [0, 0, 0, 120, 130]⟩

theorem witness_GangFrames :
    (gangD .leader).up = true
    ∧ (let d : Dev := { gangD .leader with gang := { (gangD .leader).gang with edgeAt := 199960200 } }
       gangDrives d = true ∧ d.gang.phase = .leader ∧ d.gang.edgeAt + 39800 ≤ d.us)
    ∧ ((gangD (.listening 5 1)).gang.phase = .listening 5 1 ∧ (gangD (.listening 5 1)).gang.slotDue = false)
    ∧ ((gangD .member).gang.phase = .member ∧ (glead 0).bitmap.getLsbD (gangD .member).gang.id.toNat = true
       ∧ ({ glead 0 with bitmap := 0 } : GleadMsg).bitmap.getLsbD 3 = false)
    ∧ (let d : Dev := { gangD .leader with gang := { (gangD .leader).gang with foreign := true } }
       d.gang.phase = .leader ∧ d.gang.foreign = true ∧ (glead 2).leader < d.gang.id)
    ∧ ((gangD .leader).gang.foreign = false ∧ (4 : BitVec 4) ≠ (gangD .leader).gang.id)
    ∧ (let d : Dev := { gangD .member with gang := { (gangD .member).gang with slotDue := true, edgeAt := 199990500 } }
       gangDrives d = true ∧ d.gang.phase = .member ∧ d.gang.slotDue = true ∧ d.gang.edgeAt + 3500 + 2000 * d.gang.id.toNat ≤ d.us) := by
  decide

theorem witness_HeatThrottles :
    dv.up = true ∧ allocRuns dv = true ∧ dv.tb.thermalAt + 990000 ≤ dv.us ∧ dv.tb.bundleAt + 990000 ≤ dv.us
    ∧ allocRuns { dv with tb := {} } = false ∧ 2 ∈ pointsOf .p0
    ∧ pointSeen (readPoints ⟨500, 400⟩ ⟨500, 280⟩ ⟨500, 0⟩ ⟨500, 0⟩ { dv with p0 := headQ }) 2 = (true, 280, 280)
    ∧ headQ.thermal = [] ∧ ({ headQ with thermal := [(2, 60)] } : Port).thermal = [(2, 60)]
    ∧ (∀ g < 8, (bundleOf dv g).en = false ∧ (bundleOf dv g).throttling = false)
    ∧ (dv.us % 1000 = 0 ∧ dv.p0.throtAtMs < dv.us / 1000 ∧ dv.us / 1000 ≤ ({ throtAtMs := 200000 } : Port).throtAtMs) := by decide

theorem witness_MeterCounts :
    dv.up = true ∧ dv.pw.supply = true ∧ dv.core.wait = none ∧ ({ n := 100 } : Meter).n = 100 ∧ dv.p0.met.n ≠ 100
    ∧ dv.us % 100000 = 0 ∧ dv.tb.pointMs < dv.us / 1000
    ∧ (let q : Port := { feedQ with att := { feedQ.att with closeAt := some 200000001 } }
       feedQ.ctl.en = true ∧ q.att.closeAt = some 200000001 ∧ 200000001 ≤ dv.us + 1 ∧ q.cfg.xfer.isSome = true ∧ q.grd.latch = false)
    ∧ (let d : Dev := { dv with us := 894000000, keep := { bp := 3 } }
       d.core.run = true ∧ d.keep.energyAt + 894000000 ≤ d.us ∧ d.keep.bp = 3)
    ∧ (let d : Dev := { dv with us := 894000000, gl := { crit := true } }
       d.keep.bp ≠ 3 ∧ d.gl.crit = true) := by decide

/-- R42, R339: a sample of 12 V and 1 A is 12 µJ. -/
theorem test_sample_energy :
    (match exec (.guardMeterSample ⟨12000, 12000, 1000, 0, 0, 0⟩ ⟨0, 0, 0, 0, 0, 0⟩) (atP feedQ) with
     | .next s => (s.dev.us, s.dev.p0.met.energyPj) | _ => (0, 0)) = (200000001, 12000000) := by decide

/-! ## Witnesses: Keep -/

/-- A write of one byte in page 256, the first that no commit's own page is (R391). -/
def cell : List Host.Cell := [(0x8000, 0x5A)]

/-- A commit of that byte under way. -/
def running : Running := { commit := ⟨cell, .firmware⟩, num := 9, pages := [256], hdr := 0 }

theorem witness_KeepCommitsIssuedAndStarted :
    (dv.core.run = true ∧ commitSized cell = true ∧ queueRoom 1 dv = true ∧ commitProtected 3 [(0x7FFF, 1)] = true
      ∧ commitProtected dv.keep.bp cell = false ∧ dv.gl.crit = false ∧ commitProtected 3 cell = true ∧ commitProtected 2 [(0xFFFF, 1)] = false
      ∧ commitProtected 2 [(0x10000, 1)] = true)
    ∧ (let d : Dev := { dv with keep := { queue := [⟨cell, .firmware⟩] } }
       d.up = true ∧ d.keep.run = none ∧ d.keep.rollback = none ∧ d.keep.queue = ⟨cell, .firmware⟩ :: [] ∧ Memory.wf d.keep.e = true)
    ∧ (let d : Dev := { dv with keep := { due := [.settings], pageDirty := [512] } }
       d.core.run = true ∧ d.keep.due = .settings :: [] ∧ 512 + PortId.p0.toNat * 128 + 0 ∈ d.keep.pageDirty
       ∧ spFind d.keep.pageAt 512 = none ∧ queueRoom 1 d = true ∧ d.gl.crit = false)
    ∧ queueRoom 1 { dv with keep := { queue := [⟨cell, .firmware⟩, ⟨cell, .firmware⟩, ⟨cell, .keepwin⟩] } } = true := by decide

theorem witness_KeepCommitsEnd :
    (let k : Keep := { run := some running }
     Memory.wf k.e = true ∧ k.run = some running ∧ running.commit.tag = .firmware ∧ dv.gl.park = none ∧ 0 < commitLength running
     ∧ 5 < commitLength running ∧ 3 < sealedAt running ∧ sealedAt running ≤ 4 ∧ 256 ∈ running.pages ∧ 0x8000 ≤ 0x8080
     ∧ 0x8080 / 128 ∉ running.pages)
    ∧ ({ dv with gl := { khot := true } } : Dev).gl.khot = true := by decide

theorem witness_KeepStoresAndProtection :
    (hostOk { dv with pw := { dv.pw with sready := true } } = true ∧ dv.keep.store = none)
    ∧ (let d : Dev := { dv with keep := { store := some (true, 199992400) } }
       d.keep.store = some (true, 199992400) ∧ 199992400 + 7600 ≤ d.us ∧ d.gl.park = none)
    ∧ (let d : Dev := { dv with keep := { pfen := true }, cmp := { fired := true } }
       d.keep.pfen = true ∧ d.cmp.fired = true ∧ d.keep.store = none)
    ∧ (let d : Dev := { dv with keep := { pfen := true }, cmp := { zeroAt := 199010000 } }
       d.keep.pfen = true ∧ d.cmp.armed = false ∧ d.cmp.fired = false ∧ (chanOf d d.keep.pfch.toNat).out = false
       ∧ d.cmp.zeroAt + 990000 ≤ d.us)
    ∧ (let d : Dev := { dv with keep := { bp := 1 }, gl := { owner := { enrolled := true } } }
       hostOk d = true ∧ d.keep.bp ≤ 2 ∧ (0 : BitVec 2) < d.keep.bp ∧ lockOpens d = false)
    ∧ scrubDue dv = true ∧ scrubDue { dv with keep := { dv.keep with scrubAt := 200000000 } } = false
    ∧ (dv.up = true ∧ dv.keep.run = none ∧ dv.keep.scrubLater = [] ∧ EccResult.clean ≠ .uncorrectable
       ∧ 0x8000 ≤ 8 * scrubPos ({ e := [(0x3211, 0x10)] } : Keep)) := by decide

/-- R393: a commit of a page below the first that commits may touch is refused with BPERR. -/
theorem test_commit_protected :
    (match exec (.keepCommitIssue [(0x7FFF, 1)]) (st dv) with
     | .next s => (s.dev.keep.bperr, s.dev.keep.queue.length) | _ => (false, 9)) = (true, 0) := by decide

/-! ## Witnesses: starts, restarts, handover -/

theorem witness_StartsAndResets :
    (dv.pw.supply = true ∧ dv.pw.latchArmed = false)
    ∧ ({ dv with pw := { dv.pw with supply := false } } : Dev).pw.supply = false
    ∧ (let d : Dev := { dv with pw := { latchArmed := true, resetLow := true } }
       d.pw.latchArmed = true ∧ d.pw.resetLow = true)
    ∧ (State.reset.dev.pw.latchArmed = true ∧ State.reset.dev.pw.resetLow = false)
    ∧ (let d : Dev := { dv with pw := { supply := true, latchArmed := false, resetLow := true } }
       d.pw.resetLow = true ∧ d.pw.supply = true ∧ d.pw.latchArmed = false ∧ d.pw.coldHeld.isSome = false
       ∧ ({ d with pw := { d.pw with coldHeld := some true } } : Dev).pw.coldHeld = some true)
    ∧ ({ dv with pw := { dv.pw with present := .high } } : Dev).pw.present = .high
    ∧ ({ dv with pw := { dv.pw with present := .waiting 200000000 } } : Dev).pw.present = .waiting 200000000
    ∧ (let d : Dev := { dv with pw := { dv.pw with pllOn := true, pllAt := 199998000 } }
       d.pw.pllOn = true ∧ d.pw.pllFailed = false ∧ d.up = true ∧ d.pw.pllLocked = false ∧ d.pw.pllAt + 2000 ≤ d.us) := by decide

/-- A device whose watchdog is due. -/
def wdD : Dev := { dv with core := { run := true, wdAt := 199905000 } }

theorem witness_CoreRestarts :
    (wdD.up = true ∧ wdD.core.restart = none ∧ wdD.core.wdAt + 95000 ≤ wdD.us ∧ (wdD.core.fires.filter fun t => decide (wdD.us < t + 60000000)).length < 2
      ∧ wdD.fwu.pend = false ∧ wdD.fwu.hand = none)
    ∧ ({ wdD with fwu := { pend := true } } : Dev).fwu.pend = true ∧ ({ wdD with fwu := { pend := true } } : Dev).fwu.hand = none
    ∧ (let d : Dev := { wdD with core := { run := true, wdNow := true, fires := [199000000, 140000001] } }
       d.core.wdNow = true ∧ 2 ≤ (d.core.fires.filter fun t => decide (d.us < t + 60000000)).length)
    ∧ (let d : Dev := { dv with core := { restart := some 199000000 } }
       d.up = true ∧ d.core.restart.isSome = true) := by decide

/-- A handover under way to bank B. -/
def hand : HandInfo := ⟨0, true, .feed, .off, false, false⟩

theorem witness_HandsOver :
    handoverMay { dv with fwu := { handReq := some (199999999, false) } } = true
    ∧ (let d : Dev := { dv with fwu := { hand := some hand } }
       d.fwu.hand = some hand ∧ d.fwu.cancelDue = false ∧ d.gl.parkWaits = false)
    ∧ (let d : Dev := { dv with fwu := { pend := true, healthAt := 140000000, durable := true } }
       d.fwu.hand = none ∧ d.fwu.pend = true ∧ hostOk d = true ∧ d.core.restart = none
       ∧ d.fwu.healthAt + 1000000 * d.fwu.tHealth.toNat ≤ d.us ∧ d.core.run = true ∧ d.fwu.hostconf = false ∧ selfChecked d = true)
    ∧ ({ hostconf := true } : Fwu).hostconf = true
    ∧ (let d : Dev := { dv with fwu := { handReq := some (199500000, true) }, p0 := stepQ (.due 0) }
       d.fwu.handReq = some (199500000, true) ∧ 199500000 + 500000 ≤ d.us ∧ d.p0.lev.step.isSome = true ∧ parking d = false) := by
  decide

/-! ## Witnesses: the host's registers, the table window, the mailbox -/

theorem witness_ReadsWithEffects :
    (let d : Dev := { dv with q := { q := [{ typ := 1 }], phase := 3 }, mbx := { results := [7] }, cmp := { fifo := [⟨3, 1, false, 99⟩] } }
     hostOk d = true ∧ d.q.ovf = none ∧ d.q.q = { typ := 1 } :: [] ∧ d.q.phase = 3 ∧ d.mbx.results = 7 :: [] ∧ d.core.run = true
     ∧ d.cmp.fifo = ⟨3, 1, false, 99⟩ :: [])
    ∧ (hostOk dv = true ∧ dv.q.q = [] ∧ dv.q.phase ≠ 3 ∧ dv.mbx.results = [] ∧ dv.mbx.state = 0
       ∧ ({ dv with mbx := { state := 2 } } : Dev).mbx.state ≠ 0)
    ∧ (let d : Dev := { dv with pw := { dv.pw with phase := .recovery } }
       busLive d = true ∧ d.up = false)
    ∧ (let d : Dev := { dv with pw := { dv.pw with phase := .held } }
       busLive d = true ∧ mbxReach d = false) := by decide

/-- A window with one word staged for TENANT 63. -/
def winD (table : BitVec 4) (index : BitVec 11) (w : Nat) : Dev := { dv with win := { table := table, index := index, staged := [(w, 500)] } }

theorem witness_TableWindow :
    (hostOk (winD 2 63 0) = true ∧ (winD 2 63 0).win.busy = false ∧ (winD 2 63 0).win.snap = none ∧ (winD 2 63 0).win.staged ≠ []
      ∧ commitRefusal (winD 2 63 0) = none ∧ (winD 2 63 0).win.widx.toNat + 1 < tableWords (winD 2 63 0).win.table.toNat)
    ∧ (let d : Dev := { winD 2 63 0 with win := { (winD 2 63 0).win with widx := 7 } }
       tableWords d.win.table.toNat ≤ d.win.widx.toNat + 1)
    ∧ ({ winD 2 63 0 with win := { busy := true } } : Dev).win.busy = true
    ∧ (commitRefusal (winD 15 0 0) = some 2 ∧ commitRefusal (winD 1 0 0) = some 1 ∧ commitRefusal (winD 2 64 0) = some 2
      ∧ commitRefusal (winD 2 0 2) = some 3)
    ∧ ((winD 7 1024 0).win.table = 7 ∧ commitRefusal (winD 7 1024 0) = none ∧ commitRefusal (winD 7 1023 0) = some 5)
    ∧ (commitRefusal (winD 10 0 0) = none ∧ (winD 10 0 0).win.index = 0 ∧ spFind (winD 10 0 0).win.staged 0 = some 500) := by decide

/-- An enabled channel on input 5 that captures both edges: EN, CAP, EDGE 3; its lower level is 0, so every sample is an output of 1. -/
def chan : Chan := { eff := { cfg := 0x1985 } }

/-- A bank with that channel as number 4, its tick due. -/
def cmpD : Dev := { dv with cmp := { chans := [(4, chan)], run := true, tickAt := 199999999 } }

theorem witness_RegistersAndComparators :
    (hostOk dv = true ∧ (127 : BitVec 7).toNat ≥ 96 ∧ (45 : BitVec 7).toNat ∈ [0, 1, 2, 6, 7, 14, 17, 18, 20, 22, 26, 29, 30, 32, 36, 38, 39, 43, 44, 45]
      ∧ dv.core.hwmask.getLsbD 127 = false ∧ 3 ≤ 3 ∧ 13 < 14 ∧ 12 < 13 ∧ dv.keep.pfen = false)
    ∧ (hostOk cmpD = true ∧ cmpD.cmp.chans = [(4, chan)] ∧ ticking cmpD = true ∧ cmpD.cmp.tickAt ≤ cmpD.us ∧ chan.writes = []
      ∧ chan.eff.en = true ∧ chan.settle = none ∧ chan.out = false
      ∧ sampleOut chan.eff ((List.replicate 16 0).getD chan.eff.input 0) = true ∧ chan.eff.edge = 3 ∧ chan.eff.cap = true
      ∧ cmpD.cmp.fifo.length < 32)
    ∧ (let c : Chan := { chan with out := true }
       c.out = sampleOut c.eff ((List.replicate 16 0).getD c.eff.input 0)) := by decide

theorem witness_MailboxCommands :
    (mbxReach dv = true ∧ dv.mbx.state ≠ 1)
    ∧ (let d : Dev := { dv with mbx := { state := 1, op := 0x01, args := [1, 2] } }
       mbxRuns 0x01 d = true)
    ∧ (let d : Dev := { dv with mbx := { state := 1, op := 0x01, outcome := some (0, [1, 2]) } }
       mbxServes d = true ∧ d.mbx.state = 1 ∧ d.mbx.waits = false ∧ d.mbx.outcome = some (0, [1, 2]))
    ∧ (let d : Dev := { dv with mbx := { state := 1, op := 0x20, args := List.replicate 16 0 ++ [1, 2, 2] } }
       d.gl.crit = false ∧ queueRoom 2 d = true ∧ mbxRuns 0x20 d = true ∧ d.mbx.args.length = 19 ∧ d.mbx.args.getD 16 0 ≠ 0
       ∧ (d.mbx.args.getD 18 0).toNat ≤ 2 ∧ lockOpens d = true)
    ∧ (let d : Dev := { dv with mbx := { state := 1, op := 0x20, args := List.replicate 20 0 } }
       mbxRuns 0x20 d = true ∧ d.mbx.args.length ≠ 19)
    ∧ (let d : Dev := { dv with mbx := { state := 1, op := 0x21 }, gl := { owner := { enrolled := true } } }
       mbxRuns 0x21 d = true ∧ d.gl.owner.enrolled = true)
    ∧ (let d : Dev := { dv with mbx := { state := 1, op := 0x22 }, gl := { owner := { enrolled := true } } }
       mbxRuns 0x22 d = true ∧ lockOpens d = false ∧ lockOpens dv = true)
    ∧ (let d : Dev := { dv with mbx := { state := 1, op := 0x21 } }
       mbxRuns 0x21 d = true ∧ d.gl.owner.enrolled = false)
    ∧ (let r : Running := { commit := ⟨[(0x18C10, 1)], .ownerB { enrolled := true } true⟩, num := 9, pages := [792], hdr := 0 }
       let d : Dev := { dv with keep := { run := some r }, mbx := { state := 1, op := 0x20, waits := true } }
       d.keep.run = some r ∧ r.commit.tag = .ownerB { enrolled := true } true ∧ d.gl.park = none ∧ d.mbx.waits = true)
    ∧ (let d : Dev := { dv with mbx := { state := 1, op := 0x28 } }
       mbxRuns 0x28 d = true ∧ queueRoom 1 d = true) := by decide

/-- A device whose mailbox runs a command, its lock open. -/
def keepD (op : Byte) (args : List Half) : Dev :=
  { dv with mbx := { state := 1, op := op, args := args }
            gl := { rel := true, lockOpen := true, owner := { enrolled := true } } }

theorem witness_MailboxCommandsComplete :
    (let d := keepD 0x20 (List.replicate 16 0 ++ [1, 2, 2])
     queueRoom 2 d = true ∧ mbxRuns 0x20 d = true ∧ d.mbx.args.length = 19 ∧ lockOpens d = true ∧ d.mbx.args.getD 16 0 ≠ 0
     ∧ (d.mbx.args.getD 18 0).toNat ≤ 2 ∧ KeepOpen d
     ∧ ({ d with keep := { d.keep with bp := 1 } } : Dev).keep.bp ≠ 0)
    ∧ (let d := keepD 0x20 (List.replicate 19 0)
       mbxRuns 0x20 d = true ∧ lockOpens d = true ∧ d.mbx.args = List.replicate 19 0 ∧ KeepOpen d)
    ∧ (let d := keepD 0x21 []
       queueRoom 2 d = true ∧ mbxRuns 0x21 d = true ∧ d.gl.owner.enrolled = true ∧ KeepOpen d)
    ∧ (let d := keepD 0x22 []
       queueRoom 2 d = true ∧ mbxRuns 0x22 d = true ∧ lockOpens d = true ∧ KeepOpen d)
    ∧ (let d := keepD 0x28 []
       queueRoom 1 d = true ∧ mbxRuns 0x28 d = true ∧ KeepOpen d) := by decide

/-- A delta header of one piece: magic, version 1, N 1, L 8, T 512; the epoch, the digest of no source and the key code are 0. -/
def headerWords : List Half :=
  [0x4432, 0x4E53, 1, 1, 8, 0, 0, 0, 0, 0, 512, 0] ++ List.replicate 68 0

/-- A device whose mailbox runs an update command, an image received as far as given. -/
def updD (op : Byte) (args : List Half) (f : Fwu) : Dev := { dv with mbx := { state := 1, op := op, args := args }, fwu := f }

/-- A reception under way, piece 0 of one held or not. -/
def rxF (held : List Nat) : Fwu := { rx := true, held := held, header := argBytes headerWords }

/-- The arguments of a piece of 8 bytes with an index. -/
def pieceWords (i : Half) : List Half := [i, 8, 0, 0, 0, 0, 3, 0, 0, 0]

theorem witness_UpdateBegin :
    (let d := updD 0x10 headerWords { bankA := { image := List.replicate 160 0 } }
     mbxRuns 0x10 d = true ∧ queueRoom 1 d = true ∧ d.mbx.args.length = 80 ∧ deltaFields (argBytes d.mbx.args) = true
     ∧ d.gl.crit = false ∧ d.gl.safe = false ∧ fwLocked d = false ∧ tally d.keep 0 ≤ deltaEpoch (argBytes d.mbx.args)
     ∧ slice (argBytes d.mbx.args) 32 32 = imgDigest (runningImage d) ∧ d.fwu.rx = false ∧ d.fwu.pend = false
     ∧ KeepOpen d)
    ∧ fwLocked { updD 0x10 headerWords {} with gl := { rel := true, owner := { enrolled := true, fwlock := true } } } = true := by
  decide

theorem le2_word (hi lo : Byte) : le2 (hi ++ lo : Half).toNat = [lo, hi] := by
  have h1 := hi.isLt
  have h2 := lo.isLt
  simp only [le2, leBytes, BitVec.toNat_append, List.cons.injEq, and_true]
  rw [Nat.shiftLeft_eq, Nat.mul_comm, ← Nat.two_pow_add_eq_or_of_lt h2]
  constructor <;> (apply BitVec.eq_of_toNat_eq; simp; omega)

/-- The k-th prefix word of a piece: two bytes of the SHA-256 of its data. -/
def prefixWord (data : List Byte) (k : Nat) : Half := ((Config.sha256 data).getD (2 * k + 1) 0) ++ ((Config.sha256 data).getD (2 * k) 0)

/-- The prefix words of a piece spell the first eight bytes of the SHA-256 of its data (R455). -/
theorem prefix_words (data : List Byte) :
    ((List.range 4).map (prefixWord data)).flatMap (fun w => le2 w.toNat) = (Config.sha256 data).take 8 := by
  simp [List.range_succ, prefixWord, le2_word]
  simp [Config.sha256, List.range_succ]

/-- The arguments of a piece whose prefix matches its data. -/
theorem piece_args (data : List Byte) (i n : Half) (tail : List Half) (h : 1 ≤ n.toNat ∧ n.toNat ≤ 1024 ∧ tail.length = (n.toNat + 1) / 2) :
    pieceArgs ([i, n] ++ (List.range 4).map (prefixWord data) ++ tail) = some (i.toNat, (Config.sha256 data).take 8, (argBytes tail).take n.toNat) := by
  have hp := prefix_words data
  simp only [List.range_succ, List.range_zero, List.nil_append, List.cons_append, List.map_cons, List.map_nil] at hp ⊢
  simp [pieceArgs, argBytes, h.1, h.2.1, h.2.2] at hp ⊢
  refine ⟨by omega, hp⟩

/-- The eight bytes of a piece, and a device that is sent it with the prefix that matches. -/
def pieceData : List Byte := [3, 0, 0, 0, 0, 0, 0, 0]
def pieceD : Dev :=
  updD 0x11 ([0, 8] ++ (List.range 4).map (prefixWord pieceData) ++ [3, 0, 0, 0]) (rxF [])

theorem witness_UpdatePieceCompletes :
    pieceArgs pieceD.mbx.args = some (0, (Config.sha256 pieceData).take 8, pieceData)
    ∧ prefixOk ((Config.sha256 pieceData).take 8) pieceData = true
    ∧ (mbxRuns 0x11 pieceD = true ∧ queueRoom 2 pieceD = true ∧ pieceD.fwu.vmin.toNat ≤ 60000 ∧ onHoldUp pieceD = false
      ∧ pieceD.fwu.rx = true ∧ 0 < deltaN pieceD.fwu.header ∧ pieceData.length = pieceLen pieceD.fwu.header 0 ∧ 0 ∉ pieceD.fwu.held
      ∧ pieceD.fwu.pend = false ∧ pieceD.gl.crit = false
      ∧ pieceD.fwu.header.length ≤ 160 ∧ KeepOpen pieceD) := by
  refine ⟨piece_args pieceData 0 8 [3, 0, 0, 0] (by decide), by simp [prefixOk], by decide +kernel⟩

theorem witness_UpdatePieces :
    (let d := updD 0x11 (pieceWords 0) (rxF [])
     mbxRuns 0x11 d = true ∧ queueRoom 2 d = true ∧ d.mbx.args.length = 10 ∧ (pieceArgs d.mbx.args).isSome = true
     ∧ pieceArgs d.mbx.args = some (0, List.replicate 8 0, [3, 0, 0, 0, 0, 0, 0, 0])
     ∧ d.fwu.vmin.toNat ≤ 60000 ∧ onHoldUp d = false ∧ d.fwu.rx = true ∧ 0 < deltaN d.fwu.header ∧ pieceLen d.fwu.header 0 = 8
     ∧ 0 ∉ d.fwu.held ∧ d.fwu.pend = false ∧ d.gl.crit = false ∧ 3299 < ({ vmin := 3300 } : Fwu).vmin.toNat)
    ∧ (let d := updD 0x18 (pieceWords 255) {}
       let e : Dev := { d with pw := { d.pw with phase := .recovery } }
       mbxRuns 0x18 e = true ∧ pieceArgs d.mbx.args = some (255, List.replicate 8 0, [3, 0, 0, 0, 0, 0, 0, 0])
       ∧ recoveryMisfits d.fwu.recPieces 255 8 = false
       ∧ recoveryFull (spPut d.fwu.recPieces 255 [3, 0, 0, 0, 0, 0, 0, 0]) = false) := by decide

theorem witness_UpdateApplyAndCancel :
    (let d := updD 0x12 [2] { bankB := { status := [⟨1, 1, 0⟩] } }
     mbxRuns 0x12 d = true ∧ queueRoom 1 d = true ∧ d.fwu.apply = none ∧ d.fwu.pend = false ∧ d.gl.safe = false ∧ d.fwu.vmin.toNat ≤ 60000
     ∧ onHoldUp d = false ∧ fwLocked d = false ∧ d.mbx.args = [2] ∧ hasBuilt d = true)
    ∧ (let d := updD 0x12 [1] {}
       d.mbx.args = [1] ∧ d.fwu.rx = false)
    ∧ (let d := updD 0x12 [0] (rxF [0])
       mbxRuns 0x12 d = true ∧ d.mbx.args = [0] ∧ d.fwu.rx = true ∧ d.fwu.held.length = deltaN d.fwu.header)
    ∧ (let d := updD 0x13 [] { hand := some hand }
       mbxRuns 0x13 d = true ∧ d.mbx.args = [] ∧ d.fwu.hand.isSome = true)
    ∧ (let d := updD 0x13 [] (rxF [])
       mbxRuns 0x13 d = true ∧ d.fwu.hand = none ∧ d.fwu.rx = true ∧ d.gl.crit = false) := by decide

/-! ## Witnesses and single steps: the Fedora core -/

/-- A core at 0x100 with the given registers. -/
def cr (l : List (Nat × Word)) : Core := l.foldl (fun c x => putReg c.cwb x.1 x.2 c) { run := true, pc := 0x100, wres := 2 }

/-- A running device with that core. -/
def cs (c : Core) : State := { dev := { dv with core := c } }

/-- A word that ends its bundle, without a literal. -/
def wd (d a b : BitVec 6) (mod : BitVec 4) : OpWord := ⟨true, none, d, a, b, mod⟩

/-- Registers of the witnesses: two addresses of data RAM, a count, and two small numbers. -/
def c1 : Core := cr [(1, 0x10000010), (2, 0x10000020), (3, 2), (4, 5), (5, 7)]

/-- Whether an operation word issues alone from a state. -/
def alone (o : Opc) (w : OpWord) (s : State) : Bool :=
  s.dev.core.run && s.dev.core.wait.isNone && !s.dev.core.wdNow && s.dev.core.bundle.isEmpty && w.stop && wordOk o w

theorem alone_issues (o : Opc) (w : OpWord) (s : State) (h : alone o w s = true) : IssuesAlone o w s := by
  simp only [alone, Bool.and_eq_true, Bool.not_eq_true', Option.isNone_iff_eq_none, List.isEmpty_iff] at h
  exact ⟨h.1.1.1.1.1, h.1.1.1.1.2, h.1.1.1.2, h.1.1.2, h.1.2, h.2⟩

/-- The operations of the A unit but MOV, whose a field is 0. -/
def aUnit : List Opc :=
  [.add, .sub, .and, .or, .xor, .andn, .cmp, .shl, .shr, .sar, .ror, .min, .max, .minu, .maxu, .sel, .clz, .ext, .addsW, .subsW, .addsH,
   .subsH, .negsW, .abssW]

theorem witness_CoreIntegerAndSaturating :
    fetchable (seqPc (wd 6 4 5 0) c1) = true ∧ aUnit.all (fun o => alone o (wd 6 4 5 0) (cs c1)) = true
    ∧ alone .mov (wd 6 0 5 0) (cs c1) = true ∧ alone .add (wd 6 4 63 8) (cs c1) = true
    ∧ alone .add ⟨true, some 0xFFFFFFFF, 6, 4, 0, 0⟩ (cs c1) = true ∧ alone .cmp (wd 6 4 5 5) (cs c1) = true
    ∧ alone .ext (wd 6 4 0 3) (cs c1) = true := by decide

/-- The operations of the M unit by the fields they have: registers alone, an accumulator in d, an accumulator in a. -/
def mInt : List Opc := [.mul, .mulh, .mulhu, .div, .divu, .rem, .remu]
def mMac : List Opc := [.mpyQ31, .macQ31, .msuQ31, .mpyQ15, .macQ15, .accld]
def mNar : List Opc := [.mulai, .mulaf, .narq31, .narq15]

theorem witness_CoreMultiplyAndAccumulate :
    fetchable (seqPc (wd 3 2 1 0) c1) = true ∧ mInt.all (fun o => alone o (wd 3 2 1 0) (cs c1)) = true
    ∧ mMac.all (fun o => alone o (wd 40 2 1 0) (cs c1)) = true ∧ mNar.all (fun o => alone o (wd 3 43 1 0) (cs c1)) = true
    ∧ alone .accadd (wd 40 41 42 0) (cs c1) = true
    ∧ alone .accsh (wd 40 41 39 8) (cs c1) = true ∧ (opB .accsh (wd 40 41 39 8) c1).toNat ≤ 39
    ∧ alone .accsh (wd 40 41 40 9) (cs c1) = true ∧ 39 < (opB .accsh (wd 40 41 40 9) c1).toNat
    ∧ opB .mul (wd 6 4 0 0) c1 = 0 ∧ alone .mul (wd 6 4 0 0) (cs c1) = true := by decide

/-- The loads, the stores and the atomics; those of an accumulator apart. -/
def lUnit : List Opc := [.ldW, .ldH, .ldHu, .ldB, .ldBu, .lea, .stW, .stH, .stB, .lrW, .scW, .tasB]

theorem witness_CoreMemoryOperations :
    (fetchable (seqPc (wd 3 1 0 0) c1) = true ∧ fetchable c1.pc = true ∧ lUnit.all (fun o => alone o (wd 3 1 0 0) (cs c1)) = true
      ∧ alone .lda (wd 40 1 0 0) (cs c1) = true ∧ alone .sta (wd 43 1 0 8) (cs c1) = true
      ∧ addressOf .lda (wd 40 1 0 0) c1 = 0x10000010
      ∧ alone .ldW (wd 3 1 0 8) (cs c1) = true ∧ alone .stW (wd 3 1 0 12) (cs c1) = true
      ∧ (lUnit.all fun o => decide (addressOf o (wd 3 1 0 0) c1 = 0x10000010)) = true ∧ InRam 8 0x10000010 ∧ InRam 1 0x1003FFFF
      ∧ InRam 4 0x10000000)
    ∧ ({ c1 with resv := some 2 } : Core).resv = some (((0x10000010 : Word).toNat - 0x10000000) / 8) ∧ c1.resv = none
    ∧ ([Opc.bcopy, .bfill, .bdiff].all (fun o => alone o (wd 2 1 3 2) (cs c1)) = true ∧ blockSize (wd 2 1 3 2) = 4
      ∧ regVal c1 3 ≠ 0 ∧ regVal c1 1 = 0x10000010 ∧ regVal c1 2 = 0x10000020)
    ∧ ([Opc.bcopy, .bfill, .bdiff].all (fun o => alone o (wd 2 1 9 0) (cs c1)) = true ∧ regVal c1 9 = 0)
    ∧ (c1.th = false ∧ addressOf .ldW (wd 3 3 0 0) c1 = 2 ∧ addressOf .stW (wd 3 3 0 0) c1 = 2
      ∧ let c := cr [(1, 0x20000)]
        addressOf .ldW (wd 3 1 0 0) c = 0x20000 ∧ addressOf .stW (wd 3 1 0 0) c = 0x20000 ∧ areaOf 0x20000 = none) := by
  unfold InRam
  decide

theorem witness_CountedLoop :
    (regVal c1 3 = 2 ∧ regVal c1 9 = 0 ∧ branchTarget .dbnz (wd 63 3 62 0) c1 = 0xF8 ∧ fetchable 0xF8 = true ∧ fetchable 0x104 = true
      ∧ c1.run = true ∧ c1.wait = none ∧ c1.wdNow = false ∧ c1.th = false ∧ bundleOk ([] ++ [(.dbnz, wd 63 9 62 0)]) = true)
    ∧ (let v : OpWord := ⟨false, none, 6, 3, 4, 0⟩
       let c : Core := { c1 with bundle := [(.add, v)] }
       c.bundle = [(.add, v)] ∧ bundleOk ([(.add, v)] ++ [(.dbnz, wd 63 3 62 0)]) = true
       ∧ writesOf .add ⟨false, none, 3, 3, 4, 0⟩ = [3]
       ∧ ∃ e, evalAll 8 { dv with core := c1 } [(.add, v)] = .ok [e] ∧ e.pre = id ∧ e.next = none) := by
  refine ⟨by decide, by decide, by decide, by decide, _, rfl, rfl, rfl⟩

/-- The operations of the B unit whose word may be all zeros. -/
def bUnit : List Opc :=
  [.br, .call, .bz, .bnz, .bltz, .bgez, .jr, .callr, .ret, .tret, .brk, .syscall, .nop, .fenceI, .mfs, .mts, .ewait, .epost, .waituntil]

theorem witness_CoreControl :
    (fetchable (seqPc (wd 0 0 0 0) c1) = true ∧ bUnit.all (fun o => alone o (wd 0 0 0 0) (cs c1)) = true
      ∧ branchTarget .br (wd 0 0 63 0) c1 = 0x1FC ∧ branchTarget .bz (wd 0 0 63 0) c1 = 0x1FC ∧ fetchable 0x1FC = true
      ∧ c1.wres.toNat < 9 ∧ c1.rsCnt.toNat < 16 ∧ 2 ≤ c1.wres.toNat
      ∧ ({ c1 with rsCnt := 1 } : Core).rsCnt ≠ 0 ∧ ({ c1 with tpc := 0x80 } : Core).tpc = 0x80)
    ∧ (c1.th = false ∧ branchTarget .br ⟨true, some 2, 0, 0, 0, 0⟩ c1 = 2 ∧ alone .br ⟨true, some 2, 0, 0, 0, 0⟩ (cs c1) = true
      ∧ branchTarget .br ⟨true, some 0x20000, 0, 0, 0, 0⟩ c1 = 0x20000 ∧ fetchable 0x20000 = false
      ∧ 9 ≤ ({ c1 with wres := 9 } : Core).wres.toNat
      ∧ (let c : Core := { c1 with rsCnt := 16, rswrap := false }; c.rsCnt = 16 ∧ c.rswrap = false ∧ c.wres.toNat < 9)
      ∧ ({ c1 with wres := 1 } : Core).wres.toNat ≤ 1 ∧ (c1.rsCnt = 0 ∧ ({ c1 with rswrap := false } : Core).rswrap = false)
      ∧ wordOk .add (wd 63 0 0 0) = false)
    ∧ ({ c1 with th := true } : Core).th = true
    ∧ (alone .mfs (wd 3 16 0 0) (cs c1) = true ∧ alone .mfs (wd 3 9 0 0) (cs c1) = true ∧ alone .mts (wd 16 0 4 0) (cs c1) = true
      ∧ [0, 1, 2, 4, 5, 6, 7, 8, 10, 11, 16].all (fun d => alone .mts (wd d 0 4 0) (cs c1)) = true
      ∧ 1 ≤ (regVal c1 4).toNat ∧ (regVal c1 4).toNat ≤ 10) := by decide

theorem witness_CoreWaitsAndInterrupts :
    (let s := cs { c1 with evr := 5 }
     alone .ewait (wd 6 4 0 0) s = true ∧ regVal s.dev.core 4 = 5 ∧ evrWord s.dev &&& 5 &&& 31 ≠ 0)
    ∧ (evrWord (cs c1).dev &&& 5 &&& 31 = 0 ∧ (regVal c1 9).toNat % 32 = 0 ∧ (regVal c1 9).getLsbD 7 = false)
    ∧ (alone .waituntil (wd 0 4 0 0) (cs c1) = true ∧ (reached (cs c1).dev 5 = true ∨ reached (cs c1).dev 0x80000005 = true))
    ∧ (alone .epost (wd 0 4 0 0) (cs c1) = true ∧ (regVal c1 4).toNat < 16 ∧ 16 ≤ (regVal c1 1).toNat)
    ∧ (let c : Core := { c1 with ie := true, ien := 0x20, ipend := 0x20, wait := none }
       interruptOf (cs c).dev = some 5 ∧ c.run = true ∧ c.wdNow = false
       ∧ interruptOf (cs { c with wait := some (.ewait 6 0x81 4) }).dev = some 5 ∧ evrWord (cs c).dev &&& 0x81 &&& 31 = 0)
    ∧ interruptOf (cs c1).dev = none
    ∧ (let t := (dv.timebase)
       let c : Core := { c1 with compareOn := true, compare := t, wait := some (.until_ t 4) }
       (cs c).dev.up = true ∧ reached (cs c).dev c.compare = true ∧ fetchable (c.pc + 4) = true) := by decide

/-! ## Witnesses: the queue and the invariants -/

theorem witness_StepRunsTheFrontCommand : ({ pending := [.nop (wd 0 0 0 0)] } : State).pending = .nop (wd 0 0 0 0) :: [] := by decide

theorem witness_CommandsEndInANextState : coreIssues (settleWait dv) = true ∧ coreIssues (settleWait {}) = false := by decide

/-- Whether a step from a state answers a next state whose device is as given. -/
def nextIs (f : Dev → Bool) (c : Instr) (s : State) : Bool :=
  match step { s with pending := [c] } with
  | .next t => f t.dev
  | _ => false

theorem witness_KeepMemoryStaysCanonical : memWf (memOf State.reset.dev)
    ∧ memWf (memOf (cs c1).dev) ∧ nextIs (fun _ => true) (.nop (wd 0 0 0 0)) (cs c1) = true := by
  unfold memWf
  decide

theorem witness_CoreStaysLegal :
    nextIs (fun d => decide (d.core.pc = 0x104)) (.nop (wd 0 0 0 0)) (cs c1) = true ∧ spRising c1.ram = true ∧ spRising c1.iram = true
    ∧ (Core.legal c1) := by
  unfold Core.legal
  decide

/-! ## Single steps whose results Table 20-4 to Table 20-7 state -/

/-- The register that an operation word leaves. -/
def regAfter (n : Nat) (v : Word) : Dev → Bool := fun d => regVal d.core n == v

theorem test_add_wraps : nextIs (regAfter 6 2) (.add (wd 6 4 5 0)) (cs (cr [(4, 0xFFFFFFFF), (5, 3)])) = true := by decide
theorem test_sub_wraps : nextIs (regAfter 6 0xFFFFFFFE) (.sub (wd 6 4 5 0)) (cs (cr [(4, 5), (5, 7)])) = true := by decide
theorem test_andn : nextIs (regAfter 6 0xF0) (.andn (wd 6 4 5 0)) (cs (cr [(4, 0xFF), (5, 0x0F)])) = true := by decide
theorem test_shift_takes_five_bits : nextIs (regAfter 6 2) (.shl (wd 6 4 33 8)) (cs (cr [(4, 1)])) = true := by decide
theorem test_sar_keeps_the_sign : nextIs (regAfter 6 0xFFFFFFFF) (.sar (wd 6 4 31 8)) (cs (cr [(4, 0x80000000)])) = true := by decide
theorem test_clz_of_zero : nextIs (regAfter 6 32) (.clz (wd 6 4 0 0)) (cs c1) = false
    ∧ nextIs (regAfter 6 32) (.clz (wd 6 9 0 0)) (cs c1) = true := by decide
theorem test_ext_sign : nextIs (regAfter 6 0xFFFFFF80) (.ext (wd 6 4 0 0)) (cs (cr [(4, 0x180)])) = true := by decide
theorem test_negs_saturates : nextIs (fun d => regVal d.core 6 == 0x7FFFFFFF && d.core.sat) (.negsW (wd 6 4 0 0))
    (cs (cr [(4, 0x80000000)])) = true := by decide
theorem test_mulhu : nextIs (regAfter 6 0xFFFFFFFE) (.mulhu (wd 6 4 4 0)) (cs (cr [(4, 0xFFFFFFFF)])) = true := by decide
theorem test_div_by_zero : nextIs (regAfter 6 0xFFFFFFFF) (.div (wd 6 4 9 0)) (cs c1) = true
    ∧ nextIs (regAfter 6 5) (.rem (wd 6 4 9 0)) (cs c1) = true := by decide
theorem test_div_truncates : nextIs (regAfter 6 0xFFFFFFFD) (.div (wd 6 4 5 0)) (cs (cr [(4, 0xFFFFFFF9), (5, 2)])) = true := by decide
theorem test_mpy_q15_of_minus_one : nextIs (fun d => accVal d.core 43 == 0x0080000000) (.mpyQ15 (wd 43 4 4 0)) (cs (cr [(4, 0x8000)])) = true := by
  decide
theorem test_narq31_saturates : nextIs (fun d => regVal d.core 6 == 0x7FFFFFFF && d.core.sat) (.narq31 (wd 6 42 0 0))
    (cs (putAcc 42 0x7FFFFFFFFF c1)) = true := by decide
theorem test_store_is_little_endian : nextIs (fun d => ramByte d.core 0x10 == 0x44 && ramByte d.core 0x13 == 0x11) (.stW (wd 4 1 0 0))
    (cs (cr [(1, 0x10000010), (4, 0x11223344)])) = true := by decide
theorem test_call_slides_the_window : nextIs (fun d => decide (d.core.cwb = 24 ∧ d.core.wres = 3 ∧ d.core.rsCnt = 1 ∧ d.core.pc = 0x200))
    (.call ⟨true, some 0x200, 0, 0, 0, 0⟩) (cs c1) = true := by decide
theorem test_dbnz_of_one_goes_on : nextIs (fun d => decide (d.core.pc = 0x104 ∧ regVal d.core 6 = 0)) (.dbnz (wd 63 6 62 0))
    (cs (cr [(6, 1)])) = true := by decide

/-! ## Ill-formed commands, one for each check of WellFormed -/

theorem smoke_literal : Instr.wf (.sel ⟨true, some 1, 1, 2, 3, 0⟩) = false := by decide
theorem smoke_mod : Instr.wf (.mul (wd 1 2 3 1)) = false ∧ Instr.wf (.cmpCc (wd 1 2 3 6)) = false ∧ Instr.wf (.bfill (wd 1 2 3 3)) = false := by
  decide
theorem smoke_register_fields : Instr.wf (.add (wd 63 2 3 0)) = false ∧ Instr.wf (.add (wd 1 63 3 0)) = false
    ∧ Instr.wf (.add (wd 1 2 63 0)) = false := by decide
theorem smoke_accumulator_field : Instr.wf (.accadd (wd 63 0 0 0)) = false := by decide
theorem smoke_field_beside_literal : Instr.wf (.add ⟨true, some 1, 1, 2, 3, 0⟩) = false ∧ Instr.wf (.br ⟨true, some 4, 1, 0, 0, 0⟩) = false := by
  decide
theorem smoke_load_over_its_base : Instr.wf (.ldW (wd 1 1 0 8)) = false := by decide
theorem smoke_special_register : Instr.wf (.mfs (wd 1 17 0 0)) = false ∧ Instr.wf (.mts (wd 17 0 1 0)) = false := by decide
theorem smoke_block_registers : Instr.wf (.bcopy (wd 1 1 2 0)) = false := by decide
theorem smoke_pages : Instr.wf (.supplyLost 52) = false ∧ Instr.wf (.resetAssert 52) = false ∧ Instr.wf (.khotRise 52) = false
    ∧ Instr.wf (.khotRise 51) = true := by decide
theorem smoke_notice : Instr.wf (.levelNotice .p0 4) = false ∧ Instr.wf (.levelNotice .p0 11) = false ∧ Instr.wf (.levelNotice .p0 10) = true := by
  decide
theorem smoke_pause : Instr.wf (.contentionPause .p0 199) = false ∧ Instr.wf (.contentionPause .p0 1001) = false := by decide
theorem smoke_frame : Instr.wf (.unknownFrame .p0 ⟨8, 0, 0, 0, List.replicate 32 0⟩) = false
    ∧ Instr.wf (.ringFrameMirror .p1 ⟨8, 0, 0, 0, List.replicate 32 0⟩) = false := by decide
theorem smoke_commit : Instr.wf (.keepCommitIssue [(131072, 0)]) = false ∧ Instr.wf (.keepCommitIssue [(131071, 0)]) = true := by decide
theorem smoke_inputs : Instr.wf (.cmpTick [0]) = false ∧ Instr.wf (.cmpTick (List.replicate 16 0)) = true := by decide

/-- No row of the table spells a word in bits. -/
theorem test_no_row_has_bits : decodeTableWord 32 0 = none := by decide
end Sys2Proof.Tests
end

section
/-! The levels' trim and faults (chapter 09, R204 to R219): what noting THROT and relieving a limit leave of a port, then each
command of the obligation in one rule of its own. -/

namespace Sys2Proof.Laws

open Sys2Proof Machine

/-! ## What relieving a limit leaves of a port -/

/-- A port without what traffic changes and without what noting THROT changes (R309). -/
def Port.still (q : Port) : Port :=
  { Port.steady q with pevt := 0, throt := 0, throtDirty := false, throtAtMs := 0, throtOnset := false, throtLog := [] }

theorem still_of_steady {a b : Dev} (h : steady a = steady b) (r : PortId) : Port.still (a.port r) = Port.still (b.port r) := by
  simp only [Port.still, port_of_steady h r]

theorem still_modPort (p r : PortId) (f : Port → Port) (h : ∀ q, Port.still (f q) = Port.still q) (d : Dev) :
    Port.still ((d.modPort p f).port r) = Port.still (d.port r) := by
  cases p <;> cases r <;> simp [Dev.modPort, Dev.port, h]

theorem postThrot_still (p r : PortId) (d : Dev) : Port.still ((postThrot p d).port r) = Port.still (d.port r) := by
  unfold postThrot
  dsimp only
  split
  · rw [still_of_steady (post_steady _ _) r]
    exact still_modPort p r _ (by intro q; rfl) d
  · rfl

theorem flushThrot_still (p r : PortId) (d : Dev) : Port.still ((flushThrot p d).port r) = Port.still (d.port r) := by
  unfold flushThrot
  split
  · exact postThrot_still p r d
  · rfl

theorem noteThrot_still (p r : PortId) (d : Dev) : Port.still ((noteThrot p d).port r) = Port.still (d.port r) := by
  unfold noteThrot
  dsimp only
  split
  · rfl
  · exact (still_modPort p r _ (by intro q; rfl) _).trans (flushThrot_still p r d)

theorem relieve_still (r : PortId) (d : Dev) : Port.still ((relieve d).port r) = Port.still (d.port r) := by
  rw [still_of_steady (relieve_steady d) r]
  exact (noteThrot_still .p1 r _).trans (noteThrot_still .p0 r d)

/-! Field by field, for every port. -/

@[simp] theorem relieve_role (r : PortId) (d : Dev) : ((relieve d).port r).role = (d.port r).role :=
  (congrArg Port.role (relieve_still r d) :)
@[simp] theorem relieve_gate (r : PortId) (d : Dev) : ((relieve d).port r).gate = (d.port r).gate :=
  (congrArg Port.gate (relieve_still r d) :)
@[simp] theorem relieve_lev_cur (r : PortId) (d : Dev) : ((relieve d).port r).lev.cur = (d.port r).lev.cur :=
  (congrArg (fun q => q.lev.cur) (relieve_still r d) :)
@[simp] theorem relieve_lev_code (r : PortId) (d : Dev) : ((relieve d).port r).lev.code = (d.port r).lev.code :=
  (congrArg (fun q => q.lev.code) (relieve_still r d) :)
@[simp] theorem relieve_lev_lfault (r : PortId) (d : Dev) : ((relieve d).port r).lev.lfault = (d.port r).lev.lfault :=
  (congrArg (fun q => q.lev.lfault) (relieve_still r d) :)

/-- What a change of a port makes depends on that port alone. -/
theorem modPort_congr (d : Dev) (p : PortId) (f g : Port → Port) (h : f (d.port p) = g (d.port p)) :
    d.modPort p f = d.modPort p g := by
  cases p
  · exact congrArg (fun q => { d with p0 := q }) h
  · exact congrArg (fun q => { d with p1 := q }) h

/-! ## The trim (R206) -/

/-- A mean more than 0.5 % above the nominal takes one code off. -/
theorem trimCode_of_above (q : Port) (m : Nat) (h : nominalMv q.lev.cur * 1005 < m * 1000) : trimCode q m = -1 := by
  have habove : (nominalMv q.lev.cur : Int) * 5 < (m - nominalMv q.lev.cur) * 1000 := by omega
  simp only [trimCode, if_pos habove]

/-- A mean more than 0.5 % below it adds one. -/
theorem trimCode_of_below (q : Port) (m : Nat) (h : m * 1000 < nominalMv q.lev.cur * 995) : trimCode q m = 1 := by
  have hnot : ¬ (nominalMv q.lev.cur : Int) * 5 < (m - nominalMv q.lev.cur) * 1000 := by omega
  have hbelow : (nominalMv q.lev.cur : Int) * 5 < (nominalMv q.lev.cur - m) * 1000 := by omega
  simp only [trimCode, if_neg hnot, if_pos hbelow]

/-- Between the two the code stays. -/
theorem trimCode_of_within (q : Port) (m : Nat) (hlow : nominalMv q.lev.cur * 995 ≤ m * 1000)
    (hhigh : m * 1000 ≤ nominalMv q.lev.cur * 1005) : trimCode q m = 0 := by
  have habove : ¬ (nominalMv q.lev.cur : Int) * 5 < (m - nominalMv q.lev.cur) * 1000 := by omega
  have hbelow : ¬ (nominalMv q.lev.cur : Int) * 5 < (nominalMv q.lev.cur - m) * 1000 := by omega
  simp only [trimCode, if_neg habove, if_neg hbelow]

/-- Where RING.TRIM plays no part, the trim compares the measured mean itself (R231). -/
theorem trimMean_of_not_follower (q : Port) (m : Nat) (h : q.follower = false) : trimMean q m = m := by
  simp [trimMean, h]

/-- The code that a trim leaves: the one moved by the trim, and no more than the level's upper-limit code (R205, R206). -/
theorem trimOnce_code (ms m : Nat) (q : Port) (h : q.follower = false) :
    (trimOnce ms m q).lev.code = Nat.min ((q.lev.code : Int) + trimCode q m).toNat (upperCode q q.lev.cur) := by
  simp only [trimOnce, trimMean_of_not_follower q m h]
  split
  · next hc => exact hc.symm
  · rfl

/-- A trim moves a port that is settled at a level, and no other (R206). -/
theorem leads_levelTrim {s : State} {p : PortId} {m : Nat} {P : Dev → Prop} (hrole : (s.dev.port p).role = .feed)
    (hgate : (s.dev.port p).gate = .closed) (hstep : (s.dev.port p).lev.step = none) (hhold : (s.dev.port p).drp.hold = false)
    (hact : (s.dev.port p).drp.act = false) (hms : (s.dev.port p).lev.trimMs < s.dev.us / 1000) :
    Leads (.levelTrim p m) s P ↔ P (s.dev.modPort p (trimOnce (s.dev.us / 1000) m)) := by
  rw [leads_onDev (show exec (.levelTrim p m) s = execLevelTrim p m s from rfl), modPort_congr _ p _ (trimOnce (s.dev.us / 1000) m)]
  exact if_pos ⟨hrole, hgate, hstep, hhold, hact, hms⟩

/-! ## The level fault (R217 to R219) -/

theorem setFault_lfault (p : PortId) (d : Dev) : ((setFault p d).port p).lev.lfault = true := by
  simp [setFault]

/-- PSTAT.LFAULT leaves the role, the path, the level and the code as they are: the level is held (R217). -/
theorem setFault_holds (p : PortId) (d : Dev) :
    ((setFault p d).port p).role = (d.port p).role ∧ ((setFault p d).port p).gate = (d.port p).gate
      ∧ ((setFault p d).port p).lev.cur = (d.port p).lev.cur ∧ ((setFault p d).port p).lev.code = (d.port p).lev.code := by
  simp [setFault]

theorem leads_feedOutOfBand {s : State} {p : PortId} {P : Dev → Prop} (hrole : (s.dev.port p).role = .feed)
    (hgate : (s.dev.port p).gate = .closed) (hstep : (s.dev.port p).lev.step = none) (hhold : (s.dev.port p).drp.hold = false)
    (hout : 95000 ≤ (s.dev.port p).met.vfeedOut) : Leads (.feedOutOfBand p) s P ↔ P (setFault p s.dev) := by
  rw [leads_onDev (show exec (.feedOutOfBand p) s = execFeedOutOfBand p s from rfl)]
  simp [hrole, hgate, hstep, hhold, hout]

theorem leads_l0NotReached {s : State} {p : PortId} {t : Nat} {P : Dev → Prop} (hdrive : (s.dev.port p).lev.driveAt = some t)
    (ht : t + 60000 ≤ s.dev.us) : Leads (.l0NotReached p) s P ↔ P (setFault p s.dev) := by
  rw [leads_onDev (show exec (.l0NotReached p) s = execL0NotReached p s from rfl)]
  simp [hdrive, ht]

theorem exec_lfaultClear {s : State} {p : PortId} (hfault : (s.dev.port p).lev.lfault = true)
    (hstep : (s.dev.port p).lev.step = none) (hin : 1000000 ≤ (s.dev.port p).met.vfeedIn) :
    exec (.lfaultClear p) s = .next (s.setPort p fun q => { q with lev := { q.lev with lfault := false } }) := by
  refine congrArg (fun d => Host.Outcome.next { s with dev := d }) (modPort_congr s.dev p _ _ ?_)
  exact if_pos ⟨hfault, hstep, hin⟩

/-! ## The measured transfer (R204) -/

theorem xferBad_iff (v0 v1 : Nat) : xferBad v0 v1 = true ↔ 11400 < v0 ∨ v1 < 46200 ∨ 55000 < v1 := by
  simp only [xferBad, decide_eq_true_eq]
  omega

/-- A port that stores nothing of its measurement, with LFAULT (R204). -/
def refuseXfer (q : Port) : Port := { q with lev := { q.lev with calAt := none, lfault := true } }

/-- A port that stores its measured transfer and takes the code of L0 from it (R204). -/
def storeXfer (v0 v1 : Nat) (q : Port) : Port :=
  let q1 := { q with cfg := { q.cfg with xfer := some (h16 v0, h16 ((v1 - v0) * 1000 / 1023)) } }
  { q1 with lev := { q1.lev with calAt := none, code := startCode q1 0 } }

/-- A measurement that has run its 40 ms is refused or stored, by its range. -/
theorem leads_vsetCalibration {s : State} {p : PortId} {t v0 v1 : Nat} {P : Dev → Prop} (hrole : (s.dev.port p).role = .feed)
    (hcal : (s.dev.port p).lev.calAt = some t) (ht : t + 40000 ≤ s.dev.us) :
    Leads (.vsetCalibration p v0 v1) s P ↔
      P (if xferBad v0 v1 then postPort 0x16 0 p 0 false (s.dev.modPort p refuseXfer)
        else dueSettings (s.dev.modPort p (storeXfer v0 v1))) := by
  rw [leads_onDev (show exec (.vsetCalibration p v0 v1) s = execVsetCalibration p v0 v1 s from rfl)]
  simp only [hrole, hcal, ht, decide_true, Bool.and_self, guardDev_true]
  rfl

/-- After a refused measurement: its time is over, LFAULT sets, and the settings are as they were. -/
theorem refuseXfer_port (p : PortId) (d : Dev) :
    let q := (postPort 0x16 0 p 0 false (d.modPort p refuseXfer)).port p
    q.lev.calAt = none ∧ q.lev.lfault = true ∧ q.cfg = (d.port p).cfg := by
  have h := postPort_steady 0x16 0 p 0 false (d.modPort p refuseXfer)
  refine ⟨(lev_calAt_of_steady h p).trans ?_, (lev_lfault_of_steady h p).trans ?_, (cfg_of_steady h p).trans ?_⟩ <;>
    simp [refuseXfer]

/-- After a stored one: its time is over, the transfer is in the settings, and LFAULT is as it was. -/
theorem storeXfer_port (p : PortId) (v0 v1 : Nat) (d : Dev) :
    let q := (dueSettings (d.modPort p (storeXfer v0 v1))).port p
    q.lev.calAt = none ∧ q.cfg.xfer = some (h16 v0, h16 ((v1 - v0) * 1000 / 1023)) ∧ q.lev.lfault = (d.port p).lev.lfault := by
  have h := dueSettings_steady (d.modPort p (storeXfer v0 v1))
  refine ⟨(lev_calAt_of_steady h p).trans ?_, (congrArg PortSet.xfer (cfg_of_steady h p)).trans ?_,
    (lev_lfault_of_steady h p).trans ?_⟩ <;> simp [storeXfer]

/-! ## The obligation -/

/-- Settles O15: the trim by where the mean lies against the 0.5 % band, the faults by what `setFault` holds, the calibration by
whether its range is met. -/
theorem levelTrimAndFaults : Obligations.LevelTrimAndFaults := by
  intro s p
  refine ⟨?trim, ?outOfBand, ?notReached, fun hfault hstep hin => exec_lfaultClear hfault hstep hin, ?calibration⟩
  case trim =>
    intro m hrole hgate hstep hhold hact hfollow hms hcode _
    rw [leads_levelTrim hrole hgate hstep hhold hact hms, modPort_port, trimOnce_code _ _ _ hfollow]
    refine ⟨fun habove => ?_, fun hbelow => ?_, fun hlow hhigh => ?_, modPort_port_other _ _ _⟩
    · rw [trimCode_of_above _ _ habove, show ((s.dev.port p).lev.code + (-1) : Int).toNat = (s.dev.port p).lev.code - 1 by omega]
      exact Nat.min_eq_left (by omega)
    · rw [trimCode_of_below _ _ hbelow]
      rfl
    · rw [trimCode_of_within _ _ hlow hhigh, Int.add_zero, Int.toNat_natCast]
      exact Nat.min_eq_left hcode
  case outOfBand =>
    intro hrole hgate hstep hhold hout
    rw [leads_feedOutOfBand hrole hgate hstep hhold (by omega)]
    obtain ⟨hroleKept, hgateKept, hcurKept, hcodeKept⟩ := setFault_holds p s.dev
    exact ⟨setFault_lfault p s.dev, hcurKept, hcodeKept, hgateKept.trans hgate, hroleKept.trans hrole⟩
  case notReached =>
    intro t hdrive ht
    rw [leads_l0NotReached hdrive ht]
    obtain ⟨-, hgateKept, -, -⟩ := setFault_holds p s.dev
    exact ⟨setFault_lfault p s.dev, hgateKept⟩
  case calibration =>
    intro t v0 v1 hrole hcal ht
    rw [leads_vsetCalibration hrole hcal ht]
    by_cases hbad : xferBad v0 v1 = true
    · have hout := (xferBad_iff v0 v1).1 hbad
      obtain ⟨hcalOver, hfault, hcfg⟩ := refuseXfer_port p s.dev
      rw [if_pos hbad]
      exact ⟨hcalOver, fun h0 hlow hhigh => by omega, fun _ => ⟨hfault, hcfg⟩⟩
    · have hin := mt (xferBad_iff v0 v1).2 hbad
      obtain ⟨hcalOver, hxfer, hfault⟩ := storeXfer_port p v0 v1 s.dev
      rw [if_neg hbad]
      exact ⟨hcalOver, fun _ _ _ => ⟨hxfer, hfault⟩, fun hout => absurd hout hin⟩

end Sys2Proof.Laws
end


section
/-! The counted loop (R441): a bundle whose stop comes with its last word issues what was gathered with that word, and a last
operation that only changes the core acts on what the operations before it left. DBNZ is such a last operation. -/

namespace Sys2Proof.Laws

open Sys2Proof Machine

/-! ## Which registers a bundle writes (R412) -/

theorem noTwice_iff_nodup (l : List Nat) : noTwice l = true ↔ l.Nodup := by
  induction l with
  | nil => simp [noTwice]
  | cons n t ih => simp [noTwice, ih]

/-- DBNZ writes the register it counts in, unless that is g0 (R414). -/
theorem mem_writesOf_dbnz {w : OpWord} (h : w.a.toNat ≠ 32) : w.a.toNat ∈ writesOf .dbnz w := by
  simp [writesOf, writesD, h]

theorem ne_g0_of_mem_writesOf {o : Opc} {w : OpWord} {n : Nat} (h : n ∈ writesOf o w) : n ≠ 32 := by
  simpa using (List.mem_filter.1 h).2

/-- A register that a gathered operation and the last one both write makes the bundle ILLEGAL (R412). -/
theorem bundleOk_of_writes_twice {l : List BundleOp} {o p : Opc} {v w : OpWord} {n : Nat} (hmem : (o, v) ∈ l)
    (hfirst : n ∈ writesOf o v) (hlast : n ∈ writesOf p w) : bundleOk (l ++ [(p, w)]) = false := by
  have htwice : noTwice ((l ++ [(p, w)]).flatMap fun x => writesOf x.1 x.2) = false := by
    rw [Bool.eq_false_iff, ne_eq, noTwice_iff_nodup, List.flatMap_append, List.nodup_append]
    rintro ⟨-, -, hdisjoint⟩
    exact hdisjoint n (List.mem_flatMap.2 ⟨_, hmem, hfirst⟩) n (by simpa using hlast) rfl
  simp only [bundleOk, htwice, Bool.and_false, Bool.false_and]

/-! ## What a bundle comes to by its last operation -/

theorem evalAll_concat {n : Nat} {d : Dev} {l : List BundleOp} {es : List OpEffect} {x : BundleOp} {e : OpEffect}
    (hl : evalAll n d l = .ok es) (hx : evalOp x n d = .ok e) : evalAll n d (l ++ [x]) = .ok (es ++ [e]) := by
  induction l generalizing es with
  | nil =>
    cases hl
    simp [evalAll, hx]
  | cons z t ih =>
    cases hz : evalOp z n d with
    | ok ez =>
      cases ht : evalAll n d t with
      | ok ets =>
        obtain rfl : ez :: ets = es := by simpa [evalAll, hz, ht] using hl
        simp [evalAll, hz, ih ht]
      | trap k v => simp [evalAll, hz, ht] at hl
      | refuse r => simp [evalAll, hz, ht] at hl
    | trap k v => simp [evalAll, hz] at hl
    | refuse r => cases ht : evalAll n d t <;> simp [evalAll, hz, ht] at hl

theorem foldDev_append {α : Type} (f : α → Dev → Dev) (l m : List α) (d : Dev) :
    foldDev f (l ++ m) d = foldDev f m (foldDev f l d) := by
  induction l generalizing d with
  | nil => rfl
  | cons a t ih => exact ih (f a d)

theorem foldDev_pre_of_id {es : List OpEffect} (h : ∀ e ∈ es, e.pre = id) (d : Dev) : foldDev OpEffect.pre es d = d := by
  induction es with
  | nil => rfl
  | cons e t ih =>
    obtain ⟨he, ht⟩ := List.forall_mem_cons.1 h
    simp only [foldDev, he, id_eq, ih ht]

/-- While no operation hands the core over (R468), each one acts on what the one before it left. -/
theorem foldDev_applyEffect {d x : Dev} {es : List OpEffect}
    (h : ∀ k, ((es.take k).foldl (fun d e => e.act d) x).fwu.hand = d.fwu.hand) :
    foldDev (applyEffect d) es x = es.foldl (fun d e => e.act d) x := by
  induction es generalizing x with
  | nil => rfl
  | cons e t ih =>
    have hact : applyEffect d e x = e.act x := if_pos (decide_eq_true (h 0))
    simp only [foldDev, hact, List.foldl_cons]
    exact ih fun k => h (k + 1)

theorem nextOf_concat {es : List OpEffect} (h : ∀ e ∈ es, e.next = none) (seq : Word) (e : OpEffect) :
    nextOf seq (es ++ [e]) = e.next.getD seq := by
  induction es with
  | nil => rfl
  | cons z t ih =>
    obtain ⟨hz, ht⟩ := List.forall_mem_cons.1 h
    simp only [List.cons_append, nextOf, hz, Option.getD_none, ih ht]

theorem goTo_of_fetchable {t : Word} (h : fetchable t = true) (d : Dev) : goTo t d = d.onCore fun c => { c with pc := t } :=
  if_pos h

theorem settleWait_of_none {d : Dev} (h : d.core.wait = none) : settleWait d = d := by
  simp only [settleWait, h]

/-- A bundle whose last operation only changes the core leaves that change on what the operations before it left, and goes on
where the last operation says. -/
theorem commitOps_concat {n : Nat} {es : List OpEffect} {x y : Dev} {f : Core → Core} {nx : Option Word} {t : Word}
    (hplain : ∀ e ∈ es, e.pre = id ∧ e.next = none) (hy : y = es.foldl (fun d e => e.act d) x)
    (hhand : ∀ k, ((es.take k).foldl (fun d e => e.act d) x).fwu.hand = x.fwu.hand)
    (hnext : nx.getD (x.core.pc + BitVec.ofNat 32 n) = t) (ht : fetchable t = true) (hwait : (f y.core).wait = none) :
    commitOps n (es ++ [{ act := fun d => d.onCore f, next := nx }]) x = y.onCore fun c => { f c with pc := t } := by
  have hpre : foldDev OpEffect.pre (es ++ [{ act := fun d => d.onCore f, next := nx }]) x = x := by
    rw [foldDev_append, foldDev_pre_of_id fun e he => (hplain e he).1]
    rfl
  have hsame : y.fwu.hand = x.fwu.hand := by simpa [hy] using hhand es.length
  have hacts : foldDev (applyEffect x) (es ++ [{ act := fun d => d.onCore f, next := nx }]) x = y.onCore f := by
    rw [foldDev_append, foldDev_applyEffect hhand, ← hy]
    exact if_pos (decide_eq_true hsame)
  have hkept : sameImage x (y.onCore f) = true := decide_eq_true hsame
  simp only [commitOps, hpre, hacts, hkept, if_true, nextOf_concat fun e he => (hplain e he).2, hnext, goTo_of_fetchable ht]
  exact settleWait_of_none hwait

/-- A running core that waits for nothing issues what it has gathered with the word that has the stop (R434). -/
theorem issueOp_of_stop {o : Opc} {w : OpWord} {d : Dev} (hrun : d.core.run = true) (hwait : d.core.wait = none)
    (hwd : d.core.wdNow = false) (hstop : w.stop = true) :
    issueOp o w d = runBundle (d.core.bundle ++ [(o, w)]) (d.onCore fun c => { c with bundle := [] }) := by
  simp [issueOp, settleWait_of_none hwait, coreIssues, hrun, hwait, hwd, hstop]

/-- A bundle that is not legal traps ILLEGAL at its own address (R426, R434). -/
theorem runBundle_of_illegal {l : List BundleOp} {d : Dev} (h : bundleOk l = false) :
    runBundle l d = .ok (syncTrap 1 d.core.pc none d) := by
  simp [runBundle, h]

/-- A legal bundle whose last operation only changes the core. -/
theorem runBundle_concat {l : List BundleOp} {z : BundleOp} {es : List OpEffect} {x y : Dev} {f : Core → Core} {nx : Option Word}
    {t : Word} (hok : bundleOk (l ++ [z]) = true) (hes : evalAll (bundleLen (l ++ [z])) x l = .ok es)
    (hz : evalOp z (bundleLen (l ++ [z])) x = .ok { act := fun d => d.onCore f, next := nx })
    (hplain : ∀ e ∈ es, e.pre = id ∧ e.next = none) (hy : y = es.foldl (fun d e => e.act d) x)
    (hhand : ∀ k, ((es.take k).foldl (fun d e => e.act d) x).fwu.hand = x.fwu.hand)
    (hnext : nx.getD (x.core.pc + BitVec.ofNat 32 (bundleLen (l ++ [z]))) = t) (ht : fetchable t = true)
    (hwait : (f y.core).wait = none) : runBundle (l ++ [z]) x = .ok (y.onCore fun c => { f c with pc := t }) := by
  simp only [runBundle, hok, if_true, evalAll_concat hes hz, commitOps_concat hplain hy hhand hnext ht hwait]

/-- Outside a handler a trap without a value of its own enters its handler (R416, R426). -/
theorem syncTrap_enters (cause : Nat) (tpc : Word) {s : State} (hth : s.dev.core.th = false) :
    Enters cause tpc s (syncTrap cause tpc none (s.dev.onCore fun c => { c with bundle := [] })) := by
  simp [syncTrap, trapEntry, trapValue, trapVector, takeFree, Dev.onCore, Enters, hth]

/-- A command that is an operation of the core leads to the device that its issue leaves. -/
theorem leads_of_issueOp {c : Instr} {o : Opc} {w : OpWord} {s : State} {d : Dev} {P : Dev → Prop} (hc : exec c s = coreOp o w s)
    (hd : issueOp o w s.dev = .ok d) (hP : P d) : Leads c s P :=
  ⟨d, by simp only [hc, coreOp, hd], hP⟩

/-! ## DBNZ (R441) -/

theorem exec_dbnz (w : OpWord) (s : State) : exec (.dbnz w) s = coreOp .dbnz w s := rfl

/-- A count that has not run out: the register takes it, and the bundle branches (R431, R440). -/
theorem evalOp_dbnz_taken {w : OpWord} {n : Nat} {d : Dev} {a t : Word} (ha : a = regVal d.core w.a.toNat)
    (ht : t = branchTarget .dbnz w d.core) (haligned : t.toNat % 4 = 0) (hcount : a - 1 ≠ 0) :
    evalOp (.dbnz, w) n d = .ok
      { act := fun x => x.onCore fun c => { putReg d.core.cwb w.a.toNat (a - 1) c with iramFetch := c.iram }, next := some t } := by
  subst ha ht
  have hbranch : evalOp (.dbnz, w) n d = branchTo (branchTarget .dbnz w d.core) fun x =>
      x.onCore (putReg d.core.cwb w.a.toNat (regVal d.core w.a.toNat - 1)) := if_pos (decide_eq_true hcount)
  rw [hbranch, branchTo, if_neg fun h => h haligned]
  simp [syncFetch, Dev.onCore]

/-- A count that runs out: the register takes 0, and the next bundle follows. -/
theorem evalOp_dbnz_through {w : OpWord} {n : Nat} {d : Dev} {a : Word} (ha : a = regVal d.core w.a.toNat)
    (hcount : a - 1 = 0) :
    evalOp (.dbnz, w) n d = .ok { act := fun x => x.onCore (putReg d.core.cwb w.a.toNat (a - 1)) } := by
  subst ha
  exact if_neg (by simpa using hcount)

/-- Settles O53: the operations before DBNZ act on what the bundle found, DBNZ on what they left; whether the count runs out
decides where the core goes on. A gathered write of DBNZ's register stands against R412. -/
theorem countedLoop : Obligations.CountedLoop := by
  intro s w l a t n x ha ht hn hrun hwait hwd hbundle hstop hx
  have hissue : issueOp .dbnz w s.dev = runBundle (l ++ [(.dbnz, w)]) x := by
    rw [issueOp_of_stop hrun hwait hwd hstop, hbundle, hx]
  refine ⟨fun es y htf hta hnf hok hes hplain hy hhand hyw => ?loops, fun o v hmem hwrites hth => ?illegal⟩
  case loops =>
    have hax : a = regVal x.core w.a.toNat := by rw [ha, hx]; rfl
    have htx : t = branchTarget .dbnz w x.core := by rw [ht, hx]; rfl
    have hcwb : x.core.cwb = s.dev.core.cwb := by rw [hx]; rfl
    have hnx : x.core.pc + BitVec.ofNat 32 (bundleLen (l ++ [(.dbnz, w)])) = n := by rw [hn, hx]; rfl
    by_cases hcount : a - 1 = 0
    · rw [runBundle_concat hok hes (evalOp_dbnz_through hax hcount) hplain hy hhand hnx hnf (by simpa using hyw), hcwb] at hissue
      refine leads_of_issueOp (exec_dbnz w s) hissue ⟨fun h => absurd hcount h, fun _ => rfl, fun h0 => ?_⟩
      subst h0
      exact absurd hcount (by decide)
    · rw [runBundle_concat hok hes (evalOp_dbnz_taken hax htx hta hcount) hplain hy hhand rfl htf (by simpa using hyw), hcwb] at hissue
      refine leads_of_issueOp (exec_dbnz w s) hissue ⟨fun _ => rfl, fun h => absurd h hcount, fun h0 => ?_⟩
      subst h0
      rfl
  case illegal =>
    have hbad := bundleOk_of_writes_twice hmem hwrites (mem_writesOf_dbnz (ne_g0_of_mem_writesOf hwrites))
    rw [runBundle_of_illegal hbad, hx] at hissue
    exact leads_of_issueOp (exec_dbnz w s) hissue (syncTrap_enters 1 s.dev.core.pc hth)

end Sys2Proof.Laws
end

section
/-! Commands outside the core: each keeps the byte stores of Keep in canonical form and leaves the core alone. The shared rules of
such a frame come first, then the commands whose meaning takes a case split. -/

namespace Sys2Proof.Laws

open Sys2Proof Machine

/-- What a command outside the core keeps: the canonical form of Keep's byte stores, and the core. -/
structure Kept (d d' : Dev) : Prop where
  keep : KeepWf d.keep → KeepWf d'.keep
  core : coreOf d' = coreOf d

/-- A command changes the device alone, and keeps that. -/
def Framed (e : State → Answer) : Prop := ∃ f, (∀ s, e s = onDev f s) ∧ ∀ d, Kept d (f d)

theorem framed {e : State → Answer} {f : Dev → Dev} (he : ∀ s, e s = onDev f s) (hk : ∀ d, KeepWf d.keep → KeepWf (f d).keep)
    (hc : ∀ d, coreOf (f d) = coreOf d) : Framed e :=
  ⟨f, he, fun d => ⟨hk d, hc d⟩⟩

theorem framed_of_kept {e : State → Answer} {f : Dev → Dev} (he : ∀ s, e s = onDev f s) (h : ∀ d, Kept d (f d)) : Framed e :=
  ⟨f, he, h⟩

theorem Kept.refl (d : Dev) : Kept d d := ⟨id, rfl⟩

theorem Kept.trans {a b c : Dev} (h : Kept a b) (h' : Kept b c) : Kept a c := ⟨h'.keep ∘ h.keep, h'.core.trans h.core⟩

theorem Kept.guardDev {c : Bool} {f : Dev → Dev} {d : Dev} (h : Kept d (f d)) : Kept d (guardDev c f d) := by
  cases c
  · exact .refl d
  · exact h

theorem Kept.byHost {n : Nat} {f : Dev → Dev} {d : Dev} (h : Kept d (f d)) : Kept d (byHost n f d) :=
  ⟨fun hw => byHost_keepWf _ _ _ (h.keep hw) hw, byHost_coreOf _ _ _ h.core⟩

theorem Kept.drawFrame {p : PortId} {h : FrameTag} {bc bad : Bool} {f : Dev → Dev} (d : Dev) (hf : ∀ x, Kept x (f x)) :
    Kept d (drawFrame p h bc bad f d) :=
  ⟨fun hw => drawFrame_keepWf _ _ _ _ _ _ (fun x => (hf x).keep) hw, drawFrame_coreOf _ _ _ _ _ _ fun x => (hf x).core⟩

theorem Kept.fromEndpoint {p : PortId} {i : Idx} {h : FrameTag} {f : Dev → Dev} {d : Dev} (hf : Kept d (f d)) :
    Kept d (fromEndpoint p i h f d) :=
  ⟨fun hw => fromEndpoint_keepWf _ _ _ _ _ (hf.keep hw) hw, fromEndpoint_coreOf _ _ _ _ _ hf.core⟩

theorem Kept.modPort (p : PortId) (f : Port → Port) (d : Dev) : Kept d (d.modPort p f) :=
  ⟨modPort_keepWf p f d, coreOf_modPort d p f⟩

theorem Kept.relieve (d : Dev) : Kept d (relieve d) := ⟨relieve_keepWf d, relieve_coreOf d⟩

theorem Kept.ite {c : Prop} [Decidable c] {d x y : Dev} (hx : Kept d x) (hy : Kept d y) : Kept d (if c then x else y) := by
  split
  · exact hx
  · exact hy

theorem execClockFail_framed : Framed execClockFail :=
  framed_of_kept (fun _ => rfl) fun _ => .guardDev ⟨fun h => postGlobal_keepWf _ _ _ _ _ h, by simp⟩

theorem execTdataRead_framed (early : Bool) : Framed (execTdataRead early) :=
  framed_of_kept (fun _ => rfl) fun _ => ⟨fun h => hostRead_keepWf _ _ _ (by split <;> simp [h]) h, hostRead_coreOf _ _ _ (by split <;> simp)⟩

theorem execMbxDone_framed : Framed execMbxDone :=
  framed_of_kept (fun _ => rfl) fun d => by
    split
    · exact .guardDev ⟨fun h => by simp [h], by simp⟩
    · exact .refl d

theorem execLmaxWrite_framed (p : PortId) (l : Level) : Framed (execLmaxWrite p l) :=
  framed_of_kept (fun _ => rfl) fun _ => .byHost ⟨fun h => by simp [h], by simp⟩

theorem execFlagClear_framed (reg : FlagReg) (mask sets : Half) : Framed (execFlagClear reg mask sets) :=
  framed_of_kept (fun _ => rfl) fun d => by
    cases reg with
    | gstat => exact .byHost ⟨fun h => by simp [h], by simp⟩
    | pevt p => exact .byHost (.modPort p _ d)

theorem foldLog_keepWf (l : List LogEntry) (k : Keep) (h : KeepWf k) : KeepWf (l.foldl (fun k l => logRing l k) k) :=
  foldlKeep_keepWf _ (fun _ _ hk => logRing_keepWf _ _ hk) _ _ h

theorem execKhotClear_framed : Framed execKhotClear :=
  framed_of_kept (fun _ => rfl) fun d => .guardDev ⟨fun h => by
    have hlogged : KeepWf { d.keep.held.foldl (fun k l => logRing l k) d.keep with held := [] } := foldLog_keepWf _ _ h
    dsimp only
    split
    · exact rollBack_keepWf _ _ hlogged
    · exact hlogged, rfl⟩

theorem execLevelSettled_framed (p : PortId) : Framed (execLevelSettled p) :=
  framed_of_kept (fun _ => rfl) fun d => by
    split
    · split
      · exact .guardDev ⟨fun h => by simp [h], by simp⟩
      · exact .refl d
    · exact .refl d

theorem execLevelStepTimeout_framed (p : PortId) : Framed (execLevelStepTimeout p) :=
  framed_of_kept (fun _ => rfl) fun d => by
    split
    · split
      · have haborted : Kept d (relieve ((abortStep p d).modPort p fun q => { q with lev := { q.lev with lfault := true } })) :=
          .trans ⟨abortStep_keepWf p d, abortStep_coreOf p d⟩ (.trans (.modPort p _ _) (.relieve _))
        exact .guardDev (.ite (haborted.trans ⟨stopReclosing_keepWf p _, stopReclosing_coreOf p _⟩) haborted)
      · exact .refl d
    · exact .refl d

theorem execRestoreReadyBroadcast_framed (p : PortId) : Framed (execRestoreReadyBroadcast p) :=
  framed_of_kept (fun _ => rfl) fun d => .guardDev (by dsimp only; split <;> exact ⟨fun h => by simp [h], by simp⟩)

theorem execEnrolWindowEnd_framed (p : PortId) : Framed (execEnrolWindowEnd p) :=
  framed_of_kept (fun _ => rfl) fun d => .guardDev
    ⟨fun h => foldDev_keepWf _ (fun _ _ hx => answerEnroll_keepWf _ _ _ hx) _ _ (modPort_keepWf _ _ _ h), by simp⟩

theorem execAckMissing_framed (p : PortId) : Framed (execAckMissing p) :=
  framed_of_kept (fun _ => rfl) fun d => by
    split
    · exact .guardDev ⟨fun h => by simp [h], by simp⟩
    · exact .refl d

theorem execReport_framed (p : PortId) (i : Idx) (h : FrameTag) (m : ReportMsg) (stepMa : Nat) : Framed (execReport p i h m stepMa) :=
  framed_of_kept (fun _ => rfl) fun _ => .fromEndpoint (.ite ⟨fun h => by simp [h], by simp⟩ ⟨fun h => by simp [h], by simp⟩)

theorem execCalPulse_framed (p : PortId) (i : Idx) (stepMa dur : Nat) : Framed (execCalPulse p i stepMa dur) :=
  framed_of_kept (fun _ => rfl) fun d => by
    split
    · exact .guardDev ⟨fun h => by simp [h], by simp⟩
    · exact .refl d

theorem execSpecConfirmExpiry_framed (p : PortId) (slot : BitVec 7) : Framed (execSpecConfirmExpiry p slot) :=
  framed_of_kept (fun _ => rfl) fun d => by
    split
    · exact .guardDev ⟨fun h => by simp [h], by simp⟩
    · exact .refl d

theorem execBusySlotExpiry_framed (p : PortId) (slot : BitVec 7) : Framed (execBusySlotExpiry p slot) :=
  framed_of_kept (fun _ => rfl) fun d => by
    split
    · split
      · exact .guardDev ⟨fun h => by simp [h], by simp⟩
      · exact .refl d
    · exact .refl d

theorem execReady_framed (p : PortId) (slot : BitVec 7) : Framed (execReady p slot) :=
  framed_of_kept (fun _ => rfl) fun d => by
    split
    · split
      · exact .guardDev ⟨fun h => by simp [h], by simp⟩
      · exact .refl d
    · exact .refl d

theorem execHintLevelRaise_framed (p : PortId) (i : Idx) : Framed (execHintLevelRaise p i) :=
  framed_of_kept (fun _ => rfl) fun d => by
    split
    · exact .guardDev (.modPort p _ d)
    · exact .refl d

theorem execRailSwapEnd_framed (p : PortId) (conducted : Nat) : Framed (execRailSwapEnd p conducted) :=
  framed_of_kept (fun _ => rfl) fun d => by
    split
    · next t taker _ =>
      exact .guardDev (.ite ⟨swapAbandoned_keepWf taker p d, swapAbandoned_coreOf taker p d⟩
        (.trans (.trans ⟨swapCompletes_keepWf taker p d, swapCompletes_coreOf taker p d⟩ ⟨parkAdvance_keepWf _, parkAdvance_coreOf _⟩)
          (.relieve _)))
    · exact .refl d

theorem execSwapSlotTimeout_framed (p : PortId) : Framed (execSwapSlotTimeout p) :=
  framed_of_kept (fun _ => rfl) fun d => by
    split
    · exact .guardDev ⟨fun h => by simp [h], by simp⟩
    · exact .refl d

theorem execFollowerTakeover_framed (p : PortId) (backupUs : Nat) : Framed (execFollowerTakeover p backupUs) :=
  framed_of_kept (fun _ => rfl) fun d => .guardDev <|
    .trans (.modPort p _ d) (.trans (b := railOn p _) ⟨railOn_keepWf _ _, railOn_coreOf _ _⟩ ⟨losePeer_keepWf _ _, losePeer_coreOf _ _⟩)

theorem hearGang_kept (d : Dev) : Kept d (hearGang d) := ⟨hearGang_keepWf d, hearGang_coreOf d⟩

theorem takeGlead_kept (m : GleadMsg) (d : Dev) : Kept d (takeGlead m d) := ⟨takeGlead_keepWf m d, takeGlead_coreOf m d⟩

theorem execGlead_framed (m : GleadMsg) : Framed (execGlead m) :=
  framed_of_kept (fun _ => rfl) fun d => .guardDev <| (hearGang_kept d).trans <| by
    dsimp only
    split
    · exact .refl _
    · exact .refl _
    · exact ⟨id, rfl⟩
    · exact takeGlead_kept m _
    · split
      · refine .trans ?_ (takeGlead_kept m _)
        exact ⟨id, rfl⟩
      · exact .refl _

theorem execGmem_framed (m : GmemMsg) : Framed (execGmem m) :=
  framed_of_kept (fun _ => rfl) fun d => .guardDev ((hearGang_kept d).trans (.guardDev ⟨id, rfl⟩))

theorem execThermalThrottleUpdate_framed (a0 b0 a1 b1 : NtcReading) : Framed (execThermalThrottleUpdate a0 b0 a1 b1) :=
  framed_of_kept (fun _ => rfl) fun d => .guardDev <|
    .trans (b := readPoints a0 b0 a1 b1 d) ⟨fun h => by simp [h], by simp⟩ (.guardDev ⟨fun h => by simp [h], by simp⟩)

theorem execRosterPageWrite_framed (p : PortId) (page : BitVec 7) : Framed (execRosterPageWrite p page) :=
  framed_of_kept (fun _ => rfl) fun d => .guardDev <|
    .trans (.trans (b := (issue ⟨rosterCommit d p (512 + p.toNat * 128 + page.toNat), .due (pageDue p page)⟩ d).2)
      ⟨issue_keepWf _ _, issue_coreOf _ _⟩ (.ite ⟨dueLater_keepWf _ _, dueLater_coreOf _ _⟩ (.refl _))) ⟨id, rfl⟩

theorem execKeepSStoreDone_framed : Framed execKeepSStoreDone :=
  framed_of_kept (fun _ => rfl) fun d => .guardDev (by
    refine .trans (b := { d with keep := finishStore d.keep }) ⟨finishStore_keepWf _, rfl⟩ ?_
    dsimp only
    split
    · exact ⟨parkFinish_keepWf _, parkFinish_coreOf _⟩
    · exact ⟨parkStore_keepWf _, parkStore_coreOf _⟩
    · exact .refl _)

theorem scrubVisit_kept (g : Nat) (r : EccResult) (d : Dev) : Kept d (scrubVisit g r d) := ⟨scrubVisit_keepWf g r d, scrubVisit_coreOf g r d⟩

theorem scrubNext_kept (g : Nat) (d : Dev) : Kept d (scrubNext g d) := ⟨scrubNext_keepWf g d, scrubNext_coreOf g d⟩

theorem execScrubGroup_framed (r : EccResult) : Framed (execScrubGroup r) :=
  framed_of_kept (fun _ => rfl) fun d => .guardDev (by
    dsimp only
    split
    · refine .trans ?_ (scrubVisit_kept _ r _)
      exact ⟨id, rfl⟩
    · split
      · exact .refl d
      · split
        · refine .trans ?_ (scrubNext_kept _ _)
          exact ⟨id, rfl⟩
        · exact (scrubVisit_kept _ r d).trans (scrubNext_kept _ _))

theorem execHandoverBusyTimeout_framed : Framed execHandoverBusyTimeout :=
  framed_of_kept (fun _ => rfl) fun d => by
    split
    · exact .refl d
    · have hrefused : Kept d (fwuRefused 1 { d with fwu := { d.fwu with handReq := none } }) :=
        ⟨fun h => fwuRefused_keepWf 1 _ h, fwuRefused_coreOf 1 _⟩
      exact .guardDev (.ite (hrefused.trans ⟨mbxEnds_keepWf _ _ _, mbxEnds_coreOf _ _ _⟩) hrefused)

theorem execPollReceived_framed (p : PortId) (h : FrameTag) (m : PollMsg) (reply : PollReply) (mv : Nat) :
    Framed (execPollReceived p h m reply mv) :=
  framed_of_kept (fun _ => rfl) fun d => .guardDev (by
    refine .trans (b := (bandOf mv d).2) ⟨bandOf_keepWf mv d, bandOf_coreOf mv d⟩ (.trans (.modPort p _ _) (.trans (.ite (.modPort p _ _) (.refl _)) (.relieve _))))

theorem drawCloses_kept (p : PortId) (d : Dev) : Kept d (drawCloses p d) := ⟨drawCloses_keepWf p d, drawCloses_coreOf p d⟩

theorem execReadyReceived_framed (p : PortId) (h : FrameTag) (bc : Bool) (m : ReadyMsg) : Framed (execReadyReceived p h bc m) :=
  framed_of_kept (fun _ => rfl) fun d => .drawFrame d fun x => by
    split
    · split
      · exact .ite (.trans (.modPort p _ x) (.trans (drawCloses_kept p _) (.relieve _))) (.refl x)
      · exact .refl x
    · exact .trans (.modPort p _ x) (.trans (drawCloses_kept p _) (.relieve _))

theorem execWithdrawReceived_framed (p : PortId) (h : FrameTag) (bc : Bool) (m : WithdrawMsg) : Framed (execWithdrawReceived p h bc m) :=
  framed_of_kept (fun _ => rfl) fun d => .drawFrame d fun x => .ite (.refl x) (.trans (.modPort p _ x) (.relieve _))

theorem execSoftResetReceived_framed (p : PortId) (h : FrameTag) (bc : Bool) : Framed (execSoftResetReceived p h bc) :=
  framed_of_kept (fun _ => rfl) fun d => .drawFrame d fun x => .trans (.modPort p _ x) (.relieve _)

theorem execHardResetReceived_framed (p : PortId) (h : FrameTag) (bc : Bool) : Framed (execHardResetReceived p h bc) :=
  framed_of_kept (fun _ => rfl) fun d => .drawFrame d fun x => .trans (.modPort p _ x) (.relieve _)


end Sys2Proof.Laws
end

section
/-! The core through starts, handovers, the watchdog, traps and waits: each keeps its windows and return stack in range (R415 to
R418) and its memories canonical. -/

namespace Sys2Proof.Laws

open Sys2Proof Machine

/-! ## What starts, waits, traps and handovers leave of the core -/

/-- The core's windows and return stack are in range, and its two memories are canonical. -/
def CoreOk (c : Core) : Prop := Core.legal c ∧ spRising c.ram = true ∧ spRising c.iram = true

theorem coreOk_of_coreOf {d d' : Dev} (h : coreOf d' = coreOf d) (hd : CoreOk d.core) : CoreOk d'.core := by
  have hwres : d'.core.wres = d.core.wres := (congrArg Core.wres h :)
  have hcnt : d'.core.rsCnt = d.core.rsCnt := (congrArg Core.rsCnt h :)
  have hram : d'.core.ram = d.core.ram := (congrArg Core.ram h :)
  have hiram : d'.core.iram = d.core.iram := (congrArg Core.iram h :)
  simpa only [CoreOk, Core.legal, hwres, hcnt, hram, hiram] using hd

theorem spRising_filter {α : Type} (p : Nat × α → Bool) (s : Sparse α) (h : spRising s = true) : spRising (s.filter p) = true := by
  induction s with
  | nil => rfl
  | cons x t ih =>
    obtain ⟨a, v⟩ := x
    have hrest := ih (((spRising_cons a v t).1 h).2)
    have habove : keysAbove a (t.filter p) := fun y hy => keysAbove_of_rising a v t h y (List.mem_filter.mp hy).1
    cases hp : p (a, v)
    · simpa [hp] using hrest
    · simpa [hp] using rising_cons_of_above a v _ habove hrest

theorem CoreOk.putRam {c : Core} (h : CoreOk c) (a : Nat) (l : List Byte) : CoreOk { c with ram := putBytes c.ram a l } :=
  ⟨h.1, rising_putBytes _ _ _ h.2.1, h.2.2⟩

theorem freshDev_coreOk (d : Dev) : CoreOk (freshDev d).core := by
  refine ⟨⟨?_, ?_, ?_⟩, rfl, rfl⟩ <;> simp [freshDev]

theorem enterImage_coreOk (img : List Byte) (d : Dev) (h : CoreOk d.core) : CoreOk (enterImage img d).core := by
  obtain ⟨-, hram, hiram⟩ := h
  exact ⟨⟨by simp [enterImage], by simp [enterImage], by simp [enterImage]⟩, hram, rising_putBytes _ _ _ hiram⟩

theorem startFirmware_coreOk (cause : BitVec 2) (b : Bool) (f : Found) (d : Dev) (h : CoreOk d.core) :
    CoreOk (startFirmware cause b f d).core := by
  refine coreOk_of_coreOf (d := enterImage (runningImage { d with fwu := { d.fwu with active := b } }) d) ?_ (enterImage_coreOk _ _ h)
  unfold startFirmware
  dsimp only
  split <;> simp <;> rfl

theorem failPending_coreOf (b : Bool) (x : Found × Dev) : coreOf (failPending b x).2 = coreOf x.2 := by
  unfold failPending
  split <;> simp

theorem romboot_coreOk (cause : BitVec 2) (cold recovery : Bool) (d : Dev) (h : CoreOk d.core) :
    CoreOk (romboot cause cold recovery d).core := by
  have hboot : CoreOk (failPending true (failPending false (bootKeep cold
      { d with us := 0, pw := { d.pw with present := d.pw.present.rebase d.us } }))).2.core := by
    refine coreOk_of_coreOf ?_ h
    rw [failPending_coreOf, failPending_coreOf, bootKeep_coreOf]
    rfl
  have hstart (x : Found × Dev) (hx : CoreOk x.2.core) (o : Option Bool) : CoreOk (match o with
      | some b => startFirmware cause b x.1 x.2
      | none => { x.2 with pw := { x.2.pw with phase := .recovery, cause := cause } }).core := by
    cases o
    · exact hx
    · exact startFirmware_coreOk _ _ _ _ hx
  unfold romboot
  generalize failPending true _ = x at hboot
  exact hstart x hboot _

theorem enterBank_core (cause : BitVec 2) (toB rebuild : Bool) (d : Dev) :
    (enterBank cause toB rebuild d).core = (enterImage (bankOf d.fwu toB).image { d with core := keepHandover d.core }).core := rfl

theorem enterBank_coreOk (cause : BitVec 2) (toB rebuild : Bool) (d : Dev) (h : CoreOk d.core) :
    CoreOk (enterBank cause toB rebuild d).core := by
  rw [enterBank_core]
  exact enterImage_coreOk _ _ ⟨h.1, spRising_filter _ _ h.2.1, h.2.2⟩

theorem writeBlock_core (cause : Nat) (toB : Bool) (n : Nat) (d : Dev) : (writeBlock cause toB n d).core =
    { d.core with ram := putBytes d.core.ram 0x3F000 (handBlock cause toB n d ++ leBytes (crc32 (handBlock cause toB n d)).toNat 4) } := rfl

theorem writeBlock_coreOk (cause : Nat) (toB : Bool) (n : Nat) (d : Dev) (h : CoreOk d.core) :
    CoreOk (writeBlock cause toB n d).core := by
  rw [writeBlock_core]
  exact h.putRam _ _

theorem handTo_coreOk (cause : BitVec 2) (failed : Bool) (d : Dev) (h : CoreOk d.core) : CoreOk (handTo cause failed d).core := by
  refine enterBank_coreOk _ _ _ _ (writeBlock_coreOk _ _ _ _ ?_)
  exact coreOk_of_coreOf (d' := addRecord failed 4 (countUp 15 d)) (by simp) h

theorem handBack_coreOk (cause : BitVec 2) (d : Dev) (h : CoreOk d.core) : CoreOk (handBack cause d).core := by
  unfold handBack
  split
  · exact handTo_coreOk _ _ _ h
  · exact h

theorem placePayload_coreOk (d : Dev) (h : CoreOk d.core) : CoreOk (placePayload d).2.2.core := by
  unfold placePayload
  exact h.putRam _ _

theorem handover_coreOk (d : Dev) (h : CoreOk d.core) : CoreOk (handover d).core := by
  rcases hplaced : placePayload d with ⟨n, rebuild, d0⟩
  have hplacedOk : CoreOk d0.core := by simpa only [hplaced] using placePayload_coreOk d h
  have hblock (x : Dev) (hx : x.core = d0.core) : CoreOk (writeBlock 0 (!d.fwu.active) n x).core :=
    writeBlock_coreOk _ _ _ _ (hx ▸ hplacedOk)
  have hended (waits : Bool) (x : Dev) (hx : CoreOk x.core) : CoreOk (if waits then mbxEnds 0 [] x else x).core := by
    split
    · exact coreOk_of_coreOf (mbxEnds_coreOf _ _ _) hx
    · exact hx
  have hentered (c : Prop) [Decidable c] (x : Dev) (hx : CoreOk x.core) :
      CoreOk (if c then enterBank 0 (!d.fwu.active) rebuild (addRecord (!d.fwu.active) 2 x) else handTo 1 (!d.fwu.active) x).core := by
    split
    · exact enterBank_coreOk _ _ _ _ (coreOk_of_coreOf (addRecord_coreOf _ _ _) hx)
    · exact handTo_coreOk _ _ _ hx
  simp only [handover, hplaced]
  exact hentered _ _ (hended _ _ (hblock _ rfl))

theorem resumeAllocator_coreOk (d : Dev) (h : CoreOk d.core) : CoreOk (resumeAllocator d).core := by
  refine coreOk_of_coreOf (d := { d with core := { d.core with run := true, restart := none } }) ?_ h
  simp [resumeAllocator]
  rfl

theorem rebuildState_core (d : Dev) : (rebuildState d).core = d.core := by simp [rebuildState]

theorem handoverResume_coreOk (i : HandInfo) (d : Dev) (h : CoreOk d.core) : CoreOk (handoverResume i d).core := by
  have hresumed (f : Fwu) : CoreOk (resumeAllocator (if i.rebuild then rebuildState { d with fwu := f } else { d with fwu := f })).core := by
    refine resumeAllocator_coreOk _ ?_
    split
    · rwa [rebuildState_core]
    · exact h
  unfold handoverResume
  dsimp only
  generalize hx : resumeAllocator _ = x
  have hxOk : CoreOk x.core := by
    rw [← hx]
    exact hresumed _
  exact coreOk_of_coreOf (d := x) (by simp) hxOk

theorem restartCore_coreOk (d : Dev) (h : CoreOk d.core) : CoreOk (restartCore d).core :=
  enterImage_coreOk _ (noteBudgets d) h

theorem watchdogReset_coreOk (d : Dev) : CoreOk (watchdogReset d).core := romboot_coreOk _ _ _ _ (freshDev_coreOk _)

theorem watchdogFires_coreOk (d : Dev) (h : CoreOk d.core) : CoreOk (watchdogFires d).core := by
  unfold watchdogFires
  dsimp only
  split
  · exact watchdogReset_coreOk _
  · split
    · exact handTo_coreOk _ _ _ h
    · exact restartCore_coreOk _ h

theorem trapValue_core (v : Option Word) (d : Dev) : (trapValue v d).2.core = d.core := by cases v <;> rfl

theorem trapEntry_coreOk (cause : Nat) (tpc : Word) (v : Option Word) (d : Dev) (h : CoreOk d.core) :
    CoreOk (trapEntry cause tpc v d).core := by
  rw [← trapValue_core v d] at h
  obtain ⟨⟨hlow, hhigh, hcnt⟩, hram, hiram⟩ := h
  refine ⟨⟨?_, ?_, hcnt⟩, hram, hiram⟩ <;> simp only [trapEntry] <;> split <;> bv_omega

theorem syncTrap_coreOk (cause : Nat) (tpc : Word) (v : Option Word) (d : Dev) (h : CoreOk d.core) :
    CoreOk (syncTrap cause tpc v d).core := by
  unfold syncTrap
  dsimp only
  split
  · exact h
  · exact trapEntry_coreOk _ _ _ _ h

theorem goTo_coreOk (a : Word) (d : Dev) (h : CoreOk d.core) : CoreOk (goTo a d).core := by
  unfold goTo
  split
  · exact h
  · exact syncTrap_coreOk _ _ _ _ h

theorem CoreOk.putReg {c : Core} (h : CoreOk c) (b : Byte) (n : Nat) (v : Word) : CoreOk (putReg b n v c) := by
  simpa only [CoreOk, Core.legal, putReg_wres, putReg_rsCnt, putReg_ram, putReg_iram] using h

theorem settleWait_coreOk (d : Dev) (h : CoreOk d.core) : CoreOk (settleWait d).core := by
  unfold settleWait
  split
  · dsimp only
    split
    · exact h
    · exact goTo_coreOk _ _ (CoreOk.putReg (c := { d.core with wait := none }) h _ _ _)
  · split
    · exact goTo_coreOk _ _ h
    · exact h
  · exact h

theorem endWait_coreOk (d : Dev) (h : CoreOk d.core) : CoreOk (endWait d).core := by
  unfold endWait
  split
  · split
    · exact CoreOk.putReg (c := { d.core with wait := none, pc := _ }) h _ _ _
    · exact h
  · exact h
  · exact h

theorem takeSource_coreOk (n : Nat) {c : Core} (h : CoreOk c) : CoreOk (takeSource n c) := by
  unfold takeSource
  split <;> exact h

theorem takeInterrupt_coreOk (d : Dev) (h : CoreOk d.core) : CoreOk (takeInterrupt d).core := by
  unfold takeInterrupt
  dsimp only
  split
  · exact trapEntry_coreOk _ _ _ _ (takeSource_coreOk _ (endWait_coreOk _ (settleWait_coreOk d h)))
  · exact settleWait_coreOk d h

theorem sampleDev_coreOk (a b : Sample) (d : Dev) (h : CoreOk d.core) : CoreOk (sampleDev a b d).core := by
  unfold sampleDev
  dsimp only
  split
  · exact settleWait_coreOk _ (coreOk_of_coreOf (d := d) (by simp) h)
  · exact h

theorem writeFwuCtl_coreOk (byCore : Bool) (v : Half) (d : Dev) (h : CoreOk d.core) : CoreOk (writeFwuCtl byCore v d).core := by
  have hset (f : Fwu) : CoreOk (dueSettings { d with fwu := f }).core := coreOk_of_coreOf (dueSettings_coreOf _) h
  have hconfirmed (c : Bool) (x : Dev) (hx : CoreOk x.core) : CoreOk (if c then confirmImage x else x).core := by
    split
    · exact coreOk_of_coreOf (confirmImage_coreOf _) hx
    · exact hx
  unfold writeFwuCtl
  dsimp only
  split
  · exact handBack_coreOk _ _ (hconfirmed _ _ (hset _))
  · exact hconfirmed _ _ (hset _)

end Sys2Proof.Laws
end

section
/-! The reads and stores of a core operation: what they keep of the core, and that only a handover (R468) changes its windows. -/

namespace Sys2Proof.Laws

open Sys2Proof Machine

/-! ## What an operation of the core keeps -/

/-- The windows and the return stack's count. -/
def windows (d : Dev) : BitVec 4 × BitVec 5 := (d.core.wres, d.core.rsCnt)

/-- A step inside an operation keeps the core legal, its windows and the handover. -/
structure Steps (d d' : Dev) : Prop where
  ok : CoreOk d.core → CoreOk d'.core
  windows : windows d' = windows d
  hand : d'.fwu.hand = d.fwu.hand

theorem Steps.refl (d : Dev) : Steps d d := ⟨id, rfl, rfl⟩

theorem Steps.trans {a b c : Dev} (h : Steps a b) (h' : Steps b c) : Steps a c :=
  ⟨h'.ok ∘ h.ok, h'.windows.trans h.windows, h'.hand.trans h.hand⟩

theorem windows_of_coreOf {d d' : Dev} (h : coreOf d' = coreOf d) : windows d' = windows d :=
  Prod.ext (congrArg Core.wres h :) (congrArg Core.rsCnt h :)

theorem steps_of_coreOf {d d' : Dev} (h : coreOf d' = coreOf d) (hhand : d'.fwu.hand = d.fwu.hand) : Steps d d' :=
  ⟨coreOk_of_coreOf h, windows_of_coreOf h, hhand⟩

theorem steps_putReg (d : Dev) (b : Byte) (n : Nat) (v : Word) : Steps d (d.onCore (putReg b n v)) :=
  ⟨fun h => h.putReg b n v, by simp [windows], rfl⟩

theorem steps_putAcc (d : Dev) (n : Nat) (v : Acc) : Steps d (d.onCore (putAcc n v)) := ⟨id, rfl, rfl⟩

theorem takeFree_steps (d : Dev) : Steps d (takeFree d).2 := ⟨id, rfl, rfl⟩

/-! ## Reads -/

theorem notePoison_hand (v : Bool) (d : Dev) : (notePoison v d).fwu = d.fwu := by
  unfold notePoison
  split <;> simp

theorem clearWrap_hand (t : Nat) (p : PortId) (i : Nat) (d : Dev) : (clearWrap t p i d).fwu = d.fwu := by
  unfold clearWrap
  repeat' split
  all_goals simp

theorem readTdata_hand (d : Dev) : (readTdata d).2.fwu = d.fwu := by
  simp only [readTdata, hostSnap]
  split <;> simp [notePoison_hand, clearWrap_hand]

theorem readGlobal_hand (a : Nat) (d : Dev) : (readGlobal a d).2.fwu = d.fwu := by
  unfold readGlobal
  split
  all_goals first | rfl | exact fwu_of_steady (popWord_steady d) | exact readTdata_hand d

theorem readPort_hand (p : PortId) (off : Nat) (d : Dev) : (readPort p off d).2.fwu = d.fwu := by
  unfold readPort
  dsimp only
  split
  all_goals first | rfl | simp [readEnergyLo]

theorem readMbxArg_steps (d : Dev) : Steps d (readMbxArg d).2 := by
  unfold readMbxArg
  split
  · exact ⟨id, rfl, rfl⟩
  · split
    · exact .refl d
    · exact takeFree_steps d

theorem readReg_steps (a : Nat) (d : Dev) : Steps d (readReg a d).2 := by
  unfold readReg
  dsimp only
  repeat' split
  all_goals with_reducible first
    | exact readMbxArg_steps d
    | exact steps_of_coreOf (readGlobal_coreOf _ d) (congrArg Fwu.hand (readGlobal_hand _ d))
    | exact steps_of_coreOf (readPort_coreOf _ _ d) (congrArg Fwu.hand (readPort_hand _ _ d))
    | exact .refl d

theorem mailHalf_steps (k : Nat) (d : Dev) : Steps d (mailHalf k d).2 := by
  unfold mailHalf
  split
  · exact .refl d
  · split
    · exact .refl d
    · split
      · exact .refl d
      · exact takeFree_steps d

theorem areaWord_steps (r : Area) (d : Dev) : Steps d (areaWord r d).2 := by
  unfold areaWord
  split
  · split
    · unfold mirrorWord
      split
      · exact .refl d
      · exact readReg_steps _ d
    · exact .refl d
  · split
    · unfold captureRead
      split
      · exact ⟨id, rfl, rfl⟩
      · exact takeFree_steps d
    · repeat' split
      all_goals first | exact .refl d | exact takeFree_steps d
  · repeat' split
    all_goals first | exact .refl d | exact takeFree_steps d
  · exact (mailHalf_steps _ d).trans (mailHalf_steps _ _)
  · exact .refl d

theorem coreSnap_steps (p : PortId) (t i : Nat) (d : Dev) : Steps d (coreSnap p t i d) :=
  .trans (steps_of_coreOf (notePoison_coreOf _ d) (congrArg Fwu.hand (notePoison_hand _ d))) ⟨id, rfl, rfl⟩

theorem loadBytes_steps (r : Area) (n : Nat) (d : Dev) : Steps d (loadBytes r n d).2 := by
  unfold loadBytes
  split
  case h_5 p t i off =>
    have hsnap : Steps d (if off < 4 then coreSnap p t i d else d) := by
      split
      · exact coreSnap_steps p t i d
      · exact .refl d
    dsimp only
    generalize (if off < 4 then coreSnap p t i d else d) = x at hsnap ⊢
    split
    · exact hsnap
    · exact hsnap.trans (takeFree_steps x)
  all_goals first
    | exact .refl d
    | exact areaWord_steps _ d


/-! ## Stores -/

/-- An operation keeps the core legal, and its windows unless it hands the core over (R468). -/
structure Acts (d d' : Dev) : Prop where
  ok : CoreOk d.core → CoreOk d'.core
  windows : d'.fwu.hand = d.fwu.hand → windows d' = windows d

theorem Steps.acts {d d' : Dev} (h : Steps d d') : Acts d d' := ⟨h.ok, fun _ => h.windows⟩

theorem Steps.trans_acts {a b c : Dev} (h : Steps a b) (h' : Acts b c) : Acts a c :=
  ⟨h'.ok ∘ h.ok, fun hc => (h'.windows (hc.trans h.hand.symm)).trans h.windows⟩

theorem acts_of_coreOf {d d' : Dev} (h : coreOf d' = coreOf d) : Acts d d' := ⟨coreOk_of_coreOf h, fun _ => windows_of_coreOf h⟩

theorem handTo_hand (cause : BitVec 2) (failed : Bool) (d : Dev) : (handTo cause failed d).fwu.hand ≠ none := by
  simp [handTo, enterBank]

theorem handBack_acts (cause : BitVec 2) (d : Dev) : Acts d (handBack cause d) := by
  refine ⟨handBack_coreOk cause d, fun h => ?_⟩
  unfold handBack at h ⊢
  split
  · next hc =>
    rw [if_pos hc] at h
    have hnone : d.fwu.hand = none := by
      rw [Bool.and_eq_true, Option.isNone_iff_eq_none] at hc
      exact hc.2
    exact absurd (h.trans hnone) (handTo_hand _ _ _)
  · rfl

theorem confirmImage_hand (d : Dev) : (confirmImage d).fwu.hand = d.fwu.hand := by
  unfold confirmImage
  split
  · rw [fwu_of_steady (postFwu_steady _ _)]
    simp only [addRecord, modBank]
    split <;> rfl
  · rfl

theorem writeFwuCtl_acts (byCore : Bool) (v : Half) (d : Dev) : Acts d (writeFwuCtl byCore v d) := by
  have hset : Steps d (dueSettings { d with fwu := { d.fwu with hostconf := v.getLsbD 1 } }) :=
    .trans (b := { d with fwu := { d.fwu with hostconf := v.getLsbD 1 } }) ⟨id, rfl, rfl⟩
      (steps_of_coreOf (dueSettings_coreOf _) (congrArg Fwu.hand (fwu_of_steady (dueSettings_steady _))))
  have hconfirmed (c : Bool) (x : Dev) : Steps x (if c then confirmImage x else x) := by
    split
    · exact steps_of_coreOf (confirmImage_coreOf x) (confirmImage_hand x)
    · exact .refl x
  unfold writeFwuCtl
  dsimp only
  split
  · exact (hset.trans (hconfirmed _ _)).trans_acts (handBack_acts 2 _)
  · exact (hset.trans (hconfirmed _ _)).acts

theorem writeGlobal_acts (byCore : Bool) (a : Nat) (v : Half) (d : Dev) : Acts d (writeGlobal byCore a v d) := by
  unfold writeGlobal
  split
  case h_11 => exact writeFwuCtl_acts byCore v d
  all_goals exact acts_of_coreOf (by simp)

theorem guardDev_acts {c : Bool} {f : Dev → Dev} {d : Dev} (h : Acts d (f d)) : Acts d (guardDev c f d) := by
  cases c
  · exact (Steps.refl d).acts
  · exact h

theorem writeReg_acts (byCore : Bool) (a : Nat) (v : Half) (d : Dev) : Acts d (writeReg byCore a v d) := by
  unfold writeReg
  dsimp only
  repeat' split
  all_goals with_reducible first
    | exact guardDev_acts (acts_of_coreOf (writeMbxCmd_coreOf v d))
    | exact guardDev_acts (acts_of_coreOf (writeMbxArg_coreOf v d))
    | exact writeGlobal_acts byCore a v d
    | exact acts_of_coreOf (writePort_coreOf _ _ v d)
    | exact (Steps.refl d).acts

theorem mailHalf_coreOf (k : Nat) (d : Dev) : coreOf (mailHalf k d).2 = coreOf d := by
  unfold mailHalf
  split
  · rfl
  · split
    · rfl
    · split <;> rfl

theorem putMail_coreOf (off : Nat) (l : List Byte) (d : Dev) : coreOf (putMail off l d) = coreOf d := by
  induction l generalizing off d with
  | nil => rfl
  | cons b t ih =>
    simp only [putMail, ih, putMailHalf_coreOf, mailHalf_coreOf]

theorem storeBytes_acts (r : Area) (l : List Byte) (d : Dev) : Acts d (storeBytes r l d) := by
  unfold storeBytes
  split
  · exact ⟨fun h => ⟨h.1, h.2.1, rising_putBytes _ _ _ h.2.2⟩, fun _ => rfl⟩
  · exact ⟨fun h => h.putRam _ _, fun _ => rfl⟩
  · exact ⟨id, fun _ => rfl⟩
  · split
    · exact writeReg_acts _ _ _ _
    · exact (Steps.refl d).acts
  · exact acts_of_coreOf (engineStore_coreOf _ _ d)
  · split
    · exact ⟨id, fun _ => rfl⟩
    · split
      · exact ⟨id, fun _ => rfl⟩
      · exact (Steps.refl d).acts
  · exact acts_of_coreOf (putMail_coreOf _ l d)
  all_goals exact (Steps.refl d).acts

end Sys2Proof.Laws
end

section
/-! A bundle of the core keeps it legal: the operations before the last are plain, and the last one, in slot order, is the only
one that moves the windows (R412, R415 to R418). -/

namespace Sys2Proof.Laws

open Sys2Proof Machine

/-! ## What a bundle keeps -/

/-- An operation of the A, M and L units: nothing before the bundle's acts, and an act as `Acts` says. -/
structure Plain (e : OpEffect) : Prop where
  pre : e.pre = id
  act : ∀ x, Acts x (e.act x)

/-- The last operation of a bundle that finds the device `d`: a write of a special register, or an act that keeps the core legal
where the operations before it have kept the windows. -/
structure Last (d : Dev) (e : OpEffect) : Prop where
  pre : ∀ x, CoreOk x.core → CoreOk (e.pre x).core
  act : (∀ x, e.act x = x) ∨ e.pre = id ∧ ∀ x, CoreOk x.core → windows x = windows d → CoreOk (e.act x).core

theorem Plain.last {e : OpEffect} (h : Plain e) (d : Dev) : Last d e :=
  ⟨fun x hx => by rwa [h.pre], .inr ⟨h.pre, fun x hx _ => (h.act x).ok hx⟩⟩

/-- What holds of an effect holds of whatever an operation answers. -/
def OutHolds (P : OpEffect → Prop) (o : CoreOut OpEffect) : Prop := ∀ e, o = .ok e → P e

theorem outHolds_ok {P : OpEffect → Prop} {e : OpEffect} (h : P e) : OutHolds P (.ok e) := fun _ he => by cases he; exact h

theorem outHolds_trap {P : OpEffect → Prop} {k : Nat} {v : Option Word} : OutHolds P (.trap k v) := fun _ he => by cases he

theorem outHolds_refuse {P : OpEffect → Prop} {r : Refusal} : OutHolds P (.refuse r) := fun _ he => by cases he

theorem OutHolds.mono {P Q : OpEffect → Prop} {o : CoreOut OpEffect} (h : OutHolds P o) (hpq : ∀ e, P e → Q e) : OutHolds Q o :=
  fun e he => hpq e (h e he)

theorem plain_of_steps {f : Dev → Dev} {n : Option Word} (h : ∀ x, Steps x (f x)) : Plain { act := f, next := n } :=
  ⟨rfl, fun x => (h x).acts⟩

/-! ### The A and M units -/

theorem regEffect_plain (b : Byte) (n : Nat) (v : Word × Bool) : Plain (regEffect b n v) :=
  plain_of_steps fun x => .trans (b := x.onCore fun c => { c with sat := c.sat || v.2 }) ⟨id, rfl, rfl⟩ (steps_putReg _ b n v.1)

theorem accEffect_steps (n : Nat) (v : Acc × Bool) (x : Dev) : Steps x ((accEffect n v).act x) := ⟨id, rfl, rfl⟩

theorem arithEval_plain (o : Opc) (w : OpWord) (c : Core) : Plain (arithEval o w c) := by
  unfold arithEval
  split
  · exact regEffect_plain _ _ _
  · split
    case h_6 =>
      unfold accShiftEffect
      dsimp only
      split
      · exact plain_of_steps (accEffect_steps _ _)
      · exact plain_of_steps fun x => (takeFree_steps x).trans (accEffect_steps _ _ _)
    all_goals first
      | exact regEffect_plain _ _ _
      | exact plain_of_steps (accEffect_steps _ _)

/-! ### The L unit -/

theorem writeBack_steps (o : Opc) (w : OpWord) (c : Core) (d : Dev) : Steps d (writeBack o w c d) := by
  unfold writeBack
  split
  · exact steps_putReg _ _ _ _
  · exact .refl d

theorem loadAct_steps (o : Opc) (w : OpWord) (c : Core) (r : Area) (d : Dev) : Steps d (loadAct o w c r d) := by
  refine ((loadBytes_steps r (accessBytes o) d).trans ?_).trans (writeBack_steps o w c _)
  split
  · exact steps_putAcc _ _ _
  · exact steps_putReg _ _ _ _

theorem blockMove_steps (w : OpWord) (src : Bool) (c : Core) (d : Dev) : Steps d (blockMove w src c d) := by
  cases src
  · exact (steps_putReg _ _ _ _).trans (steps_putReg _ _ _ _)
  · exact ((steps_putReg _ _ _ _).trans (steps_putReg _ _ _ _)).trans (steps_putReg _ _ _ _)

theorem diffLoads_steps (w : OpWord) (x y : Area) (d : Dev) : Steps d (diffLoads w x y d).2 :=
  (loadBytes_steps x _ d).trans (loadBytes_steps y _ _)

theorem diffAct_steps (w : OpWord) (c : Core) (x y : Area) (d : Dev) : Steps d (diffAct w c x y d) := by
  unfold diffAct
  dsimp only
  split
  · exact (diffLoads_steps w x y d).trans (blockMove_steps _ _ _ _)
  · exact diffLoads_steps w x y d

theorem storeConditional_plain (w : OpWord) (c : Core) (off : Nat) : Plain (storeConditional w c off) := by
  refine plain_of_steps fun x => .trans (b := x.onCore fun k => { k with
    resv := none, ram := if decide (c.resv = some (off / 8)) then putBytes k.ram off (wordBytes (regVal c w.b.toNat)) else k.ram })
    ⟨fun h => ?_, rfl, rfl⟩ (steps_putReg _ _ _ _)
  simp only [Dev.onCore]
  split
  · exact h.putRam _ _
  · exact h

theorem loadReserved_plain (w : OpWord) (c : Core) (off : Nat) : Plain (loadReserved w c off) :=
  plain_of_steps fun x => .trans (b := x.onCore fun k => { k with resv := some (off / 8) }) ⟨id, rfl, rfl⟩ (steps_putReg _ _ _ _)

theorem testAndSet_plain (w : OpWord) (c : Core) (off : Nat) : Plain (testAndSet w c off) :=
  ⟨rfl, fun x => (steps_putReg x c.cwb w.d.toNat ((ramByte c off).setWidth 32)).trans_acts (storeBytes_acts (.ram off) [0xFF] _)⟩

theorem atomicEval_plain (o : Opc) (w : OpWord) (c : Core) : OutHolds Plain (atomicEval o w c) := by
  unfold atomicEval
  split
  · refine outHolds_ok ?_
    split
    · exact loadReserved_plain _ _ _
    · exact storeConditional_plain _ _ _
    · exact testAndSet_plain _ _ _
  · exact outHolds_trap
  · exact outHolds_refuse

theorem blockEval_plain (o : Opc) (w : OpWord) (d : Dev) : OutHolds Plain (blockEval o w d) := by
  unfold blockEval
  split
  · exact outHolds_ok (plain_of_steps .refl)
  · split
    · unfold copyEval
      split
      · exact outHolds_ok ⟨rfl, fun x => ((loadBytes_steps _ _ x).trans (blockMove_steps _ _ _ _)).trans_acts (storeBytes_acts _ _ _)⟩
      · exact outHolds_trap
      · exact outHolds_refuse
    · unfold fillEval
      split
      · exact outHolds_ok ⟨rfl, fun x => (blockMove_steps _ _ _ x).trans_acts (storeBytes_acts _ _ _)⟩
      · exact outHolds_trap
      · exact outHolds_refuse
    · unfold diffEval
      dsimp only
      split
      · exact outHolds_ok (plain_of_steps fun x => diffAct_steps _ _ _ _ x)
      · exact outHolds_trap
      · exact outHolds_refuse

theorem storeEval_plain (o : Opc) (w : OpWord) (c : Core) : OutHolds Plain (storeEval o w c) := by
  unfold storeEval
  split
  · exact outHolds_ok ⟨rfl, fun x => (writeBack_steps o w c x).trans_acts (storeBytes_acts _ _ _)⟩
  · exact outHolds_trap
  · exact outHolds_refuse

theorem loadEval_plain (o : Opc) (w : OpWord) (c : Core) : OutHolds Plain (loadEval o w c) := by
  unfold loadEval
  split
  · exact outHolds_ok (plain_of_steps fun x => loadAct_steps o w c _ x)
  · exact outHolds_trap
  · exact outHolds_refuse

theorem memEval_plain (o : Opc) (w : OpWord) (d : Dev) : OutHolds Plain (memEval o w d) := by
  unfold memEval
  dsimp only
  split
  case h_1 => exact outHolds_ok (plain_of_steps fun x => (steps_putReg x _ _ _).trans (writeBack_steps _ _ _ _))
  all_goals first
    | exact storeEval_plain _ _ _
    | exact atomicEval_plain _ _ _
    | exact blockEval_plain _ _ _
    | exact loadEval_plain _ _ _

/-! ### The B unit -/

theorem last_of_act {d : Dev} {f : Dev → Dev} {n : Option Word} (h : ∀ x, CoreOk x.core → windows x = windows d → CoreOk (f x).core) :
    Last d { act := f, next := n } := ⟨fun _ hx => hx, .inr ⟨rfl, h⟩⟩

theorem branchTo_last {d : Dev} {t : Word} {f : Dev → Dev} (h : ∀ x, CoreOk x.core → windows x = windows d → CoreOk (f x).core) :
    OutHolds (Last d) (branchTo t f) := by
  unfold branchTo
  split
  · exact outHolds_trap
  · exact outHolds_ok (last_of_act h)

theorem branchIf_last {d : Dev} {c : Bool} {t : Word} {f : Dev → Dev} (h : ∀ x, CoreOk x.core → CoreOk (f x).core) :
    OutHolds (Last d) (branchIf c t f) := by
  cases c
  · exact outHolds_ok (last_of_act fun x hx _ => h x hx)
  · exact branchTo_last fun x hx _ => h x hx

theorem wres_of_windows {x d : Dev} (h : windows x = windows d) : x.core.wres = d.core.wres := congrArg Prod.fst h

theorem rsCnt_of_windows {x d : Dev} (h : windows x = windows d) : x.core.rsCnt = d.core.rsCnt := congrArg Prod.snd h

theorem callEval_last (t ra : Word) (d : Dev) : OutHolds (Last d) (callEval t ra d.core) := by
  unfold callEval
  split
  · exact outHolds_trap
  split
  · exact outHolds_trap
  next hfull =>
  split
  · exact outHolds_trap
  refine branchTo_last fun x hx hw => ?_
  obtain ⟨⟨hlow, hhigh, hcnt⟩, hmem⟩ := hx
  have hwres := wres_of_windows hw
  refine ⟨⟨?_, ?_, ?_⟩, hmem⟩
  · simp only [Dev.onCore, rsPush, hwres]
    bv_omega
  · simp only [Dev.onCore, rsPush, hwres]
    bv_omega
  · simp only [Dev.onCore, rsPush]
    split <;> bv_omega

theorem retEval_last (d : Dev) : OutHolds (Last d) (retEval d.core) := by
  unfold retEval
  dsimp only
  split
  · exact outHolds_trap
  split
  · exact outHolds_trap
  next hlast =>
  split
  · exact outHolds_trap
  refine branchTo_last fun x hx hw => ?_
  obtain ⟨⟨hlow, hhigh, hcnt⟩, hmem⟩ := hx
  have hwres := wres_of_windows hw
  refine ⟨⟨?_, ?_, ?_⟩, hmem⟩
  · simp only [Dev.onCore, rsPop, hwres]
    bv_omega
  · simp only [Dev.onCore, rsPop, hwres]
    bv_omega
  · simp only [Dev.onCore, rsPop]
    split <;> bv_omega

theorem tretEval_last (d : Dev) : OutHolds (Last d) (tretEval d.core) := by
  refine branchTo_last fun x hx _ => ?_
  obtain ⟨⟨hlow, hhigh, hcnt⟩, hmem⟩ := hx
  refine ⟨⟨?_, ?_, hcnt⟩, hmem⟩ <;> simp only [Dev.onCore] <;> split <;> bv_omega

theorem putSpecial_coreOk (n : Nat) (v : Word) (x : Dev) (hv : n = 7 → 1 ≤ v.toNat ∧ v.toNat ≤ 10) (h : CoreOk x.core) :
    CoreOk (putSpecial n v x).core := by
  unfold putSpecial
  split
  case h_6 =>
    obtain ⟨hlow, hhigh⟩ := hv rfl
    refine ⟨⟨?_, ?_, h.1.2.2⟩, h.2⟩ <;> simp only [Dev.onCore] <;> bv_omega
  case h_7 =>
    obtain ⟨⟨hlow, hhigh, hcnt⟩, hmem⟩ := h
    simp only [Dev.onCore, putRsBot]
    split
    · exact ⟨⟨hlow, hhigh, hcnt⟩, hmem⟩
    · exact ⟨⟨hlow, hhigh, by bv_omega⟩, hmem⟩
  all_goals exact h

theorem mtsEval_last (w : OpWord) (d : Dev) : OutHolds (Last d) (mtsEval w d.core) := by
  unfold mtsEval
  dsimp only
  split
  · exact outHolds_trap
  · next hfits =>
    refine outHolds_ok ⟨fun x hx => putSpecial_coreOk _ _ x (fun h7 => ?_) hx, .inl fun _ => rfl⟩
    have hd : w.d = 7 := BitVec.eq_of_toNat_eq h7
    simp only [hd, true_and] at hfits
    omega

theorem mfsEval_last (w : OpWord) (d : Dev) : Last d (mfsEval w d) := by
  unfold mfsEval
  split
  · unfold readRsBot
    split
    · exact (plain_of_steps fun x => (takeFree_steps x).trans (steps_putReg _ _ _ _)).last d
    · next hheld =>
      refine last_of_act fun x hx hw => CoreOk.putReg (c := { x.core with rsCnt := _, rs := _ }) ?_ _ _ _
      obtain ⟨⟨hlow, hhigh, hcnt⟩, hmem⟩ := hx
      have hrs := rsCnt_of_windows hw
      exact ⟨⟨hlow, hhigh, by simp only [hrs] at hcnt ⊢; bv_omega⟩, hmem⟩
  · exact (plain_of_steps fun x => steps_putReg _ _ _ _).last d

theorem controlEval_last (o : Opc) (w : OpWord) (n : Nat) (d : Dev) : OutHolds (Last d) (controlEval o w n d) := by
  unfold controlEval
  dsimp only
  split
  case h_1 => exact branchTo_last fun x hx _ => hx
  case h_2 => exact callEval_last _ _ d
  case h_7 => exact branchIf_last fun x hx => CoreOk.putReg hx _ _ _
  case h_8 => exact outHolds_ok (last_of_act fun x hx _ => hx)
  case h_9 => exact branchTo_last fun x hx _ => hx
  case h_10 => exact callEval_last _ _ d
  case h_11 => exact retEval_last d
  case h_12 => exact tretEval_last d
  case h_13 =>
    unfold ewaitEval
    dsimp only
    split
    · exact outHolds_trap
    · exact outHolds_ok (last_of_act fun x hx _ => hx)
  case h_14 =>
    unfold epostEval
    dsimp only
    split
    · exact outHolds_trap
    · exact outHolds_ok (last_of_act fun x hx _ => hx)
  case h_15 => exact outHolds_ok (last_of_act fun x hx _ => hx)
  case h_16 => exact outHolds_trap
  case h_17 => exact outHolds_trap
  case h_18 => exact outHolds_ok (mfsEval_last w d)
  case h_19 => exact mtsEval_last w d
  case h_20 => exact outHolds_ok ((plain_of_steps .refl).last d)
  all_goals exact branchIf_last fun x hx => hx

theorem evalOp_last (x : BundleOp) (n : Nat) (d : Dev) : OutHolds (Last d) (evalOp x n d) := by
  unfold evalOp
  split
  · exact (memEval_plain _ _ d).mono fun _ h => h.last d
  · exact controlEval_last _ _ _ d
  · exact outHolds_ok ((arithEval_plain _ _ _).last d)

theorem evalOp_plain {x : BundleOp} (n : Nat) (d : Dev) (h : x.1.slot ≠ 3) : OutHolds Plain (evalOp x n d) := by
  unfold evalOp
  split
  · exact memEval_plain _ _ d
  · contradiction
  · exact outHolds_ok (arithEval_plain _ _ _)

/-! ### The bundle -/

theorem slot_le_three (o : Opc) : o.slot ≤ 3 := by cases o <;> decide

/-- In a bundle in slot order every operation but the last is plain. -/
theorem evalAll_ordered {n : Nat} {d : Dev} {l : List BundleOp} {es : List OpEffect} (hne : l ≠ []) (hrise : slotsRise l = true)
    (h : evalAll n d l = .ok es) : ∃ ps e, es = ps ++ [e] ∧ (∀ p ∈ ps, Plain p) ∧ Last d e := by
  induction l generalizing es with
  | nil => contradiction
  | cons x t ih =>
    unfold evalAll at h
    split at h
    · next e he =>
      split at h
      · next ts hts =>
        cases h
        cases t with
        | nil =>
          cases hts
          exact ⟨[], e, rfl, by simp, evalOp_last x n d e he⟩
        | cons y t =>
          simp only [slotsRise, Bool.and_eq_true, decide_eq_true_eq] at hrise
          obtain ⟨hbelow, hrest⟩ := hrise
          obtain ⟨ps, last, rfl, hps, hlast⟩ := ih (by simp) (by simpa only [slotsRise, Bool.and_eq_true] using hrest) hts
          have hslot : x.1.slot ≠ 3 := by have := slot_le_three y.1; omega
          exact ⟨e :: ps, last, rfl, List.forall_mem_cons.2 ⟨evalOp_plain n d hslot e he, hps⟩, hlast⟩
      · cases h
      · cases h
    · cases h
    · split at h <;> cases h

/-- The plain operations of a bundle keep the core legal, and its windows unless one of them hands the core over. -/
theorem foldDev_plain {d : Dev} {ps : List OpEffect} {v : BitVec 4 × BitVec 5} (hps : ∀ p ∈ ps, Plain p) {x : Dev} (hx : CoreOk x.core)
    (hv : x.fwu.hand = d.fwu.hand → windows x = v) :
    CoreOk (foldDev (applyEffect d) ps x).core
      ∧ ((foldDev (applyEffect d) ps x).fwu.hand = d.fwu.hand → windows (foldDev (applyEffect d) ps x) = v) := by
  induction ps generalizing x with
  | nil => exact ⟨hx, hv⟩
  | cons p ps ih =>
    obtain ⟨hp, hrest⟩ := List.forall_mem_cons.1 hps
    refine ih hrest ?_ ?_ <;> simp only [applyEffect, sameImage, decide_eq_true_eq] <;> split
    · exact (hp.act x).ok hx
    · exact hx
    · next hsame => exact fun h => ((hp.act x).windows (h.trans hsame.symm)).trans (hv hsame)
    · exact hv

theorem foldDev_ordered {d : Dev} {ps : List OpEffect} {e : OpEffect} (hps : ∀ p ∈ ps, Plain p) (he : Last d e) (hd : CoreOk d.core) :
    CoreOk (foldDev (applyEffect d) (ps ++ [e]) (foldDev OpEffect.pre (ps ++ [e]) d)).core := by
  have hpre : foldDev OpEffect.pre (ps ++ [e]) d = e.pre d := by
    rw [foldDev_append, foldDev_pre_of_id fun p hp => (hps p hp).pre]
    rfl
  obtain ⟨hok, hwin⟩ := foldDev_plain (d := d) hps (he.pre d hd) (v := windows (e.pre d)) fun _ => rfl
  rw [hpre, foldDev_append]
  generalize foldDev (applyEffect d) ps (e.pre d) = y at hok hwin
  simp only [foldDev, applyEffect, sameImage, decide_eq_true_eq]
  split
  · next hsame =>
    rcases he.act with hid | ⟨hnone, hact⟩
    · rwa [hid]
    · rw [hnone] at hwin
      exact hact y hok (hwin hsame)
  · exact hok

theorem commitOps_coreOk {n : Nat} {d : Dev} {ps : List OpEffect} {e : OpEffect} (hps : ∀ p ∈ ps, Plain p) (he : Last d e)
    (hd : CoreOk d.core) : CoreOk (commitOps n (ps ++ [e]) d).core := by
  unfold commitOps
  dsimp only
  split
  · exact settleWait_coreOk _ (goTo_coreOk _ _ (foldDev_ordered hps he hd))
  · exact foldDev_ordered hps he hd

theorem slotsRise_of_bundleOk {l : List BundleOp} (h : bundleOk l = true) : slotsRise l = true := by
  simp only [bundleOk, Bool.and_eq_true] at h
  exact h.1.1.1.2

theorem ne_nil_of_bundleOk {l : List BundleOp} (h : bundleOk l = true) : l ≠ [] := by
  rintro rfl
  simp [bundleOk] at h

theorem runBundle_coreOk {l : List BundleOp} {d d' : Dev} (hr : runBundle l d = .ok d') (h : CoreOk d.core) : CoreOk d'.core := by
  unfold runBundle at hr
  dsimp only at hr
  split at hr
  · next hok =>
    split at hr
    · next es hes =>
      obtain ⟨ps, e, rfl, hps, he⟩ := evalAll_ordered (ne_nil_of_bundleOk hok) (slotsRise_of_bundleOk hok) hes
      cases hr
      exact commitOps_coreOk hps he h
    · cases hr
      exact syncTrap_coreOk _ _ _ _ h
    · cases hr
  · cases hr
    exact syncTrap_coreOk _ _ _ _ h

theorem issueOp_coreOk {o : Opc} {w : OpWord} {d d' : Dev} (hr : issueOp o w d = .ok d') (h : CoreOk d.core) : CoreOk d'.core := by
  have hsettled := settleWait_coreOk d h
  unfold issueOp at hr
  dsimp only at hr
  split at hr
  · split at hr
    · exact runBundle_coreOk hr hsettled
    · cases hr
      exact hsettled
  · cases hr
    exact hsettled

end Sys2Proof.Laws
end

section
/-! Every command of the block, one by one, and the two invariants that every step keeps. -/

namespace Sys2Proof.Laws

open Sys2Proof Machine

/-! ## The commands that restart, hand over or trap the core -/

/-- A command changes the device alone, and keeps Keep's byte stores canonical and the core legal. -/
def Lawful (e : State → Answer) : Prop :=
  ∃ f, (∀ s, e s = onDev f s) ∧ ∀ d, (KeepWf d.keep → KeepWf (f d).keep) ∧ (CoreOk d.core → CoreOk (f d).core)

theorem Framed.lawful {e : State → Answer} (h : Framed e) : Lawful e := by
  obtain ⟨f, he, hf⟩ := h
  exact ⟨f, he, fun d => ⟨(hf d).keep, coreOk_of_coreOf (hf d).core⟩⟩

theorem lawful {e : State → Answer} {f : Dev → Dev} (he : ∀ s, e s = onDev f s) (hk : ∀ d, KeepWf d.keep → KeepWf (f d).keep)
    (hc : ∀ d, CoreOk d.core → CoreOk (f d).core) : Lawful e :=
  ⟨f, he, fun d => ⟨hk d, hc d⟩⟩

theorem guardDev_coreOk {c : Bool} {f : Dev → Dev} {d : Dev} (hf : CoreOk (f d).core) (h : CoreOk d.core) :
    CoreOk (guardDev c f d).core := by
  cases c
  · exact h
  · exact hf

theorem byHost_coreOk {n : Nat} {f : Dev → Dev} {d : Dev} (hf : CoreOk (f d).core) (h : CoreOk d.core) : CoreOk (byHost n f d).core := by
  unfold byHost
  split
  · exact coreOk_of_coreOf (markHost_coreOf _ _) hf
  · exact h

theorem execSupplyLost_lawful (pages : Nat) : Lawful (execSupplyLost pages) :=
  lawful (fun _ => rfl) (fun d h => by
    have hfresh : KeepWf (freshDev (stopKeep pages d)).keep := freshDev_keepWf _ (stopKeep_keepWf pages d h)
    exact guardDev_keepWf _ _ _ ⟨hfresh.1, wf_nil, hfresh.2.2⟩ h) fun d h => guardDev_coreOk (freshDev_coreOk _) h

theorem execColdStart_lawful (bootsel : Bool) : Lawful (execColdStart bootsel) :=
  lawful (fun _ => rfl) (fun d h => guardDev_keepWf _ _ _ (by
    have hfresh (w : Power) : KeepWf (freshDev { d with pw := w }).keep := freshDev_keepWf _ h
    dsimp only
    split
    · exact hfresh _
    · exact romboot_keepWf _ _ _ _ (hfresh _)) h) fun d h => guardDev_coreOk (by
    dsimp only
    split
    · exact freshDev_coreOk _
    · exact romboot_coreOk _ _ _ _ (freshDev_coreOk _)) h

theorem execResetAssert_lawful (pages : Nat) : Lawful (execResetAssert pages) :=
  lawful (fun _ => rfl) (fun d h => by dsimp only; split <;> simp [h]) fun d h => by
    dsimp only
    split
    · exact freshDev_coreOk _
    · exact h

theorem execResetRelease_lawful : Lawful execResetRelease :=
  lawful (fun _ => rfl) (fun d h => by
    dsimp only
    split
    · split
      · exact romboot_keepWf _ _ _ _ h
      · exact romboot_keepWf _ _ _ _ h
    · exact h) fun d h => by
    dsimp only
    split
    · split
      · exact romboot_coreOk _ _ _ _ h
      · exact romboot_coreOk _ _ _ _ h
    · exact h

theorem recoveryFinish_coreOk (d : Dev) (h : CoreOk d.core) : CoreOk (recoveryFinish d).core := by
  unfold recoveryFinish
  dsimp only
  split
  · exact coreOk_of_coreOf (mbxOutcome_coreOf _ _ _) h
  · exact romboot_coreOk _ _ _ _ (freshDev_coreOk _)

theorem recoveryPiece_coreOk (storeOk : Bool) (d : Dev) (h : CoreOk d.core) : CoreOk (recoveryPiece storeOk d).core := by
  have houtcome {r : Byte} {l : List Half} {x : Dev} (hx : CoreOk x.core) : CoreOk (mbxOutcome r l x).core :=
    coreOk_of_coreOf (mbxOutcome_coreOf r l x) hx
  have hopened (c : Bool) (b : Bool) (f : Bank → Bank) : CoreOk (if c then d else modBank b f d).core := by
    unfold modBank
    repeat' split
    all_goals exact h
  have hstored (ps : Sparse (List Byte)) (x : Dev) (hx : CoreOk x.core) :
      CoreOk (if recoveryFull ps then recoveryFinish { x with fwu := { x.fwu with recOpen := true, recPieces := ps } }
        else mbxOutcome 0 [h16 ps.length, h16 (recoveryNeed ps)] { x with fwu := { x.fwu with recOpen := true, recPieces := ps } }).core := by
    split
    · exact recoveryFinish_coreOk _ hx
    · exact houtcome hx
  unfold recoveryPiece
  split
  · exact houtcome h
  · split
    · exact houtcome h
    · split
      · exact houtcome h
      · dsimp only
        split
        · exact houtcome (hopened _ _ _)
        · exact hstored _ _ (hopened _ _ _)

theorem execRecoveryImage_lawful (storeOk : Bool) : Lawful (execRecoveryImage storeOk) :=
  lawful (fun _ => rfl) (fun _ h => by simp [h]) fun d h => guardDev_coreOk (recoveryPiece_coreOk _ d h) h

theorem execRevert_lawful : Lawful execRevert :=
  lawful (fun _ => rfl) (fun _ h => by simp [h]) fun d h => byHost_coreOk (handBack_coreOk 2 d h) h

theorem execRegisterWrite_lawful (addr : BitVec 7) (v : Half) : Lawful (execRegisterWrite addr v) :=
  lawful (fun _ => rfl) (fun d h => by
    have hwritten := writeReg_keepWf false (2 * addr.toNat) v d h
    dsimp only
    split
    · split
      · exact markHost_keepWf _ _ hwritten
      · exact hwritten
    · exact h) fun d h => by
    dsimp only
    split
    · split
      · exact coreOk_of_coreOf (markHost_coreOf _ _) ((writeReg_acts false _ v d).ok h)
      · exact (writeReg_acts false _ v d).ok h
    · exact h

theorem execWatchdog_lawful : Lawful execWatchdog :=
  lawful (fun _ => rfl) (fun _ h => by simp [h]) fun d h => guardDev_coreOk (watchdogFires_coreOk d h) h

theorem throtSync_coreOf (p : PortId) (d : Dev) : coreOf (throtSync p d) = coreOf d := by simp [throtSync]

theorem execAllocatorResume_lawful : Lawful execAllocatorResume :=
  lawful (fun _ => rfl) (fun d h => guardDev_keepWf _ _ _ (bothPorts_keepWf_of _ (fun p x hx => throtSync_keepWf p x hx) _
      (resumeAllocator_keepWf _ (rebuildGang_keepWf _ (rebuildState_keepWf d h)))) h) fun d h => guardDev_coreOk (by
    refine coreOk_of_coreOf (d := resumeAllocator (rebuildGang (rebuildState d))) ?_ (resumeAllocator_coreOk _ ?_)
    · rw [coreOf_bothPorts, throtSync_coreOf, throtSync_coreOf]
    · exact coreOk_of_coreOf (rebuildGang_coreOf _) (by rwa [rebuildState_core])) h

theorem execHandover_lawful : Lawful execHandover :=
  lawful (fun _ => rfl) (fun _ h => by simp [h]) fun d h => guardDev_coreOk (handover_coreOk d h) h

theorem execHandoverResume_lawful : Lawful execHandoverResume :=
  lawful (fun _ => rfl) (fun d h => by
    split
    · exact handoverResume_keepWf _ d h
    · exact h) fun d h => by
    split
    · exact handoverResume_coreOk _ d h
    · exact h

theorem execHealthTimeout_lawful : Lawful execHealthTimeout :=
  lawful (fun _ => rfl) (fun _ h => by simp [h]) fun d h => guardDev_coreOk (handBack_coreOk 1 d h) h

theorem execInterrupt_lawful : Lawful execInterrupt :=
  lawful (fun _ => rfl) (fun _ h => by simp [h]) fun d h => guardDev_coreOk (takeInterrupt_coreOk d h) h

theorem execDmaDone_lawful : Lawful execDmaDone :=
  lawful (fun _ => rfl) (fun d h => guardDev_keepWf _ _ _ (settleWait_keepWf _ h) h) fun d h =>
    guardDev_coreOk (settleWait_coreOk _ h) h

theorem execDebugHaltRequest_lawful (attached : Bool) : Lawful (execDebugHaltRequest attached) :=
  lawful (fun _ => rfl) (fun d h => guardDev_keepWf _ _ _ (syncTrap_keepWf _ _ _ _ (settleWait_keepWf d h)) h) fun d h =>
    guardDev_coreOk (syncTrap_coreOk _ _ _ _ (settleWait_coreOk d h)) h

theorem execTimebaseCompare_lawful : Lawful execTimebaseCompare :=
  lawful (fun _ => rfl) (fun d h => guardDev_keepWf _ _ _ (settleWait_keepWf _ h) h) fun d h =>
    guardDev_coreOk (settleWait_coreOk _ h) h

theorem execGuardMeterSample_lawful (a b : Sample) : Lawful (execGuardMeterSample a b) :=
  lawful (fun _ => rfl) (fun _ h => by simp [h]) fun d h => guardDev_coreOk (sampleDev_coreOk a b d h) h

/-! ## The other commands -/

theorem execLatchRearm_framed : Framed execLatchRearm :=
  framed (fun _ => rfl) (fun _ h => by simp [h]) fun _ => by simp

theorem execPresentLow_framed : Framed execPresentLow :=
  framed (fun _ => rfl) (fun _ h => by simp [apply_ite Dev.keep, h]) fun _ => by simp [apply_ite coreOf]

theorem execBusLive_framed : Framed execBusLive :=
  framed_of_kept (fun _ => rfl) fun d => by
    dsimp only
    repeat' split
    all_goals exact ⟨fun h => by simp [h], by simp⟩

theorem execPresentHigh_framed : Framed execPresentHigh :=
  framed (fun _ => rfl) (fun _ h => by simp [h]) fun _ => by simp

theorem execPllLock_framed : Framed execPllLock :=
  framed (fun _ => rfl) (fun _ h => by simp [h]) fun _ => by simp

theorem execEvqPop_framed : Framed execEvqPop :=
  framed (fun _ => rfl) (fun _ h => by simp [h]) fun _ => by simp

theorem execTimeLo_framed : Framed execTimeLo :=
  framed (fun _ => rfl) (fun _ h => by simp [h]) fun _ => by simp

theorem execEnergyLo_framed (p : PortId) : Framed (execEnergyLo p) :=
  framed (fun _ => rfl) (fun _ h => by simp [h]) fun _ => by simp

theorem execTdataWrite_framed (v : Half) : Framed (execTdataWrite v) :=
  framed (fun _ => rfl) (fun _ h => by simp [h]) fun _ => by simp

theorem execTselWrite_framed (v : Half) : Framed (execTselWrite v) :=
  framed (fun _ => rfl) (fun _ h => by simp [h]) fun _ => by simp

theorem execTidxWrite_framed (v : Half) : Framed (execTidxWrite v) :=
  framed (fun _ => rfl) (fun _ h => by simp [h]) fun _ => by simp

theorem execCommit_framed : Framed execCommit :=
  framed (fun _ => rfl) (fun _ h => by simp [h]) fun _ => by simp

theorem execAbort_framed (withCommit : Bool) : Framed (execAbort withCommit) :=
  framed (fun _ => rfl) (fun _ h => by simp [h]) fun _ => by simp

theorem execMbxArgWrite_framed (v : Half) : Framed (execMbxArgWrite v) :=
  framed (fun _ => rfl) (fun _ h => by simp [h]) fun _ => by simp

theorem execMbxArgRead_framed : Framed execMbxArgRead :=
  framed (fun _ => rfl) (fun _ h => by simp [h]) fun _ => by simp

theorem execEcho_framed : Framed execEcho :=
  framed (fun _ => rfl) (fun _ h => by simp [apply_ite KeepWf, apply_ite Dev.keep, h]) fun _ => by simp [apply_ite coreOf]

theorem execFwuBegin_framed (storeOk : Bool) : Framed (execFwuBegin storeOk) :=
  framed (fun _ => rfl) (fun _ h => by simp [h]) fun _ => by simp

theorem execFwuPiece_framed (vin : Nat) (storeOk : Bool) : Framed (execFwuPiece vin storeOk) :=
  framed (fun _ => rfl) (fun _ h => by simp [h]) fun _ => by simp

theorem execFwuApply_framed (vin : Nat) (storeOk : Bool) : Framed (execFwuApply vin storeOk) :=
  framed (fun _ => rfl) (fun _ h => by simp [h]) fun _ => by simp

theorem execFwuCancel_framed : Framed execFwuCancel :=
  framed (fun _ => rfl) (fun _ h => by simp [apply_ite KeepWf, apply_ite Dev.keep, h]) fun _ => by simp [apply_ite coreOf]

theorem execOwnerEnrol_framed : Framed execOwnerEnrol :=
  framed (fun _ => rfl) (fun _ h => by simp [h]) fun _ => by simp

theorem execFwlockSet_framed : Framed execFwlockSet :=
  framed (fun _ => rfl) (fun _ h => by simp [h]) fun _ => by simp

theorem execFwlockClear_framed : Framed execFwlockClear :=
  framed (fun _ => rfl) (fun _ h => by simp [h]) fun _ => by simp

theorem execKeepDefaults_framed : Framed execKeepDefaults :=
  framed (fun _ => rfl) (fun _ h => by simp [h]) fun _ => by simp

theorem execPark_framed : Framed execPark :=
  framed (fun _ => rfl) (fun _ h => by simp [h]) fun _ => by simp

theorem execEmergencyOff_framed : Framed execEmergencyOff :=
  framed (fun _ => rfl) (fun _ h => by simp [h]) fun _ => by simp

theorem execEoffRelease_framed : Framed execEoffRelease :=
  framed (fun _ => rfl) (fun _ h => by simp [h]) fun _ => by simp

theorem execCclr_framed : Framed execCclr :=
  framed (fun _ => rfl) (fun _ h => by simp [h]) fun _ => by simp

theorem execKeepCtlStore_framed : Framed execKeepCtlStore :=
  framed (fun _ => rfl) (fun _ h => by simp [h]) fun _ => by simp

theorem execKeepCtlScrub_framed : Framed execKeepCtlScrub :=
  framed (fun _ => rfl) (fun _ h => by simp [h]) fun _ => by simp

theorem execBlockProtectWrite_framed (bp : BitVec 2) : Framed (execBlockProtectWrite bp) :=
  framed (fun _ => rfl) (fun _ h => by simp [h]) fun _ => by simp

theorem execPowerFailTriggerAssign_framed (en : Bool) (ch : BitVec 4) : Framed (execPowerFailTriggerAssign en ch) :=
  framed (fun _ => rfl) (fun _ h => by simp [h]) fun _ => by simp

theorem execConfirm_framed (byCore : Bool) : Framed (execConfirm byCore) :=
  framed (fun _ => rfl) (fun _ h => by simp [apply_ite KeepWf, apply_ite Dev.keep, h]) fun _ => by simp [apply_ite coreOf]

theorem execLockCode_framed (v : Half) : Framed (execLockCode v) :=
  framed (fun _ => rfl) (fun _ h => by simp [h]) fun _ => by simp

theorem execGuardClr_framed (p : PortId) (tripped : Bool) : Framed (execGuardClr p tripped) :=
  framed (fun _ => rfl) (fun _ h => by simp [apply_ite KeepWf, apply_ite Dev.keep, h]) fun _ => by simp [apply_ite coreOf]

theorem execGuardAutoWrite_framed (p : PortId) (v : Bool) : Framed (execGuardAutoWrite p v) :=
  framed (fun _ => rfl) (fun _ h => by simp [h]) fun _ => by simp

theorem execRoleWrite_framed (p : PortId) (role : BitVec 2) : Framed (execRoleWrite p role) :=
  framed (fun _ => rfl) (fun _ h => by simp [h]) fun _ => by simp

theorem execEnWrite_framed (p : PortId) (v : Bool) : Framed (execEnWrite p v) :=
  framed (fun _ => rfl) (fun _ h => by simp [h]) fun _ => by simp

theorem execAutoWrite_framed (p : PortId) (v : Bool) : Framed (execAutoWrite p v) :=
  framed (fun _ => rfl) (fun _ h => by simp [h]) fun _ => by simp

theorem execPs2Write_framed (p : PortId) (v : Bool) : Framed (execPs2Write p v) :=
  framed (fun _ => rfl) (fun _ h => by simp [h]) fun _ => by simp

theorem execFixedWrite_framed (p : PortId) (v : Bool) : Framed (execFixedWrite p v) :=
  framed (fun _ => rfl) (fun _ h => by simp [h]) fun _ => by simp

theorem execLevelWrite_framed (p : PortId) (hold : Bool) (tgt : Level) : Framed (execLevelWrite p hold tgt) :=
  framed (fun _ => rfl) (fun _ h => by simp [h]) fun _ => by simp

theorem execRailSwap_framed (p : PortId) : Framed (execRailSwap p) :=
  framed (fun _ => rfl) (fun _ h => by simp [h]) fun _ => by simp

theorem execRailEnWrite_framed (p : PortId) (v : Bool) : Framed (execRailEnWrite p v) :=
  framed (fun _ => rfl) (fun _ h => by simp [h]) fun _ => by simp

theorem execIlimWrite_framed (p : PortId) (v : Half) : Framed (execIlimWrite p v) :=
  framed (fun _ => rfl) (fun _ h => by simp [h]) fun _ => by simp

theorem execIfastWrite_framed (p : PortId) (v : Half) : Framed (execIfastWrite p v) :=
  framed (fun _ => rfl) (fun _ h => by simp [h]) fun _ => by simp

theorem execCmpCfgWrite_framed (v : Half) : Framed (execCmpCfgWrite v) :=
  framed (fun _ => rfl) (fun _ h => by simp [h]) fun _ => by simp

theorem execCmpLvlWrite_framed (v : Half) : Framed (execCmpLvlWrite v) :=
  framed (fun _ => rfl) (fun _ h => by simp [h]) fun _ => by simp

theorem execFastOverCurrent_framed (p : PortId) (c : Crossing) : Framed (execFastOverCurrent p c) :=
  framed (fun _ => rfl) (fun _ h => by simp [h]) fun _ => by simp

theorem execSlowOverCurrent_framed (p : PortId) (c : Crossing) : Framed (execSlowOverCurrent p c) :=
  framed (fun _ => rfl) (fun _ h => by simp [h]) fun _ => by simp

theorem execOverVoltage_framed (p : PortId) (c : Crossing) : Framed (execOverVoltage p c) :=
  framed (fun _ => rfl) (fun _ h => by simp [h]) fun _ => by simp

theorem execReverseCurrent_framed (p : PortId) (c : Crossing) : Framed (execReverseCurrent p c) :=
  framed (fun _ => rfl) (fun _ h => by simp [h]) fun _ => by simp

theorem execReverseCurrentBlock_framed (p : PortId) (c : Crossing) : Framed (execReverseCurrentBlock p c) :=
  framed (fun _ => rfl) (fun _ h => by simp [h]) fun _ => by simp

theorem execRingReclose_framed (p : PortId) : Framed (execRingReclose p) :=
  framed (fun _ => rfl) (fun _ h => by simp [h]) fun _ => by simp

theorem execRingBlockTimeout_framed (p : PortId) : Framed (execRingBlockTimeout p) :=
  framed (fun _ => rfl) (fun _ h => by simp [h]) fun _ => by simp

theorem execCoolDown_framed (p : PortId) : Framed (execCoolDown p) :=
  framed (fun _ => rfl) (fun _ h => by simp [h]) fun _ => by simp

theorem execGuardReclose_framed (p : PortId) : Framed (execGuardReclose p) :=
  framed (fun _ => rfl) (fun _ h => by simp [h]) fun _ => by simp

theorem execPathClosed_framed (p : PortId) : Framed (execPathClosed p) :=
  framed (fun _ => rfl) (fun _ h => by simp [h]) fun _ => by simp

theorem execCriticalTrip_framed : Framed execCriticalTrip :=
  framed (fun _ => rfl) (fun _ h => by simp [apply_ite KeepWf, apply_ite Dev.keep, h]) fun _ => by simp [apply_ite coreOf]

theorem execSafeExit_framed : Framed execSafeExit :=
  framed (fun _ => rfl) (fun _ h => by simp [h]) fun _ => by simp

theorem execKhotRise_framed (pages : Nat) : Framed (execKhotRise pages) :=
  framed_of_kept (fun _ => rfl) fun d => by
    dsimp only
    repeat' split
    all_goals exact ⟨fun h => by simp [h], by simp⟩

theorem execDroopDetect_framed (p : PortId) : Framed (execDroopDetect p) :=
  framed (fun _ => rfl) (fun _ h => by simp [h]) fun _ => by simp

theorem execDroopHoldEnd_framed (p : PortId) : Framed (execDroopHoldEnd p) :=
  framed (fun _ => rfl) (fun _ h => by simp [apply_ite KeepWf, apply_ite Dev.keep, h]) fun _ => by simp [apply_ite coreOf]

theorem execDroopStepRemoved_framed (p : PortId) : Framed (execDroopStepRemoved p) :=
  framed (fun _ => rfl) (fun _ h => by simp [h]) fun _ => by simp

theorem execDroopLimitFall_framed (p : PortId) : Framed (execDroopLimitFall p) :=
  framed (fun _ => rfl) (fun _ h => by simp [h]) fun _ => by simp

theorem execDroopLimitEnd_framed (p : PortId) : Framed (execDroopLimitEnd p) :=
  framed (fun _ => rfl) (fun _ h => by simp [h]) fun _ => by simp

theorem execVsetCalibration_framed (p : PortId) (v0 v1023 : Nat) : Framed (execVsetCalibration p v0 v1023) :=
  framed (fun _ => rfl) (fun _ h => by simp [apply_ite KeepWf, apply_ite Dev.keep, h]) fun _ => by simp [apply_ite coreOf]

theorem execLevelNotice_framed (p : PortId) (b1 : Nat) : Framed (execLevelNotice p b1) :=
  framed (fun _ => rfl) (fun _ h => by simp [h]) fun _ => by simp

theorem execLevelRampStart_framed (p : PortId) : Framed (execLevelRampStart p) :=
  framed (fun _ => rfl) (fun _ h => by simp [h]) fun _ => by simp

theorem execLevelRampEnd_framed (p : PortId) : Framed (execLevelRampEnd p) :=
  framed (fun _ => rfl) (fun _ h => by simp [h]) fun _ => by simp

theorem execLevelTrim_framed (p : PortId) (meanFeed : Nat) : Framed (execLevelTrim p meanFeed) :=
  framed (fun _ => rfl) (fun _ h => by simp [h]) fun _ => by simp

theorem execFeedOutOfBand_framed (p : PortId) : Framed (execFeedOutOfBand p) :=
  framed (fun _ => rfl) (fun _ h => by simp [h]) fun _ => by simp

theorem execL0NotReached_framed (p : PortId) : Framed (execL0NotReached p) :=
  framed (fun _ => rfl) (fun _ h => by simp [h]) fun _ => by simp

theorem execLfaultClear_framed (p : PortId) : Framed (execLfaultClear p) :=
  framed (fun _ => rfl) (fun _ h => by simp [h]) fun _ => by simp

theorem execIdleLevelDrop_framed (p : PortId) : Framed (execIdleLevelDrop p) :=
  framed (fun _ => rfl) (fun _ h => by simp [h]) fun _ => by simp

theorem execFirstSecondStart_framed (p : PortId) : Framed (execFirstSecondStart p) :=
  framed (fun _ => rfl) (fun _ h => by simp [h]) fun _ => by simp

theorem execFirstSecondEnd_framed (p : PortId) : Framed (execFirstSecondEnd p) :=
  framed (fun _ => rfl) (fun _ h => by simp [h]) fun _ => by simp

theorem execLevelDecision_framed (p : PortId) : Framed (execLevelDecision p) :=
  framed (fun _ => rfl) (fun _ h => by simp [h]) fun _ => by simp

theorem execProbeCycle_framed (p : PortId) (r : ProbeReading) : Framed (execProbeCycle p r) :=
  framed (fun _ => rfl) (fun _ h => by simp [h]) fun _ => by simp

theorem execAttach_framed (p : PortId) : Framed (execAttach p) :=
  framed_of_kept (fun _ => rfl) fun d => by
    dsimp only
    repeat' split
    all_goals exact ⟨fun h => by simp [h], by simp⟩

theorem execPeerWindow_framed (p : PortId) (winA winB : Nat) : Framed (execPeerWindow p winA winB) :=
  framed (fun _ => rfl) (fun _ h => by simp [h]) fun _ => by simp

theorem execContentionPause_framed (p : PortId) (ms : Nat) : Framed (execContentionPause p ms) :=
  framed (fun _ => rfl) (fun _ h => by simp [h]) fun _ => by simp

theorem execContentionPauseEnd_framed (p : PortId) : Framed (execContentionPauseEnd p) :=
  framed (fun _ => rfl) (fun _ h => by simp [h]) fun _ => by simp

theorem execDetach_framed (p : PortId) : Framed (execDetach p) :=
  framed (fun _ => rfl) (fun _ h => by simp [h]) fun _ => by simp

theorem execProbeResume_framed (p : PortId) : Framed (execProbeResume p) :=
  framed (fun _ => rfl) (fun _ h => by simp [h]) fun _ => by simp

theorem execDrawJoin_framed (p : PortId) : Framed (execDrawJoin p) :=
  framed (fun _ => rfl) (fun _ h => by simp [apply_ite KeepWf, apply_ite Dev.keep, h]) fun _ => by simp [apply_ite coreOf]

theorem execUpstreamSilence_framed (p : PortId) : Framed (execUpstreamSilence p) :=
  framed (fun _ => rfl) (fun _ h => by simp [h]) fun _ => by simp

theorem execBeacon_framed (p : PortId) : Framed (execBeacon p) :=
  framed (fun _ => rfl) (fun _ h => by simp [h]) fun _ => by simp

theorem execPoll_framed (p : PortId) (kind : BitVec 2) (i : Idx) : Framed (execPoll p kind i) :=
  framed (fun _ => rfl) (fun _ h => by simp [apply_ite KeepWf, apply_ite Dev.keep, h]) fun _ => by simp [apply_ite coreOf]

theorem execRequest_framed (p : PortId) (i : Idx) (h : FrameTag) (r : RequestMsg) : Framed (execRequest p i h r) :=
  framed (fun _ => rfl) (fun _ h => by simp [h]) fun _ => by simp

theorem execEnroll_framed (p : PortId) (slot : BitVec 3) (m : EnrollMsg) : Framed (execEnroll p slot m) :=
  framed (fun _ => rfl) (fun _ h => by simp [h]) fun _ => by simp

theorem execAck_framed (p : PortId) (_seq : BitVec 3) : Framed (execAck p _seq) :=
  framed (fun _ => rfl) (fun _ h => by simp [h]) fun _ => by simp

theorem execNak_framed (p : PortId) (_seq : BitVec 3) : Framed (execNak p _seq) :=
  framed (fun _ => rfl) (fun _ h => by simp [h]) fun _ => by simp

theorem execHint_framed (p : PortId) (i : Idx) (h : FrameTag) (m : HintMsg) : Framed (execHint p i h m) :=
  framed (fun _ => rfl) (fun _ h => by simp [apply_ite KeepWf, apply_ite Dev.keep, h]) fun _ => by simp [apply_ite coreOf]

theorem execForeignBeacon_framed (p : PortId) (eui : Eui) : Framed (execForeignBeacon p eui) :=
  framed (fun _ => rfl) (fun _ h => by simp [apply_ite KeepWf, apply_ite Dev.keep, h]) fun _ => by simp [apply_ite coreOf]

theorem execAllocatorPass_framed : Framed execAllocatorPass :=
  framed (fun _ => rfl) (fun _ h => by simp [h]) fun _ => by simp

theorem execEngineConfirm_framed (p : PortId) (slot : BitVec 7) : Framed (execEngineConfirm p slot) :=
  framed (fun _ => rfl) (fun _ h => by simp [h]) fun _ => by simp

theorem execEngineDeny_framed (p : PortId) (slot : BitVec 7) (reason : Byte) : Framed (execEngineDeny p slot reason) :=
  framed (fun _ => rfl) (fun _ h => by simp [h]) fun _ => by simp

theorem execEngineWithdraw_framed (p : PortId) (i : Idx) (reason : BitVec 4) : Framed (execEngineWithdraw p i reason) :=
  framed (fun _ => rfl) (fun _ h => by simp [h]) fun _ => by simp

theorem execEngineLevelTarget_framed (p : PortId) (l : Level) : Framed (execEngineLevelTarget p l) :=
  framed (fun _ => rfl) (fun _ h => by simp [h]) fun _ => by simp

theorem execHintReservationEnd_framed (p : PortId) (i : Idx) : Framed (execHintReservationEnd p i) :=
  framed (fun _ => rfl) (fun _ h => by simp [h]) fun _ => by simp

theorem execPeerGap_framed (p : PortId) : Framed (execPeerGap p) :=
  framed (fun _ => rfl) (fun _ h => by simp [h]) fun _ => by simp

theorem execPeerHello_framed (p : PortId) (h : FrameTag) (m : HelloMsg) : Framed (execPeerHello p h m) :=
  framed (fun _ => rfl) (fun _ h => by simp [h]) fun _ => by simp

theorem execPeerReport_framed (p : PortId) (h : FrameTag) (m : PeerReportMsg) : Framed (execPeerReport p h m) :=
  framed (fun _ => rfl) (fun _ h => by simp [h]) fun _ => by simp

theorem execRailSwapReq_framed (p : PortId) (h : FrameTag) (_eui : Eui) (takes : Bool) : Framed (execRailSwapReq p h _eui takes) :=
  framed (fun _ => rfl) (fun _ h => by simp [h]) fun _ => by simp

theorem execRailSwapAck_framed (p : PortId) (h : FrameTag) (refused : Bool) : Framed (execRailSwapAck p h refused) :=
  framed (fun _ => rfl) (fun _ h => by simp [apply_ite KeepWf, apply_ite Dev.keep, h]) fun _ => by simp [apply_ite coreOf]

theorem execSwapGiverBackup_framed (p : PortId) : Framed (execSwapGiverBackup p) :=
  framed (fun _ => rfl) (fun _ h => by simp [h]) fun _ => by simp

theorem execRingJoinTrim_framed (p : PortId) : Framed (execRingJoinTrim p) :=
  framed (fun _ => rfl) (fun _ h => by simp [h]) fun _ => by simp

theorem execRingJoinFail_framed (p : PortId) (why : JoinFailure) : Framed (execRingJoinFail p why) :=
  framed (fun _ => rfl) (fun _ h => by simp [h]) fun _ => by simp

theorem execRingJoinRetry_framed (p : PortId) : Framed (execRingJoinRetry p) :=
  framed (fun _ => rfl) (fun _ h => by simp [h]) fun _ => by simp

theorem execRingSynchronised_framed (p : PortId) : Framed (execRingSynchronised p) :=
  framed (fun _ => rfl) (fun _ h => by simp [h]) fun _ => by simp

theorem execRingFrameMirror_framed (p : PortId) (f : Frame) : Framed (execRingFrameMirror p f) :=
  framed (fun _ => rfl) (fun _ h => by simp [apply_ite KeepWf, apply_ite Dev.keep, h]) fun _ => by simp [apply_ite coreOf]

theorem execFollowerLost_framed (p : PortId) : Framed (execFollowerLost p) :=
  framed (fun _ => rfl) (fun _ h => by simp [h]) fun _ => by simp

theorem execRailOc_framed (p : PortId) : Framed (execRailOc p) :=
  framed (fun _ => rfl) (fun _ h => by simp [h]) fun _ => by simp

theorem execRailOcOff_framed (p : PortId) : Framed (execRailOcOff p) :=
  framed (fun _ => rfl) (fun _ h => by simp [h]) fun _ => by simp

theorem execRailRetry_framed (p : PortId) : Framed (execRailRetry p) :=
  framed_of_kept (fun _ => rfl) fun d => by
    dsimp only
    repeat' split
    all_goals exact ⟨fun h => by simp [h], by simp⟩

theorem execRailOcClear_framed (p : PortId) : Framed (execRailOcClear p) :=
  framed (fun _ => rfl) (fun _ h => by simp [h]) fun _ => by simp

theorem execParkHandoffTimeout_framed (p : PortId) : Framed (execParkHandoffTimeout p) :=
  framed (fun _ => rfl) (fun _ h => by simp [h]) fun _ => by simp

theorem execGangFrame_framed : Framed execGangFrame :=
  framed (fun _ => rfl) (fun _ h => by simp [h]) fun _ => by simp

theorem execGsyncEdge_framed : Framed execGsyncEdge :=
  framed (fun _ => rfl) (fun _ h => by simp [h]) fun _ => by simp

theorem execMemberSlot_framed (readbackOk : Bool) : Framed (execMemberSlot readbackOk) :=
  framed (fun _ => rfl) (fun _ h => by simp [h]) fun _ => by simp

theorem execGangElection_framed : Framed execGangElection :=
  framed (fun _ => rfl) (fun _ h => by simp [h]) fun _ => by simp

theorem execGangJoin_framed : Framed execGangJoin :=
  framed_of_kept (fun _ => rfl) fun d => by
    dsimp only
    repeat' split
    all_goals exact ⟨fun h => by simp [h], by simp⟩

theorem execGangReadbackFault_framed : Framed execGangReadbackFault :=
  framed (fun _ => rfl) (fun _ h => by simp [h]) fun _ => by simp

theorem execGangRetry_framed : Framed execGangRetry :=
  framed_of_kept (fun _ => rfl) fun d => by
    dsimp only
    repeat' split
    all_goals exact ⟨fun h => by simp [h], by simp⟩

theorem execBundleModel_framed : Framed execBundleModel :=
  framed (fun _ => rfl) (fun _ h => by simp [h]) fun _ => by simp

theorem execThermalReportExpiry_framed : Framed execThermalReportExpiry :=
  framed (fun _ => rfl) (fun _ h => by simp [h]) fun _ => by simp

theorem execThrot_framed (p : PortId) : Framed (execThrot p) :=
  framed (fun _ => rfl) (fun _ h => by simp [h]) fun _ => by simp

theorem execCeilingThrotClear_framed (p : PortId) : Framed (execCeilingThrotClear p) :=
  framed (fun _ => rfl) (fun _ h => by simp [h]) fun _ => by simp

theorem execCalibrationPoint_framed : Framed execCalibrationPoint :=
  framed (fun _ => rfl) (fun _ h => by simp [h]) fun _ => by simp

theorem execEnergyStore_framed : Framed execEnergyStore :=
  framed (fun _ => rfl) (fun _ h => by simp [h]) fun _ => by simp

theorem execKeepCommitIssue_framed (writes : List (Nat × Byte)) : Framed (execKeepCommitIssue writes) :=
  framed (fun _ => rfl) (fun _ h => by simp [h]) fun _ => by simp

theorem execKeepCommitStart_framed : Framed execKeepCommitStart :=
  framed (fun _ => rfl) (fun _ h => by simp [h]) fun _ => by simp

theorem execKeepDurable_framed : Framed execKeepDurable :=
  framed (fun _ => rfl) (fun _ h => by simp [h]) fun _ => by simp

theorem execTableDurableCommit_framed : Framed execTableDurableCommit :=
  framed (fun _ => rfl) (fun _ h => by simp [h]) fun _ => by simp

theorem execPowerFailTrigger_framed : Framed execPowerFailTrigger :=
  framed (fun _ => rfl) (fun _ h => by simp [h]) fun _ => by simp

theorem execPowerFailRearm_framed : Framed execPowerFailRearm :=
  framed (fun _ => rfl) (fun _ h => by simp [h]) fun _ => by simp

theorem execHealthSelfCheck_framed : Framed execHealthSelfCheck :=
  framed (fun _ => rfl) (fun _ h => by simp [h]) fun _ => by simp

theorem execSequencerReload_framed (p : PortId) : Framed (execSequencerReload p) :=
  framed (fun _ => rfl) (fun _ h => by simp [h]) fun _ => by simp

theorem execSequencerReloadDone_framed (p : PortId) : Framed (execSequencerReloadDone p) :=
  framed (fun _ => rfl) (fun _ h => by simp [h]) fun _ => by simp

theorem execCmpTick_framed (inputs : List Nat) : Framed (execCmpTick inputs) :=
  framed (fun _ => rfl) (fun _ h => by simp [h]) fun _ => by simp

theorem execCaptureFifoRead_framed : Framed execCaptureFifoRead :=
  framed (fun _ => rfl) (fun _ h => by simp [h]) fun _ => by simp

theorem execBeaconReceived_framed (p : PortId) (pinB : Bool) (h : FrameTag) (m : BeaconMsg) (bitNs : Nat) : Framed (execBeaconReceived p pinB h m bitNs) :=
  framed (fun _ => rfl) (fun _ h => by simp [apply_ite KeepWf, apply_ite Dev.keep, h]) fun _ => by simp [apply_ite coreOf]

theorem execAcceptReceived_framed (p : PortId) (h : FrameTag) (m : AcceptMsg) : Framed (execAcceptReceived p h m) :=
  framed (fun _ => rfl) (fun _ h => by simp [h]) fun _ => by simp

theorem execWaitReceived_framed (p : PortId) (h : FrameTag) (m : WaitMsg) : Framed (execWaitReceived p h m) :=
  framed (fun _ => rfl) (fun _ h => by simp [h]) fun _ => by simp

theorem execRejectReceived_framed (p : PortId) (h : FrameTag) (bc : Bool) (m : RejectMsg) : Framed (execRejectReceived p h bc m) :=
  framed (fun _ => rfl) (fun _ h => by simp [h]) fun _ => by simp

theorem execAssignReceived_framed (p : PortId) (h : FrameTag) (idx : Idx) (m : AssignMsg) : Framed (execAssignReceived p h idx m) :=
  framed (fun _ => rfl) (fun _ h => by simp [h]) fun _ => by simp

theorem execShedToneReceived_framed (p : PortId) : Framed (execShedToneReceived p) :=
  framed (fun _ => rfl) (fun _ h => by simp [h]) fun _ => by simp

theorem execCalPulseReceived_framed (p : PortId) (h : FrameTag) (m : CalPulseMsg) (vBefore vDuring : Half) : Framed (execCalPulseReceived p h m vBefore vDuring) :=
  framed (fun _ => rfl) (fun _ h => by simp [h]) fun _ => by simp

theorem execEnrollMinislot_framed (p : PortId) (k j : BitVec 3) (m : EnrollMsg) (mv : Nat) (idle : Bool) : Framed (execEnrollMinislot p k j m mv idle) :=
  framed (fun _ => rfl) (fun _ h => by simp [apply_ite Dev.keep, h]) fun _ => by simp [apply_ite coreOf]

theorem execGrantTimeout_framed (p : PortId) : Framed (execGrantTimeout p) :=
  framed (fun _ => rfl) (fun _ h => by simp [h]) fun _ => by simp

theorem execUnknownFrame_framed (p : PortId) (f : Frame) : Framed (execUnknownFrame p f) :=
  framed (fun _ => rfl) (fun _ h => by simp [apply_ite KeepWf, apply_ite Dev.keep, h]) fun _ => by simp [apply_ite coreOf]

theorem execAdvertReceived_framed (p : PortId) (h : FrameTag) (m : AdvertMsg) : Framed (execAdvertReceived p h m) :=
  framed (fun _ => rfl) (fun _ h => by simp [h]) fun _ => by simp

theorem execSlotAtTspecconfirmLess2ms_framed (p : PortId) (slot : BitVec 7) : Framed (execSlotAtTspecconfirmLess2ms p slot) :=
  framed (fun _ => rfl) (fun _ h => by simp [h]) fun _ => by simp

theorem execLockCodeTimeout_framed : Framed execLockCodeTimeout :=
  framed_of_kept (fun _ => rfl) fun d => by
    dsimp only
    repeat' split
    all_goals exact ⟨fun h => by simp [h], by simp⟩

theorem execThermRelChange_framed (rel : Bool) : Framed (execThermRelChange rel) :=
  framed (fun _ => rfl) (fun _ h => by simp [h]) fun _ => by simp

theorem execSreadyChange_framed (ready : Bool) : Framed (execSreadyChange ready) :=
  framed (fun _ => rfl) (fun _ h => by simp [h]) fun _ => by simp

theorem execTdieUpdate_framed (temp : Half) : Framed (execTdieUpdate temp) :=
  framed (fun _ => rfl) (fun _ h => by simp [h]) fun _ => by simp

theorem execVsegIsegMean_framed : Framed execVsegIsegMean :=
  framed (fun _ => rfl) (fun _ h => by simp [h]) fun _ => by simp

theorem execVioAbsent_framed : Framed execVioAbsent :=
  framed (fun _ => rfl) (fun _ h => by simp [h]) fun _ => by simp

/-! ## Every command -/

/-- A command is an operation word of the core, or changes the device alone and lawfully. -/
theorem exec_shape (c : Instr) : (∃ o w, ∀ s, exec c s = coreOp o w s) ∨ Lawful (exec c) := by
  cases c
  case supplyLost pages => exact .inr (execSupplyLost_lawful pages)
  case coldStart bootsel => exact .inr (execColdStart_lawful bootsel)
  case latchRearm => exact .inr execLatchRearm_framed.lawful
  case resetAssert pages => exact .inr (execResetAssert_lawful pages)
  case resetRelease => exact .inr execResetRelease_lawful
  case presentLow => exact .inr execPresentLow_framed.lawful
  case busLive => exact .inr execBusLive_framed.lawful
  case presentHigh => exact .inr execPresentHigh_framed.lawful
  case pllLock => exact .inr execPllLock_framed.lawful
  case clockFail => exact .inr execClockFail_framed.lawful
  case evqPop => exact .inr execEvqPop_framed.lawful
  case timeLo => exact .inr execTimeLo_framed.lawful
  case energyLo p => exact .inr (execEnergyLo_framed p).lawful
  case tdataRead early => exact .inr (execTdataRead_framed early).lawful
  case tdataWrite v => exact .inr (execTdataWrite_framed v).lawful
  case tselWrite v => exact .inr (execTselWrite_framed v).lawful
  case tidxWrite v => exact .inr (execTidxWrite_framed v).lawful
  case commit => exact .inr execCommit_framed.lawful
  case abort withCommit => exact .inr (execAbort_framed withCommit).lawful
  case mbxArgWrite v => exact .inr (execMbxArgWrite_framed v).lawful
  case mbxArgRead => exact .inr execMbxArgRead_framed.lawful
  case echo => exact .inr execEcho_framed.lawful
  case fwuBegin storeOk => exact .inr (execFwuBegin_framed storeOk).lawful
  case fwuPiece vin storeOk => exact .inr (execFwuPiece_framed vin storeOk).lawful
  case fwuApply vin storeOk => exact .inr (execFwuApply_framed vin storeOk).lawful
  case fwuCancel => exact .inr execFwuCancel_framed.lawful
  case recoveryImage storeOk => exact .inr (execRecoveryImage_lawful storeOk)
  case ownerEnrol => exact .inr execOwnerEnrol_framed.lawful
  case fwlockSet => exact .inr execFwlockSet_framed.lawful
  case fwlockClear => exact .inr execFwlockClear_framed.lawful
  case keepDefaults => exact .inr execKeepDefaults_framed.lawful
  case mbxDone => exact .inr execMbxDone_framed.lawful
  case park => exact .inr execPark_framed.lawful
  case emergencyOff => exact .inr execEmergencyOff_framed.lawful
  case eoffRelease => exact .inr execEoffRelease_framed.lawful
  case cclr => exact .inr execCclr_framed.lawful
  case keepCtlStore => exact .inr execKeepCtlStore_framed.lawful
  case keepCtlScrub => exact .inr execKeepCtlScrub_framed.lawful
  case blockProtectWrite bp => exact .inr (execBlockProtectWrite_framed bp).lawful
  case powerFailTriggerAssign en ch => exact .inr (execPowerFailTriggerAssign_framed en ch).lawful
  case confirm byCore => exact .inr (execConfirm_framed byCore).lawful
  case revert => exact .inr execRevert_lawful
  case lockCode v => exact .inr (execLockCode_framed v).lawful
  case guardClr p tripped => exact .inr (execGuardClr_framed p tripped).lawful
  case guardAutoWrite p v => exact .inr (execGuardAutoWrite_framed p v).lawful
  case roleWrite p role => exact .inr (execRoleWrite_framed p role).lawful
  case enWrite p v => exact .inr (execEnWrite_framed p v).lawful
  case autoWrite p v => exact .inr (execAutoWrite_framed p v).lawful
  case lmaxWrite p l => exact .inr (execLmaxWrite_framed p l).lawful
  case ps2Write p v => exact .inr (execPs2Write_framed p v).lawful
  case fixedWrite p v => exact .inr (execFixedWrite_framed p v).lawful
  case levelWrite p hold tgt => exact .inr (execLevelWrite_framed p hold tgt).lawful
  case railSwap p => exact .inr (execRailSwap_framed p).lawful
  case railEnWrite p v => exact .inr (execRailEnWrite_framed p v).lawful
  case ilimWrite p v => exact .inr (execIlimWrite_framed p v).lawful
  case ifastWrite p v => exact .inr (execIfastWrite_framed p v).lawful
  case flagClear reg mask sets => exact .inr (execFlagClear_framed reg mask sets).lawful
  case cmpCfgWrite v => exact .inr (execCmpCfgWrite_framed v).lawful
  case cmpLvlWrite v => exact .inr (execCmpLvlWrite_framed v).lawful
  case registerWrite addr v => exact .inr (execRegisterWrite_lawful addr v)
  case fastOverCurrent p c => exact .inr (execFastOverCurrent_framed p c).lawful
  case slowOverCurrent p c => exact .inr (execSlowOverCurrent_framed p c).lawful
  case overVoltage p c => exact .inr (execOverVoltage_framed p c).lawful
  case reverseCurrent p c => exact .inr (execReverseCurrent_framed p c).lawful
  case reverseCurrentBlock p c => exact .inr (execReverseCurrentBlock_framed p c).lawful
  case ringReclose p => exact .inr (execRingReclose_framed p).lawful
  case ringBlockTimeout p => exact .inr (execRingBlockTimeout_framed p).lawful
  case coolDown p => exact .inr (execCoolDown_framed p).lawful
  case guardReclose p => exact .inr (execGuardReclose_framed p).lawful
  case pathClosed p => exact .inr (execPathClosed_framed p).lawful
  case criticalTrip => exact .inr execCriticalTrip_framed.lawful
  case safeExit => exact .inr execSafeExit_framed.lawful
  case khotRise pages => exact .inr (execKhotRise_framed pages).lawful
  case khotClear => exact .inr execKhotClear_framed.lawful
  case droopDetect p => exact .inr (execDroopDetect_framed p).lawful
  case droopHoldEnd p => exact .inr (execDroopHoldEnd_framed p).lawful
  case droopStepRemoved p => exact .inr (execDroopStepRemoved_framed p).lawful
  case droopLimitFall p => exact .inr (execDroopLimitFall_framed p).lawful
  case droopLimitEnd p => exact .inr (execDroopLimitEnd_framed p).lawful
  case vsetCalibration p v0 v1023 => exact .inr (execVsetCalibration_framed p v0 v1023).lawful
  case levelNotice p b1 => exact .inr (execLevelNotice_framed p b1).lawful
  case levelRampStart p => exact .inr (execLevelRampStart_framed p).lawful
  case levelRampEnd p => exact .inr (execLevelRampEnd_framed p).lawful
  case levelSettled p => exact .inr (execLevelSettled_framed p).lawful
  case levelStepTimeout p => exact .inr (execLevelStepTimeout_framed p).lawful
  case levelTrim p meanFeed => exact .inr (execLevelTrim_framed p meanFeed).lawful
  case feedOutOfBand p => exact .inr (execFeedOutOfBand_framed p).lawful
  case l0NotReached p => exact .inr (execL0NotReached_framed p).lawful
  case lfaultClear p => exact .inr (execLfaultClear_framed p).lawful
  case idleLevelDrop p => exact .inr (execIdleLevelDrop_framed p).lawful
  case firstSecondStart p => exact .inr (execFirstSecondStart_framed p).lawful
  case firstSecondEnd p => exact .inr (execFirstSecondEnd_framed p).lawful
  case levelDecision p => exact .inr (execLevelDecision_framed p).lawful
  case restoreReadyBroadcast p => exact .inr (execRestoreReadyBroadcast_framed p).lawful
  case probeCycle p r => exact .inr (execProbeCycle_framed p r).lawful
  case attach p => exact .inr (execAttach_framed p).lawful
  case peerWindow p winA winB => exact .inr (execPeerWindow_framed p winA winB).lawful
  case contentionPause p ms => exact .inr (execContentionPause_framed p ms).lawful
  case contentionPauseEnd p => exact .inr (execContentionPauseEnd_framed p).lawful
  case detach p => exact .inr (execDetach_framed p).lawful
  case probeResume p => exact .inr (execProbeResume_framed p).lawful
  case drawJoin p => exact .inr (execDrawJoin_framed p).lawful
  case upstreamSilence p => exact .inr (execUpstreamSilence_framed p).lawful
  case beacon p => exact .inr (execBeacon_framed p).lawful
  case enrolWindowEnd p => exact .inr (execEnrolWindowEnd_framed p).lawful
  case poll p kind i => exact .inr (execPoll_framed p kind i).lawful
  case ackMissing p => exact .inr (execAckMissing_framed p).lawful
  case request p i h r => exact .inr (execRequest_framed p i h r).lawful
  case enroll p slot m => exact .inr (execEnroll_framed p slot m).lawful
  case ack p _seq => exact .inr (execAck_framed p _seq).lawful
  case nak p _seq => exact .inr (execNak_framed p _seq).lawful
  case hint p i h m => exact .inr (execHint_framed p i h m).lawful
  case report p i h m stepMa => exact .inr (execReport_framed p i h m stepMa).lawful
  case foreignBeacon p eui => exact .inr (execForeignBeacon_framed p eui).lawful
  case calPulse p i stepMa dur => exact .inr (execCalPulse_framed p i stepMa dur).lawful
  case specConfirmExpiry p slot => exact .inr (execSpecConfirmExpiry_framed p slot).lawful
  case busySlotExpiry p slot => exact .inr (execBusySlotExpiry_framed p slot).lawful
  case allocatorPass => exact .inr execAllocatorPass_framed.lawful
  case engineConfirm p slot => exact .inr (execEngineConfirm_framed p slot).lawful
  case engineDeny p slot reason => exact .inr (execEngineDeny_framed p slot reason).lawful
  case engineWithdraw p i reason => exact .inr (execEngineWithdraw_framed p i reason).lawful
  case engineLevelTarget p l => exact .inr (execEngineLevelTarget_framed p l).lawful
  case ready p slot => exact .inr (execReady_framed p slot).lawful
  case hintLevelRaise p i => exact .inr (execHintLevelRaise_framed p i).lawful
  case hintReservationEnd p i => exact .inr (execHintReservationEnd_framed p i).lawful
  case peerGap p => exact .inr (execPeerGap_framed p).lawful
  case peerHello p h m => exact .inr (execPeerHello_framed p h m).lawful
  case peerReport p h m => exact .inr (execPeerReport_framed p h m).lawful
  case railSwapReq p h _eui takes => exact .inr (execRailSwapReq_framed p h _eui takes).lawful
  case railSwapAck p h refused => exact .inr (execRailSwapAck_framed p h refused).lawful
  case swapGiverBackup p => exact .inr (execSwapGiverBackup_framed p).lawful
  case railSwapEnd p conducted => exact .inr (execRailSwapEnd_framed p conducted).lawful
  case swapSlotTimeout p => exact .inr (execSwapSlotTimeout_framed p).lawful
  case ringJoinTrim p => exact .inr (execRingJoinTrim_framed p).lawful
  case ringJoinFail p why => exact .inr (execRingJoinFail_framed p why).lawful
  case ringJoinRetry p => exact .inr (execRingJoinRetry_framed p).lawful
  case ringSynchronised p => exact .inr (execRingSynchronised_framed p).lawful
  case ringFrameMirror p f => exact .inr (execRingFrameMirror_framed p f).lawful
  case followerTakeover p backupUs => exact .inr (execFollowerTakeover_framed p backupUs).lawful
  case followerLost p => exact .inr (execFollowerLost_framed p).lawful
  case railOc p => exact .inr (execRailOc_framed p).lawful
  case railOcOff p => exact .inr (execRailOcOff_framed p).lawful
  case railRetry p => exact .inr (execRailRetry_framed p).lawful
  case railOcClear p => exact .inr (execRailOcClear_framed p).lawful
  case parkHandoffTimeout p => exact .inr (execParkHandoffTimeout_framed p).lawful
  case gangFrame => exact .inr execGangFrame_framed.lawful
  case gsyncEdge => exact .inr execGsyncEdge_framed.lawful
  case glead m => exact .inr (execGlead_framed m).lawful
  case gmem m => exact .inr (execGmem_framed m).lawful
  case memberSlot readbackOk => exact .inr (execMemberSlot_framed readbackOk).lawful
  case gangElection => exact .inr execGangElection_framed.lawful
  case gangJoin => exact .inr execGangJoin_framed.lawful
  case gangReadbackFault => exact .inr execGangReadbackFault_framed.lawful
  case gangRetry => exact .inr execGangRetry_framed.lawful
  case thermalThrottleUpdate a0 b0 a1 b1 => exact .inr (execThermalThrottleUpdate_framed a0 b0 a1 b1).lawful
  case bundleModel => exact .inr execBundleModel_framed.lawful
  case thermalReportExpiry => exact .inr execThermalReportExpiry_framed.lawful
  case throt p => exact .inr (execThrot_framed p).lawful
  case ceilingThrotClear p => exact .inr (execCeilingThrotClear_framed p).lawful
  case calibrationPoint => exact .inr execCalibrationPoint_framed.lawful
  case energyStore => exact .inr execEnergyStore_framed.lawful
  case keepCommitIssue writes => exact .inr (execKeepCommitIssue_framed writes).lawful
  case keepCommitStart => exact .inr execKeepCommitStart_framed.lawful
  case keepDurable => exact .inr execKeepDurable_framed.lawful
  case tableDurableCommit => exact .inr execTableDurableCommit_framed.lawful
  case rosterPageWrite p page => exact .inr (execRosterPageWrite_framed p page).lawful
  case keepSStoreDone => exact .inr execKeepSStoreDone_framed.lawful
  case powerFailTrigger => exact .inr execPowerFailTrigger_framed.lawful
  case powerFailRearm => exact .inr execPowerFailRearm_framed.lawful
  case scrubGroup r => exact .inr (execScrubGroup_framed r).lawful
  case watchdog => exact .inr execWatchdog_lawful
  case allocatorResume => exact .inr execAllocatorResume_lawful
  case handover => exact .inr execHandover_lawful
  case handoverResume => exact .inr execHandoverResume_lawful
  case handoverBusyTimeout => exact .inr execHandoverBusyTimeout_framed.lawful
  case healthTimeout => exact .inr execHealthTimeout_lawful
  case healthSelfCheck => exact .inr execHealthSelfCheck_framed.lawful
  case sequencerReload p => exact .inr (execSequencerReload_framed p).lawful
  case sequencerReloadDone p => exact .inr (execSequencerReloadDone_framed p).lawful
  case cmpTick inputs => exact .inr (execCmpTick_framed inputs).lawful
  case captureFifoRead => exact .inr execCaptureFifoRead_framed.lawful
  case interrupt => exact .inr execInterrupt_lawful
  case dmaDone => exact .inr execDmaDone_lawful
  case debugHaltRequest attached => exact .inr (execDebugHaltRequest_lawful attached)
  case timebaseCompare => exact .inr execTimebaseCompare_lawful
  case beaconReceived p pinB h m bitNs => exact .inr (execBeaconReceived_framed p pinB h m bitNs).lawful
  case pollReceived p h m reply mv => exact .inr (execPollReceived_framed p h m reply mv).lawful
  case acceptReceived p h m => exact .inr (execAcceptReceived_framed p h m).lawful
  case readyReceived p h bc m => exact .inr (execReadyReceived_framed p h bc m).lawful
  case withdrawReceived p h bc m => exact .inr (execWithdrawReceived_framed p h bc m).lawful
  case waitReceived p h m => exact .inr (execWaitReceived_framed p h m).lawful
  case rejectReceived p h bc m => exact .inr (execRejectReceived_framed p h bc m).lawful
  case assignReceived p h idx m => exact .inr (execAssignReceived_framed p h idx m).lawful
  case shedToneReceived p => exact .inr (execShedToneReceived_framed p).lawful
  case softResetReceived p h bc => exact .inr (execSoftResetReceived_framed p h bc).lawful
  case hardResetReceived p h bc => exact .inr (execHardResetReceived_framed p h bc).lawful
  case calPulseReceived p h m vBefore vDuring => exact .inr (execCalPulseReceived_framed p h m vBefore vDuring).lawful
  case enrollMinislot p k j m mv idle => exact .inr (execEnrollMinislot_framed p k j m mv idle).lawful
  case grantTimeout p => exact .inr (execGrantTimeout_framed p).lawful
  case unknownFrame p f => exact .inr (execUnknownFrame_framed p f).lawful
  case advertReceived p h m => exact .inr (execAdvertReceived_framed p h m).lawful
  case slotAtTspecconfirmLess2ms p slot => exact .inr (execSlotAtTspecconfirmLess2ms_framed p slot).lawful
  case lockCodeTimeout => exact .inr execLockCodeTimeout_framed.lawful
  case thermRelChange rel => exact .inr (execThermRelChange_framed rel).lawful
  case sreadyChange ready => exact .inr (execSreadyChange_framed ready).lawful
  case tdieUpdate temp => exact .inr (execTdieUpdate_framed temp).lawful
  case vsegIsegMean => exact .inr execVsegIsegMean_framed.lawful
  case guardMeterSample a b => exact .inr (execGuardMeterSample_lawful a b)
  case vioAbsent => exact .inr execVioAbsent_framed.lawful
  all_goals exact .inl ⟨_, _, fun _ => rfl⟩

theorem exec_keepWf {c : Instr} {s t : State} (h : exec c s = .next t) (hw : KeepWf s.dev.keep) : KeepWf t.dev.keep := by
  rcases exec_shape c with ⟨o, w, he⟩ | ⟨f, he, hf⟩
  · exact coreOp_keepWf o w s t ((he s).symm.trans h) hw
  · rw [he s] at h
    cases h
    exact (hf s.dev).1 hw

theorem coreOp_coreOk {o : Opc} {w : OpWord} {s t : State} (hr : coreOp o w s = .next t) (h : CoreOk s.dev.core) : CoreOk t.dev.core := by
  unfold coreOp at hr
  split at hr
  · next d hd =>
    cases hr
    exact issueOp_coreOk hd h
  · cases hr

theorem exec_coreOk {c : Instr} {s t : State} (h : exec c s = .next t) (hc : CoreOk s.dev.core) : CoreOk t.dev.core := by
  rcases exec_shape c with ⟨o, w, he⟩ | ⟨f, he, hf⟩
  · exact coreOp_coreOk ((he s).symm.trans h) hc
  · rw [he s] at h
    cases h
    exact (hf s.dev).2 hc

/-- A step idles, or runs one command on the device as it stands. -/
theorem step_cases {s t : State} (h : step s = .next t) : t = s ∨ ∃ c rest, exec c { s with pending := rest } = .next t := by
  unfold step at h
  split at h
  · cases h
    exact .inl rfl
  · next c rest _ => exact .inr ⟨c, rest, h⟩

/-- Settles O59: every command keeps the core legal (`exec_coreOk`), and a step runs one. -/
theorem coreStaysLegal : Obligations.CoreStaysLegal := by
  intro s t h hs
  rcases step_cases h with rfl | ⟨c, rest, hc⟩
  · exact hs
  · exact exec_coreOk hc hs

/-- Settles O60: every command keeps Keep's byte stores canonical (`exec_keepWf`), and a step runs one. -/
theorem keepMemoryStaysCanonical : Obligations.KeepMemoryStaysCanonical := by
  intro s t h hs
  rcases step_cases h with rfl | ⟨c, rest, hc⟩
  · exact hs
  · exact exec_keepWf hc hs

end Sys2Proof.Laws
end

section
/-! How a command ends: in a next state, or refused for one of the two windows of Table 19-1; the queue; the state after reset. -/

namespace Sys2Proof.Laws

open Sys2Proof Machine

/-! ## What a core access may be refused for (Table 19-1) -/

/-- One of the two windows of Table 19-1 whose registers no rule gives. -/
def IsWindow (r : Refusal) : Prop := r = .keepEngineWindow ∨ r = .gangControllerWindow

/-- What is computed may be refused for a window, and for nothing else. -/
def RefusesWindows {α : Type} (o : CoreOut α) : Prop := ∀ r, o = .refuse r → IsWindow r

theorem refusesWindows_ok {α : Type} (v : α) : RefusesWindows (.ok v) := nofun

theorem refusesWindows_trap {α : Type} (k : Nat) (v : Option Word) : RefusesWindows (.trap k v : CoreOut α) := nofun

theorem refusesWindows_refuse {α : Type} {r : Refusal} (h : IsWindow r) : RefusesWindows (.refuse r : CoreOut α) := by
  intro r' hr
  cases hr
  exact h

theorem accessAt_refuses (store : Bool) (n : Nat) (a : Word) : RefusesWindows (accessAt store n a) := by
  unfold accessAt
  split
  · exact refusesWindows_trap _ _
  · split
    · exact refusesWindows_trap _ _
    · next area _ =>
      generalize (if store then area.stores n else area.loads n) = permitted
      cases permitted
      · exact refusesWindows_trap _ _
      · cases area with
        | keepEngine => exact refusesWindows_refuse (.inl rfl)
        | gangBus => exact refusesWindows_refuse (.inr rfl)
        | _ => exact refusesWindows_ok _

theorem atomicAt_refuses (n : Nat) (a : Word) : RefusesWindows (atomicAt n a) := by
  unfold atomicAt
  split
  · exact refusesWindows_trap _ _
  · split
    · exact refusesWindows_ok _
    · exact refusesWindows_trap _ _

theorem bothAt_refuses (n : Nat) (a : Word) (store : Bool) (b : Word) : RefusesWindows (bothAt n a store b) := by
  unfold bothAt
  split
  · exact refusesWindows_trap _ _
  split
  · exact refusesWindows_trap _ _
  split
  · exact refusesWindows_trap _ _
  · split
    · exact refusesWindows_ok _
    · exact refusesWindows_trap _ _
    · next r hr => exact refusesWindows_refuse (accessAt_refuses _ _ _ r hr)
  · next r hr =>
    split
    · exact refusesWindows_trap _ _
    · exact refusesWindows_refuse (accessAt_refuses _ _ _ r hr)

theorem loadEval_refuses (o : Opc) (w : OpWord) (c : Core) : RefusesWindows (loadEval o w c) := by
  unfold loadEval
  split
  · exact refusesWindows_ok _
  · exact refusesWindows_trap _ _
  · next r hr => exact refusesWindows_refuse (accessAt_refuses _ _ _ r hr)

theorem storeEval_refuses (o : Opc) (w : OpWord) (c : Core) : RefusesWindows (storeEval o w c) := by
  unfold storeEval
  split
  · exact refusesWindows_ok _
  · exact refusesWindows_trap _ _
  · next r hr => exact refusesWindows_refuse (accessAt_refuses _ _ _ r hr)

theorem atomicEval_refuses (o : Opc) (w : OpWord) (c : Core) : RefusesWindows (atomicEval o w c) := by
  unfold atomicEval
  split
  · exact refusesWindows_ok _
  · exact refusesWindows_trap _ _
  · next r hr => exact refusesWindows_refuse (atomicAt_refuses _ _ r hr)

theorem blockEval_refuses (o : Opc) (w : OpWord) (d : Dev) : RefusesWindows (blockEval o w d) := by
  unfold blockEval
  split
  · exact refusesWindows_ok _
  split
  · unfold copyEval
    split
    · exact refusesWindows_ok _
    · exact refusesWindows_trap _ _
    · next r hr => exact refusesWindows_refuse (bothAt_refuses _ _ _ _ r hr)
  · unfold fillEval
    split
    · exact refusesWindows_ok _
    · exact refusesWindows_trap _ _
    · next r hr => exact refusesWindows_refuse (accessAt_refuses _ _ _ r hr)
  · unfold diffEval
    dsimp only
    split
    · exact refusesWindows_ok _
    · exact refusesWindows_trap _ _
    · next r hr => exact refusesWindows_refuse (bothAt_refuses _ _ _ _ r hr)

theorem memEval_refuses (o : Opc) (w : OpWord) (d : Dev) : RefusesWindows (memEval o w d) := by
  unfold memEval
  dsimp only
  split
  case h_1 => exact refusesWindows_ok _
  all_goals first
    | exact storeEval_refuses _ _ _
    | exact atomicEval_refuses _ _ _
    | exact blockEval_refuses _ _ _
    | exact loadEval_refuses _ _ _

theorem branchTo_refuses (t : Word) (f : Dev → Dev) : RefusesWindows (branchTo t f) := by
  unfold branchTo
  split
  · exact refusesWindows_trap _ _
  · exact refusesWindows_ok _

theorem branchIf_refuses (c : Bool) (t : Word) (f : Dev → Dev) : RefusesWindows (branchIf c t f) := by
  cases c
  · exact refusesWindows_ok _
  · exact branchTo_refuses _ _

theorem callEval_refuses (t ra : Word) (c : Core) : RefusesWindows (callEval t ra c) := by
  unfold callEval
  repeat' split
  all_goals first
    | exact refusesWindows_trap _ _
    | exact branchTo_refuses _ _

theorem retEval_refuses (c : Core) : RefusesWindows (retEval c) := by
  unfold retEval
  dsimp only
  repeat' split
  all_goals first
    | exact refusesWindows_trap _ _
    | exact branchTo_refuses _ _

theorem controlEval_refuses (o : Opc) (w : OpWord) (n : Nat) (d : Dev) : RefusesWindows (controlEval o w n d) := by
  unfold controlEval
  dsimp only
  split
  case h_13 =>
    unfold ewaitEval
    dsimp only
    split
    · exact refusesWindows_trap _ _
    · exact refusesWindows_ok _
  case h_14 =>
    unfold epostEval
    dsimp only
    split
    · exact refusesWindows_trap _ _
    · exact refusesWindows_ok _
  case h_19 =>
    unfold mtsEval
    dsimp only
    split
    · exact refusesWindows_trap _ _
    · exact refusesWindows_ok _
  all_goals first
    | exact branchTo_refuses _ _
    | exact branchIf_refuses _ _ _
    | exact callEval_refuses _ _ _
    | exact retEval_refuses _
    | exact refusesWindows_trap _ _
    | exact refusesWindows_ok _

theorem evalOp_refuses (x : BundleOp) (n : Nat) (d : Dev) : RefusesWindows (evalOp x n d) := by
  unfold evalOp
  split
  · exact memEval_refuses _ _ _
  · exact controlEval_refuses _ _ _ _
  · exact refusesWindows_ok _

theorem evalAll_refuses (n : Nat) (d : Dev) (l : List BundleOp) : RefusesWindows (evalAll n d l) := by
  induction l with
  | nil => exact refusesWindows_ok _
  | cons x t ih =>
    unfold evalAll
    split
    · split
      · exact refusesWindows_ok _
      · exact refusesWindows_trap _ _
      · next r hr => exact refusesWindows_refuse (ih r hr)
    · exact refusesWindows_trap _ _
    · next r hr =>
      split
      · exact refusesWindows_trap _ _
      · exact refusesWindows_refuse (evalOp_refuses x n d r hr)

theorem runBundle_error {l : List BundleOp} {d : Dev} {r : Refusal} (h : runBundle l d = .error r) : IsWindow r := by
  unfold runBundle at h
  dsimp only at h
  split at h
  · split at h
    · cases h
    · cases h
    · next r' hr =>
      cases h
      exact evalAll_refuses _ _ _ _ hr
  · cases h

/-- An operation word is refused only while the core issues, and for a window. -/
theorem issueOp_error {o : Opc} {w : OpWord} {d : Dev} {r : Refusal} (h : issueOp o w d = .error r) :
    coreIssues (settleWait d) = true ∧ IsWindow r := by
  unfold issueOp at h
  dsimp only at h
  split at h
  · next hissues =>
    split at h
    · exact ⟨hissues, runBundle_error h⟩
    · cases h
  · cases h

/-! ## How a command ends -/

/-- A command answers a next state with another device, or is an operation word that is refused. -/
theorem exec_outcome (c : Instr) (s : State) : (∃ d, exec c s = .next { s with dev := d })
    ∨ ∃ r, exec c s = .refused r ∧ coreIssues (settleWait s.dev) = true ∧ IsWindow r := by
  rcases exec_shape c with ⟨o, w, he⟩ | ⟨f, he, -⟩
  · cases hissue : issueOp o w s.dev with
    | ok d => exact .inl ⟨d, by rw [he, coreOp, hissue]⟩
    | error r => exact .inr ⟨r, by rw [he, coreOp, hissue], issueOp_error hissue⟩
  · exact .inl ⟨f s.dev, he s⟩

/-- Settles O58: the two ways a command ends (`exec_outcome`). -/
theorem commandsEndInANextState : Obligations.CommandsEndInANextState := by
  intro s c
  rcases exec_outcome c s with ⟨d, hd⟩ | ⟨r, hr, hissues, hwindow⟩
  · refine ⟨fun f h => ?_, fun t h => ?_, fun r h => ?_, fun _ => ⟨d, hd⟩⟩
    · rw [hd] at h; cases h
    · rw [hd] at h; cases h; rfl
    · rw [hd] at h; cases h
  · refine ⟨fun f h => ?_, fun t h => ?_, fun r' h => ?_, fun h => ?_⟩
    · rw [hr] at h; cases h
    · rw [hr] at h; cases h
    · rw [hr] at h; cases h; exact ⟨hissues, hwindow⟩
    · rw [hissues] at h; cases h

/-- Settles O56, by the two equations of `step`. -/
theorem stepRunsTheFrontCommand : Obligations.StepRunsTheFrontCommand := by
  intro s c rest
  constructor <;> intro h <;> simp only [step, h]

/-- Settles O57, field by field of the reset state. -/
theorem resetState : Obligations.ResetState := by
  refine ⟨rfl, rfl, rfl, fun p => ?ports, rfl, rfl, rfl, rfl, rfl, rfl, rfl, rfl, ?legal, ?memory⟩
  case ports => cases p <;> exact ⟨rfl, rfl, rfl, rfl, rfl, rfl⟩
  case legal => exact ⟨by decide, by decide, by decide⟩
  case memory => exact ⟨⟨rfl, rfl, rfl, rfl⟩, rfl, rfl⟩

end Sys2Proof.Laws
end

section
/-! The rules of the state that the obligations below share: events and marks leave the ports as they are, what relieving a limit
keeps of a port field by field, PEVT flags that stay set, and the opening of a path. -/

namespace Sys2Proof.Laws

open Sys2Proof Machine

/-! ## Events and marks leave both ports exactly as they are -/

theorem port_congr {a b : Dev} (h0 : a.p0 = b.p0) (h1 : a.p1 = b.p1) (r : PortId) : a.port r = b.port r := by
  cases r <;> assumption

theorem port_ite (c : Prop) [Decidable c] (a b : Dev) (r : PortId) :
    (if c then a else b).port r = if c then a.port r else b.port r := apply_ite (fun d : Dev => d.port r) c a b

@[simp] theorem port_setKeep (d : Dev) (k : Keep) (r : PortId) : Dev.port { d with keep := k } r = d.port r := by cases r <;> rfl
@[simp] theorem port_setQ (d : Dev) (x : Queue) (r : PortId) : Dev.port { d with q := x } r = d.port r := by cases r <;> rfl
@[simp] theorem port_setGl (d : Dev) (x : Global) (r : PortId) : Dev.port { d with gl := x } r = d.port r := by cases r <;> rfl
@[simp] theorem port_setTb (d : Dev) (x : Tables) (r : PortId) : Dev.port { d with tb := x } r = d.port r := by cases r <;> rfl
@[simp] theorem port_setFwu (d : Dev) (x : Fwu) (r : PortId) : Dev.port { d with fwu := x } r = d.port r := by cases r <;> rfl
@[simp] theorem port_setMbx (d : Dev) (x : Mailbox) (r : PortId) : Dev.port { d with mbx := x } r = d.port r := by cases r <;> rfl
@[simp] theorem port_setGang (d : Dev) (x : Gang) (r : PortId) : Dev.port { d with gang := x } r = d.port r := by cases r <;> rfl
@[simp] theorem port_setPw (d : Dev) (x : Power) (r : PortId) : Dev.port { d with pw := x } r = d.port r := by cases r <;> rfl
@[simp] theorem port_setWin (d : Dev) (x : Window) (r : PortId) : Dev.port { d with win := x } r = d.port r := by cases r <;> rfl

@[simp] theorem setOvf_port (d : Dev) (r : PortId) : (setOvf d).port r = d.port r := by
  unfold setOvf
  cases r <;> rfl

@[simp] theorem loseEvent_port (seq ms : Half) (d : Dev) (r : PortId) : (loseEvent seq ms d).port r = d.port r := by
  unfold loseEvent
  repeat' split
  all_goals simp

@[simp] theorem logEvent_port (e : Event) (ms : Word) (d : Dev) (r : PortId) : (logEvent e ms d).port r = d.port r := by
  simp [logEvent]

@[simp] theorem post_port (x : EventSpec) (d : Dev) (r : PortId) : (post x d).port r = d.port r := by
  simp [post, port_ite]

@[simp] theorem postEndpoint_port (typ code : Nat) (p : PortId) (i : Idx) (log : Bool) (d : Dev) (r : PortId) :
    (postEndpoint typ code p i log d).port r = d.port r := post_port _ d r
@[simp] theorem postPort_port (typ code : Nat) (p : PortId) (w : Half) (log : Bool) (d : Dev) (r : PortId) :
    (postPort typ code p w log d).port r = d.port r := post_port _ d r
@[simp] theorem postGlobal_port (typ code : Nat) (w : Half) (log : Bool) (d : Dev) (r : PortId) :
    (postGlobal typ code w log d).port r = d.port r := post_port _ d r
@[simp] theorem countUp_port (c : Nat) (d : Dev) (r : PortId) : (countUp c d).port r = d.port r := by simp [countUp]
@[simp] theorem markHost_port (n : Nat) (d : Dev) (r : PortId) : (markHost n d).port r = d.port r := by simp [markHost, port_ite]
@[simp] theorem dueSettings_port (d : Dev) (r : PortId) : (dueSettings d).port r = d.port r := by simp [dueSettings, port_ite]
@[simp] theorem dirtyPage_port (p : PortId) (i : Idx) (d : Dev) (r : PortId) : (dirtyPage p i d).port r = d.port r := by
  simp [dirtyPage, port_ite]
@[simp] theorem postFwu_port (code : Nat) (d : Dev) (r : PortId) : (postFwu code d).port r = d.port r := by simp [postFwu]

/-! ## The rest of the device under events and marks -/

@[simp] theorem post_us (x : EventSpec) (d : Dev) : (post x d).us = d.us := us_of_steady (post_steady x d)
@[simp] theorem postPort_us (typ code : Nat) (p : PortId) (w : Half) (log : Bool) (d : Dev) :
    (postPort typ code p w log d).us = d.us := post_us _ d
@[simp] theorem postEndpoint_us (typ code : Nat) (p : PortId) (i : Idx) (log : Bool) (d : Dev) :
    (postEndpoint typ code p i log d).us = d.us := post_us _ d
@[simp] theorem postGlobal_us (typ code : Nat) (w : Half) (log : Bool) (d : Dev) :
    (postGlobal typ code w log d).us = d.us := post_us _ d

/-- A host write that reaches its register (R28, R64): it takes effect, and may raise source 7. -/
theorem byHost_of_ok {n : Nat} {f : Dev → Dev} {d : Dev} (h : hostOk d = true) : byHost n f d = markHost n (f d) := by
  simp [byHost, h]

/-! ## Relieving a limit, field by field (R280, R281) -/

@[simp] theorem relieve_ctl (r : PortId) (d : Dev) : ((relieve d).port r).ctl = (d.port r).ctl :=
  (congrArg Port.ctl (relieve_still r d) :)
@[simp] theorem relieve_cfg (r : PortId) (d : Dev) : ((relieve d).port r).cfg = (d.port r).cfg :=
  (congrArg Port.cfg (relieve_still r d) :)
@[simp] theorem relieve_att (r : PortId) (d : Dev) : ((relieve d).port r).att = (d.port r).att :=
  (congrArg Port.att (relieve_still r d) :)
@[simp] theorem relieve_met (r : PortId) (d : Dev) : ((relieve d).port r).met = (d.port r).met :=
  (congrArg Port.met (relieve_still r d) :)
@[simp] theorem relieve_grd (r : PortId) (d : Dev) : ((relieve d).port r).grd = (d.port r).grd :=
  (congrArg Port.grd (relieve_still r d) :)
@[simp] theorem relieve_drp (r : PortId) (d : Dev) : ((relieve d).port r).drp = (d.port r).drp :=
  (congrArg Port.drp (relieve_still r d) :)
@[simp] theorem relieve_rail (r : PortId) (d : Dev) : ((relieve d).port r).rail = (d.port r).rail :=
  (congrArg Port.rail (relieve_still r d) :)
@[simp] theorem relieve_drw (r : PortId) (d : Dev) : ((relieve d).port r).drw = (d.port r).drw :=
  (congrArg Port.drw (relieve_still r d) :)
@[simp] theorem relieve_thermal (r : PortId) (d : Dev) : ((relieve d).port r).thermal = (d.port r).thermal :=
  (congrArg Port.thermal (relieve_still r d) :)
@[simp] theorem relieve_bundle (r : PortId) (d : Dev) : ((relieve d).port r).bundle = (d.port r).bundle :=
  (congrArg Port.bundle (relieve_still r d) :)
@[simp] theorem relieve_lev_hold (r : PortId) (d : Dev) : ((relieve d).port r).lev.hold = (d.port r).lev.hold :=
  (congrArg (fun q => q.lev.hold) (relieve_still r d) :)
@[simp] theorem relieve_lev_tgtNext (r : PortId) (d : Dev) : ((relieve d).port r).lev.tgtNext = (d.port r).lev.tgtNext :=
  (congrArg (fun q => q.lev.tgtNext) (relieve_still r d) :)
@[simp] theorem relieve_lev_raiseFrom (r : PortId) (d : Dev) : ((relieve d).port r).lev.raiseFrom = (d.port r).lev.raiseFrom :=
  (congrArg (fun q => q.lev.raiseFrom) (relieve_still r d) :)

/-- A ring record without the count of the peer gap that traffic changes. -/
def Ring.steady (r : Ring) : Ring := { r with pseq := 0, gapDue := 0 }

@[simp] theorem relieve_ring (r : PortId) (d : Dev) : Ring.steady ((relieve d).port r).ring = Ring.steady (d.port r).ring :=
  (congrArg Port.ring (relieve_still r d) :)

/-! ## What setting PEVT flags keeps set -/

theorem setPevt_pevt (i j : Nat) (q : Port) : (setPevt i q).pevt.getLsbD j = (q.pevt.getLsbD j || (BitVec.ofNat 13 (2 ^ i)).getLsbD j) := by
  simp [setPevt]

/-- A PEVT flag that is set stays set as THROT is noted and events are posted (R113, R309). -/
theorem postThrot_pevt {i : Nat} {p r : PortId} {d : Dev} (h : (d.port r).pevt.getLsbD i = true) :
    ((postThrot p d).port r).pevt.getLsbD i = true := by
  unfold postThrot
  dsimp only
  split
  · rw [post_port]
    cases p <;> cases r <;> simp_all [Dev.modPort, Dev.port, setPevt]
  · exact h

theorem noteThrot_pevt {i : Nat} {p r : PortId} {d : Dev} (h : (d.port r).pevt.getLsbD i = true) :
    ((noteThrot p d).port r).pevt.getLsbD i = true := by
  have hflush : ((flushThrot p d).port r).pevt.getLsbD i = true := by
    unfold flushThrot
    split
    · exact postThrot_pevt h
    · exact h
  unfold noteThrot
  dsimp only
  split
  · exact h
  · cases p <;> cases r <;> exact hflush

theorem relieve_pevt {i : Nat} {r : PortId} {d : Dev} (h : (d.port r).pevt.getLsbD i = true) :
    ((relieve d).port r).pevt.getLsbD i = true := by
  rw [pevt_of_steady (relieve_steady d) r]
  exact noteThrot_pevt (p := .p1) (noteThrot_pevt (p := .p0) h)

/-! ## Opening a path (R213, R242) -/

@[simp] theorem openPath_gate (q : Port) : (openPath q).gate = .opened := rfl
@[simp] theorem openPath_role (q : Port) : (openPath q).role = q.role := rfl
@[simp] theorem openPath_ctl (q : Port) : (openPath q).ctl = q.ctl := rfl
@[simp] theorem openPath_cfg (q : Port) : (openPath q).cfg = q.cfg := rfl
@[simp] theorem openPath_att (q : Port) : (openPath q).att = q.att := rfl
@[simp] theorem openPath_rail (q : Port) : (openPath q).rail = q.rail := rfl
@[simp] theorem openPath_drw (q : Port) : (openPath q).drw = q.drw := rfl
@[simp] theorem openPath_met (q : Port) : (openPath q).met = q.met := rfl
@[simp] theorem openPath_pevt (q : Port) : (openPath q).pevt = q.pevt := rfl
@[simp] theorem openPath_grd (q : Port) : (openPath q).grd = { q.grd with acc := 0, full := false } := rfl
@[simp] theorem openPath_ring (q : Port) : (openPath q).ring = { q.ring with block := false } := rfl
@[simp] theorem openPath_lev_cur (q : Port) : (openPath q).lev.cur = 0 := rfl

end Sys2Proof.Laws
end

section
/-! The guard's trips (chapter 11): what an abort run keeps, what a trip leaves in each role, and which cause of a cycle is recorded. -/

namespace Sys2Proof.Laws

open Sys2Proof Machine

/-! ## An abort run (R360, R363, R364) -/

/-- A port without what an abort run changes: `Port.still` without the level. -/
def Port.base (q : Port) : Port := { Port.still q with lev := { (Port.still q).lev with cur := 0 } }

theorem base_of_steady {a b : Dev} (h : steady a = steady b) (r : PortId) : Port.base (a.port r) = Port.base (b.port r) := by
  simp only [Port.base, still_of_steady h r]

/-- What a change of a port keeps, it keeps of either port. -/
theorem field_modPort {α : Type} (g : Port → α) (p r : PortId) (f : Port → Port) (h : ∀ q, g (f q) = g q) (d : Dev) :
    g ((d.modPort p f).port r) = g (d.port r) := by
  cases p <;> cases r <;> simp [Dev.modPort, Dev.port, h]

theorem levelEnds_base (p r : PortId) (d : Dev) : Port.base ((levelEnds p d).port r) = Port.base (d.port r) := by
  unfold levelEnds
  split
  · rw [postPort_port]
    exact field_modPort Port.base p r _ (by intro q; rfl) d
  · rfl

theorem base_of_portSteady {q q' : Port} (h : Port.steady q = Port.steady q') : Port.base q = Port.base q' := by
  simp only [Port.base, Port.still, h]

theorem abortRun_base (sa w : Nat) (p r : PortId) (d : Dev) : Port.base ((abortRun sa w p d).port r) = Port.base (d.port r) := by
  unfold abortRun
  refine (field_modPort Port.base p r _ (by intro q; exact base_of_portSteady (dropTraffic_steady q)) _).trans ?_
  rw [base_of_steady (endAll_steady w p _) r, levelEnds_base p r, base_of_steady (abortSlots_steady sa w p d) r]

@[simp] theorem abortRun_role (sa w : Nat) (p r : PortId) (d : Dev) : ((abortRun sa w p d).port r).role = (d.port r).role :=
  (congrArg Port.role (abortRun_base sa w p r d) :)
@[simp] theorem abortRun_ctl (sa w : Nat) (p r : PortId) (d : Dev) : ((abortRun sa w p d).port r).ctl = (d.port r).ctl :=
  (congrArg Port.ctl (abortRun_base sa w p r d) :)
@[simp] theorem abortRun_cfg (sa w : Nat) (p r : PortId) (d : Dev) : ((abortRun sa w p d).port r).cfg = (d.port r).cfg :=
  (congrArg Port.cfg (abortRun_base sa w p r d) :)
@[simp] theorem abortRun_gate (sa w : Nat) (p r : PortId) (d : Dev) : ((abortRun sa w p d).port r).gate = (d.port r).gate :=
  (congrArg Port.gate (abortRun_base sa w p r d) :)
@[simp] theorem abortRun_grd (sa w : Nat) (p r : PortId) (d : Dev) : ((abortRun sa w p d).port r).grd = (d.port r).grd :=
  (congrArg Port.grd (abortRun_base sa w p r d) :)
@[simp] theorem abortRun_att (sa w : Nat) (p r : PortId) (d : Dev) : ((abortRun sa w p d).port r).att = (d.port r).att :=
  (congrArg Port.att (abortRun_base sa w p r d) :)
@[simp] theorem abortRun_rail (sa w : Nat) (p r : PortId) (d : Dev) : ((abortRun sa w p d).port r).rail = (d.port r).rail :=
  (congrArg Port.rail (abortRun_base sa w p r d) :)

/-- A PEVT flag that is set stays set through an abort run. -/
theorem abortRun_pevt {i sa w : Nat} {p : PortId} {d : Dev} {r : PortId} (h : (d.port r).pevt.getLsbD i = true) :
    ((abortRun sa w p d).port r).pevt.getLsbD i = true := by
  have hslots : ((abortSlots sa w p d).port r).pevt.getLsbD i = true := by
    rw [pevt_of_steady (abortSlots_steady sa w p d) r]
    exact h
  have hlevel : ((levelEnds p (abortSlots sa w p d)).port r).pevt.getLsbD i = true := by
    unfold levelEnds
    split
    · rw [postPort_port]
      cases p <;> cases r <;> simp_all [Dev.modPort, Dev.port, setPevt]
    · exact hslots
  have hend : ((endAll w p (levelEnds p (abortSlots sa w p d))).port r).pevt.getLsbD i = true := by
    rw [pevt_of_steady (endAll_steady w p _) r]
    exact hlevel
  unfold abortRun
  exact (congrArg (BitVec.getLsbD · i) (field_modPort Port.pevt p r _ (by intro q; rfl) _)).trans hend

/-! ## The guard's trips (R252 to R255) -/

/-- A port on which a trip has set its latch, with its cause and time and PEVT.TRIP (R252). -/
def latched (cause now : Nat) (q : Port) : Port := notePTrip (latchTrip (BitVec.ofNat 4 cause) now q)

@[simp] theorem latched_latch (cause now : Nat) (q : Port) : (latched cause now q).grd.latch = true := rfl
@[simp] theorem latched_cause (cause now : Nat) (q : Port) : (latched cause now q).grd.cause = BitVec.ofNat 4 cause := rfl
@[simp] theorem latched_tripAt (cause now : Nat) (q : Port) : (latched cause now q).grd.tripAt = now := rfl
@[simp] theorem latched_pevt (cause now : Nat) (q : Port) : (latched cause now q).pevt.getLsbD eTrip = true := by
  show ((setPevt eTrip _).pevt).getLsbD eTrip = true
  simp [setPevt_pevt, eTrip]

/-- The master's slots abort with its trip (R254). -/
theorem abortSlots_ite_steady (c : Bool) (sa w : Nat) (p : PortId) (d : Dev) :
    steady (if c then abortSlots sa w p d else d) = steady d := by
  cases c <;> simp

theorem tripRing_tripped (n : Nat) (p : PortId) (d : Dev) : Tripped (BitVec.ofNat 4 n) p d (tripRing n p d) := by
  have hslots := abortSlots_ite_steady (d.port p).master 1 4 p
    (postPort 0x14 n p 0 true (d.modPort p fun q => openPath (latched n d.us q)))
  have hend : tripRing n p d = relieve (countUp (3 + p.toNat) (if (d.port p).master then abortSlots 1 4 p
    (postPort 0x14 n p 0 true (d.modPort p fun q => openPath (latched n d.us q))) else
    postPort 0x14 n p 0 true (d.modPort p fun q => openPath (latched n d.us q)))) := rfl
  rw [hend]
  refine ⟨?_, ?_, ?_, ?_, ?_, ?_, relieve_pevt ?_, ?_, ?_⟩ <;>
    simp only [relieve_gate, relieve_grd, relieve_lev_cur, countUp_port, gate_of_steady hslots, grd_of_steady hslots,
      lev_cur_of_steady hslots, pevt_of_steady hslots] <;> simp

theorem tripDraw_tripped (n : Nat) (p : PortId) (d : Dev) : Tripped (BitVec.ofNat 4 n) p d (tripDraw n p d) := by
  have hend : tripDraw n p d =
      relieve (countUp (3 + p.toNat) (postPort 0x14 n p 0 true (d.modPort p fun q => openPath (latched n d.us q)))) := rfl
  rw [hend]
  refine ⟨?_, ?_, ?_, ?_, ?_, ?_, relieve_pevt ?_, ?_, ?_⟩ <;> simp

/-- A radial port that a trip has latched, with its WITHDRAW to every class (R253). -/
def withdrawnAll (n now : Nat) (q : Port) : Port := broadcastWithdraw 4 0xF (latched n now { q with gate := .opened })

theorem withdrawnAll_grd (n now : Nat) (q : Port) : (withdrawnAll n now q).grd = (latched n now q).grd :=
  (congrArg Port.grd (broadcastWithdraw_steady 4 0xF (latched n now { q with gate := .opened })) :)

theorem withdrawnAll_pevt (n now : Nat) (q : Port) : (withdrawnAll n now q).pevt = (latched n now q).pevt :=
  (congrArg Port.pevt (broadcastWithdraw_steady 4 0xF (latched n now { q with gate := .opened })) :)

theorem tripRadial_tripped (n : Nat) (p : PortId) (d : Dev) : Tripped (BitVec.ofNat 4 n) p d (tripRadial n p d) := by
  have hend : tripRadial n p d = countUp (3 + p.toNat)
      ((abortRun 1 4 p (postPort 0x14 n p 0 true (d.modPort p (withdrawnAll n d.us)))).modPort p openPath) := rfl
  have hpevt : ((abortRun 1 4 p (postPort 0x14 n p 0 true (d.modPort p (withdrawnAll n d.us)))).port p).pevt.getLsbD eTrip = true :=
    abortRun_pevt (by simp [withdrawnAll_pevt])
  rw [hend]
  refine ⟨?_, ?_, ?_, ?_, ?_, ?_, ?_, ?_, ?_⟩ <;>
    simp only [countUp_port, modPort_port, modPort_port_other, openPath_gate, openPath_grd, openPath_lev_cur, openPath_pevt, hpevt,
      abortRun_gate, abortRun_grd, postPort_port, withdrawnAll_grd, latched_latch, latched_cause, latched_tripAt]

/-- Which trip a running guard with a clear latch takes, by role and ring (R253 to R255). -/
theorem trip_of_clear {n : Nat} {p : PortId} {d : Dev} (hrun : guardRuns (d.port p) = true) (hlatch : (d.port p).grd.latch = false) :
    trip n p d = match (d.port p).role with
      | .feed => if (d.port p).ring.peer then tripRing n p d else tripRadial n p d
      | .draw => tripDraw n p d
      | .off => d :=
  if_pos (by simp [hrun, hlatch])

/-- A trip of a running guard whose latch is clear (R252 to R255). -/
theorem trip_tripped {n : Nat} {p : PortId} {d : Dev} (hrun : guardRuns (d.port p) = true) (hlatch : (d.port p).grd.latch = false) :
    Tripped (BitVec.ofNat 4 n) p d (trip n p d) := by
  have hrole : (d.port p).role ≠ .off := by simp_all [guardRuns]
  rw [trip_of_clear hrun hlatch]
  cases hr : (d.port p).role with
  | off => exact absurd hr hrole
  | draw => exact tripDraw_tripped n p d
  | feed =>
    by_cases hpeer : (d.port p).ring.peer = true
    · rw [if_pos hpeer]
      exact tripRing_tripped n p d
    · rw [if_neg hpeer]
      exact tripRadial_tripped n p d

/-- A set latch changes nothing further (R252). -/
theorem trip_of_latch {n : Nat} {p : PortId} {d : Dev} (h : (d.port p).grd.latch = true) : trip n p d = d := by
  simp [trip, h]

theorem tripFirst_of_not_fires {n : Nat} {p : PortId} {c : Crossing} {d : Dev} (h : fires (d.port p) c n = false) :
    tripFirst n p c d = d := by
  simp [tripFirst, h]

/-- A comparator that fires trips with the first cause of its cycle (R252). -/
theorem tripFirst_of_fires {n m : Nat} {p : PortId} {c : Crossing} {d : Dev} (h : fires (d.port p) c n = true)
    (hm : firstCause (d.port p) c n = m) (hle : m ≤ 4) : tripFirst n p c d = trip m p d := by
  simp [tripFirst, h, hm, hle]

/-- A cycle in which nothing else fires. -/
theorem firstCause_alone {q : Port} {c : Crossing} {n : Nat} (hc : c.also = 0) (hn : n ∈ tripOrder) (hf : fires q c n = true) :
    firstCause q c n = n := by
  simp only [tripOrder, List.mem_cons, List.not_mem_nil, or_false] at hn
  obtain rfl | rfl | rfl | rfl | rfl | rfl := hn <;> simp [firstCause, tripOrder, hc, hf]

/-- Causes 5 and 6 come before the comparators, and have commands of their own (Table 11-3). -/
theorem firstCause_critical {q : Port} {c : Crossing} {n : Nat} (hn : n ≤ 4) (h : c.also.getLsbD 5 = true ∨ c.also.getLsbD 6 = true) :
    4 < firstCause q c n := by
  have h5n : ¬ 5 = n := by omega
  cases h5 : c.also.getLsbD 5 with
  | true =>
    simp only [firstCause, tripOrder, List.find?, fires, h5, Bool.or_true, Bool.and_true, Option.getD_some]
    omega
  | false =>
    have h6 : c.also.getLsbD 6 = true := h.resolve_left (by rw [h5]; exact Bool.false_ne_true)
    simp only [firstCause, tripOrder, List.find?, fires, h5, h6, h5n, Bool.or_true, Bool.or_false, decide_false, Bool.false_and,
      Bool.and_true, Option.getD_some]
    omega

/-- A trip by its set latch, or a cycle with cause 5 or 6: the comparator changes nothing. -/
theorem tripFirst_of_latch_or_critical {n : Nat} {p : PortId} {c : Crossing} {d : Dev} (hn : n ≤ 4)
    (h : (d.port p).grd.latch = true ∨ c.also.getLsbD 5 = true ∨ c.also.getLsbD 6 = true) : tripFirst n p c d = d := by
  rcases h with h | h
  · simp [tripFirst, trip_of_latch h]
  · have := firstCause_critical (q := d.port p) hn h
    have hnot : ¬ firstCause (d.port p) c n ≤ 4 := by omega
    simp [tripFirst, hnot]

/-- The causes that Table 11-3 puts before the slow one, in a cycle in which neither 5 nor 6 fires. -/
theorem firstCause_slow {q : Port} {c : Crossing} (h5 : c.also.getLsbD 5 = false) (h6 : c.also.getLsbD 6 = false)
    (hfull : q.grd.full = true) :
    firstCause q c 2 =
      if (c.also.getLsbD 1 && fires q c 1) = true then 1
      else if (c.also.getLsbD 4 && fires q c 4) = true then 4
      else if (c.also.getLsbD 3 && fires q c 3) = true then 3
      else 2 := by
  have hslow : fires q c 2 = true := hfull
  simp only [firstCause, tripOrder, List.find?, h5, h6, hslow, Nat.reduceEqDiff, decide_false, decide_true,
    Bool.false_or, Bool.true_or, Bool.or_self, Bool.false_and, Bool.and_self]
  cases c.also.getLsbD 1 && fires q c 1 <;> cases c.also.getLsbD 4 && fires q c 4 <;>
    cases c.also.getLsbD 3 && fires q c 3 <;> rfl

theorem reverseFires_iff (q : Port) (c : Crossing) : reverseFires q c = true ↔ forwardUv q c.sense < -1500 :=
  decide_eq_true_iff

/-- The reverse comparator trips a port that is no ring feeder (R251). -/
theorem fires_reverse {q : Port} {c : Crossing} (hring : q.ringFeeder = false) (h : forwardUv q c.sense < -1500) :
    fires q c 4 = true := by
  simp only [fires, hring, (reverseFires_iff q c).2 h, Bool.not_false, Bool.and_self]

theorem not_fires_reverse {q : Port} {c : Crossing} (h : -1500 ≤ forwardUv q c.sense) : fires q c 4 = false := by
  have hnot : reverseFires q c = false := Bool.eq_false_iff.2 fun hf => absurd ((reverseFires_iff q c).1 hf) (by omega)
  simp only [fires, hnot, Bool.and_false]

/-! ## The obligation -/

/-- A comparator that fires alone in its cycle trips the port with its own cause. -/
theorem leads_trip {cmd : Instr} {n : Nat} {s : State} {p : PortId} {c : Crossing} (hcmd : exec cmd s = onDev (tripFirst n p c) s)
    (hrun : guardRuns (s.dev.port p) = true) (hlatch : (s.dev.port p).grd.latch = false) {m : Nat}
    (hfires : fires (s.dev.port p) c n = true) (hm : firstCause (s.dev.port p) c n = m) (hle : m ≤ 4) :
    Leads cmd s (Tripped (BitVec.ofNat 4 m) p s.dev) := by
  rw [leads_onDev hcmd, tripFirst_of_fires hfires hm hle]
  exact trip_tripped hrun hlatch

theorem exec_of_tripFirst_eq {cmd : Instr} {n : Nat} {s : State} {p : PortId} {c : Crossing}
    (hcmd : exec cmd s = onDev (tripFirst n p c) s) (h : tripFirst n p c s.dev = s.dev) : exec cmd s = .next s := by
  rw [hcmd, onDev_eq, h]

/-- Settles O1: a comparator that fires trips with the first cause of Table 11-3, and `trip_tripped` says what a trip leaves in each
role; one that does not fire, and one under a set latch, is the identity. -/
theorem guardTripOpensAndLatches : Obligations.GuardTripOpensAndLatches := by
  intro s p c
  have hfast : exec (.fastOverCurrent p c) s = onDev (tripFirst 1 p c) s := rfl
  have hslow : exec (.slowOverCurrent p c) s = onDev (tripFirst 2 p c) s := rfl
  have hover : exec (.overVoltage p c) s = onDev (tripFirst 3 p c) s := rfl
  have hrev : exec (.reverseCurrent p c) s = onDev (tripFirst 4 p c) s := rfl
  refine ⟨fun hrun hlatch => ⟨fun halone => ?alone, fun h5 h6 hfull => ?order, ?fast, ?slow, ?overVolt, ?reverse⟩, fun h => ?latch⟩
  case alone =>
    have htrip {cmd : Instr} {n : Nat} (hcmd : exec cmd s = onDev (tripFirst n p c) s) (hn : n ∈ tripOrder) (hle : n ≤ 4)
        (hf : fires (s.dev.port p) c n = true) : Leads cmd s (Tripped (BitVec.ofNat 4 n) p s.dev) :=
      leads_trip hcmd hrun hlatch hf (firstCause_alone halone hn hf) hle
    refine ⟨fun h => htrip hfast (by decide) (by decide) (by simpa [fires] using h),
      fun h => htrip hslow (by decide) (by decide) h, fun h => htrip hover (by decide) (by decide) h,
      fun hring h => htrip hrev (by decide) (by decide) (fires_reverse hring h)⟩
  case order =>
    have hfirst := firstCause_slow (q := s.dev.port p) h5 h6 hfull
    refine ⟨fun h1 h => ?_, fun h1 h4 hring h => ?_, fun h1 h4 h3 h => ?_⟩
    · have hf : fires (s.dev.port p) c 1 = true := by simpa [fires] using h
      exact leads_trip hslow hrun hlatch hfull (m := 1) (by rw [hfirst, h1, hf]; rfl) (by decide)
    · have hf := fires_reverse hring h
      exact leads_trip hslow hrun hlatch hfull (m := 4) (by rw [hfirst, h1, h4, hf]; rfl) (by decide)
    · have hf : fires (s.dev.port p) c 3 = true := h
      exact leads_trip hslow hrun hlatch hfull (m := 3) (by rw [hfirst, h1, h4, h3, hf]; rfl) (by decide)
  case fast => exact fun h => exec_of_tripFirst_eq hfast (tripFirst_of_not_fires (by simpa [fires] using h))
  case slow => exact fun h => exec_of_tripFirst_eq hslow (tripFirst_of_not_fires h)
  case overVolt => exact fun h => exec_of_tripFirst_eq hover (tripFirst_of_not_fires h)
  case reverse =>
    exact fun h => exec_of_tripFirst_eq hrev (tripFirst_of_not_fires (not_fires_reverse h))
  case latch =>
    exact ⟨exec_of_tripFirst_eq hfast (tripFirst_of_latch_or_critical (by decide) h),
      exec_of_tripFirst_eq hslow (tripFirst_of_latch_or_critical (by decide) h),
      exec_of_tripFirst_eq hover (tripFirst_of_latch_or_critical (by decide) h),
      exec_of_tripFirst_eq hrev (tripFirst_of_latch_or_critical (by decide) h)⟩

end Sys2Proof.Laws
end

section
/-! The guard's blocking, restart and thresholds (R233, R234, R247, R256 to R259). -/

namespace Sys2Proof.Laws

open Sys2Proof Machine

/-! ## Blocking on a ring (R233, R234) -/

@[simp] theorem relieve_ring_peer (r : PortId) (d : Dev) : ((relieve d).port r).ring.peer = (d.port r).ring.peer :=
  (congrArg Ring.peer (relieve_ring r d) :)
@[simp] theorem relieve_ring_heldOpen (r : PortId) (d : Dev) : ((relieve d).port r).ring.heldOpen = (d.port r).ring.heldOpen :=
  (congrArg Ring.heldOpen (relieve_ring r d) :)
@[simp] theorem relieve_ring_mism (r : PortId) (d : Dev) : ((relieve d).port r).ring.mism = (d.port r).ring.mism :=
  (congrArg Ring.mism (relieve_ring r d) :)

/-- RING.MISM with its event: the flag and PEVT.RING, and nothing else of the port (R226, R234). -/
theorem mismatch_port (p : PortId) (d : Dev) :
    (mismatch p d).port p = setPevt eRing { d.port p with ring := { (d.port p).ring with mism := true } } := by
  simp [mismatch]

theorem setPevt_same (i : Nat) (hi : i < 13) (q : Port) : (setPevt i q).pevt.getLsbD i = true := by
  rw [setPevt_pevt, BitVec.getLsbD_ofNat]
  simp [hi]

/-- A feeder that gives up holds its path open, with RING.MISM and its event (R234). -/
theorem stopReclosing_port (p : PortId) (d : Dev) :
    let q := (stopReclosing p d).port p
    q.gate = .opened ∧ q.ring.heldOpen = true ∧ q.ring.mism = true ∧ q.pevt.getLsbD eRing = true := by
  unfold stopReclosing
  dsimp only
  split
  · rw [mismatch_port, modPort_port]
    exact ⟨rfl, rfl, rfl, setPevt_same eRing (by decide) _⟩
  · refine ⟨?_, ?_, ?_, relieve_pevt ?_⟩
    case refine_4 =>
      rw [mismatch_port]
      exact setPevt_same eRing (by decide) _
    all_goals
      simp only [relieve_gate, relieve_ring_heldOpen, relieve_ring_mism, mismatch_port, modPort_port]
      rfl

/-- Settles O2: each of the three commands is its change of the one port where its condition holds. -/
theorem ringFeederBlocksAndRecloses : Obligations.RingFeederBlocksAndRecloses := by
  intro s p hring
  refine ⟨fun c hrun hrev hgate => ?block, fun hblock hheld hmatch => ?reclose, fun hblock hdue => ?giveUp⟩
  case block =>
    rw [leads_onDev (show exec (.reverseCurrentBlock p c) s = execReverseCurrentBlock p c s from rfl)]
    simp only [hrun, hring, (reverseFires_iff _ c).2 hrev, hgate, ne_eq, not_false_eq_true, decide_true, Bool.and_self, guardDev_true,
      modPort_port, modPort_port_other]
    exact ⟨rfl, rfl, rfl, rfl, rfl, rfl, trivial⟩
  case reclose =>
    have hmatched : ringMatched (s.dev.port p) = true := decide_eq_true hmatch
    rw [leads_onDev (show exec (.ringReclose p) s = execRingReclose p s from rfl)]
    simp [hring, hblock, hheld, hmatched]
  case giveUp =>
    rw [leads_onDev (show exec (.ringBlockTimeout p) s = execRingBlockTimeout p s from rfl)]
    have hnow : (decide ((s.dev.port p).ring.blockAt + 100000 ≤ s.dev.us) || decide (3 ≤ (s.dev.port p).ring.blocks.length)) = true := by
      simpa using hdue
    simp only [hring, hblock, hnow, Bool.and_self, guardDev_true]
    exact stopReclosing_port p s.dev

/-! ## Restart (R256 to R259) -/

/-- A path that closes again starts its gate drive with the breaker at 0, on a ring at the ring level (R242, R256). -/
theorem startClosing_ringCur {now : Nat} {q : Port} (hring : q.ringFeeder = true) (hgate : q.gate = .opened) :
    (startClosing now q).lev.cur = q.lev.ringCur := by
  obtain ⟨hrole, hpeer⟩ : q.role = .feed ∧ q.ring.peer = true := by simpa [Port.ringFeeder] using hring
  simp [startClosing, segmentLevel, hring, hgate, hrole, hpeer]

theorem gate_of_mayReclose {d : Dev} {p : PortId} (h : mayReclose d p = true) : (d.port p).gate = .opened := by
  simp only [mayReclose, Bool.and_eq_true, decide_eq_true_eq] at h
  grind

/-- What a write of GUARD.AUTO leaves (R257): written 0 it ends the cool-down and keeps the latch. -/
theorem guardAuto_port (v : Bool) (p : PortId) (d : Dev) :
    ((guardAuto v p d).port p).grd.auto = v
      ∧ (v = false → ((guardAuto v p d).port p).grd.cool = none ∧ ((guardAuto v p d).port p).grd.latch = (d.port p).grd.latch) := by
  cases v with
  | false => simp [guardAuto]
  | true =>
    refine ⟨?_, fun h => absurd h (by decide)⟩
    simp only [guardAuto, dueSettings_port, modPort_port, Bool.not_true, Bool.false_eq_true, if_false]
    repeat' split
    all_goals rfl

/-- A host's GUARD.CLR outside SAFE releases a latch of cause 1 to 4 and forgets the trips, and keeps the cause (R258). -/
theorem guardClear_port {p : PortId} {d : Dev} (hlatch : guardLatched (d.port p) = true) (hsafe : d.gl.safe = false) :
    ((guardClear p d).port p).grd.latch = false ∧ ((guardClear p d).port p).grd.trips = []
      ∧ ((guardClear p d).port p).grd.cause = (d.port p).grd.cause := by
  simp [guardClear, hlatch, hsafe, releaseLatch]

theorem tripWins_false {tripped : Bool} {q : Port} {now : Nat} (h : tripped = false ∨ q.grd.tripAt ≠ now) :
    tripWins tripped q now = false := by
  rcases h with h | h <;> simp [tripWins, h]

/-- Settles O3: the release of a latch, GUARD.AUTO and the start of the gate drive, each by the rule of its change. -/
theorem guardRestart : Obligations.GuardRestart := by
  intro s p
  refine ⟨fun t hcool ht => ?coolDown, fun tripped hok hlatch hlow hhigh hsafe => ?clear, fun v hok => ?auto, fun hmay => ?reclose,
    fun t hgate hnear => ?closed⟩
  case coolDown =>
    rw [leads_onDev (show exec (.coolDown p) s = execCoolDown p s from rfl)]
    simp [hcool, ht, releaseLatch]
  case clear =>
    have hlatched : guardLatched (s.dev.port p) = true := by simp [guardLatched, hlatch, hlow, hhigh]
    rw [leads_onDev (show exec (.guardClr p tripped) s = execGuardClr p tripped s from rfl), byHost_of_ok hok]
    refine ⟨fun h => ?_, fun htrip hat => ?_⟩
    · simp only [markHost_port, tripWins_false h, Bool.false_eq_true, if_false]
      exact guardClear_port hlatched hsafe
    · have hwins : tripWins tripped (s.dev.port p) s.dev.us = true := by simp [tripWins, htrip, hlatch, hat]
      rw [if_pos hwins]
      exact ⟨markHost_port _ _ .p0, markHost_port _ _ .p1⟩
  case auto =>
    rw [leads_onDev (show exec (.guardAutoWrite p v) s = execGuardAutoWrite p v s from rfl), byHost_of_ok hok]
    simp only [markHost_port]
    exact guardAuto_port v p s.dev
  case reclose =>
    rw [leads_onDev (show exec (.guardReclose p) s = execGuardReclose p s from rfl), hmay, guardDev_true, modPort_port,
      modPort_port_other]
    exact ⟨rfl, rfl, fun hring => startClosing_ringCur hring (gate_of_mayReclose hmay), rfl⟩
  case closed =>
    rw [leads_onDev (show exec (.pathClosed p) s = execPathClosed p s from rfl)]
    exact modPort_congr _ p _ _ (by simp [hgate, hnear])

/-! ## ILIM and IFAST (R247) -/

theorem writeIlim_grd (p : PortId) (v : Half) (d : Dev) :
    ((writeIlim p v d).port p).grd = { (d.port p).grd with ilim := if (d.port p).grd.ifast < v then (d.port p).grd.ilim else v } := by
  unfold writeIlim
  split
  · rfl
  · simp

theorem writeIfast_grd (p : PortId) (v : Half) (d : Dev) :
    ((writeIfast p v d).port p).grd = { (d.port p).grd with
      ifast := if capBy v.toNat (fastMax (d.port p)) < (d.port p).grd.ilim.toNat then (d.port p).grd.ifast
        else h16 (capBy v.toNat (fastMax (d.port p))) } := by
  simp only [writeIfast, dueSettings_port, modPort_port]
  split <;> rfl

/-- Settles O4: both writes keep everything of the guard but the one threshold, which is taken or kept by R247. -/
theorem currentThresholdWrites : Obligations.CurrentThresholdWrites := by
  intro s p v hok
  constructor
  · rw [leads_onDev (show exec (.ilimWrite p v) s = execIlimWrite p v s from rfl), byHost_of_ok hok, markHost_port]
    exact writeIlim_grd p v s.dev
  · rw [leads_onDev (show exec (.ifastWrite p v) s = execIfastWrite p v s from rfl), byHost_of_ok hok, markHost_port]
    exact writeIfast_grd p v s.dev

end Sys2Proof.Laws
end

section
/-! Entry to SAFE and its exit (R32, R96, R97, R312, R314): the device outside its ports, the role in force and the rail field by field. -/

namespace Sys2Proof.Laws

open Sys2Proof Machine

/-! ## The device outside its ports -/

/-- A device without its ports. -/
def portless (d : Dev) : Dev := { d with p0 := {}, p1 := {} }

/-- A device without its ports and without what traffic changes. -/
def body (d : Dev) : Dev := portless (steady d)

theorem body_of_steady {a b : Dev} (h : steady a = steady b) : body a = body b := congrArg portless h

@[simp] theorem body_modPort (d : Dev) (p : PortId) (f : Port → Port) : body (d.modPort p f) = body d := by cases p <;> rfl

theorem us_of_body {a b : Dev} (h : body a = body b) : a.us = b.us := (congrArg Dev.us h :)
theorem pw_of_body {a b : Dev} (h : body a = body b) : a.pw = b.pw := (congrArg Dev.pw h :)
theorem gl_of_body {a b : Dev} (h : body a = body b) : Global.steady a.gl = Global.steady b.gl := (congrArg Dev.gl h :)
theorem keep_of_body {a b : Dev} (h : body a = body b) : Keep.steady a.keep = Keep.steady b.keep := (congrArg Dev.keep h :)
theorem safe_of_body {a b : Dev} (h : body a = body b) : a.gl.safe = b.gl.safe := (congrArg Global.safe (gl_of_body h) :)
theorem park_of_body {a b : Dev} (h : body a = body b) : a.gl.park = b.gl.park := (congrArg Global.park (gl_of_body h) :)
theorem eoff_of_body {a b : Dev} (h : body a = body b) : a.gl.eoff = b.gl.eoff := (congrArg Global.eoff (gl_of_body h) :)
theorem crit_of_body {a b : Dev} (h : body a = body b) : a.gl.crit = b.gl.crit := (congrArg Global.crit (gl_of_body h) :)

@[simp] theorem levelEnds_body (p : PortId) (d : Dev) : body (levelEnds p d) = body d := by
  unfold levelEnds
  split
  · rw [body_of_steady (postPort_steady _ _ _ _ _ _)]
    exact body_modPort _ _ _
  · rfl

@[simp] theorem abortRun_body (sa w : Nat) (p : PortId) (d : Dev) : body (abortRun sa w p d) = body d := by
  unfold abortRun
  refine (body_modPort _ _ _).trans ?_
  rw [body_of_steady (endAll_steady w p _), levelEnds_body, body_of_steady (abortSlots_steady sa w p d)]

@[simp] theorem setRole_body (p : PortId) (r : Role) (d : Dev) : body (setRole p r d) = body d := by
  unfold setRole
  split
  · rfl
  · rw [body_of_steady (postPort_steady _ _ _ _ _ _)]
    exact body_modPort _ _ _

@[simp] theorem railOff_body (p : PortId) (d : Dev) : body (railOff p d) = body d := by
  unfold railOff
  dsimp only
  repeat' split
  · rw [body_of_steady (postPort_steady _ _ _ _ _ _), body_modPort]
    exact body_modPort _ _ _
  · rw [body_of_steady (postPort_steady _ _ _ _ _ _)]
    exact body_modPort _ _ _
  · exact body_modPort _ _ _

@[simp] theorem noteThrot_body (p : PortId) (d : Dev) : body (noteThrot p d) = body d := by
  have hpost : body (postThrot p d) = body d := by
    unfold postThrot
    dsimp only
    split
    · rw [body_of_steady (post_steady _ _)]
      exact body_modPort _ _ _
    · rfl
  have hflush : body (flushThrot p d) = body d := by
    unfold flushThrot
    split
    · exact hpost
    · rfl
  unfold noteThrot
  dsimp only
  split
  · rfl
  · exact (body_modPort _ _ _).trans hflush

@[simp] theorem relieve_body (d : Dev) : body (relieve d) = body d := by
  rw [body_of_steady (relieve_steady d)]
  exact (noteThrot_body .p1 _).trans (noteThrot_body .p0 d)

/-! ## The role in force and the rail, field by field -/

theorem eq_other_of_ne {p r : PortId} (h : r ≠ p) : r = p.other := by
  cases p <;> cases r <;> simp_all [PortId.other]

@[simp] theorem modPort_port_of_ne {p r : PortId} (h : r ≠ p) (f : Port → Port) (d : Dev) : (d.modPort p f).port r = d.port r := by
  rw [eq_other_of_ne h, modPort_port_other]

@[simp] theorem setRole_role (p : PortId) (r : Role) (d : Dev) : ((setRole p r d).port p).role = r := by
  unfold setRole
  split
  · assumption
  · simp [setPevt]

/-- A change of the role in force changes the role and PEVT of that port alone. -/
theorem setRole_port (p r : PortId) (ro : Role) (d : Dev) {α : Type} (g : Port → α)
    (h : ∀ q, g (setPevt eRole { q with role := ro }) = g q) : g ((setRole p ro d).port r) = g (d.port r) := by
  unfold setRole
  split
  · rfl
  · rw [postPort_port]
    exact field_modPort g p r _ h d

@[simp] theorem setRole_gate (p r : PortId) (ro : Role) (d : Dev) : ((setRole p ro d).port r).gate = (d.port r).gate :=
  setRole_port p r ro d Port.gate (fun _ => rfl)
@[simp] theorem setRole_rail (p r : PortId) (ro : Role) (d : Dev) : ((setRole p ro d).port r).rail = (d.port r).rail :=
  setRole_port p r ro d Port.rail (fun _ => rfl)
@[simp] theorem setRole_ctl (p r : PortId) (ro : Role) (d : Dev) : ((setRole p ro d).port r).ctl = (d.port r).ctl :=
  setRole_port p r ro d Port.ctl (fun _ => rfl)
@[simp] theorem setRole_port_of_ne {p r : PortId} (h : r ≠ p) (ro : Role) (d : Dev) : (setRole p ro d).port r = d.port r := by
  unfold setRole
  split
  · rfl
  · rw [postPort_port, modPort_port_of_ne h]

/-- The rail that a switch going OFF leaves (R221, R222). -/
theorem railOff_rail (p : PortId) (d : Dev) :
    ((railOff p d).port p).rail = { (d.port p).rail with sw := .off, oc := false, retryAt := none, swapReq := false, swap := .none } := by
  unfold railOff
  dsimp only
  repeat' split
  all_goals simp [setPevt]

/-- It changes the rail and PEVT of that port alone. -/
theorem railOff_port (p r : PortId) (d : Dev) {α : Type} (g : Port → α) (h : ∀ q x e, g { q with rail := x, pevt := e } = g q) :
    g ((railOff p d).port r) = g (d.port r) := by
  have hrail : ∀ q x, g { q with rail := x } = g q := fun q x => h q x q.pevt
  unfold railOff
  dsimp only
  repeat' split
  · rw [postPort_port]
    exact (field_modPort g p r _ (by intro q; exact h q q.rail _) _).trans (field_modPort g p r _ (by intro q; exact hrail q _) d)
  · rw [postPort_port]
    exact field_modPort g p r _ (by intro q; exact hrail q _) d
  · exact field_modPort g p r _ (by intro q; exact hrail q _) d

@[simp] theorem railOff_gate (p r : PortId) (d : Dev) : ((railOff p d).port r).gate = (d.port r).gate :=
  railOff_port p r d Port.gate (fun _ _ _ => rfl)
@[simp] theorem railOff_role (p r : PortId) (d : Dev) : ((railOff p d).port r).role = (d.port r).role :=
  railOff_port p r d Port.role (fun _ _ _ => rfl)
@[simp] theorem railOff_ctl (p r : PortId) (d : Dev) : ((railOff p d).port r).ctl = (d.port r).ctl :=
  railOff_port p r d Port.ctl (fun _ _ _ => rfl)
@[simp] theorem railOff_sw (p : PortId) (d : Dev) : ((railOff p d).port p).rail.sw = .off := by rw [railOff_rail]
@[simp] theorem railOff_port_of_ne {p r : PortId} (h : r ≠ p) (d : Dev) : (railOff p d).port r = d.port r := by
  unfold railOff
  dsimp only
  repeat' split
  · rw [postPort_port, modPort_port_of_ne h, modPort_port_of_ne h]
  · rw [postPort_port, modPort_port_of_ne h]
  · exact modPort_port_of_ne h _ d

@[simp] theorem unattach_gate (q : Port) : (unattach q).gate = q.gate := rfl
@[simp] theorem unattach_role (q : Port) : (unattach q).role = q.role := rfl
@[simp] theorem unattach_ctl (q : Port) : (unattach q).ctl = q.ctl := rfl
@[simp] theorem unattach_rail (q : Port) : (unattach q).rail = q.rail := rfl
@[simp] theorem unattach_att (q : Port) : (unattach q).att.att = false := rfl

/-! ## SAFE (R32, R96, R97, R312, R314) -/

/-- What waits on an update ends with SAFE, and no port changes (Table 21-7). -/
theorem safeEndsWait_port (d : Dev) (r : PortId) : (safeEndsWait d).port r = d.port r := by
  unfold safeEndsWait
  dsimp only
  repeat' split
  all_goals simp [fwuRefused]

theorem fwuRefused_gl (x : BitVec 3) (d : Dev) : Global.steady (fwuRefused x d).gl = Global.steady d.gl :=
  (congrArg Dev.gl (postFwu_steady 3 { d with fwu := { d.fwu with refuse := x, apply := none } }) :)

theorem safeEndsWait_gl (d : Dev) : Global.steady (safeEndsWait d).gl = Global.steady d.gl := by
  unfold safeEndsWait
  dsimp only
  repeat' split
  · exact fwuRefused_gl 2 d
  · rfl
  · exact fwuRefused_gl 2 _
  · exact fwuRefused_gl 2 _

/-- What a port has once SAFE has taken it: its path open, its role OFF, its rail off, nothing attached (R32). -/
def TakenSafe (q : Port) : Prop := q.gate = .opened ∧ q.role = .off ∧ q.rail.sw = .off ∧ q.att.att = false

/-- SAFE takes both ports: the runs, the paths, the roles, the rails (R32, R365). -/
def takeSafe (d : Dev) : Dev :=
  let d6 := ((d.bothPorts safePort).bothPorts fun p d => setRole p .off d).bothPorts railOff
  (d6.modPort .p0 unattach).modPort .p1 unattach

theorem takeSafe_port (d : Dev) (r : PortId) : TakenSafe ((takeSafe d).port r) := by
  have hne : PortId.p0 ≠ PortId.p1 := by decide
  have hne' : PortId.p1 ≠ PortId.p0 := by decide
  cases r <;>
    simp [takeSafe, TakenSafe, Dev.bothPorts, safePort, hne, hne']

theorem takeSafe_body (d : Dev) : body (takeSafe d) = body d := by
  simp [takeSafe, Dev.bothPorts, safePort]

/-- Both ports record the cause, and SAFE is in force with its flag and its event; PARK ends (R32, R96, R99, R312). -/
def beginSafe (cause : Nat) (d : Dev) : Dev :=
  let d1 := (d.modPort .p0 (safeCause (BitVec.ofNat 4 cause))).modPort .p1 (safeCause (BitVec.ofNat 4 cause))
  postGlobal 0x03 cause 0 true (setG gSafe { d1 with
    gl := { d1.gl with safe := true, park := none, parkWaits := false }, fwu := { d1.fwu with handSafe := d1.fwu.hand.isSome } })

theorem beginSafe_gl (cause : Nat) (d : Dev) :
    Global.steady (beginSafe cause d).gl = Global.steady { d.gl with safe := true, park := none, parkWaits := false } :=
  (congrArg Dev.gl (postGlobal_steady 0x03 cause 0 true _) :)

theorem enterSafe_eq {cause : Nat} {d : Dev} (hsafe : d.gl.safe = false) (hup : d.up = true) :
    enterSafe cause d = safeEndsWait (takeSafe (beginSafe cause d)) := by
  have hphase : d.pw.phase = .running := by simpa [Dev.up] using hup
  exact if_neg (by simp [hsafe, hphase])

theorem enterSafe_port {cause : Nat} {d : Dev} (hsafe : d.gl.safe = false) (hup : d.up = true) (r : PortId) :
    TakenSafe ((enterSafe cause d).port r) := by
  rw [enterSafe_eq hsafe hup, safeEndsWait_port]
  exact takeSafe_port _ r

theorem enterSafe_gl {cause : Nat} {d : Dev} (hsafe : d.gl.safe = false) (hup : d.up = true) :
    Global.steady (enterSafe cause d).gl = Global.steady { d.gl with safe := true, park := none, parkWaits := false } := by
  rw [enterSafe_eq hsafe hup, safeEndsWait_gl, gl_of_body (takeSafe_body _), beginSafe_gl]

/-- What a commit that is lost leaves: the ports, what is queued, and the flags of SAFE. -/
def Spared (a b : Dev) : Prop :=
  (∀ r, a.port r = b.port r) ∧ a.keep.queue = b.keep.queue ∧ Global.steady a.gl = Global.steady b.gl

theorem Spared.rfl {d : Dev} : Spared d d := ⟨fun _ => Eq.refl _, Eq.refl _, Eq.refl _⟩

theorem Spared.trans {a b c : Dev} (h : Spared a b) (h' : Spared b c) : Spared a c :=
  ⟨fun r => (h.1 r).trans (h'.1 r), h.2.1.trans h'.2.1, h.2.2.trans h'.2.2⟩

theorem spared_of_steady {a b : Dev} (h : steady a = steady b) (hport : ∀ r, a.port r = b.port r) : Spared a b :=
  ⟨hport, keep_queue_of_steady h, congrArg Dev.gl h⟩

theorem mbxEnds_spared (r : Byte) (l : List Half) (d : Dev) : Spared (mbxEnds r l d) d := by
  unfold mbxEnds
  split
  · exact ⟨fun x => port_setMbx d _ x, rfl, rfl⟩
  · exact Spared.rfl

theorem rereadReception_spared (d : Dev) : Spared (rereadReception d) d :=
  ⟨fun r => port_congr rfl rfl r, rfl, rfl⟩

theorem dueLater_spared (x : Due) (d : Dev) : Spared (dueLater x d) d := by
  unfold dueLater
  split
  · exact Spared.rfl
  · exact ⟨fun r => port_setKeep d _ r, rfl, rfl⟩

theorem commitLost_spared (d : Dev) (c : Commit) : Spared (commitLost d c) d := by
  unfold commitLost
  split
  case h_1 => exact ⟨fun r => port_setWin d _ r, rfl, rfl⟩
  case h_2 => exact mbxEnds_spared _ _ d
  case h_3 => exact mbxEnds_spared _ _ d
  case h_4 => exact (mbxEnds_spared _ _ _).trans (rereadReception_spared d)
  case h_5 => exact dueLater_spared _ d
  case h_6 => exact spared_of_steady (postGlobal_steady _ _ _ _ d) (postGlobal_port _ _ _ _ d)
  case h_7 => exact Spared.rfl

theorem commitRefused_spared (d : Dev) (c : Commit) : Spared (commitRefused d c) d :=
  (commitLost_spared _ c).trans (spared_of_steady (by simp [keepRefused]) (by simp [keepRefused]))

theorem foldl_commitRefused_spared (l : List Commit) (d : Dev) : Spared (l.foldl commitRefused d) d := by
  induction l generalizing d with
  | nil => exact Spared.rfl
  | cons c t ih => exact (ih (commitRefused d c)).trans (commitRefused_spared d c)

/-- A critical trip refuses what is queued, and spares the ports and the flags of SAFE (R393). -/
theorem refuseQueue_spared (d : Dev) : Spared (refuseQueue d) { d with keep := { d.keep with queue := [] } } :=
  foldl_commitRefused_spared d.keep.queue _

theorem inSafe_of {d : Dev} (hport : ∀ r, TakenSafe (d.port r)) {g : Global}
    (hgl : Global.steady d.gl = Global.steady { g with safe := true, park := none, parkWaits := false }) : InSafe d :=
  ⟨(congrArg Global.safe hgl :), (congrArg Global.park hgl :), hport⟩

theorem emergencyOff_inSafe {d : Dev} (hsafe : d.gl.safe = false) (hup : d.up = true) :
    InSafe (emergencyOff d) ∧ (emergencyOff d).gl.eoff = true := by
  have henter : emergencyOff d = enterSafe 6 { d with gl := { d.gl with eoff := true } } := if_neg (by simp [hsafe, hup])
  have hgl := enterSafe_gl (cause := 6) (d := { d with gl := { d.gl with eoff := true } }) hsafe hup
  rw [henter]
  exact ⟨inSafe_of (enterSafe_port hsafe hup) hgl, (congrArg Global.eoff hgl :)⟩

/-- The device as a critical trip sets its latch, before SAFE is entered (R312, R313). -/
def critLatched (d : Dev) : Dev :=
  setG gCrit { d with gl := { d.gl with crit := true }, keep := sysCrit true (tallyInc 5 d.keep) }

theorem critLatched_safe (d : Dev) : (critLatched d).gl.safe = d.gl.safe := rfl
theorem critLatched_crit (d : Dev) : (critLatched d).gl.crit = true := rfl
theorem critLatched_up (d : Dev) : (critLatched d).up = d.up := rfl
theorem critTrip_eq (d : Dev) : critTrip d = refuseQueue (enterSafe 5 (critLatched d)) := rfl

theorem critTrip_inSafe {d : Dev} (hsafe : d.gl.safe = false) (hup : d.up = true) :
    InSafe (critTrip d) ∧ (critTrip d).gl.crit = true ∧ (critTrip d).keep.queue = [] := by
  have hsafe1 := (critLatched_safe d).trans hsafe
  have hup1 := (critLatched_up d).trans hup
  obtain ⟨hport, hqueue, hgl⟩ := refuseQueue_spared (enterSafe 5 (critLatched d))
  rw [← critTrip_eq] at hport hqueue hgl
  have hglSafe := hgl.trans (enterSafe_gl (cause := 5) hsafe1 hup1)
  refine ⟨inSafe_of (fun r => ?_) hglSafe, (congrArg Global.crit hglSafe).trans (critLatched_crit d), hqueue⟩
  rw [hport r, port_setKeep]
  exact enterSafe_port hsafe1 hup1 r

/-- SAFE is left where neither latch holds it (Table 01-5). -/
theorem leaveSafe_leftSafe {d : Dev} (hsafe : d.gl.safe = true) (hcrit : d.gl.crit = false) (heoff : d.gl.eoff = false) :
    LeftSafe (leaveSafe d) := by
  rw [leaveSafe, if_pos (by simp [hsafe, hcrit, heoff])]
  refine ⟨rfl, fun p => ?_⟩
  cases p <;> exact ⟨rfl, rfl, rfl⟩

/-- Leaving SAFE touches the ports and that flag alone. -/
theorem leaveSafe_keep (d : Dev) : (leaveSafe d).keep = d.keep := by
  unfold leaveSafe
  split <;> simp

theorem leaveSafe_crit (d : Dev) : (leaveSafe d).gl.crit = d.gl.crit := by
  unfold leaveSafe
  split <;> simp

theorem leaveSafe_eoff (d : Dev) : (leaveSafe d).gl.eoff = d.gl.eoff := by
  unfold leaveSafe
  split <;> simp

/-- While EOFF is set SAFE stays in force (R97). -/
theorem leaveSafe_of_eoff {d : Dev} (h : d.gl.eoff = true) : leaveSafe d = d := by
  simp [leaveSafe, h]

@[simp] theorem markHost_gl (n : Nat) (d : Dev) : (markHost n d).gl = d.gl := by
  unfold markHost
  split <;> rfl
@[simp] theorem markHost_keep (n : Nat) (d : Dev) : (markHost n d).keep = d.keep := by
  unfold markHost
  split <;> rfl

theorem inSafe_markHost {n : Nat} {d : Dev} (h : InSafe d) : InSafe (markHost n d) := by
  obtain ⟨hsafe, hpark, hport⟩ := h
  exact ⟨by rwa [markHost_gl], by rwa [markHost_gl], fun p => by rw [markHost_port]; exact hport p⟩

theorem leftSafe_markHost {n : Nat} {d : Dev} (h : LeftSafe d) : LeftSafe (markHost n d) := by
  obtain ⟨hsafe, hport⟩ := h
  exact ⟨by rwa [markHost_gl], fun p => by rw [markHost_port]; exact hport p⟩

theorem up_of_hostOk {d : Dev} (h : hostOk d = true) : d.up = true := by
  simp only [hostOk, Bool.and_eq_true] at h
  exact h.2

/-- The device as CCLR clears the critical latch, before SAFE is left (R314, R315). -/
def critCleared (d : Dev) : Dev :=
  let k := sysCrit false d.keep
  postGlobal 0x04 0 0 true
    { d with gl := { d.gl with crit := false }, keep := { k with due := k.due ++ k.dueHot, dueHot := [] } }

theorem critCleared_gl (d : Dev) : Global.steady (critCleared d).gl = Global.steady { d.gl with crit := false } :=
  (congrArg Dev.gl (postGlobal_steady 0x04 0 0 true _) :)

theorem critCleared_dueHot (d : Dev) : (critCleared d).keep.dueHot = [] :=
  keep_dueHot_of_steady (postGlobal_steady 0x04 0 0 true _)

theorem criticalClear_eq {d : Dev} (hcrit : d.gl.crit = true) (hrel : d.gl.rel = true) (hroll : d.keep.rollback = none) :
    criticalClear d = leaveSafe (critCleared d) :=
  if_pos (by simp [hcrit, hrel, hroll])

/-- Settles O5: SAFE is entered through `enterSafe` and left through `leaveSafe`, and the latches are what the commands set and clear
around them. That both roles are OFF in SAFE is the model's choice (log entry 22). -/
theorem safeEntryAndExit : Obligations.SafeEntryAndExit := by
  intro s
  refine ⟨fun hok hsafe => ?emergency, fun hsupply hcrit hup hsafe => ?critical, fun hok hsafe hcrit => ?release,
    fun hsafe hcrit heoff => ?exit, fun hok hcrit hrel hroll => ?clear, fun rel => rfl⟩
  case emergency =>
    rw [leads_onDev (show exec .emergencyOff s = execEmergencyOff s from rfl), byHost_of_ok hok, markHost_gl]
    obtain ⟨hin, heoff⟩ := emergencyOff_inSafe hsafe (up_of_hostOk hok)
    exact ⟨inSafe_markHost hin, heoff⟩
  case critical =>
    rw [leads_onDev (show exec .criticalTrip s = execCriticalTrip s from rfl)]
    simp only [hsupply, hcrit, guardDev_true, Bool.false_eq_true, if_false]
    exact critTrip_inSafe hsafe hup
  case release =>
    rw [leads_onDev (show exec .eoffRelease s = execEoffRelease s from rfl), byHost_of_ok hok, markHost_gl]
    exact ⟨leftSafe_markHost (leaveSafe_leftSafe hsafe hcrit rfl), leaveSafe_eoff _⟩
  case exit =>
    rw [leads_onDev (show exec .safeExit s = execSafeExit s from rfl)]
    exact leaveSafe_leftSafe hsafe hcrit heoff
  case clear =>
    have hgl := critCleared_gl s.dev
    have hcritOver : (critCleared s.dev).gl.crit = false := (congrArg Global.crit hgl :)
    have hsafeKept : (critCleared s.dev).gl.safe = s.dev.gl.safe := (congrArg Global.safe hgl :)
    have heoffKept : (critCleared s.dev).gl.eoff = s.dev.gl.eoff := (congrArg Global.eoff hgl :)
    rw [leads_onDev (show exec .cclr s = execCclr s from rfl), byHost_of_ok hok, markHost_gl, markHost_keep,
      criticalClear_eq hcrit hrel hroll, leaveSafe_keep, leaveSafe_crit]
    refine ⟨hcritOver, critCleared_dueHot _, fun hsafe heoff => leftSafe_markHost ?_, fun heoff => ?_⟩
    · exact leaveSafe_leftSafe (hsafeKept.trans hsafe) hcritOver (heoffKept.trans heoff)
    · rw [leaveSafe_of_eoff (heoffKept.trans heoff), hsafeKept]

end Sys2Proof.Laws
end

section
/-! Roles (R93, R95, R98): what the end and the start of a role keep of both ports. -/

namespace Sys2Proof.Laws

open Sys2Proof Machine

/-! ## A role comes into force (R95, R123, R136) -/

/-- The run of a FEED port that is taken to OFF, before its path opens (R95). -/
def shutRun (p : PortId) (d : Dev) : Dev := endAll 6 p (levelEnds p ((abortSlots 3 6 p d).modPort p (broadcastWithdraw 6 0xF)))

theorem shutRun_base (p r : PortId) (d : Dev) : Port.base ((shutRun p d).port r) = Port.base (d.port r) := by
  unfold shutRun
  rw [base_of_steady (endAll_steady 6 p _) r, levelEnds_base p r,
    field_modPort Port.base p r _ (by intro q; exact base_of_portSteady (broadcastWithdraw_steady 6 0xF q)),
    base_of_steady (abortSlots_steady 3 6 p d) r]

@[simp] theorem shutRun_role (p r : PortId) (d : Dev) : ((shutRun p d).port r).role = (d.port r).role :=
  (congrArg Port.role (shutRun_base p r d) :)
@[simp] theorem shutRun_ctl (p r : PortId) (d : Dev) : ((shutRun p d).port r).ctl = (d.port r).ctl :=
  (congrArg Port.ctl (shutRun_base p r d) :)
@[simp] theorem shutRun_gate (p r : PortId) (d : Dev) : ((shutRun p d).port r).gate = (d.port r).gate :=
  (congrArg Port.gate (shutRun_base p r d) :)
@[simp] theorem shutRun_cfg (p r : PortId) (d : Dev) : ((shutRun p d).port r).cfg = (d.port r).cfg :=
  (congrArg Port.cfg (shutRun_base p r d) :)
@[simp] theorem shutRun_rail (p r : PortId) (d : Dev) : ((shutRun p d).port r).rail = (d.port r).rail :=
  (congrArg Port.rail (shutRun_base p r d) :)

theorem shutFeed_eq (p : PortId) (d : Dev) :
    shutFeed p d = (railOff p (setRole p .off ((shutRun p d).modPort p openPath))).modPort p unattach := rfl

theorem modPort_port_ctl (p r : PortId) (f : Port → Port) (h : ∀ q, (f q).ctl = q.ctl) (d : Dev) :
    ((d.modPort p f).port r).ctl = (d.port r).ctl := field_modPort Port.ctl p r f h d

@[simp] theorem shutFeed_ctl (p r : PortId) (d : Dev) : ((shutFeed p d).port r).ctl = (d.port r).ctl := by
  rw [shutFeed_eq, modPort_port_ctl _ _ _ (by intro q; rfl), railOff_ctl, setRole_ctl, modPort_port_ctl _ _ _ (by intro q; rfl),
    shutRun_ctl]

@[simp] theorem shutFeed_role (p : PortId) (d : Dev) : ((shutFeed p d).port p).role = .off := by
  rw [shutFeed_eq]
  simp

@[simp] theorem shutFeed_gate (p : PortId) (d : Dev) : ((shutFeed p d).port p).gate = .opened := by
  rw [shutFeed_eq]
  simp

theorem other_ne (p : PortId) : p.other ≠ p := by cases p <;> decide

@[simp] theorem shutFeed_other_role (p : PortId) (d : Dev) : ((shutFeed p d).port p.other).role = (d.port p.other).role := by
  rw [shutFeed_eq]
  simp [other_ne p]

@[simp] theorem shutDraw_ctl (p r : PortId) (d : Dev) : ((shutDraw p d).port r).ctl = (d.port r).ctl := by
  unfold shutDraw
  rw [setRole_ctl, modPort_port_ctl _ _ _ (by intro q; rfl)]

@[simp] theorem shutDraw_role (p : PortId) (d : Dev) : ((shutDraw p d).port p).role = .off := setRole_role p .off _

@[simp] theorem shutDraw_gate (p : PortId) (d : Dev) : ((shutDraw p d).port p).gate = .opened := by
  simp [shutDraw]

@[simp] theorem shutDraw_other_role (p : PortId) (d : Dev) : ((shutDraw p d).port p.other).role = (d.port p.other).role := by
  simp [shutDraw, other_ne p]

@[simp] theorem leaveRole_ctl (p r : PortId) (d : Dev) : ((leaveRole p d).port r).ctl = (d.port r).ctl := by
  unfold leaveRole
  split <;> simp

@[simp] theorem leaveRole_role (p : PortId) (d : Dev) : ((leaveRole p d).port p).role = .off := by
  unfold leaveRole
  split
  · simp
  · simp
  · assumption

@[simp] theorem leaveRole_other_role (p : PortId) (d : Dev) : ((leaveRole p d).port p.other).role = (d.port p.other).role := by
  unfold leaveRole
  split <;> simp

/-- A port whose role in force ends opens its path (R95). -/
theorem leaveRole_gate {p : PortId} {d : Dev} (h : (d.port p).role ≠ .off) : ((leaveRole p d).port p).gate = .opened := by
  unfold leaveRole
  split
  · simp
  · simp
  · exact absurd ‹_› h

@[simp] theorem pllNeed_port (d : Dev) (r : PortId) : (pllNeed d).port r = d.port r := by
  unfold pllNeed
  split
  · rfl
  · exact port_setPw d _ r

@[simp] theorem unpark_port (d : Dev) (r : PortId) : (unpark d).port r = d.port r := by
  unfold unpark
  split
  · exact port_setGang d _ r
  · rfl

@[simp] theorem enterFeed_role (p : PortId) (d : Dev) : ((enterFeed p d).port p).role = .feed := by simp [enterFeed]
@[simp] theorem enterFeed_ctl (p r : PortId) (d : Dev) : ((enterFeed p d).port r).ctl = (d.port r).ctl := by
  unfold enterFeed
  rw [pllNeed_port, modPort_port_ctl _ _ _ (by intro q; rfl), setRole_ctl]
@[simp] theorem enterFeed_other_role (p : PortId) (d : Dev) : ((enterFeed p d).port p.other).role = (d.port p.other).role := by
  simp [enterFeed, other_ne p]
@[simp] theorem enterDraw_role (p : PortId) (d : Dev) : ((enterDraw p d).port p).role = .draw := by simp [enterDraw]
@[simp] theorem enterDraw_ctl (p r : PortId) (d : Dev) : ((enterDraw p d).port r).ctl = (d.port r).ctl := by
  unfold enterDraw
  rw [modPort_port_ctl _ _ _ (by intro q; rfl), setRole_ctl]
@[simp] theorem enterDraw_other_role (p : PortId) (d : Dev) : ((enterDraw p d).port p.other).role = (d.port p.other).role := by
  simp [enterDraw, other_ne p]

@[simp] theorem applyRole_role (p : PortId) (r : Role) (d : Dev) : ((applyRole p r d).port p).role = r := by
  unfold applyRole
  split
  · assumption
  · cases r <;> simp

@[simp] theorem applyRole_ctl (p x : PortId) (r : Role) (d : Dev) : ((applyRole p r d).port x).ctl = (d.port x).ctl := by
  unfold applyRole
  split
  · rfl
  · cases r <;> simp

@[simp] theorem applyRole_other_role (p : PortId) (r : Role) (d : Dev) :
    ((applyRole p r d).port p.other).role = (d.port p.other).role := by
  unfold applyRole
  split
  · rfl
  · cases r <;> simp

/-! ## PCTL.ROLE and PCTL.EN (R93, R95, R98) -/

/-- A role that PCTL.ROLE takes (R32, R93): it stands in PCTL, and is in force with EN 1 outside SAFE. -/
theorem takeRole_port (p : PortId) (r : Role) (d : Dev) :
    ((takeRole p r d).port p).ctl = { (d.port p).ctl with role := r }
      ∧ ((takeRole p r d).port p).role = (if (d.port p).ctl.en && !d.gl.safe then r else .off) ∧ OtherRole p d (takeRole p r d) := by
  have hput : ((putRole p r d).port p).ctl = { (d.port p).ctl with role := r }
      ∧ ((putRole p r d).port p).role = (if (d.port p).ctl.en && !d.gl.safe then r else .off)
      ∧ OtherRole p d (putRole p r d) := by
    simp [putRole, OtherRole]
  unfold takeRole
  dsimp only
  split
  · simpa [OtherRole] using hput
  · exact hput

/-- A refused role leaves PCTL and the role in force, and shows PEVT.ROLE (R93). -/
theorem denyRole_port (p : PortId) (code : Nat) (d : Dev) :
    ((denyRole p code d).port p).ctl = (d.port p).ctl ∧ ((denyRole p code d).port p).role = (d.port p).role
      ∧ ((denyRole p code d).port p).pevt.getLsbD eRole = true ∧ OtherRole p d (denyRole p code d) := by
  refine ⟨?_, ?_, ?_, ?_, ?_⟩ <;> simp only [denyRole, postPort_port, modPort_port, modPort_port_other, setPevt_same eRole (by decide)] <;>
    rfl

theorem disablePort_port (p : PortId) (d : Dev) :
    ((disablePort p d).port p).ctl = { (d.port p).ctl with en := false } ∧ ((disablePort p d).port p).role = .off
      ∧ ((d.port p).role ≠ .off → ((disablePort p d).port p).gate = .opened) ∧ OtherRole p d (disablePort p d) := by
  refine ⟨by simp [disablePort], by simp [disablePort], fun h => leaveRole_gate ?_, ?_⟩
  · simpa using h
  · simp [disablePort, OtherRole]

theorem otherRole_markHost {n : Nat} {p : PortId} {d0 d : Dev} (h : OtherRole p d0 d) : OtherRole p d0 (markHost n d) := by
  simpa [OtherRole] using h

/-- Settles O6: a role is taken through `applyRole`, refused through `denyRole`, and ended through `leaveRole`; each keeps PCTL but
for what is written, and the other port's role and PCTL. That EN 1 asks for the stored role, and that the role in force reads OFF with
EN 0 or in SAFE, is the model's choice (log entries 21 and 22). -/
theorem roleWritten : Obligations.RoleWritten := by
  intro s p hok
  have hwrite (c : BitVec 2) : exec (.roleWrite p c) s = onDev (fun d => byHost (portReg p 0x02) (writeRole p c) d) s := rfl
  have hen (v : Bool) : exec (.enWrite p v) s = onDev (fun d => byHost (portReg p 0x02) (writeEn p v) d) s := rfl
  refine ⟨fun c r hc hpark hfine => ?taken, fun c r code hc hpark hdenied => ?denied, ?disabled, fun hoff hpark hfine => ?enabled⟩
  case taken =>
    have htake : writeRole p c s.dev = takeRole p r s.dev := by simp [writeRole, hc, hpark, hfine]
    obtain ⟨hctl, hrole, hother⟩ := takeRole_port p r s.dev
    rw [leads_onDev (hwrite c), byHost_of_ok hok, htake, markHost_port]
    exact ⟨hctl, hrole, otherRole_markHost hother⟩
  case denied =>
    have hdeny : writeRole p c s.dev = denyRole p code s.dev := by simp [writeRole, hc, hpark, hdenied]
    obtain ⟨hctl, hrole, hpevt, hother⟩ := denyRole_port p code s.dev
    rw [leads_onDev (hwrite c), byHost_of_ok hok, hdeny, markHost_port]
    exact ⟨hctl, hrole, hpevt, otherRole_markHost hother⟩
  case disabled =>
    obtain ⟨hctl, hrole, hgate, hother⟩ := disablePort_port p s.dev
    rw [leads_onDev (hen false), byHost_of_ok hok, show writeEn p false s.dev = disablePort p s.dev from rfl, markHost_port]
    exact ⟨hctl, hrole, hgate, otherRole_markHost hother⟩
  case enabled =>
    let d1 := s.dev.modPort p fun q => { q with ctl := { q.ctl with en := true } }
    have hfine1 : roleRefusal d1 p (s.dev.port p).ctl.role true = none := by
      have hgl : d1.gl = s.dev.gl := modPort_gl _ _ _
      have hpw : d1.pw = s.dev.pw := modPort_pw _ _ _
      simpa [roleRefusal, d1, hgl, hpw] using hfine
    have henable : writeEn p true s.dev = applyRole p (if s.dev.gl.safe then .off else (s.dev.port p).ctl.role) d1 := by
      simp only [writeEn, enablePort, hoff, hpark, if_true, Bool.or_self, Bool.false_eq_true, if_false]
      rw [hfine1]
    rw [leads_onDev (hen true), byHost_of_ok hok, henable, markHost_port]
    refine ⟨?_, applyRole_role _ _ _, otherRole_markHost ?_⟩ <;> simp [OtherRole, d1]

end Sys2Proof.Laws
end

section
/-! The fields of PCTL, the tap rail and the owner lock (R70, R90, R94, R221, R222, R238). -/

namespace Sys2Proof.Laws

open Sys2Proof Machine

/-! ## The fields of PCTL (R70, R94, R95, R249, R283, R311) -/

theorem mem_dueSettings (d : Dev) : Due.settings ∈ (dueSettings d).keep.due := by
  unfold dueSettings
  split
  · exact List.contains_iff_mem.1 ‹_›
  · simp

/-- A step that begins keeps what traffic keeps of a port (R208). -/
@[simp] theorem beginStep_ctl (now : Nat) (q : Port) : (beginStep now q).ctl = q.ctl := (congrArg Port.ctl (beginStep_steady now q) :)
@[simp] theorem beginStep_role (now : Nat) (q : Port) : (beginStep now q).role = q.role := (congrArg Port.role (beginStep_steady now q) :)
@[simp] theorem beginStep_cur (now : Nat) (q : Port) : (beginStep now q).lev.cur = q.lev.cur :=
  (congrArg (fun q : Port => q.lev.cur) (beginStep_steady now q) :)
@[simp] theorem beginStep_hold (now : Nat) (q : Port) : (beginStep now q).lev.hold = q.lev.hold :=
  (congrArg (fun q : Port => q.lev.hold) (beginStep_steady now q) :)
@[simp] theorem beginStep_tgtNext (now : Nat) (q : Port) : (beginStep now q).lev.tgtNext = q.lev.tgtNext :=
  (congrArg (fun q : Port => q.lev.tgtNext) (beginStep_steady now q) :)

theorem writeAuto_port (p : PortId) (v : Bool) (d : Dev) :
    ((writeAuto p v d).port p).ctl = { (d.port p).ctl with auto := v }
      ∧ ((writeAuto p v d).port p).cfg.autoRole = (if v && !(d.port p).ctl.auto then (d.port p).ctl.role else (d.port p).cfg.autoRole)
      ∧ ((writeAuto p v d).port p).role = (d.port p).role ∧ (writeAuto p v d).port p.other = d.port p.other
      ∧ Due.settings ∈ (writeAuto p v d).keep.due := by
  unfold writeAuto
  dsimp only
  split <;> simp_all [mem_dueSettings]

/-- A port that has taken LMAX: a ring's peer is told, and where the level lies above and the allocator is stopped a shed is due
(R95, R209). -/
def lmaxTaken (l : Level) (waits : Bool) (q : Port) : Port :=
  { q with ctl := { q.ctl with lmax := l }, ring := { q.ring with helloDue := q.ring.helloDue || (q.ring.peer && q.ctl.lmax != l) }
           lev := { q.lev with shedDue := q.lev.shedDue || waits } }

/-- A port whose target falls to the highest level allowed, with the step that this asks for (R94, R208). -/
def retarget (now : Nat) (q : Port) : Port :=
  if q.lev.step.isSome then q else beginStep now { q with lev := { q.lev with tgt := clampTop q q.lev.tgt } }

theorem retarget_steady (now : Nat) (q : Port) : Port.steady (retarget now q) = Port.steady q := by
  unfold retarget
  split
  · rfl
  · rw [beginStep_steady]
    rfl

/-- What a lower LMAX sheds is traffic. -/
theorem shedForLevel_ite_steady (c : Bool) (p : PortId) (l : Level) (d : Dev) :
    steady (if c then shedForLevel p l d else d) = steady d := by
  cases c <;> simp

theorem writeLmax_eq (p : PortId) (l : Level) (d : Dev) :
    let low := decide (l < segmentLevel (d.port p))
    let d1 := d.modPort p (lmaxTaken l (low && !d.tb.alloc))
    writeLmax p l d = relieve ((if low && d1.tb.alloc then shedForLevel p l d1 else d1).modPort p (retarget d.us)) := rfl

theorem writeLmax_port (p : PortId) (l : Level) (d : Dev) :
    ((writeLmax p l d).port p).ctl = { (d.port p).ctl with lmax := l } ∧ ((writeLmax p l d).port p).role = (d.port p).role
      ∧ ((writeLmax p l d).port p).lev.cur = (d.port p).lev.cur ∧ OtherRole p d (writeLmax p l d) := by
  rw [writeLmax_eq]
  generalize decide (l < segmentLevel (d.port p)) = low
  have hlast (c : Bool) (e : Dev) : steady ((if c then shedForLevel p l e else e).modPort p (retarget d.us)) = steady e :=
    (steady_modPort _ p _ (retarget_steady d.us)).trans (shedForLevel_ite_steady c p l e)
  refine ⟨?_, ?_, ?_, ?_, ?_⟩ <;>
    simp only [relieve_ctl, relieve_role, relieve_lev_cur, ctl_of_steady (hlast _ _), role_of_steady (hlast _ _),
      lev_cur_of_steady (hlast _ _)] <;>
    simp only [modPort_port, modPort_port_other] <;> rfl

theorem writeLevel_port {p : PortId} {v : Bool} {l : Level} {d : Dev} (hfollow : (d.port p).follower = false) :
    ((writeLevel p v l d).port p).lev.hold = v ∧ ((writeLevel p v l d).port p).ctl = (d.port p).ctl
      ∧ ((writeLevel p v l d).port p).lev.cur = (d.port p).lev.cur
      ∧ (v = true → (d.port p).lev.step.isSome = true → ((writeLevel p v l d).port p).lev.tgtNext = some (clampTop (d.port p) l)) := by
  unfold writeLevel
  rw [if_neg (by simp [hfollow])]
  refine ⟨?_, ?_, ?_, fun hv hstep => ?_⟩
  case refine_4 => simp [hv, hstep]
  all_goals
    simp only [relieve_lev_hold, relieve_ctl, relieve_lev_cur, modPort_port]
    repeat' split
    all_goals simp

theorem dueSettings_relieve_ctl (p : PortId) (f : Port → Port) (hrole : ∀ q, (f q).role = q.role) (d : Dev) :
    ((relieve (dueSettings (d.modPort p f))).port p).ctl = (f (d.port p)).ctl
      ∧ ((relieve (dueSettings (d.modPort p f))).port p).role = (d.port p).role
      ∧ OtherRole p d (relieve (dueSettings (d.modPort p f))) := by
  simp [OtherRole, hrole]

/-- Settles O7: each field is written by the change of that one port, and what follows it is traffic. -/
theorem pctlFieldsWritten : Obligations.PctlFieldsWritten := by
  intro s p v l hok
  refine ⟨?auto, ?lmax, ?ps2, ?fixed, fun hfollow => ?level⟩
  case auto =>
    obtain ⟨hctl, hcfg, hrole, hother, hdue⟩ := writeAuto_port p v s.dev
    rw [leads_onDev (show exec (.autoWrite p v) s = execAutoWrite p v s from rfl), byHost_of_ok hok, markHost_port, markHost_port,
      markHost_keep]
    exact ⟨hctl, hcfg, hrole, hother, hdue⟩
  case lmax =>
    obtain ⟨hctl, hrole, hcur, hother⟩ := writeLmax_port p l s.dev
    rw [leads_onDev (show exec (.lmaxWrite p l) s = execLmaxWrite p l s from rfl), byHost_of_ok hok, markHost_port, dueSettings_port]
    exact ⟨hctl, hrole, hcur, otherRole_markHost (by simpa [OtherRole] using hother)⟩
  case ps2 =>
    obtain ⟨hctl, hrole, hother⟩ := dueSettings_relieve_ctl p (fun q => { q with ctl := { q.ctl with ps2 := v } }) (fun _ => rfl) s.dev
    rw [leads_onDev (show exec (.ps2Write p v) s = execPs2Write p v s from rfl), byHost_of_ok hok, markHost_port]
    exact ⟨hctl, hrole, otherRole_markHost hother⟩
  case fixed =>
    obtain ⟨hctl, hrole, hother⟩ := dueSettings_relieve_ctl p (fun q => { q with ctl := { q.ctl with fixed := v } }) (fun _ => rfl) s.dev
    rw [leads_onDev (show exec (.fixedWrite p v) s = execFixedWrite p v s from rfl), byHost_of_ok hok, markHost_port]
    exact ⟨hctl, hrole, otherRole_markHost hother⟩
  case level =>
    rw [leads_onDev (show exec (.levelWrite p v l) s = execLevelWrite p v l s from rfl), byHost_of_ok hok, markHost_port]
    exact writeLevel_port hfollow

/-! ## The tap rail (R221, R222, R238) -/

theorem writeRailEn_false (p : PortId) (d : Dev) :
    ((writeRailEn p false d).port p).rail.en = false ∧ ((writeRailEn p false d).port p).rail.sw = .off
      ∧ ((writeRailEn p false d).port p).rail.oc = false ∧ ((writeRailEn p false d).port p).rail.retryAt = none
      ∧ (writeRailEn p false d).port p.other = d.port p.other := by
  simp [writeRailEn, railOff_rail, other_ne p]

theorem writeRailEn_true (p : PortId) (d : Dev) :
    ((writeRailEn p true d).port p).rail.en = true ∧ (writeRailEn p true d).port p.other = d.port p.other
      ∧ (((writeRailEn p true d).port p).rail.sw = (d.port p).rail.sw
        ∨ ((d.port p).rail.sw = .off ∧ ((writeRailEn p true d).port p).rail.sw = .backup)) := by
  refine ⟨?_, ?_, ?_⟩ <;>
    simp only [writeRailEn, Bool.not_true, Bool.false_eq_true, if_false, modPort_port, modPort_port_other, dueSettings_port]
  · split <;> rfl
  · split
    · next h => exact Or.inr ⟨h.2.2.1, rfl⟩
    · exact Or.inl rfl

/-- RAIL.SWAP is noted on a ring feeder alone (R238). -/
theorem requestSwap_port (p : PortId) (d : Dev) :
    (((requestSwap p d).port p).rail.swapReq = true ↔ (d.port p).ringFeeder = true ∨ (d.port p).rail.swapReq = true)
      ∧ (requestSwap p d).port p.other = d.port p.other ∧ ((requestSwap p d).port p).rail.sw = (d.port p).rail.sw := by
  refine ⟨?_, modPort_port_other _ _ _, ?_⟩ <;> simp only [requestSwap, modPort_port] <;> split <;> simp_all

/-- Settles O8: the switch under each command, by the change of the one port. That EN 1 leaves an attached radial port's switch as it
is rests on the model's choice (log entry 56). -/
theorem tapRail : Obligations.TapRail := by
  intro s p
  refine ⟨fun hok => ?swap, fun hok => ?off, fun hok => ?on, fun hmaster hoc hlim => ?oc, fun hmaster hlim => ?ocOff,
    fun t hretry ht hen => ?retry, fun hoc hsw hclear => ?clear⟩
  case swap =>
    rw [leads_onDev (show exec (.railSwap p) s = execRailSwap p s from rfl), byHost_of_ok hok, markHost_port, markHost_port]
    exact requestSwap_port p s.dev
  case off =>
    rw [leads_onDev (show exec (.railEnWrite p false) s = execRailEnWrite p false s from rfl), byHost_of_ok hok, markHost_port,
      markHost_port]
    exact writeRailEn_false p s.dev
  case on =>
    rw [leads_onDev (show exec (.railEnWrite p true) s = execRailEnWrite p true s from rfl), byHost_of_ok hok, markHost_port,
      markHost_port]
    exact writeRailEn_true p s.dev
  case oc =>
    rw [leads_onDev (show exec (.railOc p) s = execRailOc p s from rfl)]
    simp only [hmaster, hoc, hlim, Bool.not_false, decide_true, Bool.and_self, guardDev_true, postPort_port, modPort_port,
      modPort_port_other]
    exact ⟨rfl, setPevt_same eRail (by decide) _, trivial⟩
  case ocOff =>
    rw [leads_onDev (show exec (.railOcOff p) s = execRailOcOff p s from rfl)]
    simp only [hmaster, hlim, decide_true, Bool.and_self, guardDev_true, postPort_port, modPort_port, modPort_port_other]
    exact ⟨rfl, setPevt_same eRail (by decide) _, trivial⟩
  case retry =>
    rw [leads_onDev (show exec (.railRetry p) s = execRailRetry p s from rfl)]
    simp only [hretry, ht, hen, decide_true, Bool.and_self, guardDev_true, postPort_port, modPort_port, modPort_port_other]
    exact ⟨rfl, setPevt_same eRail (by decide) _, trivial⟩
  case clear =>
    refine congrArg (fun d => Host.Outcome.next { s with dev := d }) (modPort_congr s.dev p _ _ ?_)
    exact if_pos ⟨hoc, hsw, hclear⟩

/-! ## The owner lock (R90) -/

/-- Two halves as one code. -/
theorem code_of_halves (h v : Half) : (BitVec.ofNat 32 (h.toNat * 65536 + v.toNat) : Word) = h ++ v := by
  apply BitVec.eq_of_toNat_eq
  rw [BitVec.toNat_append, BitVec.toNat_ofNat, Nat.shiftLeft_eq, ← Nat.mul_comm (2 ^ 16), ← Nat.two_pow_add_eq_or_of_lt v.isLt]
  have := h.isLt
  have := v.isLt
  omega

/-- What a complete code does to the lock (R90). -/
theorem tryCode_lock (c : Word) (g : Global) (hblocked : g.lockBlocked = false) :
    (tryCode c g).lockArmed = none
      ∧ (c = g.owner.code → (tryCode c g).lockOpen = true ∧ (tryCode c g).lockFails = g.lockFails)
      ∧ (c ≠ g.owner.code → (tryCode c g).lockOpen = g.lockOpen
          ∧ (tryCode c g).lockFails = (if g.lockFails = 15 then 15 else g.lockFails + 1)
          ∧ ((tryCode c g).lockBlocked = true ↔ 8 ≤ (tryCode c g).lockFails.toNat)) := by
  unfold tryCode
  dsimp only
  refine ⟨?_, fun h => ?_, fun h => ?_⟩
  · split <;> rfl
  · simp [h]
  · simp [h, hblocked]

/-- Settles O9: a first write is held, a second in time is tried as one code, and a first write alone lapses. -/
theorem ownerLockCode : Obligations.OwnerLockCode := by
  intro s v hok hblocked howner
  have hlock : exec (.lockCode v) s = onDev (fun d => byHost 28 (writeLock v) d) s := rfl
  refine ⟨fun harmed hv => ?first, fun h t harmed ht => ?second, fun h t harmed ht => ?lapse⟩
  case first =>
    have hhold : writeLock v s.dev = { s.dev with gl := { s.dev.gl with lockArmed := some (v, s.dev.us) } } := by
      simp only [writeLock, hblocked, howner, harmed, hv, Bool.not_true, Bool.or_self, Bool.false_eq_true, if_false, false_and]
    rw [leads_onDev hlock, byHost_of_ok hok, markHost_gl, hhold]
  case second =>
    have htry : (writeLock v s.dev).gl = tryCode (h ++ v) s.dev.gl := by
      simp [writeLock, hblocked, howner, harmed, ht, code_of_halves]
    rw [leads_onDev hlock, byHost_of_ok hok, markHost_gl, htry]
    exact tryCode_lock _ _ hblocked
  case lapse =>
    rw [leads_onDev (show exec .lockCodeTimeout s = execLockCodeTimeout s from rfl)]
    simp [harmed, ht]

end Sys2Proof.Laws
end

section
/-! Attach, probing and detach (chapter 06): what an attach notes, what the rail and the path follow with, and what a detach ends. -/

namespace Sys2Proof.Laws

open Sys2Proof Machine

/-! ## Attach (R130, R131, R136) -/

@[simp] theorem dueSettings_us (d : Dev) : (dueSettings d).us = d.us := us_of_steady (dueSettings_steady d)

/-- A port as an attach is noted (R131): its registers and PEVT.ATTACH. -/
def attachNoted (st : AttachState) (typ : BitVec 2) (sigB : Bool) (q : Port) : Port :=
  setPevt eAttach { q with
    att := { q.att with
      state := st, typ := typ, orient := sigB, att := true, everAttached := true, debounce := none, fruitless := 0
      windows := 0 }
    met := { q.met with cwOut := 0, railLow := 0 } }

theorem noteAttach_eq (p : PortId) (st : AttachState) (typ : BitVec 2) (sigB : Bool) (d : Dev) :
    noteAttach p st typ sigB d =
      storeOrient p sigB (postPort 0x10 (b2n sigB) p (typ.setWidth 16) false (d.modPort p (attachNoted st typ sigB))) := rfl

/-- Storing the orientation found changes the settings of that port alone (R131). -/
theorem storeOrient_field {α : Type} (g : Port → α) (h : ∀ q c, g { q with cfg := c } = g q) (p r : PortId) (sigB : Bool) (d : Dev) :
    g ((storeOrient p sigB d).port r) = g (d.port r) := by
  unfold storeOrient
  split
  · rw [dueSettings_port]
    exact field_modPort g p r _ (by intro q; exact h q _) d
  · rfl

@[simp] theorem storeOrient_other (p : PortId) (sigB : Bool) (d : Dev) : (storeOrient p sigB d).port p.other = d.port p.other := by
  unfold storeOrient
  split <;> simp

@[simp] theorem storeOrient_us (p : PortId) (sigB : Bool) (d : Dev) : (storeOrient p sigB d).us = d.us := by
  unfold storeOrient
  split <;> simp

/-- What noting an attach keeps of its port: all but ATTACH, its counters, PEVT and the settings. -/
theorem noteAttach_field {α : Type} (g : Port → α) (h : ∀ q c, g { q with cfg := c } = g q) (p : PortId) (st : AttachState)
    (typ : BitVec 2) (sigB : Bool) (d : Dev) : g ((noteAttach p st typ sigB d).port p) = g (attachNoted st typ sigB (d.port p)) := by
  rw [noteAttach_eq, storeOrient_field g h, postPort_port, modPort_port]

@[simp] theorem noteAttach_other (p : PortId) (st : AttachState) (typ : BitVec 2) (sigB : Bool) (d : Dev) :
    (noteAttach p st typ sigB d).port p.other = d.port p.other := by
  simp [noteAttach_eq]

@[simp] theorem noteAttach_us (p : PortId) (st : AttachState) (typ : BitVec 2) (sigB : Bool) (d : Dev) :
    (noteAttach p st typ sigB d).us = d.us := by
  simp [noteAttach_eq]

theorem attachNoted_pevt (st : AttachState) (typ : BitVec 2) (sigB : Bool) (q : Port) :
    (attachNoted st typ sigB q).pevt.getLsbD eAttach = true := setPevt_same eAttach (by decide) _

/-- The rail going ON changes the rail and PEVT of that port alone (R222, R235). -/
theorem railOn_field {α : Type} (g : Port → α) (h : ∀ q x e, g { q with rail := x, pevt := e } = g q) (p : PortId) (d : Dev) :
    g ((railOn p d).port p) = g (d.port p) := by
  unfold railOn
  dsimp only
  repeat' split
  · exact field_modPort g p p _ (by intro q; exact h q _ q.pevt) d
  · rw [postPort_port]
    exact (field_modPort g p p _ (by intro q; exact h q q.rail _) _).trans (field_modPort g p p _ (by intro q; exact h q _ q.pevt) d)
  · rfl

@[simp] theorem railOn_other (p : PortId) (d : Dev) : (railOn p d).port p.other = d.port p.other := by
  unfold railOn
  dsimp only
  repeat' split
  all_goals simp

@[simp] theorem railOn_us (p : PortId) (d : Dev) : (railOn p d).us = d.us := by
  unfold railOn
  dsimp only
  repeat' split
  all_goals simp

theorem railOn_sw {p : PortId} {d : Dev} (h : (d.port p).rail.en = true) : ((railOn p d).port p).rail.sw = .on := by
  unfold railOn
  dsimp only
  rw [if_pos h]
  split
  · simp
  · simp [setPevt]

/-- A PEVT flag that is set stays set as the rail goes ON. -/
theorem railOn_pevt {p : PortId} {d : Dev} {i : Nat} (h : (d.port p).pevt.getLsbD i = true) :
    ((railOn p d).port p).pevt.getLsbD i = true := by
  unfold railOn
  dsimp only
  repeat' split
  · simpa using h
  · simp [setPevt_pevt, h]
  · exact h

/-- The rail of a port that attaches to an end cap goes ON where RAIL.EN is 1 (R222). -/
def railAttaches (p : PortId) (d : Dev) : Dev := if (d.port p).rail.en then railOn p d else d

theorem railAttaches_field {α : Type} (g : Port → α) (h : ∀ q x e, g { q with rail := x, pevt := e } = g q) (p : PortId) (d : Dev) :
    g ((railAttaches p d).port p) = g (d.port p) := by
  unfold railAttaches
  split
  · exact railOn_field g h p d
  · rfl

@[simp] theorem railAttaches_other (p : PortId) (d : Dev) : (railAttaches p d).port p.other = d.port p.other := by
  unfold railAttaches
  split <;> simp

@[simp] theorem railAttaches_us (p : PortId) (d : Dev) : (railAttaches p d).us = d.us := by
  unfold railAttaches
  split <;> simp

theorem railAttaches_pevt {p : PortId} {d : Dev} {i : Nat} (h : (d.port p).pevt.getLsbD i = true) :
    ((railAttaches p d).port p).pevt.getLsbD i = true := by
  unfold railAttaches
  split
  · exact railOn_pevt h
  · exact h

/-- The line of a port that attaches to an end cap: its head may speak, with the factor of the probe's slope (R118, R131). -/
def lineReady (q : Port) : Port := { q with line := { q.line with silent := false, factor := firstFactor q.att.slope } }

/-- The window of an attached feeder without a peer lies in the next 100 ms, and nothing else changes (R133). -/
theorem nextPeerWindow_field {α : Type} (g : Port → α) (h : ∀ q n, g { q with att := { q.att with windowAt := n } } = g q)
    (p : PortId) (d : Dev) : g ((nextPeerWindow p d).port p) = g (d.port p) := by
  unfold nextPeerWindow
  exact (congrArg g (modPort_port _ p _)).trans ((h _ _).trans (congrArg g (takeFree_port d p)))

@[simp] theorem nextPeerWindow_other (p : PortId) (d : Dev) : (nextPeerWindow p d).port p.other = d.port p.other :=
  (modPort_port_other _ p _).trans (takeFree_port d p.other)

theorem nextPeerWindow_windowAt (p : PortId) (d : Dev) : ((nextPeerWindow p d).port p).att.windowAt / 100000 = d.us / 100000 + 1 := by
  have hport : ((nextPeerWindow p d).port p).att.windowAt = (d.us / 100000 + 1) * 100000 + (drawBelow 99000 d).1 := by
    unfold nextPeerWindow
    exact congrArg (fun q : Port => q.att.windowAt) (modPort_port _ p _)
  have hbound : (drawBelow 99000 d).1 < 99000 := Nat.mod_lt _ (by decide)
  omega

/-- What ends an attach to an end cap on a port with RING.EN 1. -/
def seeksNext (ring : Bool) (p : PortId) (d : Dev) : Dev := if ring then nextPeerWindow p d else d

theorem seeksNext_field {α : Type} (g : Port → α) (h : ∀ q n, g { q with att := { q.att with windowAt := n } } = g q) (ring : Bool)
    (p : PortId) (d : Dev) : g ((seeksNext ring p d).port p) = g (d.port p) := by
  cases ring with
  | true => exact nextPeerWindow_field g h p d
  | false => rfl

@[simp] theorem seeksNext_other (ring : Bool) (p : PortId) (d : Dev) : (seeksNext ring p d).port p.other = d.port p.other := by
  cases ring with
  | true => exact nextPeerWindow_other p d
  | false => rfl

theorem attachEndCap_eq (p : PortId) (sigB : Bool) (d : Dev) :
    attachEndCap p sigB d =
      seeksNext (d.port p).ring.en p (attachClose p ((railAttaches p (noteAttach p .attached 1 sigB d)).modPort p lineReady)) := rfl

/-- What an attach to an end cap leaves of its port (R131, R222). -/
theorem attachEndCap_port (p : PortId) (sigB : Bool) (d : Dev) :
    let e := attachEndCap p sigB d
    (e.port p).att.state = .attached ∧ (e.port p).att.att = true ∧ (e.port p).att.typ = 1 ∧ (e.port p).att.orient = sigB
      ∧ ((d.port p).rail.en = true → (e.port p).rail.sw = .on) ∧ (e.port p).gate = (d.port p).gate
      ∧ (e.port p).att.closeAt = (if (d.port p).grd.latch then none else some (d.us + 400))
      ∧ (e.port p).pevt.getLsbD eAttach = true ∧ e.port p.other = d.port p.other := by
  have hatt {α : Type} (g : Attach → α) (hw : ∀ a n, g { a with windowAt := n } = g a) (hc : ∀ a n, g { a with closeAt := n } = g a) :
      g ((attachEndCap p sigB d).port p).att = g (attachNoted .attached 1 sigB (d.port p)).att := by
    rw [attachEndCap_eq, seeksNext_field (fun q => g q.att) (fun q n => hw q.att n), attachClose, modPort_port, hc, modPort_port]
    exact (railAttaches_field (fun q => g q.att) (fun _ _ _ => rfl) p _).trans
      (noteAttach_field (fun q => g q.att) (fun _ _ => rfl) p _ _ _ d)
  have hclose : ((attachEndCap p sigB d).port p).att.closeAt = if (d.port p).grd.latch then none else some (d.us + 400) := by
    rw [attachEndCap_eq, seeksNext_field (fun q => q.att.closeAt) (fun _ _ => rfl), attachClose, modPort_port, modPort_port,
      show (lineReady ((railAttaches p (noteAttach p .attached 1 sigB d)).port p)).grd.latch = (d.port p).grd.latch from
        (railAttaches_field (fun q => q.grd.latch) (fun _ _ _ => rfl) p _).trans
          (noteAttach_field (fun q => q.grd.latch) (fun _ _ => rfl) p _ _ _ d)]
    simp
  have hgate : ((attachEndCap p sigB d).port p).gate = (d.port p).gate := by
    rw [attachEndCap_eq, seeksNext_field Port.gate (fun _ _ => rfl), attachClose, modPort_port, modPort_port]
    exact (railAttaches_field Port.gate (fun _ _ _ => rfl) p _).trans (noteAttach_field Port.gate (fun _ _ => rfl) p _ _ _ d)
  have hpevt : ((attachEndCap p sigB d).port p).pevt.getLsbD eAttach = true := by
    rw [attachEndCap_eq, seeksNext_field Port.pevt (fun _ _ => rfl), attachClose, modPort_port, modPort_port]
    refine railAttaches_pevt ?_
    rw [noteAttach_field Port.pevt (fun _ _ => rfl)]
    exact attachNoted_pevt _ _ _ _
  have hother : (attachEndCap p sigB d).port p.other = d.port p.other := by
    rw [attachEndCap_eq]
    simp [attachClose]
  have hrail (hen : (d.port p).rail.en = true) : ((attachEndCap p sigB d).port p).rail.sw = .on := by
    have hen1 : ((noteAttach p .attached 1 sigB d).port p).rail.en = true :=
      (noteAttach_field (fun q => q.rail.en) (fun _ _ => rfl) p _ _ _ d).trans hen
    rw [attachEndCap_eq, seeksNext_field (fun q => q.rail.sw) (fun _ _ => rfl), attachClose, modPort_port, modPort_port,
      railAttaches, if_pos hen1]
    exact railOn_sw hen1
  exact ⟨hatt Attach.state (fun _ _ => rfl) (fun _ _ => rfl), hatt Attach.att (fun _ _ => rfl) (fun _ _ => rfl),
    hatt Attach.typ (fun _ _ => rfl) (fun _ _ => rfl), hatt Attach.orient (fun _ _ => rfl) (fun _ _ => rfl), hrail, hgate, hclose,
    hpevt, hother⟩

/-- What an attach to a peer head leaves of its port (R131, R225). -/
theorem attachPeer_port (p : PortId) (sigB : Bool) (d : Dev) :
    let e := attachPeer p sigB d
    (e.port p).att.state = .peerHead ∧ (e.port p).att.att = true ∧ (e.port p).att.typ = 2 ∧ (e.port p).att.orient = sigB
      ∧ (e.port p).ring.join = .hello 0 0 ∧ (e.port p).gate = (d.port p).gate
      ∧ (e.port p).pevt.getLsbD eAttach = true ∧ e.port p.other = d.port p.other := by
  have hfield {α : Type} (g : Port → α) (h : ∀ q c, g { q with cfg := c } = g q) :=
    noteAttach_field g h p .peerHead 2 sigB d
  refine ⟨?_, ?_, ?_, ?_, ?_, ?_, ?_, ?_⟩ <;> simp only [attachPeer, modPort_port, modPort_port_other, noteAttach_other]
  · exact hfield (fun q => q.att.state) fun _ _ => rfl
  · exact hfield (fun q => q.att.att) fun _ _ => rfl
  · exact hfield (fun q => q.att.typ) fun _ _ => rfl
  · exact hfield (fun q => q.att.orient) fun _ _ => rfl
  · exact hfield Port.gate fun _ _ => rfl
  · rw [hfield Port.pevt fun _ _ => rfl]
    exact attachNoted_pevt _ _ _ _

theorem drawJoins_port (p : PortId) (pinB : Bool) (d : Dev) :
    let e := drawJoins p pinB d
    (e.port p).drw.joined = true ∧ (e.port p).drw.heardAt = d.us ∧ (e.port p).att.state = .attached
      ∧ (e.port p).att.typ = 3 ∧ (e.port p).att.orient = pinB ∧ (e.port p).pevt.getLsbD eAttach = true
      ∧ e.port p.other = d.port p.other := by
  have hfield {α : Type} (g : Port → α) (h : ∀ q c, g { q with cfg := c } = g q) :=
    noteAttach_field g h p .attached 3 pinB (d.modPort p fun q => { q with drw := { q.drw with joined := true, heardAt := d.us } })
  refine ⟨?_, ?_, ?_, ?_, ?_, ?_, ?_⟩ <;> unfold drawJoins
  · exact (hfield (fun q => q.drw.joined) fun _ _ => rfl).trans (congrArg (fun q : Port => q.drw.joined) (modPort_port _ p _))
  · exact (hfield (fun q => q.drw.heardAt) fun _ _ => rfl).trans (congrArg (fun q : Port => q.drw.heardAt) (modPort_port _ p _))
  · exact hfield (fun q => q.att.state) fun _ _ => rfl
  · exact hfield (fun q => q.att.typ) fun _ _ => rfl
  · exact hfield (fun q => q.att.orient) fun _ _ => rfl
  · rw [hfield Port.pevt fun _ _ => rfl]
    exact attachNoted_pevt _ _ _ _
  · rw [noteAttach_other, modPort_port_other]

/-- Two beacons on one pin and none on the other name the pin (R136). -/
theorem joins_of_pins {pinB : Bool} {a b : Nat} (h : (if pinB then b else a) ≥ 2) (h0 : (if pinB then a else b) = 0) :
    ¬ (1 ≤ a ∧ 1 ≤ b) ∧ decide (2 ≤ a ∨ 2 ≤ b) = true ∧ decide (2 ≤ b) = pinB := by
  cases pinB <;> simp_all <;> omega

/-- Settles O10: an attach is its note, its rail and its path's time; a join is its note alone. -/
theorem attaches : Obligations.Attaches := by
  intro s p
  refine ⟨fun sigB t hdeb hprobes ht => ?endCap, fun sigB t hdeb hprobes ht hwin => ?peer, fun hrole hen hjoined =>
    ⟨fun pinB h h0 => ?join, fun ha hb => ?both⟩⟩
  case endCap =>
    rw [leads_onDev (show exec (.attach p) s = execAttach p s from rfl)]
    simp only [hdeb, hprobes, ht, decide_true, Bool.and_self, guardDev_true]
    exact attachEndCap_port p sigB s.dev
  case peer =>
    rw [leads_onDev (show exec (.attach p) s = execAttach p s from rfl)]
    simp only [hdeb, hprobes, ht, hwin, decide_true, Bool.and_self, guardDev_true, if_true]
    exact attachPeer_port p sigB s.dev
  case join =>
    obtain ⟨hnot, htwo, hpin⟩ := joins_of_pins h h0
    rw [leads_onDev (show exec (.drawJoin p) s = execDrawJoin p s from rfl)]
    simp only [hrole, hen, hjoined, decide_true, Bool.not_false, Bool.and_self, if_true, hnot, if_false, htwo, guardDev_true, hpin]
    exact drawJoins_port p pinB s.dev
  case both =>
    rw [leads_onDev (show exec (.drawJoin p) s = execDrawJoin p s from rfl)]
    simp [hrole, hen, hjoined, ha, hb]

/-! ## Probing (R123, R132, R133, R135, R224) -/

theorem nextWindow_port (p : PortId) (d : Dev) :
    (nextWindow p d).port p = { d.port p with att := { (d.port p).att with windowOff := 4000 + (drawBelow 5001 d).1 } } := by
  have hport : (takeFree d).2.port p = d.port p := takeFree_port d p
  have hmod : (nextWindow p d).port p = { (takeFree d).2.port p with
      att := { ((takeFree d).2.port p).att with windowOff := 4000 + (drawBelow 5001 d).1 } } := modPort_port _ p _
  rw [hmod, hport]

/-- Settles O11: each command is its change of the one port where its condition holds; the places of the windows are free draws
below their bounds. -/
theorem probing : Obligations.Probing := by
  intro s p
  refine ⟨fun r hprobes hnext => ⟨fun hring => ?cycle, fun hring => ?cycleRing⟩, fun a b hends => ?window,
    fun ms hprobes hpauses hfruit hlow hhigh => ?pause, fun t hpause ht => ?pauseEnd, fun t hresume ht hrole => ?resume⟩
  case cycle =>
    have hguard : (probes (s.dev.port p) && decide ((s.dev.port p).att.nextProbe ≤ s.dev.us)) = true := by simp [hprobes, hnext]
    rw [show exec (.probeCycle p r) s = execProbeCycle p r s from rfl, execProbeCycle, onDev_eq, hguard, guardDev_true, probeEnds,
      hring]
    rfl
  case cycleRing =>
    have hbound : (drawBelow 5001 (s.dev.modPort p (probeResult r s.dev.us))).1 < 5001 := Nat.mod_lt _ (by decide)
    rw [leads_onDev (show exec (.probeCycle p r) s = execProbeCycle p r s from rfl)]
    simp only [hprobes, hnext, decide_true, Bool.and_self, guardDev_true, probeEnds, hring, if_true, nextWindow_port, modPort_port]
    refine ⟨trivial, Nat.le_add_right _ _, by omega, rfl, ?_⟩
    exact (modPort_port_other _ p _).trans ((takeFree_port _ _).trans (modPort_port_other _ p _))
  case window =>
    rw [leads_onDev (show exec (.peerWindow p a b) s = execPeerWindow p a b s from rfl), hends, guardDev_true]
    refine ⟨?_, ?_, ?_, ?_⟩
    · rw [nextPeerWindow_field (fun q => q.att.windows) (fun _ _ => rfl), modPort_port]
    · rw [nextPeerWindow_windowAt, modPort_us]
    · rw [nextPeerWindow_field Port.gate (fun _ _ => rfl), modPort_port]
    · rw [nextPeerWindow_other, modPort_port_other]
  case pause =>
    refine congrArg (fun d => Host.Outcome.next { s with dev := d }) (modPort_congr s.dev p _ _ ?_)
    exact if_pos ⟨hprobes, hpauses, hfruit, hlow, hhigh⟩
  case pauseEnd =>
    refine congrArg (fun d => Host.Outcome.next { s with dev := d }) (modPort_congr s.dev p _ _ ?_)
    simp [hpause, ht]
  case resume =>
    refine congrArg (fun d => Host.Outcome.next { s with dev := d }) (modPort_congr s.dev p _ _ ?_)
    simp [hresume, ht, hrole]

/-! ## Detach (R134, R135, R137) -/

/-- A PEVT flag that is set stays set as the rail goes OFF. -/
theorem railOff_pevt {p : PortId} {d : Dev} {i : Nat} (h : (d.port p).pevt.getLsbD i = true) :
    ((railOff p d).port p).pevt.getLsbD i = true := by
  unfold railOff
  dsimp only
  repeat' split
  all_goals simp [setPevt_pevt, h]

/-- A port that leaves its segment: nothing attached, no peer, and probing again in 100 ms (R135). -/
def leftSegment (now : Nat) (q : Port) : Port :=
  { unattach q with att := { (unattach q).att with resumeAt := some (now + 100000) } }

theorem detachPort_eq (p : PortId) (d : Dev) :
    detachPort p d = relieve ((railOff p (postPort 0x11 0 p 0 false ((abortRun 2 5 p d).modPort p fun q =>
      setPevt eDetach (openPath q)))).modPort p (leftSegment d.us)) := rfl

@[simp] theorem leftSegment_gate (now : Nat) (q : Port) : (leftSegment now q).gate = q.gate := rfl
@[simp] theorem leftSegment_role (now : Nat) (q : Port) : (leftSegment now q).role = q.role := rfl
@[simp] theorem leftSegment_ctl (now : Nat) (q : Port) : (leftSegment now q).ctl = q.ctl := rfl
@[simp] theorem leftSegment_rail (now : Nat) (q : Port) : (leftSegment now q).rail = q.rail := rfl
@[simp] theorem leftSegment_pevt (now : Nat) (q : Port) : (leftSegment now q).pevt = q.pevt := rfl
@[simp] theorem leftSegment_peer (now : Nat) (q : Port) : (leftSegment now q).ring.peer = false := rfl
@[simp] theorem leftSegment_att (now : Nat) (q : Port) : (leftSegment now q).att.att = false := rfl
@[simp] theorem leftSegment_state (now : Nat) (q : Port) : (leftSegment now q).att.state = .idle := rfl
@[simp] theorem leftSegment_resumeAt (now : Nat) (q : Port) : (leftSegment now q).att.resumeAt = some (now + 100000) := rfl

@[simp] theorem setPevt_gate (i : Nat) (q : Port) : (setPevt i q).gate = q.gate := rfl
@[simp] theorem setPevt_role (i : Nat) (q : Port) : (setPevt i q).role = q.role := rfl
@[simp] theorem setPevt_ctl (i : Nat) (q : Port) : (setPevt i q).ctl = q.ctl := rfl
@[simp] theorem setPevt_att (i : Nat) (q : Port) : (setPevt i q).att = q.att := rfl
@[simp] theorem setPevt_drw (i : Nat) (q : Port) : (setPevt i q).drw = q.drw := rfl

/-- What a detach leaves of both ports (R135). -/
theorem detachPort_port (p : PortId) (d : Dev) :
    let e := detachPort p d
    (e.port p).gate = .opened ∧ (e.port p).att.att = false ∧ (e.port p).att.state = .idle
      ∧ (e.port p).att.resumeAt = some (d.us + 100000) ∧ (e.port p).rail.sw = .off ∧ (e.port p).ring.peer = false
      ∧ (e.port p).pevt.getLsbD eDetach = true ∧ (e.port p).role = (d.port p).role ∧ OtherRole p d e
      ∧ (e.port p.other).gate = (d.port p.other).gate := by
  rw [detachPort_eq]
  refine ⟨?_, ?_, ?_, ?_, ?_, ?_, relieve_pevt ?_, ?_, ⟨?_, ?_⟩, ?_⟩
  case refine_7 =>
    rw [modPort_port, leftSegment_pevt]
    refine railOff_pevt ?_
    rw [postPort_port, modPort_port]
    exact setPevt_same eDetach (by decide) _
  all_goals simp [other_ne p]

/-- What a DRAW port that loses its head leaves of both ports (R137). -/
theorem drawLeave_port (p : PortId) (d : Dev) :
    let e := drawLeave p d
    (e.port p).gate = .opened ∧ (e.port p).att.att = false ∧ (e.port p).drw = {} ∧ (e.port p).pevt.getLsbD eDetach = true
      ∧ (e.port p).role = (d.port p).role ∧ OtherRole p d e := by
  unfold drawLeave
  refine ⟨?_, ?_, ?_, relieve_pevt ?_, ?_, ⟨?_, ?_⟩⟩
  case refine_3 => simp [unattach]
  case refine_4 =>
    rw [modPort_port, postPort_port, modPort_port]
    exact setPevt_same eDetach (by decide) _
  all_goals simp

/-- Settles O12: both commands are their change where the condition holds. -/
theorem detaches : Obligations.Detaches := by
  intro s p
  constructor
  · intro hholds
    rw [leads_onDev (show exec (.detach p) s = execDetach p s from rfl), hholds, guardDev_true]
    exact detachPort_port p s.dev
  · intro hrole hjoined hheard
    have hsilent : (decide ((s.dev.port p).role = .draw) && (s.dev.port p).drw.joined
        && decide ((s.dev.port p).drw.heardAt + 3300000 ≤ s.dev.us)) = true := by simp [hrole, hjoined, hheard]
    rw [leads_onDev (show exec (.upstreamSilence p) s = execUpstreamSilence p s from rfl)]
    dsimp only
    rw [hsilent, guardDev_true]
    exact drawLeave_port p s.dev

end Sys2Proof.Laws
end

section
/-! What is done on one port leaves the other port exactly as it is: the traffic of the line, contracts, slots and steps. -/

namespace Sys2Proof.Laws

open Sys2Proof Machine

/-! ## What is done on one port leaves the other -/

theorem foldDev_port {α : Type} (r : PortId) (f : α → Dev → Dev) (h : ∀ a d, (f a d).port r = d.port r) (l : List α) (d : Dev) :
    (foldDev f l d).port r = d.port r := by
  induction l generalizing d with
  | nil => rfl
  | cons a t ih => rw [foldDev, ih, h]

@[simp] theorem launch_other (p : PortId) (d : Dev) : (launch p d).port p.other = d.port p.other := modPort_port_other _ _ _

@[simp] theorem enqueue_other (p : PortId) (o : OutFrame) (d : Dev) : (enqueue p o d).port p.other = d.port p.other := by
  unfold enqueue
  repeat' split
  all_goals simp

@[simp] theorem dropFront_other (p : PortId) (d : Dev) : (dropFront p d).port p.other = d.port p.other := by
  unfold dropFront
  repeat' split
  all_goals simp

@[simp] theorem sendTo_other (p : PortId) (i : Idx) (kind : OutKind) (mt : BitVec 6) (flags : Byte) (payload : List Byte)
    (slot : Option (BitVec 7)) (d : Dev) : (sendTo p i kind mt flags payload slot d).port p.other = d.port p.other := by
  unfold sendTo
  repeat' split
  all_goals simp

@[simp] theorem sendPeer_other (p : PortId) (kind : OutKind) (mt : BitVec 6) (payload : List Byte) (d : Dev) :
    (sendPeer p kind mt payload d).port p.other = d.port p.other := by
  unfold sendPeer
  dsimp only
  repeat' split
  all_goals simp

@[simp] theorem endContract_other (code : Nat) (p : PortId) (i : Idx) (d : Dev) :
    (endContract code p i d).port p.other = d.port p.other := by
  simp [endContract]

@[simp] theorem sendWithdraw_other (reason : Nat) (p : PortId) (i : Idx) (slot : Option Nat) (reserve : Nat) (d : Dev) :
    (sendWithdraw reason p i slot reserve d).port p.other = d.port p.other := by
  unfold sendWithdraw
  dsimp only
  split <;> cases slot <;> simp

@[simp] theorem withdrawGrant_other (reason : Nat) (p : PortId) (k : Nat) (d : Dev) :
    (withdrawGrant reason p k d).port p.other = d.port p.other := by
  unfold withdrawGrant
  repeat' split
  all_goals simp

@[simp] theorem withdrawContract_other (reason : Nat) (p : PortId) (i : Idx) (d : Dev) :
    (withdrawContract reason p i d).port p.other = d.port p.other := by
  simp [withdrawContract]

@[simp] theorem dropAwaiting_other (p : PortId) (above : Level → Bool) (d : Dev) :
    (dropAwaiting p above d).port p.other = d.port p.other := by
  unfold dropAwaiting
  refine foldDev_port _ _ (fun x e => ?_) _ _
  repeat' split
  all_goals simp

@[simp] theorem shedForLevel_other (p : PortId) (l : Level) (d : Dev) : (shedForLevel p l d).port p.other = d.port p.other := by
  unfold shedForLevel
  dsimp only
  refine (foldDev_port _ _ (fun x e => ?_) _ _).trans (foldDev_port _ _ (fun x e => ?_) _ _) <;> split <;> simp

@[simp] theorem shedDown_other (p : PortId) (top : Level) (d : Dev) : (shedDown p top d).port p.other = d.port p.other := by
  unfold shedDown
  repeat' split
  all_goals simp

@[simp] theorem sendWaitPlain_other (p : PortId) (i : Idx) (k : Option Nat) (retry : Nat) (d : Dev) :
    (sendWaitPlain p i k retry d).port p.other = d.port p.other := by
  cases k <;> simp [sendWaitPlain]

@[simp] theorem sendReject_other (p : PortId) (i : Idx) (k : Option Nat) (reason : Nat) (d : Dev) :
    (sendReject p i k reason d).port p.other = d.port p.other := by
  cases k <;> simp [sendReject]

@[simp] theorem sendWait_other (p : PortId) (i : Idx) (k : Option Nat) (req : RequestMsg) (arrival code bit : Nat) (d : Dev) :
    (sendWait p i k req arrival code bit d).port p.other = d.port p.other := by
  cases k <;> simp [sendWait]

@[simp] theorem sendAccept_other (p : PortId) (i : Idx) (k : Nat) (s : Slot) (l : Level) (spec : Bool) (d : Dev) :
    (sendAccept p i k s l spec d).port p.other = d.port p.other := by
  simp [sendAccept]

@[simp] theorem confirmSlot_other (p : PortId) (k : Nat) (s : Slot) (i : Idx) (l : Level) (d : Dev) :
    (confirmSlot p k s i l d).port p.other = d.port p.other := by
  unfold confirmSlot
  dsimp only
  split <;> simp

@[simp] theorem abortSlot_other (sa w : Nat) (p : PortId) (x : Nat × Slot) (d : Dev) :
    (abortSlot sa w p x d).port p.other = d.port p.other := by
  unfold abortSlot
  repeat' split
  all_goals simp

@[simp] theorem abortSlots_other (sa w : Nat) (p : PortId) (d : Dev) : (abortSlots sa w p d).port p.other = d.port p.other :=
  foldDev_port _ _ (fun x e => abortSlot_other sa w p x e) _ _

@[simp] theorem levelEnds_other (p : PortId) (d : Dev) : (levelEnds p d).port p.other = d.port p.other := by
  unfold levelEnds
  split <;> simp

@[simp] theorem endAll_other (w : Nat) (p : PortId) (d : Dev) : (endAll w p d).port p.other = d.port p.other := by
  unfold endAll
  split
  · simp
  · exact foldDev_port _ _ (fun x e => endContract_other w p _ e) _ _

@[simp] theorem abortRun_other (sa w : Nat) (p : PortId) (d : Dev) : (abortRun sa w p d).port p.other = d.port p.other := by
  unfold abortRun
  refine (modPort_port_other _ _ _).trans ?_
  rw [endAll_other, levelEnds_other, abortSlots_other]

@[simp] theorem abortStep_other (p : PortId) (d : Dev) : (abortStep p d).port p.other = d.port p.other := by
  unfold abortStep
  split
  · rfl
  · simp

@[simp] theorem mismatch_other (p : PortId) (d : Dev) : (mismatch p d).port p.other = d.port p.other := by
  simp [mismatch]

@[simp] theorem toneCutsPulse_other (p : PortId) (d : Dev) : (toneCutsPulse p d).port p.other = d.port p.other := by
  unfold toneCutsPulse
  repeat' split
  all_goals simp

end Sys2Proof.Laws
end

section
/-! The stages of a level step (Table 09-2): broadcasts, the settling and the abort. -/

namespace Sys2Proof.Laws

open Sys2Proof Machine

/-! ## Broadcasts (R143, R167) -/

theorem emit_sent (x : TxItem) (q : Port) : Sent x (emit x q) := by
  unfold emit
  split
  · exact Or.inr (by simp)
  · exact Or.inl (by simp)

/-- A broadcast of the head: its frame is sent, and the broadcast SEQ advances. -/
theorem broadcast_sent {mt : BitVec 6} {flags : Byte} {payload : List Byte} {q : Port} (h : q.isHead = true) :
    Sent (.full ⟨mt, 0x3FF, q.line.bseq, flags ||| flBc, payload⟩) (broadcast mt flags payload q) := by
  unfold broadcast
  rw [if_pos h]
  split
  · exact Or.inr (by simp [holdGroup])
  · exact emit_sent _ _

theorem broadcast_bseq {mt : BitVec 6} {flags : Byte} {payload : List Byte} {q : Port} (h : q.isHead = true) :
    (broadcast mt flags payload q).line.bseq = q.line.bseq + 1 := by
  unfold broadcast
  rw [if_pos h]
  split
  · rfl
  · unfold sendGroup emit
    split <;> rfl

@[simp] theorem emit_lev (x : TxItem) (q : Port) : (emit x q).lev = q.lev := by
  unfold emit
  split <;> rfl

@[simp] theorem broadcast_lev (mt : BitVec 6) (flags : Byte) (payload : List Byte) (q : Port) :
    (broadcast mt flags payload q).lev = q.lev := by
  unfold broadcast sendGroup
  repeat' split
  · rfl
  · rw [emit_lev]
  · rfl

@[simp] theorem broadcast_gate (mt : BitVec 6) (flags : Byte) (payload : List Byte) (q : Port) :
    (broadcast mt flags payload q).gate = q.gate := (congrArg Port.gate (broadcast_steady mt flags payload q) :)
@[simp] theorem broadcast_role (mt : BitVec 6) (flags : Byte) (payload : List Byte) (q : Port) :
    (broadcast mt flags payload q).role = q.role := (congrArg Port.role (broadcast_steady mt flags payload q) :)
@[simp] theorem broadcast_ctl (mt : BitVec 6) (flags : Byte) (payload : List Byte) (q : Port) :
    (broadcast mt flags payload q).ctl = q.ctl := (congrArg Port.ctl (broadcast_steady mt flags payload q) :)
@[simp] theorem broadcast_pevt (mt : BitVec 6) (flags : Byte) (payload : List Byte) (q : Port) :
    (broadcast mt flags payload q).pevt = q.pevt := (congrArg Port.pevt (broadcast_steady mt flags payload q) :)
@[simp] theorem broadcast_drp (mt : BitVec 6) (flags : Byte) (payload : List Byte) (q : Port) :
    (broadcast mt flags payload q).drp = q.drp := (congrArg Port.drp (broadcast_steady mt flags payload q) :)

theorem isHead_of_mayBroadcast {now : Nat} {q : Port} (h : mayBroadcast now q = true) : q.isHead = true := by
  simp only [mayBroadcast, Bool.and_eq_true] at h
  grind

/-! ## The stages of a step (R208, R211, R214, R216) -/

@[simp] theorem reachSlots_lev (l : Level) (q : Port) : (reachSlots l q).lev = q.lev := rfl
@[simp] theorem reachSlots_gate (l : Level) (q : Port) : (reachSlots l q).gate = q.gate := rfl
@[simp] theorem reachSlots_pevt (l : Level) (q : Port) : (reachSlots l q).pevt = q.pevt := rfl

/-- A port whose step has settled, as it leaves the step (R208, R212, R219). -/
def stepSettled (st : LevelStep) (q : Port) : Port :=
  setPevt eLevel (clampDroop { q with lev := { q.lev with
    cur := if q.gate = .opened then 0 else st.dst, ringCur := st.dst, step := none, tgt := nextTgt q, tgtNext := none
    lfault := false } })

/-- The same with its broadcast. -/
def settleTold (st : LevelStep) (q : Port) : Port := broadcast 0x11 0 (payDone st.dst false) (reachSlots st.dst (stepSettled st q))

theorem settleStep_eq (p : PortId) (st : LevelStep) (d : Dev) :
    let d2 := postPort 0x15 ((d.modPort p (settleTold st)).port p).lev.cur.toNat p 0 false (d.modPort p (settleTold st))
    let top := (d2.port p).lev.tgt
    settleStep p st d = (shedDown p top (dropAwaiting p (fun l => decide (top < l)) d2)).modPort p (beginStep (d.us - 1000)) := rfl

/-- Shedding for a lower level is traffic (R95, R209): the level, LFAULT, PEVT and the path stay. -/
theorem shedDown_still (p r : PortId) (top : Level) (d : Dev) :
    ((shedDown p top d).port r).gate = (d.port r).gate ∧ ((shedDown p top d).port r).pevt = (d.port r).pevt
      ∧ ((shedDown p top d).port r).lev.cur = (d.port r).lev.cur ∧ ((shedDown p top d).port r).lev.lfault = (d.port r).lev.lfault
      ∧ ((shedDown p top d).port r).lev.tgtNext = (d.port r).lev.tgtNext := by
  unfold shedDown
  split
  · split
    · have h := shedForLevel_steady p top d
      exact ⟨gate_of_steady h r, pevt_of_steady h r, lev_cur_of_steady h r, lev_lfault_of_steady h r, lev_tgtNext_of_steady h r⟩
    · exact ⟨field_modPort Port.gate p r _ (by intro q; rfl) d, field_modPort Port.pevt p r _ (by intro q; rfl) d,
        field_modPort (fun q => q.lev.cur) p r _ (by intro q; rfl) d, field_modPort (fun q => q.lev.lfault) p r _ (by intro q; rfl) d,
        field_modPort (fun q => q.lev.tgtNext) p r _ (by intro q; rfl) d⟩
  · exact ⟨rfl, rfl, rfl, rfl, rfl⟩

@[simp] theorem beginStep_gate (now : Nat) (q : Port) : (beginStep now q).gate = q.gate := (congrArg Port.gate (beginStep_steady now q) :)
@[simp] theorem beginStep_pevt (now : Nat) (q : Port) : (beginStep now q).pevt = q.pevt := (congrArg Port.pevt (beginStep_steady now q) :)
@[simp] theorem beginStep_lfault (now : Nat) (q : Port) : (beginStep now q).lev.lfault = q.lev.lfault :=
  (congrArg (fun q : Port => q.lev.lfault) (beginStep_steady now q) :)

theorem settleStep_port (p : PortId) (st : LevelStep) (d : Dev) :
    let e := settleStep p st d
    (e.port p).lev.cur = (if (d.port p).gate = .opened then 0 else st.dst) ∧ (e.port p).lev.lfault = false
      ∧ (e.port p).lev.tgtNext = none ∧ (e.port p).pevt.getLsbD eLevel = true
      ∧ (e.port p).gate = (d.port p).gate ∧ e.port p.other = d.port p.other := by
  rw [settleStep_eq]
  generalize hd2 : postPort 0x15 _ p 0 false (d.modPort p (settleTold st)) = d2
  have hport : d2.port p = settleTold st (d.port p) := by rw [← hd2, postPort_port, modPort_port]
  have hother : d2.port p.other = d.port p.other := by rw [← hd2, postPort_port, modPort_port_other]
  dsimp only
  generalize (d2.port p).lev.tgt = top
  have hdrop := dropAwaiting_steady p (fun l => decide (top < l)) d2
  obtain ⟨hgate, hpevt, hcur, hlfault, hnext⟩ := shedDown_still p p top (dropAwaiting p (fun l => decide (top < l)) d2)
  refine ⟨?_, ?_, ?_, ?_, ?_, ?_⟩
  · rw [modPort_port, beginStep_cur, hcur, lev_cur_of_steady hdrop, hport]
    simp [settleTold, stepSettled, clampDroop, setPevt]
  · rw [modPort_port, beginStep_lfault, hlfault, lev_lfault_of_steady hdrop, hport]
    simp [settleTold, stepSettled, clampDroop, setPevt]
  · rw [modPort_port, beginStep_tgtNext, hnext, lev_tgtNext_of_steady hdrop, hport]
    simp [settleTold, stepSettled, clampDroop, setPevt]
  · rw [modPort_port, beginStep_pevt, hpevt, pevt_of_steady hdrop, hport, settleTold, broadcast_pevt, reachSlots_pevt]
    exact setPevt_same eLevel (by decide) _
  · rw [modPort_port, beginStep_gate, hgate, gate_of_steady hdrop, hport]
    simp [settleTold, stepSettled, clampDroop, setPevt]
  · rw [modPort_port_other, shedDown_other, dropAwaiting_other, hother]

/-- A port whose step is aborted: the from-level's code and target, and no raise for a while after a step up (R214, R215). -/
def stepAborted (now : Nat) (st : LevelStep) (q : Port) : Port :=
  setPevt eLevel (clampDroop { q with lev := { q.lev with
    step := none, tgt := st.src, tgtNext := none, code := levelCode q st.src
    raiseFrom := if st.src < st.dst then now + 9900000 else q.lev.raiseFrom } })

theorem abortStep_eq {p : PortId} {d : Dev} {st : LevelStep} (h : (d.port p).lev.step = some st) :
    abortStep p d = dropAwaiting p (fun l => decide (st.src < l)) (postPort 0x16 st.src.toNat p 0 false
      (d.modPort p fun q => broadcast 0x11 0 (payDone st.src true) (stepAborted d.us st q))) := by
  simp only [abortStep, h]
  rfl

/-- What aborting a step keeps of its port: what the abort writes and no traffic. -/
theorem abortStep_field {α : Type} (g : Port → α) (h : ∀ {a b : Port}, Port.steady a = Port.steady b → g a = g b)
    {p : PortId} {d : Dev} {st : LevelStep} (hstep : (d.port p).lev.step = some st) :
    g ((abortStep p d).port p) = g (stepAborted d.us st (d.port p)) := by
  rw [abortStep_eq hstep]
  refine (h (port_of_steady (dropAwaiting_steady p _ _) p)).trans ?_
  rw [postPort_port, modPort_port]
  exact h (broadcast_steady _ _ _ _)

theorem abortStep_port {p : PortId} {d : Dev} {st : LevelStep} (hstep : (d.port p).lev.step = some st) :
    let e := abortStep p d
    (e.port p).lev.code = levelCode (d.port p) st.src ∧ (e.port p).lev.cur = (d.port p).lev.cur ∧ (e.port p).lev.tgtNext = none
      ∧ (st.src < st.dst → (e.port p).lev.raiseFrom = d.us + 9900000) ∧ (e.port p).pevt.getLsbD eLevel = true
      ∧ (e.port p).gate = (d.port p).gate ∧ OtherRole p d e := by
  refine ⟨?_, ?_, ?_, fun hup => ?_, ?_, ?_, ?_⟩
  · exact abortStep_field (fun q => q.lev.code) (fun h => (congrArg (fun q : Port => q.lev.code) h :)) hstep
  · exact abortStep_field (fun q => q.lev.cur) (fun h => (congrArg (fun q : Port => q.lev.cur) h :)) hstep
  · exact abortStep_field (fun q => q.lev.tgtNext) (fun h => (congrArg (fun q : Port => q.lev.tgtNext) h :)) hstep
  · refine (abortStep_field (fun q => q.lev.raiseFrom) (fun h => (congrArg (fun q : Port => q.lev.raiseFrom) h :)) hstep).trans ?_
    exact if_pos hup
  · rw [abortStep_field Port.pevt (fun h => (congrArg Port.pevt h :)) hstep]
    exact setPevt_same eLevel (by decide) _
  · exact abortStep_field Port.gate (fun h => (congrArg Port.gate h :)) hstep
  · exact ⟨by rw [abortStep_other], by rw [abortStep_other]⟩

/-- Settles O13: each stage is its change of the one step; the settling and the abort are followed by traffic alone. -/
theorem levelStepStages : Obligations.LevelStepStages := by
  intro s p st hstep
  refine ⟨fun t b1 hstage ht hlow hhigh hmay => ?notice, fun t b1 hstage ht hhold => ?rampStart, fun t start hstage ht hhold => ?rampEnd,
    fun t e hstage hset => ?settledAt, fun t hstart ht hmaster => ?timeout⟩
  case notice =>
    have hhead := isHead_of_mayBroadcast hmay
    rw [leads_onDev (show exec (.levelNotice p b1) s = execLevelNotice p b1 s from rfl)]
    simp only [modPort_port, modPort_port_other, hstep, hstage, ht, hlow, hhigh, hmay, and_self, if_true]
    exact ⟨broadcast_lev _ _ _ _, broadcast_bseq hhead, broadcast_sent (flags := 0) hhead, trivial⟩
  case rampStart =>
    refine congrArg (fun d => Host.Outcome.next { s with dev := d }) (modPort_congr s.dev p _ _ ?_)
    simp only [hstep, hstage, ht, hhold, and_self, if_true]
  case rampEnd =>
    refine congrArg (fun d => Host.Outcome.next { s with dev := d }) (modPort_congr s.dev p _ _ ?_)
    simp only [hstep, hstage, ht, hhold, and_self, if_true]
  case settledAt =>
    rw [leads_onDev (show exec (.levelSettled p) s = execLevelSettled p s from rfl)]
    simp only [hstep, hstage, hset, guardDev_true]
    exact settleStep_port p st s.dev
  case timeout =>
    have hbound : decide (t + stepBound st ≤ s.dev.us) = true := decide_eq_true ht
    obtain ⟨hcode, hcur, hnext, hraise, hpevt, hgate, hother⟩ := abortStep_port hstep
    rw [leads_onDev (show exec (.levelStepTimeout p) s = execLevelStepTimeout p s from rfl)]
    simp only [hstep, hstart, hbound, hmaster, guardDev_true, Bool.false_eq_true, if_false]
    refine ⟨?_, ?_, ?_, ?_, fun hup => ?_, relieve_pevt ?_, ?_, ?_⟩
    · simp
    · simp [hcode]
    · simp [hcur]
    · simp [hnext]
    · simp [hraise hup]
    · simpa using hpevt
    · simp [hgate]
    · simpa [OtherRole] using hother

end Sys2Proof.Laws
end

section
/-! The level's target and the droop responder (R209, R215, R293 to R300). -/

namespace Sys2Proof.Laws

open Sys2Proof Machine

/-- A change that leaves a port as it is leaves the device. -/
theorem modPort_self (d : Dev) (p : PortId) (f : Port → Port) (h : f (d.port p) = d.port p) : d.modPort p f = d := by
  cases p
  · exact congrArg (fun q => { d with p0 := q }) h
  · exact congrArg (fun q => { d with p1 := q }) h

/-! ## The target of a level (R94, R209, R215, R424) -/

@[simp] theorem beginStep_tgt (now : Nat) (q : Port) : (beginStep now q).lev.tgt = q.lev.tgt := by
  unfold beginStep
  dsimp only
  split <;> rfl

/-- A closed head outside its first second whose target differs from its level begins a step (R208). -/
theorem beginStep_begins {now : Nat} {q : Port} (hstep : q.lev.step = none) (hne : q.lev.cur ≠ q.lev.tgt) (hgate : q.gate = .closed)
    (hhead : q.isHead = true) (hfirst : q.line.first = none) : (beginStep now q).lev.step.isSome = true := by
  have hlevel : segmentLevel q = q.lev.cur := by simp [segmentLevel, hgate]
  have hpath : stepsPath q = true := by simp [stepsPath, hgate]
  simp only [beginStep, hlevel]
  rw [if_pos ⟨hstep, Ne.symm hne, hpath, hhead, Or.inl hfirst⟩]
  rfl

/-- Settles O14: both commands set the target and then begin a step where one may run; what R215 bars leaves the state. -/
theorem levelTargets : Obligations.LevelTargets := by
  intro s p hhold
  refine ⟨fun halloc hhead hgang t hidle ht => ?idle, fun l hrun hfollow hraise => ?target, fun l hup hraise => ?barred⟩
  case idle =>
    rw [leads_onDev (show exec (.idleLevelDrop p) s = execIdleLevelDrop p s from rfl)]
    simp only [halloc, hhead, hhold, hgang, hidle, ht, Bool.not_false, decide_true, Bool.true_or, Bool.and_self, guardDev_true,
      modPort_port, modPort_port_other]
    exact ⟨beginStep_tgt _ _, beginStep_cur _ _, trivial⟩
  case target =>
    have hnot : ¬ ((s.dev.port p).lev.hold = true ∨ (s.dev.port p).follower = true
        ∨ ((s.dev.port p).lev.tgt < clampTop (s.dev.port p) l ∧ raiseAllowed s.dev.us (s.dev.port p) = false)) := by
      rintro (h | h | ⟨hup, hno⟩)
      · simp [hhold] at h
      · simp [hfollow] at h
      · simp [hraise hup] at hno
    rw [leads_onDev (show exec (.engineLevelTarget p l) s = execEngineLevelTarget p l s from rfl), hrun, guardDev_true]
    simp only [coreTarget, modPort_port, modPort_port_other, if_neg hnot]
    exact ⟨beginStep_tgt _ _, beginStep_cur _ _, fun hstep hne hgate hhead hfirst => beginStep_begins hstep hne hgate hhead hfirst,
      trivial⟩
  case barred =>
    have hkeep : coreTarget p l s.dev = s.dev :=
      modPort_self s.dev p _ (if_pos (Or.inr (Or.inr ⟨hup, hraise⟩)))
    rw [show exec (.engineLevelTarget p l) s = execEngineLevelTarget p l s from rfl, execEngineLevelTarget, onDev_eq]
    cases s.dev.core.run with
    | true => rw [guardDev_true, hkeep]
    | false => rfl

/-! ## The droop responder (R293 to R300) -/

/-- A port that answers a droop (R294, R298): the step, the flags and the limit of the hold. -/
def droopHeld (now : Nat) (q : Port) : Port :=
  notePDroop { q with drp := { q.drp with
    act := true, hold := true, shed := true, at_ := now, toneAt := some now, removeAt := none
    applied := droopCodes q, admit0 := admitSum q
    limitPrev := q.drp.limit, limit := some (capBy (admitSum q) q.drp.limit) } }

/-- The response of a head: the port, its tone, the pulse that the tone meets, the event, and what the limit sheds. -/
theorem droopRespond_eq {p : PortId} {d : Dev} (h : (d.port p).follower = false) :
    droopRespond p d = relieve (postPort 0x17 0 p 0 false (toneCutsPulse p
      (d.modPort p fun q => emitTone (shedRates d.us (droopHeld d.us q))))) := by
  simp only [droopRespond, h]
  rfl

theorem droopRespond_port {p : PortId} {d : Dev} (h : (d.port p).follower = false) :
    let e := droopRespond p d
    (e.port p).drp = (droopHeld d.us (d.port p)).drp ∧ (e.port p).pevt.getLsbD eDroop = true
      ∧ (e.port p).gate = (d.port p).gate ∧ OtherRole p d e := by
  have htone (q : Port) : Port.steady (emitTone (shedRates d.us (droopHeld d.us q))) = Port.steady (droopHeld d.us q) := by
    rw [emitTone_steady, shedRates_steady]
  have hcut := toneCutsPulse_steady p (d.modPort p fun q => emitTone (shedRates d.us (droopHeld d.us q)))
  rw [droopRespond_eq h]
  refine ⟨?_, relieve_pevt ?_, ?_, ?_, ?_⟩
  · rw [relieve_drp, postPort_port, drp_of_steady hcut, modPort_port]
    exact (congrArg Port.drp (htone _) :)
  · have hpevt : (emitTone (shedRates d.us (droopHeld d.us (d.port p)))).pevt = (droopHeld d.us (d.port p)).pevt :=
      (congrArg Port.pevt (htone (d.port p)) :)
    rw [postPort_port, pevt_of_steady hcut, modPort_port, hpevt]
    exact setPevt_same eDroop (by decide) _
  · rw [relieve_gate, postPort_port, gate_of_steady hcut, modPort_port]
    exact (congrArg Port.gate (htone _) :)
  · simp
  · simp

/-- The limit of a hold that ends without a recovery (R299): 80 % of what was confirmed as the droop came. -/
theorem droopPersists_port {p : PortId} {d : Dev} (hfollow : (d.port p).follower = false) :
    let e := droopPersists p d
    (e.port p).drp.hold = false ∧ (e.port p).drp.fallAt = d.us + 100000
      ∧ (e.port p).drp.limit = some (capBy ((d.port p).drp.admit0 * 80 / 100) (d.port p).drp.limitPrev)
      ∧ (e.port p).drp.shed = (d.port p).drp.shed ∧ OtherRole p d e := by
  have hstay (e : Dev) : ((abortStep p e).port p).drp.hold = (e.port p).drp.hold
      ∧ ((abortStep p e).port p).drp.fallAt = (e.port p).drp.fallAt ∧ ((abortStep p e).port p).drp.limit = (e.port p).drp.limit
      ∧ ((abortStep p e).port p).drp.shed = (e.port p).drp.shed := by
    cases hstep : (e.port p).lev.step with
    | none => simp [abortStep, hstep]
    | some st =>
      exact ⟨abortStep_field (fun q => q.drp.hold) (fun h => (congrArg (fun q : Port => q.drp.hold) h :)) hstep,
        abortStep_field (fun q => q.drp.fallAt) (fun h => (congrArg (fun q : Port => q.drp.fallAt) h :)) hstep,
        abortStep_field (fun q => q.drp.limit) (fun h => (congrArg (fun q : Port => q.drp.limit) h :)) hstep,
        abortStep_field (fun q => q.drp.shed) (fun h => (congrArg (fun q : Port => q.drp.shed) h :)) hstep⟩
  unfold droopPersists
  obtain ⟨hhold, hfall, hlimit, hshed⟩ := hstay (postPort 0x17 1 p 0 false (d.modPort p fun q => { q with drp := { q.drp with
    hold := false, fallAt := d.us + 100000
    limit := if q.follower then q.drp.limit else some (capBy (q.drp.admit0 * 80 / 100) q.drp.limitPrev)
    limitPrev := none } }))
  refine ⟨?_, ?_, ?_, ?_, ?_, ?_⟩
  · rw [relieve_drp, hhold, postPort_port, modPort_port]
  · rw [relieve_drp, hfall, postPort_port, modPort_port]
  · rw [relieve_drp, hlimit, postPort_port, modPort_port, hfollow]
    rfl
  · rw [relieve_drp, hshed, postPort_port, modPort_port]
  · simp
  · simp

/-- Settles O16: a droop is answered, held, cleared or limited by the change of its port, and what follows is traffic. That the
applied code is taken anew while an earlier step is in place is the model's choice (log entry 135). -/
theorem droopResponse : Obligations.DroopResponse := by
  intro s p
  refine ⟨fun hready hfollow => ?detect, fun hhold hfollow hup => ?cleared, fun hhold hfollow hdown ht => ?persists,
    fun t hremove ht => ?removed, fun l hpers hlimit hfall => ?fall, fun hhold hat hok => ?limitEnd⟩
  case detect =>
    obtain ⟨hdrp, hpevt, hgate, hother⟩ := droopRespond_port (d := s.dev) hfollow
    rw [leads_onDev (show exec (.droopDetect p) s = execDroopDetect p s from rfl), hready, guardDev_true, hdrp]
    exact ⟨rfl, rfl, rfl, rfl, rfl, hpevt, hgate, hother⟩
  case cleared =>
    rw [leads_onDev (show exec (.droopHoldEnd p) s = execDroopHoldEnd p s from rfl)]
    simp [hhold, hup, droopCleared, hfollow]
  case persists =>
    have hnot : ¬ 1000 ≤ (s.dev.port p).met.vsegUp := by omega
    rw [leads_onDev (show exec (.droopHoldEnd p) s = execDroopHoldEnd p s from rfl)]
    simp only [hhold, hnot, ht, if_true, if_false]
    exact droopPersists_port hfollow
  case removed =>
    refine congrArg (fun d => Host.Outcome.next { s with dev := d }) (modPort_congr s.dev p _ _ ?_)
    simp only [hremove, ht, if_true]
  case fall =>
    rw [leads_onDev (show exec (.droopLimitFall p) s = execDroopLimitFall p s from rfl)]
    simp [hpers, hlimit, hfall]
  case limitEnd =>
    refine congrArg (fun d => Host.Outcome.next { s with dev := d }) (modPort_congr s.dev p _ _ ?_)
    exact if_pos ⟨hhold, hat, hok⟩

end Sys2Proof.Laws
end

section
/-! What sending leaves of a port's line and levels: everything but the queue of exchanges, the items given to the wire and the SEQ. -/

namespace Sys2Proof.Laws

open Sys2Proof Machine

/-! ## What sending leaves of the line and of the levels -/

/-- A line without its queue of exchanges, the items given to the wire and the broadcast SEQ. -/
def Line.plan (l : Line) : Line := { l with out := [], tx := [], later := [], fresh := [], bseq := 0 }

/-- What sends and ends of contracts leave of a port's line and levels. -/
def Port.plan (q : Port) : Line × Levels := (Line.plan q.line, q.lev)

theorem plan_modPort (p r : PortId) (f : Port → Port) (h : ∀ q, Port.plan (f q) = Port.plan q) (d : Dev) :
    Port.plan ((d.modPort p f).port r) = Port.plan (d.port r) := field_modPort Port.plan p r f h d

theorem plan_foldDev {α : Type} (r : PortId) (f : α → Dev → Dev) (h : ∀ a d, Port.plan ((f a d).port r) = Port.plan (d.port r))
    (l : List α) (d : Dev) : Port.plan ((foldDev f l d).port r) = Port.plan (d.port r) := by
  induction l generalizing d with
  | nil => rfl
  | cons a t ih => rw [foldDev, ih, h]

@[simp] theorem emit_plan (x : TxItem) (q : Port) : Port.plan (emit x q) = Port.plan q := by
  unfold emit
  split <;> rfl

@[simp] theorem setRoster_plan (i : Nat) (r : RosterRec) (q : Port) : Port.plan (setRoster i r q) = Port.plan q := rfl
@[simp] theorem setContract_plan (i : Nat) (c : ContractRec) (q : Port) : Port.plan (setContract i c q) = Port.plan q := rfl
@[simp] theorem putSlot_plan (k : Nat) (s : Slot) (q : Port) : Port.plan (putSlot k s q) = Port.plan q := rfl
@[simp] theorem dropSlot_plan (k : Nat) (q : Port) : Port.plan (dropSlot k q) = Port.plan q := rfl
@[simp] theorem takeSlot_plan (k : Nat) (s : Slot) (q : Port) : Port.plan (takeSlot k s q) = Port.plan q := rfl

@[simp] theorem closeSlot_plan (k : Nat) (q : Port) : Port.plan (closeSlot k q) = Port.plan q := by
  unfold closeSlot
  split <;> rfl

@[simp] theorem rateFor_plan (i : Idx) (pw us : Nat) (q : Port) : Port.plan (rateFor i pw us q) = Port.plan q := by
  unfold rateFor
  dsimp only
  split <;> rfl

@[simp] theorem dropPending_plan (i : Idx) (q : Port) : Port.plan (dropPending i q) = Port.plan q := rfl
@[simp] theorem dropHint_plan (i : Idx) (q : Port) : Port.plan (dropHint i q) = Port.plan q := rfl

@[simp] theorem clearContract_plan (i : Idx) (q : Port) : Port.plan (clearContract i q) = Port.plan q := by
  unfold clearContract
  dsimp only
  rw [dropHint_plan, dropPending_plan]
  split
  · rw [setRoster_plan, setContract_plan]
  · rw [setContract_plan]

@[simp] theorem freeEnrolSlot_plan (o : OutFrame) (q : Port) : Port.plan (freeEnrolSlot o q) = Port.plan q := by
  unfold freeEnrolSlot
  split <;> rfl

@[simp] theorem launchOn_plan (now : Nat) (q : Port) : Port.plan (launchOn now q) = Port.plan q := by
  unfold launchOn
  split
  · rfl
  · split
    · rfl
    · rw [emit_plan, freeEnrolSlot_plan]
      split <;> rfl

@[simp] theorem sendGroup_plan (index : Idx) (mt : BitVec 6) (flags : Byte) (payload : List Byte) (q : Port) :
    Port.plan (sendGroup index mt flags payload q) = Port.plan q := by
  unfold sendGroup
  rw [emit_plan]
  rfl

@[simp] theorem broadcast_plan (mt : BitVec 6) (flags : Byte) (payload : List Byte) (q : Port) :
    Port.plan (broadcast mt flags payload q) = Port.plan q := by
  unfold broadcast
  repeat' split
  · rfl
  · exact sendGroup_plan _ _ _ _ _
  · rfl

@[simp] theorem enqueue_plan (p r : PortId) (o : OutFrame) (d : Dev) : Port.plan ((enqueue p o d).port r) = Port.plan (d.port r) := by
  unfold enqueue launch
  rw [plan_modPort p r _ (launchOn_plan _), plan_modPort p r _ (by intro q; rfl)]

@[simp] theorem sendTo_plan (p r : PortId) (i : Idx) (kind : OutKind) (mt : BitVec 6) (flags : Byte) (payload : List Byte)
    (slot : Option (BitVec 7)) (d : Dev) : Port.plan ((sendTo p i kind mt flags payload slot d).port r) = Port.plan (d.port r) := by
  unfold sendTo
  rw [enqueue_plan, plan_modPort p r _ (setRoster_plan _ _)]

@[simp] theorem endContract_plan (code : Nat) (p r : PortId) (i : Idx) (d : Dev) :
    Port.plan ((endContract code p i d).port r) = Port.plan (d.port r) := by
  unfold endContract
  rw [postEndpoint_port, plan_modPort p r _ (by intro q; rw [rateFor_plan, clearContract_plan])]

@[simp] theorem sendWithdraw_plan (reason : Nat) (p r : PortId) (i : Idx) (slot : Option Nat) (reserve : Nat) (d : Dev) :
    Port.plan ((sendWithdraw reason p i slot reserve d).port r) = Port.plan (d.port r) := by
  unfold sendWithdraw
  dsimp only
  split
  · rw [sendTo_plan]
    cases slot with
    | none => rfl
    | some k => exact plan_modPort p r _ (closeSlot_plan k) d
  · cases slot with
    | none => rfl
    | some k => exact plan_modPort p r _ (dropSlot_plan k) d

@[simp] theorem withdrawGrant_plan (reason : Nat) (p r : PortId) (k : Nat) (d : Dev) :
    Port.plan ((withdrawGrant reason p k d).port r) = Port.plan (d.port r) := by
  unfold withdrawGrant
  repeat' split
  · rw [endContract_plan, sendWithdraw_plan]
  · rfl
  · rfl

@[simp] theorem withdrawContract_plan (reason : Nat) (p r : PortId) (i : Idx) (d : Dev) :
    Port.plan ((withdrawContract reason p i d).port r) = Port.plan (d.port r) := by
  unfold withdrawContract
  rw [endContract_plan, sendWithdraw_plan]

@[simp] theorem dropAwaiting_plan (p r : PortId) (above : Level → Bool) (d : Dev) :
    Port.plan ((dropAwaiting p above d).port r) = Port.plan (d.port r) := by
  unfold dropAwaiting
  refine plan_foldDev r _ (fun x e => ?_) _ _
  repeat' split
  · exact withdrawContract_plan 3 p r _ e
  · rfl
  · rfl

@[simp] theorem shedForLevel_plan (p r : PortId) (l : Level) (d : Dev) :
    Port.plan ((shedForLevel p l d).port r) = Port.plan (d.port r) := by
  unfold shedForLevel
  refine (plan_foldDev r _ (fun x e => ?_) _ _).trans (plan_foldDev r _ (fun x e => ?_) _ _) <;> split <;> simp

@[simp] theorem abortSlots_plan (sa w : Nat) (p r : PortId) (d : Dev) :
    Port.plan ((abortSlots sa w p d).port r) = Port.plan (d.port r) := by
  refine plan_foldDev r _ (fun x e => ?_) _ _
  unfold abortSlot
  repeat' split
  · rw [post_port, plan_modPort p r _ (dropSlot_plan _)]
  · rw [endContract_plan, postEndpoint_port, plan_modPort p r _ (dropSlot_plan _)]
  · rw [postEndpoint_port, plan_modPort p r _ (dropSlot_plan _)]

@[simp] theorem sendWaitPlain_plan (p r : PortId) (i : Idx) (k : Option Nat) (retry : Nat) (d : Dev) :
    Port.plan ((sendWaitPlain p i k retry d).port r) = Port.plan (d.port r) := by
  unfold sendWaitPlain
  rw [sendTo_plan]
  cases k with
  | none => rfl
  | some k => exact plan_modPort p r _ (closeSlot_plan k) d

@[simp] theorem sendReject_plan (p r : PortId) (i : Idx) (k : Option Nat) (reason : Nat) (d : Dev) :
    Port.plan ((sendReject p i k reason d).port r) = Port.plan (d.port r) := by
  unfold sendReject
  dsimp only
  rw [postEndpoint_port, sendTo_plan, plan_modPort p r _ (by intro q; split <;> rfl)]
  cases k with
  | none => rfl
  | some k => exact plan_modPort p r _ (closeSlot_plan k) d

@[simp] theorem sendWait_plan (p r : PortId) (i : Idx) (k : Option Nat) (req : RequestMsg) (arrival code bit : Nat) (d : Dev) :
    Port.plan ((sendWait p i k req arrival code bit d).port r) = Port.plan (d.port r) := by
  unfold sendWait
  dsimp only
  rw [postEndpoint_port, sendTo_plan, plan_modPort p r _ (by intro q; rfl)]
  cases k with
  | none => rfl
  | some k => exact plan_modPort p r _ (closeSlot_plan k) d

@[simp] theorem sendAccept_plan (p r : PortId) (i : Idx) (k : Nat) (s : Slot) (l : Level) (spec : Bool) (d : Dev) :
    Port.plan ((sendAccept p i k s l spec d).port r) = Port.plan (d.port r) := by
  unfold sendAccept
  dsimp only
  rw [sendTo_plan, plan_modPort p r _ (by intro q; rfl)]

@[simp] theorem noteThrot_plan (p r : PortId) (d : Dev) : Port.plan ((noteThrot p d).port r) = Port.plan (d.port r) := by
  have hpost : Port.plan ((postThrot p d).port r) = Port.plan (d.port r) := by
    unfold postThrot
    dsimp only
    split
    · rw [post_port, plan_modPort p r _ (by intro q; rfl)]
    · rfl
  have hflush : Port.plan ((flushThrot p d).port r) = Port.plan (d.port r) := by
    unfold flushThrot
    split
    · exact hpost
    · rfl
  unfold noteThrot
  dsimp only
  split
  · rfl
  · exact (plan_modPort p r _ (by intro q; rfl) _).trans hflush

@[simp] theorem trimGrants_plan (p r : PortId) (d : Dev) : Port.plan ((trimGrants p d).port r) = Port.plan (d.port r) := by
  unfold trimGrants
  refine plan_foldDev r _ (fun k e => ?_) _ _
  split
  · exact withdrawGrant_plan _ p r k e
  · rfl

@[simp] theorem shedPort_plan (p r : PortId) (d : Dev) : Port.plan ((shedPort p d).port r) = Port.plan (d.port r) := by
  unfold shedPort
  dsimp only
  split
  · refine (plan_foldDev r _ (fun x e => ?_) _ _).trans (plan_foldDev r _ (fun k e => withdrawGrant_plan _ p r k e) _ _)
    split
    · exact withdrawContract_plan _ p r _ e
    · rfl
  · rfl

@[simp] theorem shedClass_plan (p r : PortId) (c : Cls) (d : Dev) : Port.plan ((shedClass p c d).port r) = Port.plan (d.port r) := by
  unfold shedClass
  dsimp only
  split
  · refine (plan_foldDev r _ (fun x e => ?contracts) _ _).trans (plan_foldDev r _ (fun k e => ?grants) _ _)
    case contracts =>
      split
      · exact withdrawContract_plan 3 p r _ e
      · rfl
    case grants =>
      repeat' split
      · exact withdrawGrant_plan 3 p r k e
      all_goals rfl
  · rfl

@[simp] theorem shedTenant_plan (t : Tenant) (r : PortId) (d : Dev) : Port.plan ((shedTenant t d).port r) = Port.plan (d.port r) := by
  unfold shedTenant
  dsimp only
  split
  · refine (plan_foldDev r _ (fun x e => ?contracts) _ _).trans
      ((plan_foldDev r _ (fun k e => ?grants1) _ _).trans (plan_foldDev r _ (fun k e => ?grants0) _ _))
    case contracts =>
      split
      · exact withdrawContract_plan 3 x.1 r _ e
      · rfl
    case grants1 =>
      repeat' split
      · exact withdrawGrant_plan 3 .p1 r k e
      all_goals rfl
    case grants0 =>
      repeat' split
      · exact withdrawGrant_plan 3 .p0 r k e
      all_goals rfl
  · rfl

/-- Relieving a limit leaves both ports' lines, but for what is sent, and their levels (R280, R281). -/
theorem relieve_plan (r : PortId) (d : Dev) : Port.plan ((relieve d).port r) = Port.plan (d.port r) := by
  have hnote : Port.plan ((d.bothPorts noteThrot).port r) = Port.plan (d.port r) :=
    (noteThrot_plan .p1 r _).trans (noteThrot_plan .p0 r d)
  unfold relieve
  dsimp only
  split
  · rw [plan_foldDev r _ (fun t e => shedTenant_plan t r e), plan_foldDev r _ (fun c e => by rw [shedClass_plan, shedClass_plan]),
      shedPort_plan, shedPort_plan, trimGrants_plan, trimGrants_plan, hnote]
  · rw [trimGrants_plan, trimGrants_plan, hnote]

@[simp] theorem relieve_lev (r : PortId) (d : Dev) : ((relieve d).port r).lev = (d.port r).lev :=
  congrArg Prod.snd (relieve_plan r d)

theorem window_of_plan {a b : Port} (h : Port.plan a = Port.plan b) : a.line.window = b.line.window :=
  (congrArg (fun x : Line × Levels => x.1.window) h :)
theorem enrolls_of_plan {a b : Port} (h : Port.plan a = Port.plan b) : a.line.enrolls = b.line.enrolls :=
  (congrArg (fun x : Line × Levels => x.1.enrolls) h :)
theorem restored_of_plan {a b : Port} (h : Port.plan a = Port.plan b) : a.line.restored = b.line.restored :=
  (congrArg (fun x : Line × Levels => x.1.restored) h :)
theorem decided_of_plan {a b : Port} (h : Port.plan a = Port.plan b) : a.line.decided = b.line.decided :=
  (congrArg (fun x : Line × Levels => x.1.decided) h :)
theorem lev_of_plan {a b : Port} (h : Port.plan a = Port.plan b) : a.lev = b.lev := congrArg Prod.snd h

end Sys2Proof.Laws
end

section
/-! The queue of exchanges (R153): an exchange that may start is sent, and one that is queued is asked for. -/

namespace Sys2Proof.Laws

open Sys2Proof Machine

/-! ## Records in a sparse table -/

/-- What a table reads after a write that is not its default. -/
theorem spGet_spSet {α : Type} [DecidableEq α] {c : α} (s : Sparse α) (k : Nat) {v : α} (hv : v ≠ c) : spGet c (spSet c s k v) k = v := by
  have hput : spSet c s k v = spPut s k v := if_neg hv
  simp only [spGet, spGetF, hput, spFind_spPut, Option.getD_some]

/-! ## The queue of exchanges (R153) -/

theorem mem_insertBy {α : Type} (lt : α → α → Bool) (x y : α) (l : List α) : y ∈ insertBy lt x l ↔ y = x ∨ y ∈ l := by
  induction l with
  | nil => simp [insertBy]
  | cons z t ih =>
    unfold insertBy
    split
    · simp
    · simp only [List.mem_cons, ih]
      exact or_left_comm

@[simp] theorem emit_out (x : TxItem) (q : Port) : (emit x q).line.out = q.line.out := by
  unfold emit
  split <;> rfl
@[simp] theorem emit_contract (x : TxItem) (q : Port) : (emit x q).contract = q.contract := by
  unfold emit
  split <;> rfl
@[simp] theorem emit_roster (x : TxItem) (q : Port) : (emit x q).roster = q.roster := by
  unfold emit
  split <;> rfl
@[simp] theorem freeEnrolSlot_out (o : OutFrame) (q : Port) : (freeEnrolSlot o q).line.out = q.line.out := by
  unfold freeEnrolSlot
  split <;> rfl
@[simp] theorem freeEnrolSlot_contract (o : OutFrame) (q : Port) : (freeEnrolSlot o q).contract = q.contract := by
  unfold freeEnrolSlot
  split <;> rfl
@[simp] theorem freeEnrolSlot_roster (o : OutFrame) (q : Port) : (freeEnrolSlot o q).roster = q.roster := by
  unfold freeEnrolSlot
  split <;> rfl

/-- The frame of an exchange that begins: it is sent, and a slot that ends with the sending is no longer its own (R153, R194). -/
def begun (now : Nat) (o : OutFrame) : OutFrame :=
  { o with sent := true, firstMs := if o.whole then o.firstMs else now / 1000
           slot := match o.kind with | .assign _ => none | _ => o.slot }

/-- An exchange at the front that may start begins. -/
theorem launchOn_start {now : Nat} {q : Port} {o : OutFrame} {t : List OutFrame} (hout : q.line.out = o :: t) (hsent : o.sent = false)
    (hmay : mayStart o now q = true) :
    Sent (.full o.frame) (launchOn now q) ∧ (launchOn now q).line.out = begun now o :: t := by
  have hgo : (o.sent || !mayStart o now q) = false := by simp [hsent, hmay]
  unfold launchOn
  simp only [hout, hgo, Bool.false_eq_true, if_false]
  exact ⟨emit_sent _ _, by rw [emit_out, freeEnrolSlot_out]; rfl⟩

/-- One that may not start, or is under way, waits. -/
theorem launchOn_idle {now : Nat} {q : Port} (h : ∀ o t, q.line.out = o :: t → o.sent = true ∨ mayStart o now q = false) :
    launchOn now q = q := by
  unfold launchOn
  split
  · rfl
  · next o t hout =>
    rw [if_pos]
    rcases h o t hout with h | h <;> simp [h]

/-- Whether an exchange begins does not change its kind or its index. -/
theorem asks_launchOn {k : OutKind} {i : Idx} {now : Nat} {q : Port} (h : Asks k i q) : Asks k i (launchOn now q) := by
  obtain ⟨o, ho, hk, hi⟩ := h
  cases hout : q.line.out with
  | nil => simp [hout] at ho
  | cons x t =>
    by_cases hgo : x.sent = false ∧ mayStart x now q = true
    · obtain ⟨-, hnext⟩ := launchOn_start hout hgo.1 hgo.2
      rw [hout] at ho
      rcases List.mem_cons.1 ho with rfl | ht
      · exact ⟨begun now o, by rw [hnext]; exact List.mem_cons_self, hk, hi⟩
      · exact ⟨o, by rw [hnext]; exact List.mem_cons_of_mem _ ht, hk, hi⟩
    · have hidle : launchOn now q = q := launchOn_idle fun o' t' h' => by
        obtain ⟨rfl, -⟩ := List.cons.inj (hout.symm.trans h')
        by_cases hs : x.sent = true
        · exact Or.inl hs
        · exact Or.inr (by simpa using fun hm => hgo ⟨by simpa using hs, hm⟩)
      rw [hidle]
      exact ⟨o, ho, hk, hi⟩

theorem enqueue_port (p : PortId) (o : OutFrame) (d : Dev) :
    (enqueue p o d).port p = launchOn d.us { d.port p with line := { (d.port p).line with out := joinQueue o (d.port p).line.out } } := by
  simp [enqueue, launch]

theorem asks_enqueue (p : PortId) (o : OutFrame) (d : Dev) : Asks o.kind o.idx ((enqueue p o d).port p) := by
  rw [enqueue_port]
  exact asks_launchOn ⟨o, (mem_insertBy _ _ _ _).2 (Or.inl rfl), rfl, rfl⟩

@[simp] theorem launchOn_contract (now : Nat) (q : Port) : (launchOn now q).contract = q.contract := by
  unfold launchOn
  split
  · rfl
  · split
    · rfl
    · rw [emit_contract, freeEnrolSlot_contract]
      split <;> rfl

@[simp] theorem launchOn_roster (now : Nat) (q : Port) : (launchOn now q).roster = q.roster := by
  unfold launchOn
  split
  · rfl
  · split
    · rfl
    · rw [emit_roster, freeEnrolSlot_roster]
      split <;> rfl

theorem sendTo_eq (p : PortId) (i : Idx) (kind : OutKind) (mt : BitVec 6) (flags : Byte) (payload : List Byte)
    (slot : Option (BitVec 7)) (d : Dev) :
    sendTo p i kind mt flags payload slot d =
      enqueue p { kind := kind, idx := i, slot := slot, frame := ⟨mt, i, (rosterOf (d.port p) i.toNat).seqTx, flags, payload⟩ }
        (d.modPort p (setRoster i.toNat { rosterOf (d.port p) i.toNat with seqTx := (rosterOf (d.port p) i.toNat).seqTx + 1 })) := rfl

theorem asks_sendTo (p : PortId) (i : Idx) (kind : OutKind) (mt : BitVec 6) (flags : Byte) (payload : List Byte)
    (slot : Option (BitVec 7)) (d : Dev) : Asks kind i ((sendTo p i kind mt flags payload slot d).port p) :=
  asks_enqueue p _ _

@[simp] theorem sendTo_contract (p : PortId) (i : Idx) (kind : OutKind) (mt : BitVec 6) (flags : Byte) (payload : List Byte)
    (slot : Option (BitVec 7)) (d : Dev) : ((sendTo p i kind mt flags payload slot d).port p).contract = (d.port p).contract := by
  rw [sendTo_eq, enqueue_port, launchOn_contract, modPort_port]
  rfl

/-- On an empty queue the frame of an exchange that may start goes out at once. -/
theorem sendTo_sent {p : PortId} {i : Idx} {kind : OutKind} {mt : BitVec 6} {flags : Byte} {payload : List Byte}
    {slot : Option (BitVec 7)} {d : Dev} (hout : (d.port p).line.out = [])
    (hmay : ∀ f, mayStart { kind := kind, idx := i, slot := slot, frame := ⟨mt, i, f, flags, payload⟩ } d.us (d.port p) = true) :
    ∃ f, Sent (.full ⟨mt, i, f, flags, payload⟩) ((sendTo p i kind mt flags payload slot d).port p) := by
  refine ⟨(rosterOf (d.port p) i.toNat).seqTx, ?_⟩
  rw [sendTo_eq, enqueue_port, modPort_us, modPort_port]
  refine (launchOn_start (t := [])
    (o := { kind := kind, idx := i, slot := slot, frame := ⟨mt, i, (rosterOf (d.port p) i.toNat).seqTx, flags, payload⟩ }) ?_ rfl ?_).1
  · show joinQueue _ (d.port p).line.out = _
    rw [hout]
    rfl
  · exact hmay _

/-! ## Beacons (R158 to R160) -/

/-- A port that sends a beacon, and an ADVERT where one is due (R158, R173). -/
def beaconSent (flags : Byte) (seq : Byte) (advert : Bool) (a : AdvertMsg) (q : Port) : Port :=
  let q1 := sendGroup 0x3FF 0x01 flags (payBeacon (beaconOf q seq)) q
  if advert then sendGroup 0x3FF 0x02 0 (payAdvert a) q1 else q1

theorem sent_emit {x y : TxItem} {q : Port} (h : Sent x q) : Sent x (emit y q) := by
  unfold emit Sent at *
  split <;> grind

theorem beaconSent_sent (flags seq : Byte) (advert : Bool) (a : AdvertMsg) (q : Port) :
    Sent (.full ⟨0x01, 0x3FF, q.line.bseq, flags ||| flBc, payBeacon (beaconOf q seq)⟩) (beaconSent flags seq advert a q) := by
  unfold beaconSent sendGroup
  dsimp only
  cases advert with
  | true => exact sent_emit (q := { emit _ _ with line := _ }) (emit_sent _ _)
  | false => exact emit_sent _ _

end Sys2Proof.Laws
end

section
/-! Beacons, POLLs and enrolment (R158 to R162, R174). -/

namespace Sys2Proof.Laws

open Sys2Proof Machine

/-- The FLAGS of a beacon. -/
def beaconFlags (now : Nat) (q : Port) : Byte :=
  (if opensWindow q now then flEnrw else 0) ||| (if lonely q then flLonely else 0) ||| (if q.line.first.isSome then flFirst else 0)

/-- This beacon is followed by an ADVERT (R167, R173, R241). -/
def advertFollows (now : Nat) (a : AdvertMsg) (q : Port) : Bool :=
  (advertDue q.line a).2 && !(swapSilences q.rail.swap || (q.line.reloadDue && !opensWindow q now))

/-- A port that has sent its beacon, with what the line notes of it (R158 to R160). -/
def beaconNoted (now : Nat) (start : Bool) (order : List Idx) (a : AdvertMsg) (q : Port) : Port :=
  let seq := (advertDue q.line a).1
  let advert := advertFollows now a q
  let q2 := beaconSent (beaconFlags now q) seq advert { a with advseq := seq } q
  let w := if opensWindow q now then some (windowEnd now) else none
  let next := q.line.due + beaconPeriod q
  { q2 with line := { q2.line with
    bcount := q.line.bcount + 1, advseq := seq, lastAdvert := if advert then some { a with advseq := seq } else q.line.lastAdvert
    sinceAdvert := if advert then 0 else q.line.sinceAdvert + 1
    factor := beaconFactor now q, beaconEnd := now + 374, beaconEnrw := opensWindow q now
    sinceWindow := if opensWindow q now then 0 else q.line.sinceWindow + 1, window := w, polled := 0, pulses := 0
    due := match w with | some t => Nat.max next (t + 500) | none => next
    pass := if start then some order else q.line.pass } }

/-- What follows the beacon on the port: the peer gap that has passed, and the endpoints that its SHED 0 releases (R228, R297). -/
def beaconFollows (now : Nat) (count : Byte) (due : Nat) (shed : Bool) (q : Port) : Port :=
  if shed then noteGap count due q else releaseRates (now + 374) (noteGap count due q)

/-- The roster pass starts with this beacon (R73). -/
def passStarts (q : Port) : Bool :=
  match q.line.first with | some t0 => decide (t0 + 34000 ≤ q.line.due) && q.line.pass.isNone | none => false

theorem sendBeacon_eq (p : PortId) (d : Dev) :
    sendBeacon p d = d.modPort p fun q =>
      beaconFollows d.us q.line.bcount q.line.due q.drp.shed (beaconNoted d.us (passStarts (d.port p)) (passOrder d p) (advertOf d p) q) := rfl

theorem portFoldl_field {α β : Type} (g : Port → β) (f : Port → α → Port) (h : ∀ q a, g (f q a) = g q) (l : List α) (q : Port) :
    g (l.foldl f q) = g q := by
  induction l generalizing q with
  | nil => rfl
  | cons a t ih => rw [List.foldl_cons, ih, h]

theorem releaseRates_field {β : Type} (g : Port → β) (h : ∀ q ro, g { q with roster := ro } = g q) (us : Nat) (q : Port) :
    g (releaseRates us q) = g q := by
  unfold releaseRates
  refine portFoldl_field g _ (fun q x => ?_) _ q
  unfold releaseRate
  split
  · exact h q _
  · rfl

theorem beaconFollows_field {β : Type} (g : Port → β) (hro : ∀ q ro, g { q with roster := ro } = g q)
    (hri : ∀ q ri, g { q with ring := ri } = g q) (now : Nat) (count : Byte) (due : Nat) (shed : Bool) (q : Port) :
    g (beaconFollows now count due shed q) = g q := by
  have hgap : g (noteGap count due q) = g q := by
    unfold noteGap
    split
    · exact hri q _
    · rfl
  unfold beaconFollows
  split
  · exact hgap
  · exact (releaseRates_field g hro _ _).trans hgap

/-- What a beacon keeps of its port: neither the frames nor what follows touches it. -/
theorem sendBeacon_field {β : Type} (g : Port → β) (hro : ∀ q ro, g { q with roster := ro } = g q)
    (hri : ∀ q ri, g { q with ring := ri } = g q) (p : PortId) (d : Dev) :
    g ((sendBeacon p d).port p) = g (beaconNoted d.us (passStarts (d.port p)) (passOrder d p) (advertOf d p) (d.port p)) := by
  rw [sendBeacon_eq, modPort_port, beaconFollows_field g hro hri]

@[simp] theorem beaconSent_plan (flags seq : Byte) (advert : Bool) (a : AdvertMsg) (q : Port) :
    Port.plan (beaconSent flags seq advert a q) = Port.plan q := by
  cases advert with
  | true => exact (sendGroup_plan _ _ _ _ _).trans (sendGroup_plan _ _ _ _ _)
  | false => exact sendGroup_plan _ _ _ _ _

@[simp] theorem beaconSent_steady (flags seq : Byte) (advert : Bool) (a : AdvertMsg) (q : Port) :
    Port.steady (beaconSent flags seq advert a q) = Port.steady q := by
  cases advert with
  | true => exact (sendGroup_steady _ _ _ _ _).trans (sendGroup_steady _ _ _ _ _)
  | false => exact sendGroup_steady _ _ _ _ _

theorem sendBeacon_port (p : PortId) (d : Dev) :
    let e := sendBeacon p d
    (∃ fl seq, Sent (.full ⟨0x01, 0x3FF, (d.port p).line.bseq, fl, payBeacon (beaconOf (d.port p) seq)⟩) (e.port p))
      ∧ (e.port p).line.bcount = (d.port p).line.bcount + 1
      ∧ (e.port p).line.window = (if opensWindow (d.port p) d.us then some (windowEnd d.us) else none)
      ∧ (opensWindow (d.port p) d.us = false → (e.port p).line.due = (d.port p).line.due + beaconPeriod (d.port p))
      ∧ (e.port p).gate = (d.port p).gate ∧ (e.port p).lev = (d.port p).lev ∧ e.port p.other = d.port p.other := by
  refine ⟨⟨beaconFlags d.us (d.port p) ||| flBc, (advertDue (d.port p).line (advertOf d p)).1, ?_⟩, ?_, ?_, fun hshut => ?_, ?_, ?_, ?_⟩
  · refine (sendBeacon_field (Sent _) (fun _ _ => rfl) (fun _ _ => rfl) p d).mpr ?_
    exact beaconSent_sent (beaconFlags d.us (d.port p)) _ _ _ _
  · exact sendBeacon_field (fun q => q.line.bcount) (fun _ _ => rfl) (fun _ _ => rfl) p d
  · exact sendBeacon_field (fun q => q.line.window) (fun _ _ => rfl) (fun _ _ => rfl) p d
  · refine (sendBeacon_field (fun q => q.line.due) (fun _ _ => rfl) (fun _ _ => rfl) p d).trans ?_
    simp only [beaconNoted, hshut]
    rfl
  · exact (sendBeacon_field Port.gate (fun _ _ => rfl) (fun _ _ => rfl) p d).trans (congrArg Port.gate (beaconSent_steady _ _ _ _ _) :)
  · exact (sendBeacon_field Port.lev (fun _ _ => rfl) (fun _ _ => rfl) p d).trans (congrArg Prod.snd (beaconSent_plan _ _ _ _ _) :)
  · rw [sendBeacon_eq, modPort_port_other]

/-! ## POLL (R174) -/

/-- A port that has noted a POLL of its own (R73, R174). -/
def pollNoted (kind : BitVec 2) (i : Idx) (now : Nat) (q : Port) : Port :=
  let q1 := { q with line := { q.line with
    polled := q.line.polled + (if kind = 1 then 1 else 0), pass := if kind = 1 then q.line.pass.map (·.tail) else q.line.pass } }
  if kind = 0 ∨ kind = 3 then setRoster i.toNat { rosterOf q1 i.toNat with polledAt := now } q1 else q1

theorem sendPoll_eq (p : PortId) (kind : BitVec 2) (i : Idx) (d : Dev) :
    sendPoll p kind i d = sendTo p i (.poll kind) 0x03 0 (payPoll (pollOf (d.port p) i kind)) none
      (d.modPort p (pollNoted kind i d.us)) := rfl

theorem pollNoted_field {β : Type} (g : Port → β) (hro : ∀ q ro, g { q with roster := ro } = g q)
    (hli : ∀ q x y, g { q with line := { q.line with polled := x, pass := y } } = g q) (kind : BitVec 2) (i : Idx) (now : Nat) (q : Port) :
    g (pollNoted kind i now q) = g q := by
  unfold pollNoted
  dsimp only
  split
  · exact (hro _ _).trans (hli q _ _)
  · exact hli q _ _

/-- On a free line a POLL may start: the line is the head's, and the POLL with its reply is over in time (R153, R158). -/
theorem mayStart_poll {q : Port} {now : Nat} (kind : BitVec 2) (i : Idx) (f : BitVec 3) (m : PollMsg) (h : lineFree now q = true) :
    mayStart { kind := .poll kind, idx := i, frame := ⟨0x03, i, f, 0, payPoll m⟩ } now q = true := by
  simp only [lineFree, Bool.and_eq_true, Bool.not_eq_true'] at h
  obtain ⟨⟨⟨⟨⟨⟨⟨hhead, -⟩, hwindow⟩, hreload⟩, -⟩, -⟩, hswap⟩, htime⟩ := h
  simp only [mayStart, mayStartHead, OutKind.peer, OutKind.follows, OutKind.pressed, hwindow, hreload, hhead, hswap,
    show exchangeUs { kind := .poll kind, idx := i, frame := ⟨0x03, i, f, 0, payPoll m⟩ } = 1226 from rfl, htime,
    Bool.false_eq_true, if_false, Bool.not_false, Bool.and_self, Bool.or_true]

theorem out_of_lineFree {q : Port} {now : Nat} (h : lineFree now q = true) : q.line.out = [] := by
  simp only [lineFree, Bool.and_eq_true, List.isEmpty_iff] at h
  grind

theorem sendPoll_port {p : PortId} {kind : BitVec 2} {i : Idx} {d : Dev} (hfree : lineFree d.us (d.port p) = true) :
    let e := sendPoll p kind i d
    Asks (.poll kind) i (e.port p) ∧ (∃ f, Sent (.full ⟨0x03, i, f, 0, payPoll (pollOf (d.port p) i kind)⟩) (e.port p))
      ∧ (e.port p).contract = (d.port p).contract ∧ e.port p.other = d.port p.other := by
  rw [sendPoll_eq]
  refine ⟨asks_sendTo _ _ _ _ _ _ _ _, sendTo_sent ?_ fun f => ?_, ?_, ?_⟩
  · rw [modPort_port]
    exact (pollNoted_field (fun q => q.line.out) (fun _ _ => rfl) (fun _ _ _ => rfl) kind i d.us _).trans (out_of_lineFree hfree)
  · rw [modPort_port, modPort_us]
    refine (pollNoted_field (mayStart _ d.us) (fun _ _ => rfl) (fun _ _ _ => rfl) kind i d.us _).trans ?_
    exact mayStart_poll kind i f _ hfree
  · rw [sendTo_contract, modPort_port]
    exact pollNoted_field Port.contract (fun _ _ => rfl) (fun _ _ _ => rfl) kind i d.us _
  · simp

/-! ## Enrolment (R161, R162, R178) -/

/-- The answer to an ENROLL leaves what the line plans, and with it the window and what it recorded. -/
theorem answerEnroll_plan (p : PortId) (x : BitVec 3 × EnrollMsg) (d : Dev) :
    Port.plan ((answerEnroll p x d).port p) = Port.plan (d.port p) := by
  have hassign (i k : Nat) (fresh : Bool) (e : Dev) : Port.plan ((sendAssign p i k fresh e).port p) = Port.plan (e.port p) := by
    unfold sendAssign
    rw [sendTo_plan, modPort_port, takeSlot_plan]
  have hreject (k reason detail : Nat) (e : Eui) (q : Port) : Port.plan (rejectEnroll k reason detail e d.us q) = Port.plan q := by
    unfold rejectEnroll
    rw [dropSlot_plan, broadcast_plan, takeSlot_plan]
  unfold answerEnroll
  dsimp only
  repeat' split
  · rfl
  · unfold enrollDuplicate
    rw [modPort_port, hreject, postEndpoint_port, modPort_port]
    rfl
  · rw [hassign, modPort_port, setRoster_plan]
  · rw [modPort_port, hreject]
  · rw [hassign, modPort_port, setRoster_plan]

theorem answerEnroll_other (p : PortId) (x : BitVec 3 × EnrollMsg) (d : Dev) :
    (answerEnroll p x d).port p.other = d.port p.other := by
  unfold answerEnroll
  dsimp only
  repeat' split
  all_goals simp [enrollDuplicate, sendAssign]

/-- A new endpoint gets its record and its ASSIGN (R178). -/
theorem answerEnroll_new {p : PortId} {k : BitVec 3} {m : EnrollMsg} {d : Dev} {sl i : Nat} (hslot : freeSlot (d.port p) = some sl)
    (hnew : findEui (d.port p) m.eui = none) (hidx : freeIndex (d.port p) = some i) :
    answerEnroll p (k, m) d = sendAssign p i sl true (d.modPort p fun q => setRoster i (freshRecord q m) q) := by
  simp only [answerEnroll, hslot, hnew, hidx]

theorem sendTo_rosterOf (p : PortId) (i : Idx) (kind : OutKind) (mt : BitVec 6) (flags : Byte) (payload : List Byte)
    (slot : Option (BitVec 7)) (d : Dev) (h : (rosterOf (d.port p) i.toNat).state ≠ 0) :
    rosterOf ((sendTo p i kind mt flags payload slot d).port p) i.toNat =
      { rosterOf (d.port p) i.toNat with seqTx := (rosterOf (d.port p) i.toNat).seqTx + 1 } := by
  have hne : ({ rosterOf (d.port p) i.toNat with seqTx := (rosterOf (d.port p) i.toNat).seqTx + 1 } : RosterRec) ≠ {} :=
    fun heq => h (congrArg RosterRec.state heq)
  unfold rosterOf
  rw [sendTo_eq, enqueue_port, launchOn_roster, modPort_port]
  exact spGet_spSet _ _ hne

theorem freshRecord_state (q : Port) (m : EnrollMsg) : (freshRecord q m).state = 1 := by
  unfold freshRecord ringLoop
  split <;> rfl

theorem freshRecord_eui (q : Port) (m : EnrollMsg) : (freshRecord q m).eui = m.eui := by
  unfold freshRecord ringLoop
  split <;> rfl

theorem rosterOf_setRoster {q : Port} {i : Nat} {r : RosterRec} (h : r.state ≠ 0) : rosterOf (setRoster i r q) i = r :=
  spGet_spSet _ _ fun heq => h (congrArg RosterRec.state heq)

/-- The ASSIGN of a record that stands: it is asked, and the record keeps its EUI-48. -/
theorem sendAssign_port {p : PortId} {i k : Nat} {fresh : Bool} {d : Dev} (hi : i < 1024) (h : (rosterOf (d.port p) i).state ≠ 0) :
    Asks (.assign fresh) (BitVec.ofNat 10 i) ((sendAssign p i k fresh d).port p)
      ∧ (rosterOf ((sendAssign p i k fresh d).port p) i).eui = (rosterOf (d.port p) i).eui := by
  have hnat : (BitVec.ofNat 10 i).toNat = i := by simp [Nat.mod_eq_of_lt hi]
  have htaken : rosterOf ((d.modPort p (takeSlot k (enrolSlot (d.port p) d.us))).port p) (BitVec.ofNat 10 i).toNat
      = rosterOf (d.port p) i := by
    rw [modPort_port, hnat]
    rfl
  unfold sendAssign
  refine ⟨asks_sendTo _ _ _ _ _ _ _ _, ?_⟩
  have hsent := sendTo_rosterOf p (BitVec.ofNat 10 i) (.assign fresh) 0x05 0
    (payAssign ⟨(rosterOf (d.port p) i).eui, (rosterOf (d.port p) i).cls, (rosterOf (d.port p) i).tenant, !fresh,
      decide ((rosterOf (d.port p) i).stored ≠ 0)⟩) (some (BitVec.ofNat 7 k)) (d.modPort p (takeSlot k (enrolSlot (d.port p) d.us)))
    (by rw [htaken]; exact h)
  rw [htaken, hnat] at hsent
  exact (congrArg RosterRec.eui hsent :)

theorem answerEnroll_assigns {p : PortId} {k : BitVec 3} {m : EnrollMsg} {d : Dev} {sl i : Nat} (hslot : freeSlot (d.port p) = some sl)
    (hnew : findEui (d.port p) m.eui = none) (hidx : freeIndex (d.port p) = some i) (hi : i < 1024) :
    Asks (.assign true) (BitVec.ofNat 10 i) ((answerEnroll p (k, m) d).port p)
      ∧ (rosterOf ((answerEnroll p (k, m) d).port p) i).eui = m.eui := by
  have hstate : (freshRecord (d.port p) m).state ≠ 0 := by simp [freshRecord_state]
  have hrec : rosterOf ((d.modPort p fun q => setRoster i (freshRecord q m) q).port p) i = freshRecord (d.port p) m := by
    rw [modPort_port, rosterOf_setRoster hstate]
  obtain ⟨hasks, heui⟩ := sendAssign_port (k := sl) (fresh := true) hi (hrec ▸ hstate)
  rw [answerEnroll_new hslot hnew hidx]
  exact ⟨hasks, heui.trans ((congrArg RosterRec.eui hrec).trans (freshRecord_eui _ m))⟩

/-- The window's end: its ENROLLs answered in minislot order, on the port whose window is over (R162). -/
theorem enrolWindowEnd_port (p : PortId) (d : Dev) (l : List (BitVec 3 × EnrollMsg)) :
    let e := foldDev (answerEnroll p) l (d.modPort p fun q => { q with line := { q.line with window := none, enrolls := [] } })
    (e.port p).line.window = none ∧ (e.port p).line.enrolls = [] ∧ e.port p.other = d.port p.other := by
  have hplan := plan_foldDev p (answerEnroll p) (fun x e => answerEnroll_plan p x e) l
    (d.modPort p fun q => { q with line := { q.line with window := none, enrolls := [] } })
  refine ⟨(window_of_plan hplan).trans ?_, (enrolls_of_plan hplan).trans ?_, ?_⟩
  · rw [modPort_port]
  · rw [modPort_port]
  · rw [foldDev_port p.other _ (fun x e => answerEnroll_other p x e), modPort_port_other]

/-- Settles O17: the beacon by its stages, an ENROLL by its record, the window's end by the answer to each ENROLL, a POLL by the start of
its exchange on a free line. -/
theorem beaconsEnrolmentAndPolls : Obligations.BeaconsEnrolmentAndPolls := by
  intro s p
  refine ⟨fun hdue => ?beacon, fun hhead => ⟨fun k m t hwindow ht => ?enroll, fun t hwindow ht => ?windowEnd,
    fun kind i hfree hallowed hreset => ?poll⟩⟩
  case beacon =>
    rw [leads_onDev (show exec (.beacon p) s = execBeacon p s from rfl), hdue, guardDev_true]
    exact sendBeacon_port p s.dev
  case enroll =>
    refine congrArg (fun d => Host.Outcome.next { s with dev := d }) (modPort_congr s.dev p _ _ ?_)
    exact if_pos ⟨hhead, by simp [hwindow, ht]⟩
  case windowEnd =>
    have hends : ((s.dev.port p).isHead && (s.dev.port p).line.window.any fun t => decide (t ≤ s.dev.us)) = true := by
      simp [hhead, hwindow, ht]
    rw [leads_onDev (show exec (.enrolWindowEnd p) s = execEnrolWindowEnd p s from rfl), hends, guardDev_true]
    obtain ⟨hshut, hnone, hother⟩ := enrolWindowEnd_port p s.dev (enrollOrder (s.dev.port p).line.enrolls)
    refine ⟨hshut, hnone, fun k m i sl hone hnew hslot hidx hi => ?_, hother⟩
    have horder : enrollOrder (s.dev.port p).line.enrolls = [(k, m)] := by rw [hone]; rfl
    simp only [horder, foldDev]
    refine answerEnroll_assigns (sl := sl) ?_ ?_ ?_ hi <;> rw [modPort_port] <;> assumption
  case poll =>
    have hpoll : (if kind = 0 then pollGeneral p i s.dev else sendPoll p kind i s.dev) = sendPoll p kind i s.dev := by
      split
      · next h0 => simp [pollGeneral, hreset h0, h0]
      · rfl
    rw [leads_onDev (show exec (.poll p kind i) s = execPoll p kind i s from rfl), hfree, hallowed, Bool.and_self, guardDev_true, hpoll]
    exact sendPoll_port hfree

end Sys2Proof.Laws
end

section
/-! The first second and its restore (R71, R77, R79). -/

namespace Sys2Proof.Laws

open Sys2Proof Machine

/-! ## The first second and its restore (R71 to R80) -/

@[simp] theorem beginStep_line (now : Nat) (q : Port) : (beginStep now q).line = q.line := by
  unfold beginStep
  dsimp only
  split <;> rfl

theorem clearConsents_field {β : Type} (g : Port → β) (h : ∀ q ro, g { q with roster := ro } = g q) (q : Port) :
    g (clearConsents q) = g q := by
  refine portFoldl_field g _ (fun q x => ?_) _ q
  split
  · exact h q _
  · rfl

/-- Sending away a contract that does not fit leaves what traffic leaves (R78). -/
@[simp] theorem restoreWaits_steady (p : PortId) (i : Idx) (v : Verdict) (d : Dev) : steady (restoreWaits p i v d) = steady d := by
  have hrec : steady (d.modPort p fun q => setRoster i.toNat { rosterOf q i.toNat with consent := false } q) = steady d :=
    steady_modPort d p _ fun q => setRoster_steady _ _ q
  unfold restoreWaits
  dsimp only
  split
  · rw [sendReject_steady, hrec]
  · rw [sendWait_steady, hrec]
  · rw [sendWait_steady, hrec]
  · exact hrec

@[simp] theorem restoreWaits_plan (p : PortId) (i : Idx) (v : Verdict) (d : Dev) :
    Port.plan ((restoreWaits p i v d).port p) = Port.plan (d.port p) := by
  have hrec : Port.plan ((d.modPort p fun q => setRoster i.toNat { rosterOf q i.toNat with consent := false } q).port p)
      = Port.plan (d.port p) := by
    rw [modPort_port, setRoster_plan]
  unfold restoreWaits
  dsimp only
  split
  · rw [sendReject_plan, hrec]
  · rw [sendWait_plan, hrec]
  · rw [sendWait_plan, hrec]
  · exact hrec

/-- A port on which a restored contract is admitted (R77). -/
def restoreAdmitted (i : Idx) (req : RequestMsg) (now : Word) (q : Port) : Port :=
  let q1 := writeContract i req q.lev.cur 0 now q
  { q1 with line := { q1.line with restored := q1.line.restored ++ [i] } }

theorem restoreAdmitted_steady (i : Idx) (req : RequestMsg) (now : Word) (q : Port) :
    Port.steady (restoreAdmitted i req now q) = Port.steady q :=
  writeContract_steady i req q.lev.cur 0 now q

theorem restoreOne_of_fit {p : PortId} {i : Idx} {d : Dev} (h : restoreFailure d p i = none) :
    restoreOne p i d = postEndpoint 0x23 0 p i false
      (d.modPort p (restoreAdmitted i (restoreReq (rosterOf (d.port p) i.toNat)) d.timebase)) := by
  simp only [restoreOne, h]
  rfl

theorem restoreOne_of_failure {p : PortId} {i : Idx} {d : Dev} {v : Verdict} (h : restoreFailure d p i = some v) :
    restoreOne p i d = restoreWaits p i v d := by
  simp only [restoreOne, h]

@[simp] theorem restoreOne_steady (p : PortId) (i : Idx) (d : Dev) : steady (restoreOne p i d) = steady d := by
  cases h : restoreFailure d p i with
  | none =>
    rw [restoreOne_of_fit h, postEndpoint_steady]
    exact steady_modPort d p _ (restoreAdmitted_steady i _ d.timebase)
  | some v => rw [restoreOne_of_failure h, restoreWaits_steady]

theorem restoreOne_decided (p : PortId) (i : Idx) (d : Dev) :
    ((restoreOne p i d).port p).line.decided = (d.port p).line.decided := by
  cases h : restoreFailure d p i with
  | none =>
    rw [restoreOne_of_fit h, postEndpoint_port, modPort_port]
    rfl
  | some v =>
    rw [restoreOne_of_failure h]
    exact decided_of_plan (restoreWaits_plan p i v d)

/-- The port as the level decision leaves it, its restored contracts at the level decided (R77). -/
def decidedOn (now : Nat) (l : Level) (q : Port) : Port :=
  let q1 := q.line.restored.foldl (fun q i => let c := contractOf q i.toNat
    setContract i.toNat { c with level := l, cur := sat16 (currentOf c.power.toNat l) } q) q
  beginStep now (if q.lev.hold then q1 else { q1 with lev := { q1.lev with tgt := l } })

theorem decidedOn_steady (now : Nat) (l : Level) (q : Port) : Port.steady (decidedOn now l q) = Port.steady q := by
  unfold decidedOn
  dsimp only
  rw [beginStep_steady]
  have hfold := portFoldl_field Port.steady (fun q (i : Idx) => setContract i.toNat { contractOf q i.toNat with
    level := l, cur := sat16 (currentOf (contractOf q i.toNat).power.toNat l) } q) (fun q i => setContract_steady _ _ q) q.line.restored q
  split
  · exact hfold
  · exact hfold

theorem decidedOn_decided (now : Nat) (l : Level) (q : Port) : (decidedOn now l q).line.decided = q.line.decided := by
  unfold decidedOn
  dsimp only
  rw [beginStep_line]
  have hfold := portFoldl_field (fun q => q.line.decided) (fun q (i : Idx) => setContract i.toNat { contractOf q i.toNat with
    level := l, cur := sat16 (currentOf (contractOf q i.toNat).power.toNat l) } q) (fun q i => rfl) q.line.restored q
  split
  · exact hfold
  · exact hfold

theorem levelDecision_eq (p : PortId) (d : Dev) :
    let d1 := foldDev (restoreOne p) (consenting d p) (d.modPort p fun q => { q with line := { q.line with decided := true } })
    levelDecision p d = d1.modPort p (decidedOn d.us (restoreTarget d1 p)) := rfl

theorem foldDev_field {α β : Type} (g : Dev → β) (f : α → Dev → Dev) (h : ∀ a d, g (f a d) = g d) (l : List α) (d : Dev) :
    g (foldDev f l d) = g d := by
  induction l generalizing d with
  | nil => rfl
  | cons a t ih => rw [foldDev, ih, h]

theorem levelDecision_port (p : PortId) (d : Dev) :
    let e := levelDecision p d
    (e.port p).line.decided = true ∧ (e.port p).lev.cur = (d.port p).lev.cur ∧ (e.port p).gate = (d.port p).gate
      ∧ OtherRole p d e := by
  rw [levelDecision_eq]
  generalize hd1 : foldDev (restoreOne p) (consenting d p) _ = d1
  have hsteady : steady d1 = steady (d.modPort p fun q => { q with line := { q.line with decided := true } }) := by
    rw [← hd1, steady_foldDev _ (restoreOne_steady p)]
  have hstart : steady (d.modPort p fun q => { q with line := { q.line with decided := true } }) = steady d :=
    steady_modPort d p _ (by intro q; rfl)
  have hdecided : (d1.port p).line.decided = true := by
    rw [← hd1, foldDev_field (fun e => (e.port p).line.decided) _ (restoreOne_decided p), modPort_port]
  have hall := (steady_modPort d1 p _ (decidedOn_steady d.us (restoreTarget d1 p))).trans (hsteady.trans hstart)
  refine ⟨?_, lev_cur_of_steady hall p, gate_of_steady hall p, role_of_steady hall _, ctl_of_steady hall _⟩
  rw [modPort_port, decidedOn_decided, hdecided]

/-! ## Restored contracts become READY (R79) -/

/-- Where every restored contract fits, none is dropped. -/
theorem restoreTrim_of_fit {p : PortId} {d : Dev} (h : ∀ i ∈ (d.port p).line.restored,
    (contractOf (d.port p) i.toNat).held = true → restoreFits (d.port p) i = true) : restoreTrim p d = d := by
  have hlist (l : List Idx) (hl : ∀ i ∈ l, (contractOf (d.port p) i.toNat).held = true → restoreFits (d.port p) i = true) :
      foldDev (fun i d => if (contractOf (d.port p) i.toNat).held ∧ restoreFits (d.port p) i = false then restoreDrops p i d else d)
        l d = d := by
    induction l with
    | nil => rfl
    | cons i t ih =>
      obtain ⟨hi, ht⟩ := List.forall_mem_cons.1 hl
      rw [foldDev, if_neg (by rintro ⟨hheld, hno⟩; simp [hi hheld] at hno), ih ht]
  exact hlist _ fun i hi => h i (List.mem_reverse.1 hi)

/-- What a contract that becomes READY changes of its port: its records (R192). -/
theorem makeReady_field {β : Type} (g : Port → β) (h : ∀ q ro co em hi, g { q with roster := ro, contract := co, emeter := em, hints := hi } = g q)
    (p r : PortId) (i : Idx) (d : Dev) : g ((makeReady p i d).port r) = g (d.port r) := by
  unfold makeReady
  dsimp only
  rw [dirtyPage_port]
  refine field_modPort g p r _ (fun q => ?_) d
  split
  · exact h q _ _ _ _
  · exact h q _ _ _ q.hints

theorem restoreReady_field {β : Type} (g : Port → β)
    (h : ∀ q ro co em hi, g { q with roster := ro, contract := co, emeter := em, hints := hi } = g q)
    (p r : PortId) (i : Idx) (d : Dev) : g ((restoreReady p i d).port r) = g (d.port r) := by
  unfold restoreReady
  dsimp only
  split
  · rw [postEndpoint_port, makeReady_field g h]
    exact field_modPort g p r _ (fun q => h q q.roster _ q.emeter q.hints) d
  · rfl

@[simp] theorem classReady_steady (now : Nat) (c : Cls) (q : Port) : Port.steady (classReady now c q) = Port.steady q :=
  broadcast_steady _ _ _ _

/-- The class broadcasts of R79. -/
def classReadies (now : Nat) (holds : Port → Cls → Bool) (q : Port) : Port :=
  [0, 1, 2, 3].foldl (fun q c => if holds q c then classReady now c q else q) q

theorem classReadies_steady (now : Nat) (holds : Port → Cls → Bool) (q : Port) :
    Port.steady (classReadies now holds q) = Port.steady q :=
  portFoldl_field Port.steady _ (fun q c => by split <;> simp) _ q

/-- A class has a restored contract that is not READY yet. -/
def classHolds (ids : List Idx) (q : Port) (c : Cls) : Bool :=
  ids.any fun i => (rosterOf q i.toNat).cls == c && decide ((contractOf q i.toNat).state = 1)

theorem restoreBroadcast_eq (p : PortId) (d : Dev) :
    restoreBroadcast p d = (foldDev (restoreReady p) (d.port p).line.restored
      (d.modPort p (classReadies d.us (classHolds (d.port p).line.restored)))).modPort p
        fun q => { q with line := { q.line with restored := [] } } := rfl

theorem restoreBroadcast_port (p : PortId) (d : Dev) :
    let e := restoreBroadcast p d
    (e.port p).line.restored = [] ∧ (e.port p).lev.cur = (d.port p).lev.cur ∧ OtherRole p d e := by
  have hfield {β : Type} (g : Port → β) (h : ∀ {a b : Port}, Port.steady a = Port.steady b → g a = g b)
      (hr : ∀ q ro co em hi, g { q with roster := ro, contract := co, emeter := em, hints := hi } = g q)
      (hl : ∀ q x, g { q with line := { q.line with restored := x } } = g q) (r : PortId) :
      g ((restoreBroadcast p d).port r) = g (d.port r) := by
    rw [restoreBroadcast_eq, field_modPort g p r _ (fun q => hl q []),
      foldDev_field (fun e => g (e.port r)) _ (fun i e => restoreReady_field g hr p r i e),
      field_modPort g p r _ (fun q => h (classReadies_steady _ _ q))]
  refine ⟨?_, hfield (fun q => q.lev.cur) (fun h => (congrArg (fun q : Port => q.lev.cur) h :)) (fun _ _ _ _ _ => rfl)
    (fun _ _ => rfl) p, hfield Port.role (fun h => (congrArg Port.role h :)) (fun _ _ _ _ _ => rfl) (fun _ _ => rfl) _,
    hfield Port.ctl (fun h => (congrArg Port.ctl h :)) (fun _ _ _ _ _ => rfl) (fun _ _ => rfl) _⟩
  rw [restoreBroadcast_eq, modPort_port]

/-- Settles O19: the start and the end by the change of the port, the decision and the restore by what their folds leave. -/
theorem firstSecond : Obligations.FirstSecond := by
  intro s p
  refine ⟨fun hhead hdrive hband => ?start, fun t hfirst ht => ?finish, fun hdue => ?decision, fun hsettled hfits => ?ready⟩
  case start =>
    rw [leads_onDev (show exec (.firstSecondStart p) s = execFirstSecondStart p s from rfl)]
    simp only [modPort_port, modPort_port_other, hhead, hdrive, hband, and_self, if_true]
  case finish =>
    refine congrArg (fun d => Host.Outcome.next { s with dev := d }) (modPort_congr s.dev p _ _ ?_)
    simp only [hfirst, ht, if_true]
  case decision =>
    rw [leads_onDev (show exec (.levelDecision p) s = execLevelDecision p s from rfl), hdue, guardDev_true]
    exact levelDecision_port p s.dev
  case ready =>
    rw [leads_onDev (show exec (.restoreReadyBroadcast p) s = execRestoreReadyBroadcast p s from rfl), hsettled, guardDev_true]
    simp only [restoreTrim_of_fit hfits, hsettled, if_true]
    exact restoreBroadcast_port p s.dev

end Sys2Proof.Laws
end

section
/-! The head's answers on its line, the end of a contract, a confirmation (R189, R275), and what the engine takes from the core (R274, R424). -/

namespace Sys2Proof.Laws

open Sys2Proof Machine

/-! ## Answers of the head on its line -/

theorem emit_field {β : Type} (g : Port → β) (hl : ∀ q l, g { q with line := l } = g q) (x : TxItem) (q : Port) : g (emit x q) = g q := by
  unfold emit
  split <;> exact hl _ _

theorem launchOn_field {β : Type} (g : Port → β) (hl : ∀ q l, g { q with line := l } = g q) (hr : ∀ q n, g { q with ring := { q.ring with gapDue := n } } = g q)
    (hs : ∀ q sl b, g { q with slots := sl, sig := b } = g q) (now : Nat) (q : Port) : g (launchOn now q) = g q := by
  unfold launchOn
  split
  · rfl
  · split
    · rfl
    · rw [emit_field g hl]
      unfold freeEnrolSlot
      split
      · split <;> exact (hs _ _ _).trans ((hl _ _).trans (by first | exact hr q _ | rfl))
      · split <;> exact (hl _ _).trans (by first | exact hr q _ | rfl)

theorem sendTo_field {β : Type} (g : Port → β) (hl : ∀ q l, g { q with line := l } = g q) (hr : ∀ q n, g { q with ring := { q.ring with gapDue := n } } = g q)
    (hs : ∀ q sl b, g { q with slots := sl, sig := b } = g q) (ho : ∀ q x, g { q with roster := x } = g q)
    (p : PortId) (i : Idx) (kind : OutKind) (mt : BitVec 6) (flags : Byte) (payload : List Byte)
    (slot : Option (BitVec 7)) (d : Dev) : g ((sendTo p i kind mt flags payload slot d).port p) = g (d.port p) := by
  rw [sendTo_eq, enqueue_port, launchOn_field g hl hr hs, hl, modPort_port]
  exact ho _ _

theorem sent_launchOn {x : TxItem} {now : Nat} {q : Port} (h : Sent x q) : Sent x (launchOn now q) := by
  unfold launchOn
  split
  · exact h
  · split
    · exact h
    · refine sent_emit ?_
      unfold freeEnrolSlot
      split <;> split <;> exact h

theorem sent_sendTo {x : TxItem} {p : PortId} {i : Idx} {kind : OutKind} {mt : BitVec 6} {flags : Byte} {payload : List Byte}
    {slot : Option (BitVec 7)} {d : Dev} (h : Sent x (d.port p)) : Sent x ((sendTo p i kind mt flags payload slot d).port p) := by
  rw [sendTo_eq, enqueue_port, modPort_port]
  exact sent_launchOn h

/-- A frame that is not an ASSIGN leaves the slots alone when it is sent at once. -/
theorem sendTo_slots {p : PortId} {i : Idx} {kind : OutKind} {mt : BitVec 6} {flags : Byte} {payload : List Byte}
    {slot : Option (BitVec 7)} {d : Dev} (hout : (d.port p).line.out = []) (hk : ∀ b, kind ≠ .assign b) :
    ((sendTo p i kind mt flags payload slot d).port p).slots = (d.port p).slots := by
  rw [sendTo_eq, enqueue_port, modPort_port]
  have hout' : (setRoster i.toNat { rosterOf (d.port p) i.toNat with seqTx := (rosterOf (d.port p) i.toNat).seqTx + 1 }
      (d.port p)).line.out = [] := hout
  simp only [hout', joinQueue, insertBy]
  unfold launchOn
  dsimp only
  split
  · rfl
  · rw [emit_field Port.slots fun _ _ => rfl]
    unfold freeEnrolSlot
    split
    · rename_i hkind _
      exact absurd hkind (hk _)
    · split <;> rfl

/-! ## The end of a contract (R189) -/

theorem clearContract_contract (i : Idx) (q : Port) : (clearContract i q).contract = endedAt i q := by
  unfold clearContract
  dsimp only [dropHint, dropPending]
  split <;> rfl

theorem rateFor_contract (i : Idx) (pw us : Nat) (q : Port) : (rateFor i pw us q).contract = q.contract := by
  unfold rateFor
  dsimp only
  split <;> rfl

theorem endContract_contract (code : Nat) (p : PortId) (i : Idx) (d : Dev) :
    ((endContract code p i d).port p).contract = endedAt i (d.port p) := by
  unfold endContract
  rw [postEndpoint_port, modPort_port, rateFor_contract, clearContract_contract]

theorem closeSlot_contract (k : Nat) (q : Port) : (closeSlot k q).contract = q.contract := by
  unfold closeSlot
  split <;> rfl

theorem sendWithdraw_contract (reason : Nat) (p : PortId) (i : Idx) (slot : Option Nat) (reserve : Nat) (d : Dev) :
    ((sendWithdraw reason p i slot reserve d).port p).contract = (d.port p).contract := by
  unfold sendWithdraw
  dsimp only
  cases slot with
  | none => split
            · rw [sendTo_contract]
            · rfl
  | some k => split
              · rw [sendTo_contract, modPort_port, closeSlot_contract]
              · rw [modPort_port]
                rfl

theorem endedAt_congr {i : Idx} {a b : Port} (h : a.contract = b.contract) : endedAt i a = endedAt i b := by
  simp only [endedAt, contractOf, h]

theorem withdrawGrant_contract {reason : Nat} {p : PortId} {k : Nat} {d : Dev} {x : Slot} {i : Idx}
    (hx : spFind (d.port p).slots k = some x) (hi : x.idx = some i) :
    ((withdrawGrant reason p k d).port p).contract = endedAt i (d.port p) := by
  simp only [withdrawGrant, hx, hi]
  rw [endContract_contract]
  exact endedAt_congr (sendWithdraw_contract _ _ _ _ _ _)

theorem withdrawContract_contract (reason : Nat) (p : PortId) (i : Idx) (d : Dev) :
    ((withdrawContract reason p i d).port p).contract = endedAt i (d.port p) := by
  unfold withdrawContract
  rw [endContract_contract]
  exact endedAt_congr (sendWithdraw_contract _ _ _ _ _ _)

/-! ## A confirmation (R275) -/

theorem contractOf_congr {a b : Port} (h : a.contract = b.contract) (i : Nat) : contractOf a i = contractOf b i := by
  simp only [contractOf, h]

theorem contractOf_setContract {q : Port} {i : Nat} {c : ContractRec} (h : c.state ≠ 0) : contractOf (setContract i c q) i = c :=
  spGet_spSet _ _ fun heq => h (congrArg ContractRec.state heq)

theorem sendAccept_contract (p : PortId) (i : Idx) (k : Nat) (s : Slot) (l : Level) (spec : Bool) (d : Dev) :
    ((sendAccept p i k s l spec d).port p).contract = (d.port p).contract := by
  unfold sendAccept
  dsimp only
  rw [sendTo_contract, modPort_port]
  rfl

/-- What a confirmation writes into the contract of its endpoint, but for the grant. -/
def admitted (q : Port) (i : Idx) (req : RequestMsg) (l : Level) (now : Word) (g : Byte) : ContractRec :=
  { state := 1, level := l, power := req.power, cur := sat16 (currentOf req.power.toNat l), admitAt := now
    admissions := (contractOf q i.toNat).admissions + 1, mask := req.mask, floor := req.floor, grant := g }

theorem writeContract_contractOf (i : Idx) (req : RequestMsg) (l : Level) (g : Byte) (now : Word) (q : Port) :
    contractOf (writeContract i req l g now q) i.toNat = admitted q i req l now g :=
  (contractOf_congr (by rfl) _).trans (contractOf_setContract (by simp [admitted]))

theorem raiseTgt_contract (l : Level) (now : Nat) (q : Port) : (raiseTgt l now q).contract = q.contract := by
  unfold raiseTgt
  split <;> rfl

theorem beginStep_contract (now : Nat) (q : Port) : (beginStep now q).contract = q.contract := by
  unfold beginStep
  dsimp only
  split <;> rfl

theorem contractOf_setGrant {q : Port} {i : Nat} {c : ContractRec} (g : Byte) (h : contractOf q i = c) (hc : c.state ≠ 0) :
    contractOf (setContract i { contractOf q i with grant := g } q) i = { c with grant := g } := by
  subst h
  exact contractOf_setContract hc

theorem confirmSlot_contractOf (p : PortId) (k : Nat) (s : Slot) (i : Idx) (l : Level) (d : Dev) :
    ∃ g, contractOf ((confirmSlot p k s i l d).port p) i.toNat = admitted (d.port p) i s.req l d.timebase g := by
  have haccept : ∀ s1 d3, contractOf (Dev.port d3 p) i.toNat = admitted (d.port p) i s.req l d.timebase s.grant →
      contractOf ((if s.accepted then d3 else sendAccept p i k s1 l false d3).port p) i.toNat
        = admitted (d.port p) i s.req l d.timebase s.grant := fun s1 d3 h => by
    split
    · exact h
    · exact (contractOf_congr (sendAccept_contract _ _ _ _ _ _ _) _).trans h
  unfold confirmSlot
  dsimp only
  rw [modPort_port, modPort_port, contractOf_congr (beginStep_contract _ _), contractOf_congr (raiseTgt_contract _ _ _)]
  refine ⟨_, contractOf_setGrant _ (haccept _ _ ?_) (c := admitted (d.port p) i s.req l d.timebase s.grant) (by simp [admitted])⟩
  rw [modPort_port, postEndpoint_port, modPort_port]
  exact (contractOf_congr (by rfl) _).trans (writeContract_contractOf _ _ _ _ _ _)

/-- Settles O21: a store of the core is taken at its slot. A confirmation is discarded during a rail swap (assumption 123) and where
R207 gives no level (assumption 124), both the model's choice. -/
theorem engineStores : Obligations.EngineStores := by
  unfold Obligations.EngineStores
  intro s p hrun
  refine ⟨fun k x i hx hi hm hopen => ⟨fun l hswap hl => ?_, fun hno => ?_⟩, fun k x i rsn hx hi hst => ?_, fun i rsn hheld => ?_⟩
  · rw [leads_onDev (show exec (.engineConfirm p k) s = execEngineConfirm p k s from rfl)]
    obtain ⟨g, hg⟩ := confirmSlot_contractOf p k.toNat x i l s.dev
    simp only [hrun, guardDev_true, coreConfirm, hx, hi, Option.getD_some, hl, hm, hopen, hswap, and_self, if_true, hg,
      confirmSlot_other]
    exact ⟨rfl, rfl, rfl, rfl, trivial⟩
  · show execEngineConfirm p k s = _
    have hkeep : coreConfirm p k.toNat s.dev = s.dev := by
      simp only [coreConfirm, hx, hi, Option.getD_some]
      cases hl : confirmLevel s.dev p x i with
      | none => rfl
      | some l =>
        have hswap : (s.dev.port p).rail.swap ≠ .none := hno.resolve_right (by simp [hl])
        simp [hswap]
    simp only [execEngineConfirm, onDev_eq, hrun, guardDev_true, hkeep]
  · rw [leads_onDev (show exec (.engineDeny p k rsn) s = execEngineDeny p k rsn s from rfl)]
    simp only [hrun, guardDev_true, coreDeny, hx, hst, if_true]
    exact ⟨withdrawGrant_contract hx hi, gate_of_steady (withdrawGrant_steady _ _ _ _) p, withdrawGrant_other _ _ _ _⟩
  · rw [leads_onDev (show exec (.engineWithdraw p i rsn) s = execEngineWithdraw p i rsn s from rfl)]
    simp only [hrun, guardDev_true, coreWithdraw, hheld, if_true]
    exact ⟨withdrawContract_contract _ _ _ _, gate_of_steady (withdrawContract_steady _ _ _ _) p, withdrawContract_other _ _ _ _⟩

end Sys2Proof.Laws
end

section
/-! Slots at their times and READY (R184, R274, R275, R371, R427). -/

namespace Sys2Proof.Laws

open Sys2Proof Machine

theorem rosterOf_congr {a b : Port} (h : a.roster = b.roster) (i : Nat) : rosterOf a i = rosterOf b i := by
  simp only [rosterOf, h]

/-! ## READY (R184, R275) -/

theorem makeReady_contractOf (p : PortId) (i : Idx) (d : Dev) :
    contractOf ((makeReady p i d).port p) i.toNat = { contractOf (d.port p) i.toNat with state := 2 } := by
  unfold makeReady
  dsimp only
  rw [dirtyPage_port, modPort_port]
  refine (contractOf_congr (b := setContract i.toNat { contractOf (d.port p) i.toNat with state := 2 } (d.port p)) ?_ _).trans
    (contractOf_setContract (by simp))
  split <;> rfl

theorem setRate_record (pw us : Nat) (r : RosterRec) : (setRate pw us r).state = r.state ∧ (setRate pw us r).stored = r.stored := by
  unfold setRate rateTo
  split
  · split <;> exact ⟨rfl, rfl⟩
  · exact ⟨rfl, rfl⟩

theorem makeReady_rosterOf (p : PortId) (i : Idx) (d : Dev) (h : (rosterOf (d.port p) i.toNat).state ≠ 0) :
    (rosterOf ((makeReady p i d).port p) i.toNat).state = (rosterOf (d.port p) i.toNat).state
    ∧ (rosterOf ((makeReady p i d).port p) i.toNat).stored = (contractOf (d.port p) i.toNat).power := by
  unfold makeReady
  dsimp only
  rw [dirtyPage_port, modPort_port]
  rw [rosterOf_congr (b := setRoster i.toNat (setRate ((contractOf (d.port p) i.toNat).power.toNat * 100) d.us
    { rosterOf (d.port p) i.toNat with
      stored := (contractOf (d.port p) i.toNat).power, storedLevel := (contractOf (d.port p) i.toNat).level
      lastCount := none, consent := false }) (d.port p)) (by split <;> rfl)]
  rw [rosterOf_setRoster (by rw [(setRate_record _ _ _).1]; exact h)]
  exact setRate_record _ _ _

theorem putSlot_port_fields (p : PortId) (k : Nat) (x : Slot) (d : Dev) (i : Nat) :
    contractOf ((d.modPort p (putSlot k x)).port p) i = contractOf (d.port p) i
    ∧ rosterOf ((d.modPort p (putSlot k x)).port p) i = rosterOf (d.port p) i := by
  rw [modPort_port]
  exact ⟨rfl, rfl⟩

/-- READY of a slot: the contract is READY, its power stored, and READY asked at its level. -/
theorem sendReady_port {p : PortId} {k : Nat} {x : Slot} {i : Idx} {d : Dev} (h : (rosterOf (d.port p) i.toNat).state ≠ 0) :
    contractOf ((sendReady p k x i d).port p) i.toNat = { contractOf (d.port p) i.toNat with state := 2 }
    ∧ (rosterOf ((sendReady p k x i d).port p) i.toNat).stored = (contractOf (d.port p) i.toNat).power
    ∧ Asks (.ready (contractOf (d.port p) i.toNat).level) i ((sendReady p k x i d).port p)
    ∧ (sendReady p k x i d).port p.other = d.port p.other := by
  obtain ⟨hc, hr⟩ := putSlot_port_fields p k { x with readySent := true } d i.toNat
  have hready := makeReady_contractOf p i (d.modPort p (putSlot k { x with readySent := true }))
  obtain ⟨hstate, hstored⟩ := makeReady_rosterOf p i (d.modPort p (putSlot k { x with readySent := true })) (by rw [hr]; exact h)
  rw [hc] at hready hstored
  rw [hr] at hstate
  unfold sendReady
  dsimp only
  refine ⟨?_, ?_, ?_, ?_⟩
  · rw [contractOf_congr (sendTo_contract _ _ _ _ _ _ _ _), hready]
  · rw [sendTo_rosterOf _ _ _ _ _ _ _ _ (by rw [hstate]; exact h)]
    exact hstored
  · rw [hready]
    exact asks_sendTo _ _ _ _ _ _ _ _
  · rw [sendTo_other]
    unfold makeReady
    simp

theorem sendWaitPlain_contract (p : PortId) (i : Idx) (k : Option Nat) (retry : Nat) (d : Dev) :
    ((sendWaitPlain p i k retry d).port p).contract = (d.port p).contract := by
  unfold sendWaitPlain
  rw [sendTo_contract]
  cases k with
  | none => rfl
  | some k => exact (congrArg Port.contract (modPort_port _ _ _)).trans (closeSlot_contract _ _)

theorem mem_of_spFind {α : Type} {s : Sparse α} {k : Nat} {v : α} (h : spFind s k = some v) : (k, v) ∈ s := by
  induction s with
  | nil => simp [spFind] at h
  | cons a t ih =>
    obtain ⟨b, w⟩ := a
    simp only [spFind] at h
    split at h
    · simp_all
    · split at h
      · simp at h
      · exact List.mem_cons_of_mem _ (ih h)

/-- A slot whose core is warned of the end of tSpecConfirm (R427). -/
def warnSlot (k : Nat) (x : Slot) (q : Port) : Port := { q with slots := spPut q.slots k { x with warned := true } }

/-- Settles O22: each timed command at its own time. That the power of the contract is stored as READY goes is the model's choice
(assumption 101), and each time stands at its low bound (assumption 3). -/
theorem slotsExpireOrReady : Obligations.SlotsExpireOrReady := by
  unfold Obligations.SlotsExpireOrReady
  intro s p k x i hx hi
  refine ⟨fun hst hdue => ?expiry, fun hst hposted hdue => ?busy, fun hdue hhead hrec => ?ready, fun hst hdue => ?warn⟩
  case expiry =>
    rw [leads_onDev (show exec (.specConfirmExpiry p k) s = execSpecConfirmExpiry p k s from rfl)]
    simp only [hx, hst, hdue, and_self, decide_true, guardDev_true]
    exact ⟨withdrawGrant_contract hx hi, withdrawGrant_other _ _ _ _⟩
  case busy =>
    rw [leads_onDev (show exec (.busySlotExpiry p k) s = execBusySlotExpiry p k s from rfl)]
    simp only [hx, hi, hst, hposted, hdue, and_self, decide_true, guardDev_true]
    exact ⟨asks_sendTo _ _ _ _ _ _ _ _, sendWaitPlain_contract _ _ _ _ _, sendWaitPlain_other _ _ _ _ _⟩
  case ready =>
    rw [leads_onDev (show exec (.ready p k) s = execReady p k s from rfl)]
    simp only [hx, hi, hdue, hhead, Bool.and_self, guardDev_true]
    exact sendReady_port hrec
  case warn =>
    refine ⟨s.dev.modPort p (warnSlot k.toNat x), ?_, rfl, ?_⟩
    · refine congrArg (fun d => Host.Outcome.next { s with dev := d }) (modPort_congr s.dev p _ _ ?_)
      simp only [hx, if_pos (And.intro hst hdue)]
      rfl
    · rw [modPort_port]
      refine List.any_eq_true.2 ⟨(k.toNat, { x with warned := true }), mem_of_spFind (spFind_spPut _ _ _), ?_⟩
      simpa using hst

end Sys2Proof.Laws
end

section
/-! Frames of an endpoint at its head (R148, R149), forecasts (R302, R303), REPORTs and the calibration pulse (R193, R286, R300, R305). -/

namespace Sys2Proof.Laws

open Sys2Proof Machine

/-! ## Frames of an endpoint at its head (R148, R149) -/

theorem nowPresent_field {β : Type} (g : Port → β) (ho : ∀ q x, g { q with roster := x } = g q) (now : Nat) (i : Idx) (q : Port) :
    g (nowPresent now i q) = g q := by
  unfold nowPresent
  dsimp only
  split
  · exact ho _ _
  · rfl

/-- What an answered POLL keeps of a port: all but its line and its roster. -/
theorem pollAnswered_field {β : Type} (g : Port → β) (hl : ∀ q l, g { q with line := l } = g q)
    (ho : ∀ q x, g { q with roster := x } = g q) (p : PortId) (i : Idx) (d : Dev) :
    g ((pollAnswered p i d).port p) = g (d.port p) := by
  unfold pollAnswered
  split
  · split
    · split
      · unfold dropFront
        rw [modPort_port, hl, modPort_port]
        dsimp only
        split
        · exact nowPresent_field g ho _ _ _
        · rw [hl]
          exact nowPresent_field g ho _ _ _
      · rfl
    · rfl
  · rfl

@[simp] theorem pollAnswered_other (p : PortId) (i : Idx) (d : Dev) : (pollAnswered p i d).port p.other = d.port p.other := by
  unfold pollAnswered
  repeat' split
  all_goals simp

/-- A POLL that is answered takes back nothing of what was sent. -/
theorem sent_pollAnswered {x : TxItem} {p : PortId} {i : Idx} {d : Dev} (h : Sent x (d.port p)) : Sent x ((pollAnswered p i d).port p) := by
  have hpresent (now : Nat) (q : Port) : (nowPresent now i q).line = q.line := nowPresent_field Port.line (fun _ _ => rfl) now i q
  unfold pollAnswered
  split
  · split
    · split
      · unfold dropFront
        rw [modPort_port, modPort_port]
        dsimp only
        split <;> simpa only [Sent, hpresent] using h
      · exact h
    · exact h
  · exact h

theorem pollAnswered_idle {p : PortId} {i : Idx} {d : Dev} (h : (d.port p).line.out = []) : pollAnswered p i d = d := by
  simp only [pollAnswered, h]

@[simp] theorem pollAnswered_steady (p : PortId) (i : Idx) (d : Dev) : steady (pollAnswered p i d) = steady d := by
  unfold pollAnswered
  split
  · split
    · split
      · rw [dropFront_steady, steady_modPort]
        intro q
        dsimp only
        split
        · exact nowPresent_field Port.steady (fun _ _ => rfl) _ _ _
        · exact nowPresent_field Port.steady (fun _ _ => rfl) d.us i q
      · rfl
    · rfl
  · rfl

/-- The port that has acknowledged a frame: its SEQ noted, the ACK sent. -/
def acked (i : Idx) (h : FrameTag) (now : Nat) (q : Port) : Port := answerShort false h.seq (hears now (noteSeq i h q))

theorem acked_field {β : Type} (g : Port → β) (hl : ∀ q l, g { q with line := l } = g q) (ho : ∀ q x, g { q with roster := x } = g q)
    (i : Idx) (h : FrameTag) (now : Nat) (q : Port) : g (acked i h now q) = g q := by
  unfold acked answerShort
  rw [emit_field g hl]
  exact (hl _ _).trans (ho _ _)

theorem acked_out (i : Idx) (h : FrameTag) (now : Nat) (q : Port) : (acked i h now q).line.out = q.line.out := by
  unfold acked answerShort
  rw [emit_out]
  rfl

theorem ackFrame_eq (p : PortId) (i : Idx) (h : FrameTag) (d : Dev) :
    ackFrame p i h d = pollAnswered p i (d.modPort p (acked i h d.us)) := rfl

/-- What an acknowledged frame keeps of its port: all but the line and the roster. -/
theorem ackFrame_field {β : Type} (g : Port → β) (hl : ∀ q l, g { q with line := l } = g q)
    (ho : ∀ q x, g { q with roster := x } = g q) (p : PortId) (i : Idx) (h : FrameTag) (d : Dev) :
    g ((ackFrame p i h d).port p) = g (d.port p) := by
  rw [ackFrame_eq, pollAnswered_field g hl ho, modPort_port, acked_field g hl ho]

@[simp] theorem ackFrame_other (p : PortId) (i : Idx) (h : FrameTag) (d : Dev) : (ackFrame p i h d).port p.other = d.port p.other := by
  rw [ackFrame_eq, pollAnswered_other, modPort_port_other]

theorem ackFrame_sent (p : PortId) (i : Idx) (h : FrameTag) (d : Dev) : Sent (.short false h.seq) ((ackFrame p i h d).port p) := by
  rw [ackFrame_eq]
  refine sent_pollAnswered ?_
  rw [modPort_port]
  exact emit_sent _ _

@[simp] theorem ackFrame_steady (p : PortId) (i : Idx) (h : FrameTag) (d : Dev) : steady (ackFrame p i h d) = steady d := by
  rw [ackFrame_eq, pollAnswered_steady, steady_modPort]
  intro q
  rw [acked, answerShort_steady]
  exact noteSeq_steady i h q

theorem ackFrame_idle {p : PortId} {i : Idx} {h : FrameTag} {d : Dev} (hout : (d.port p).line.out = []) :
    ackFrame p i h d = d.modPort p (acked i h d.us) := by
  rw [ackFrame_eq, pollAnswered_idle]
  rw [modPort_port, acked_out, hout]

/-! ## Forecasts (R302, R303) -/

theorem fromEndpoint_heard {p : PortId} {i : Idx} {h : FrameTag} {act : Dev → Dev} {d : Dev} (hh : headHears d p i = true) :
    fromEndpoint p i h act d = act d := if_pos hh

theorem takeHint_hints {i : Idx} {m : HintMsg} {now : Nat} {a b : Port} (hc : a.contract = b.contract) (hh : a.hints = b.hints) :
    (takeHint i m now a).hints = (takeHint i m now b).hints := by
  have hof : hintOf a i m now = hintOf b i m now := by simp only [hintOf, heldPower, contractOf_congr hc]
  unfold takeHint
  simp only [hof, dropHint, hh]
  split <;> rfl

theorem takeHint_field {β : Type} (g : Port → β) (hh : ∀ q x, g { q with hints := x } = g q) (i : Idx) (m : HintMsg) (now : Nat) (q : Port) :
    g (takeHint i m now q) = g q := by
  unfold takeHint
  dsimp only
  split
  · exact hh _ _
  · exact (hh (dropHint i q) _).trans (hh _ _)

theorem raiseTgt_free {l : Level} {now : Nat} {q : Port} (hhold : q.lev.hold = false) (hraise : q.lev.raiseFrom = 0)
    (htgt : q.lev.tgt < clampTop q l) : (raiseTgt l now q).lev.tgt = clampTop q l := by
  have hallowed : raiseAllowed now q = true := by simp [raiseAllowed, hraise]
  rw [raiseTgt, if_pos ⟨htgt, hhold, hallowed⟩]

theorem clampTop_clampTop (q : Port) (l : Level) : clampTop q (clampTop q l) = clampTop q l := by
  unfold clampTop
  split
  · simp
  · next h => simp [h]

theorem raiseTgt_cur (l : Level) (now : Nat) (q : Port) : (raiseTgt l now q).lev.cur = q.lev.cur := by
  unfold raiseTgt
  split <;> rfl

/-- Settles O24: a HINT by the acknowledgement and the reservation it makes, the raise by the level its increment needs, and the end of
a reservation at its time. -/
theorem forecasts : Obligations.Forecasts := by
  unfold Obligations.Forecasts
  intro s p i
  refine ⟨fun h m ⟨hhead, hnew⟩ hok => ?hint, fun x l hx hrun hhead hstart hend hl hcap hhold hraise htgt => ?raise, fun x hx hend => ?ends⟩
  case hint =>
    rw [leads_onDev (show exec (.hint p i h m) s = execHint p i h m s from rfl), fromEndpoint_heard hhead]
    simp only [hnew, hok, Bool.false_eq_true, if_false, modPort_port, modPort_port_other]
    refine ⟨takeHint_hints ?_ ?_, ?_, ?_, ackFrame_other _ _ _ _⟩
    · exact ackFrame_field Port.contract (fun _ _ => rfl) (fun _ _ => rfl) _ _ _ _
    · exact ackFrame_field Port.hints (fun _ _ => rfl) (fun _ _ => rfl) _ _ _ _
    · have hsent := ackFrame_sent p i h s.dev
      have hline := takeHint_field Port.line (fun _ _ => rfl) i m s.dev.us ((ackFrame p i h s.dev).port p)
      simpa only [Sent, hline] using hsent
    · exact (takeHint_field Port.contract (fun _ _ => rfl) _ _ _ _).trans
        (ackFrame_field Port.contract (fun _ _ => rfl) (fun _ _ => rfl) _ _ _ _)
  case raise =>
    rw [leads_onDev (show exec (.hintLevelRaise p i) s = execHintLevelRaise p i s from rfl)]
    simp only [hx, hrun, hhead, hstart, hend, decide_true, Bool.and_self, guardDev_true, modPort_port, modPort_port_other, hl, hcap,
      Bool.false_eq_true, if_false]
    refine ⟨?_, ?_, trivial⟩
    · rw [beginStep_tgt, raiseTgt_free hhold hraise (by rwa [clampTop_clampTop]), clampTop_clampTop]
    · rw [beginStep_cur, raiseTgt_cur]
  case ends =>
    refine congrArg (fun d => Host.Outcome.next { s with dev := d }) (modPort_congr s.dev p _ _ ?_)
    simp only [hx, if_pos hend]

/-! ## REPORTs and the calibration (R193, R286, R300) -/

/-- Another value of the calibration on the line is no change of what traffic leaves alone. -/
theorem setCal_steady (p : PortId) (c : Option (Idx × Byte × Nat × Option (Nat × Int))) (d : Dev) :
    steady (d.modPort p fun q => { q with line := { q.line with cal := c } }) = steady d := steady_modPort _ _ _ fun _ => rfl

/-- A drawer that was polled without a usable report ends the pulse (R287). -/
def drawerEnds (p : PortId) (d : Dev) : Dev :=
  match (d.port p).line.cal with
  | some (i, _, _, none) =>
    if pollsReport (d.port p) (· == i) then d
    else postEndpoint 0x2A 1 p i false (d.modPort p fun q => { q with line := { q.line with cal := none } })
  | _ => d

/-- The slot of a pulse is freed after the last REPORT POLL (R194). -/
def pulseFrees (p : PortId) (d : Dev) : Dev :=
  match (d.port p).line.calSlot with
  | some k =>
    if pollsReport (d.port p) (fun _ => true) then d
    else d.modPort p fun q => let q1 := dropSlot k.toNat q; { q1 with line := { q1.line with cal := none, calSlot := none } }
  | none => d

theorem calProgress_eq (p : PortId) (d : Dev) : calProgress p d = pulseFrees p (drawerEnds p d) := rfl

theorem drawerEnds_steady (p : PortId) (d : Dev) : steady (drawerEnds p d) = steady d := by
  unfold drawerEnds
  split
  · split
    · rfl
    · rw [postEndpoint_steady, setCal_steady]
  · rfl

theorem pulseFrees_steady (p : PortId) (d : Dev) : steady (pulseFrees p d) = steady d := by
  unfold pulseFrees
  split
  · split
    · rfl
    · exact steady_modPort _ _ _ fun q => dropSlot_steady _ q
  · rfl

@[simp] theorem calProgress_steady (p : PortId) (d : Dev) : steady (calProgress p d) = steady d := by
  rw [calProgress_eq, pulseFrees_steady, drawerEnds_steady]

@[simp] theorem takeLoop_steady (p : PortId) (i : Idx) (rLoop : Nat) (d : Dev) : steady (takeLoop p i rLoop d) = steady d := by
  have hset : steady (dirtyPage p i (d.modPort p fun q =>
      setRoster i.toNat (setLoop rLoop q.grd.ilim.toNat (rosterOf q i.toNat)) q)) = steady d := by
    rw [dirtyPage_steady, steady_modPort]
    exact fun q => setRoster_steady _ _ q
  unfold takeLoop ceilingActs
  dsimp only
  split
  · rw [withdrawContract_steady, steady_modPort, hset]
    exact fun _ => rfl
  · exact hset

theorem drawerReport_steady (p : PortId) (i : Idx) (want stepMa : Nat) (dv : Int) (cid : Byte) (d : Dev) :
    steady (drawerReport p i want stepMa dv cid d) = steady d := by
  unfold drawerReport
  split
  · rw [postEndpoint_steady, setCal_steady]
  · dsimp only
    rw [postEndpoint_steady, setCal_steady, takeLoop_steady]

theorem otherReport_steady (p : PortId) (i : Idx) (di : Nat) (dvd dv : Int) (d : Dev) :
    steady (otherReport p i di dvd dv d) = steady d := by
  unfold otherReport
  split
  · exact takeLoop_steady _ _ _ _
  · rfl

@[simp] theorem calReport_steady (p : PortId) (i : Idx) (m : ReportMsg) (stepMa : Nat) (d : Dev) :
    steady (calReport p i m stepMa d) = steady d := by
  unfold calReport
  repeat' split
  · rfl
  · rfl
  · exact drawerReport_steady _ _ _ _ _ _ _
  · rfl
  · dsimp only
    split
    · exact otherReport_steady _ _ _ _ _ _
    · rfl

/-- The port after a REPORT's record, its energy flag and its low voltage (R191, R300, R344). -/
def reported (i : Idx) (m : ReportMsg) (now : Nat) (q0 q : Port) : Port :=
  let r := rosterOf q0 i.toNat
  let c := contractOf q0 i.toNat
  let q1 := reportCal i r.lastCount.isSome (decide (c.state = 2)) (setRoster i.toNat (reportRecord m c now r) q)
  if decide (c.state = 2) && reportsLow m r then lowLimit now q1 else q1

/-- The device with a REPORT's record and its temperature (R305). -/
def reportBase (p : PortId) (i : Idx) (m : ReportMsg) (d : Dev) : Dev :=
  { d.modPort p (reported i m d.us (d.port p)) with tb := takeTemp p i m.temp d.us (d.modPort p (reported i m d.us (d.port p))).tb }

theorem reportBase_tb (p : PortId) (i : Idx) (m : ReportMsg) (d : Dev) : (reportBase p i m d).tb = takeTemp p i m.temp d.us d.tb := by
  unfold reportBase
  rw [modPort_tb]

theorem reportBase_port (p : PortId) (i : Idx) (m : ReportMsg) (d : Dev) :
    (reportBase p i m d).port p = reported i m d.us (d.port p) (d.port p) := by
  unfold reportBase
  rw [port_setTb, modPort_port]

theorem onReport_eq (p : PortId) (i : Idx) (m : ReportMsg) (stepMa : Nat) (d : Dev) :
    onReport p i m stepMa d = relieve (calProgress p (calReport p i m stepMa (reportBase p i m d))) := rfl

theorem reportCal_field {β : Type} (g : Port → β) (he : ∀ q x, g { q with emeter := x } = g q) (i : Idx) (a b : Bool) (q : Port) :
    g (reportCal i a b q) = g q := by
  unfold reportCal
  split
  · exact he _ _
  · rfl

theorem reported_gate (i : Idx) (m : ReportMsg) (now : Nat) (q0 q : Port) : (reported i m now q0 q).gate = q.gate := by
  unfold reported
  dsimp only
  split <;> exact reportCal_field Port.gate (fun _ _ => rfl) _ _ _ _

/-- A low voltage under a READY contract limits ADMIT to 95 % of what it is (R300). -/
theorem reported_limit {i : Idx} {m : ReportMsg} {now : Nat} {q : Port} (hready : (contractOf q i.toNat).state = 2) (hlow : m.lowv = true) :
    (reported i m now q q).drp.limit = some (capBy (admitSum q * 95 / 100) q.drp.limit) := by
  unfold reported
  dsimp only
  rw [if_pos (by simp [hready, reportsLow, hlow])]
  have hdrp := reportCal_field Port.drp (fun _ _ => rfl) i (rosterOf q i.toNat).lastCount.isSome (decide ((contractOf q i.toNat).state = 2))
    (setRoster i.toNat (reportRecord m (contractOf q i.toNat) now (rosterOf q i.toNat)) q)
  have hadmit := reportCal_field admitSum (fun _ _ => rfl) i (rosterOf q i.toNat).lastCount.isSome (decide ((contractOf q i.toNat).state = 2))
    (setRoster i.toNat (reportRecord m (contractOf q i.toNat) now (rosterOf q i.toNat)) q)
  simp only [lowLimit, hdrp, hadmit]
  rfl

theorem tb_of_body {a b : Dev} (h : body a = body b) : a.tb = b.tb := (congrArg Dev.tb h :)
theorem gang_of_body {a b : Dev} (h : body a = body b) : a.gang = b.gang := (congrArg Dev.gang h :)

theorem relieve_tb (d : Dev) : (relieve d).tb = d.tb := tb_of_body (relieve_body d)
theorem relieve_gang (d : Dev) : (relieve d).gang = d.gang := gang_of_body (relieve_body d)

/-- What an accepted REPORT leaves: the temperatures ranked, the path as it was, the droop responder as its record leaves it. -/
theorem onReport_port (p : PortId) (i : Idx) (m : ReportMsg) (stepMa : Nat) (d : Dev) :
    (onReport p i m stepMa d).tb = takeTemp p i m.temp d.us d.tb
    ∧ ((onReport p i m stepMa d).port p).gate = (d.port p).gate
    ∧ ((onReport p i m stepMa d).port p).drp = (reported i m d.us (d.port p) (d.port p)).drp := by
  have hsteady : steady (calProgress p (calReport p i m stepMa (reportBase p i m d))) = steady (reportBase p i m d) := by
    rw [calProgress_steady, calReport_steady]
  rw [onReport_eq]
  refine ⟨?_, ?_, ?_⟩
  · rw [relieve_tb, tb_of_steady hsteady, reportBase_tb]
  · rw [relieve_gate, gate_of_steady hsteady p, reportBase_port, reported_gate]
  · rw [relieve_drp, drp_of_steady hsteady p, reportBase_port]

/-- The REPORT POLLs of a pulse leave what the line plans. -/
theorem sendPoll_report_plan (p r : PortId) (i : Idx) (d : Dev) : Port.plan ((sendPoll p 2 i d).port r) = Port.plan (d.port r) := by
  rw [sendPoll_eq, sendTo_plan]
  exact plan_modPort p r (pollNoted 2 i d.us) (fun _ => rfl) d

theorem sendPoll_other (p : PortId) (kind : BitVec 2) (i : Idx) (d : Dev) : (sendPoll p kind i d).port p.other = d.port p.other := by
  rw [sendPoll_eq, sendTo_other, modPort_port_other]

/-- The port of a pulse before its POLLs: the slot is taken, the broadcast sent (R286). -/
def pulsed (i : Idx) (stepMa dur k : Nat) (s : Slot) (now : Nat) (cid : Byte) (q : Port) : Port :=
  let q1 := takeSlot k s (setRoster i.toNat { rosterOf q i.toNat with calDue := false, calAt := now } q)
  broadcast 0x16 0 (payCal ⟨i, cid, BitVec.ofNat 8 dur, sat16 stepMa⟩) { q1 with line := { q1.line with
    cal := some (i, cid, stepMa, none), calSlot := some (BitVec.ofNat 7 k), calId := cid + 1, pulses := q.line.pulses + 1 } }

theorem sendPulse_eq (p : PortId) (i : Idx) (stepMa dur k : Nat) (d : Dev) :
    sendPulse p i stepMa dur k d = foldDev (fun j d => sendPoll p 2 j d) (i :: calOthers (d.port p) i)
      (d.modPort p (pulsed i stepMa dur k { state := 1, mtype := 0x16, idx := some i, since := d.us, issue := (d.port p).issue } d.us
        (d.port p).line.calId)) := rfl

theorem sendPulse_fields (p : PortId) (i : Idx) (stepMa dur k : Nat) (d : Dev) :
    let e := sendPulse p i stepMa dur k d
    (e.port p).line.cal = some (i, (d.port p).line.calId, stepMa, none)
    ∧ (e.port p).line.calSlot = some (BitVec.ofNat 7 k) ∧ (e.port p).line.calId = (d.port p).line.calId + 1
    ∧ (e.port p).line.pulses = (d.port p).line.pulses + 1 ∧ e.port p.other = d.port p.other := by
  rw [sendPulse_eq]
  have hplan := plan_foldDev p (fun j d => sendPoll p 2 j d) (fun j e => sendPoll_report_plan p p j e) (i :: calOthers (d.port p) i)
    (d.modPort p (pulsed i stepMa dur k { state := 1, mtype := 0x16, idx := some i, since := d.us, issue := (d.port p).issue } d.us
      (d.port p).line.calId))
  rw [modPort_port] at hplan
  have hline := hplan.trans (broadcast_plan 0x16 0 _ _)
  refine ⟨(congrArg (fun x : Line × Levels => x.1.cal) hline :), (congrArg (fun x : Line × Levels => x.1.calSlot) hline :),
    (congrArg (fun x : Line × Levels => x.1.calId) hline :), (congrArg (fun x : Line × Levels => x.1.pulses) hline :), ?_⟩
  rw [foldDev_port p.other _ (fun j e => sendPoll_other p 2 j e), modPort_port_other]

/-- Settles O25: an accepted REPORT by what its stages leave, the pulse by its slot and its count, the ends by their times (the ranking
is that of `rankReports`). -/
theorem reportsAndCalibration : Obligations.ReportsAndCalibration := by
  unfold Obligations.ReportsAndCalibration
  intro s p i
  refine ⟨fun h m stepMa ⟨hhead, hnew⟩ => ?report, fun stepMa dur k hfree hmay => ?pulse, fun t ht hend => ?ceiling, rfl⟩
  case report =>
    rw [leads_onDev (show exec (.report p i h m stepMa) s = execReport p i h m stepMa s from rfl), fromEndpoint_heard hhead]
    simp only [hnew, Bool.false_eq_true, if_false]
    have hack := ackFrame_steady p i h s.dev
    have hcon : (((ackFrame p i h s.dev).port p).contract) = (s.dev.port p).contract :=
      ackFrame_field Port.contract (fun _ _ => rfl) (fun _ _ => rfl) _ _ _ _
    obtain ⟨htb, hgate, hdrp⟩ := onReport_port p i m stepMa (ackFrame p i h s.dev)
    refine ⟨?_, ?_, fun hready hlow => ?_⟩
    · rw [htb, us_of_steady hack, tb_of_steady hack]
    · rw [hgate, gate_of_steady hack p]
    · rw [hdrp, reported_limit (by rw [contractOf_congr hcon]; exact hready) hlow, drp_of_steady hack p]
      simp only [admitSum, contracts, hcon]
  case pulse =>
    rw [leads_onDev (show exec (.calPulse p i stepMa dur) s = execCalPulse p i stepMa dur s from rfl)]
    simp only [hfree, hmay, guardDev_true]
    exact sendPulse_fields p i stepMa dur k s.dev
  case ceiling =>
    refine congrArg (fun d => Host.Outcome.next { s with dev := d }) (modPort_congr s.dev p _ _ ?_)
    simp only [ht, if_pos hend]

end Sys2Proof.Laws
end

section
/-! A REQUEST with its slot (R180 to R182, R267) and a pass of the allocator (R269 to R279, R330). -/

namespace Sys2Proof.Laws

open Sys2Proof Machine

/-! ## A REQUEST (R180 to R182, R267, R269) -/

theorem sent_of_line {x : TxItem} {a b : Port} (h : a.line = b.line) (hb : Sent x b) : Sent x a := by
  simpa only [Sent, h] using hb

theorem dropOlder_field {β : Type} (g : Port → β) (hp : ∀ q x, g { q with pend := x } = g q) (i : Idx) (r : RequestMsg) (q : Port) :
    g (dropOlder i r q) = g q := by
  unfold dropOlder
  split
  · split
    · rfl
    · exact hp _ _
  · rfl

theorem closeSlot_field {β : Type} (g : Port → β) (hs : ∀ q x b, g { q with slots := x, sig := b } = g q) (k : Nat) (q : Port) :
    g (closeSlot k q) = g q := by
  unfold closeSlot
  split
  · exact hs _ _ _
  · rfl

/-- The device of a REQUEST that has its slot: acknowledged on a free exchange, the slot taken. -/
def slotTaken (p : PortId) (i : Idx) (h : FrameTag) (r : RequestMsg) (k : Nat) (s : Slot) (d : Dev) : Dev :=
  (((d.modPort p (acked i h d.us)).modPort p (dropOlder i r)).modPort p (takeSlot k s))

theorem slotTaken_port (p : PortId) (i : Idx) (h : FrameTag) (r : RequestMsg) (k : Nat) (s : Slot) (d : Dev) :
    (slotTaken p i h r k s d).port p = takeSlot k s (dropOlder i r (acked i h d.us (d.port p))) := by
  unfold slotTaken
  rw [modPort_port, modPort_port, modPort_port]

/-- What the slot's REQUEST keeps of its port. -/
theorem slotTaken_field {β : Type} (g : Port → β) (hl : ∀ q l, g { q with line := l } = g q) (ho : ∀ q x, g { q with roster := x } = g q)
    (hp : ∀ q x, g { q with pend := x } = g q) (hs : ∀ q x b n, g { q with slots := x, sig := b, issue := n } = g q)
    (p : PortId) (i : Idx) (h : FrameTag) (r : RequestMsg) (k : Nat) (s : Slot) (d : Dev) :
    g ((slotTaken p i h r k s d).port p) = g (d.port p) := by
  rw [slotTaken_port]
  refine (hs (dropOlder i r (acked i h d.us (d.port p))) _ _ _).trans ?_
  rw [dropOlder_field g hp, acked_field g hl ho]

theorem slotTaken_line (p : PortId) (i : Idx) (h : FrameTag) (r : RequestMsg) (k : Nat) (s : Slot) (d : Dev) :
    ((slotTaken p i h r k s d).port p).line = (acked i h d.us (d.port p)).line := by
  rw [slotTaken_port]
  exact dropOlder_field Port.line (fun _ _ => rfl) i r _

theorem acked_plan (i : Idx) (h : FrameTag) (now : Nat) (q : Port) :
    (acked i h now q).line.first = q.line.first ∧ (acked i h now q).line.window = q.line.window := by
  unfold acked answerShort emit
  split <;> exact ⟨rfl, rfl⟩

theorem slotTaken_out {p : PortId} {i : Idx} {h : FrameTag} {r : RequestMsg} {k : Nat} {s : Slot} {d : Dev}
    (hout : (d.port p).line.out = []) : ((slotTaken p i h r k s d).port p).line.out = [] := by
  rw [slotTaken_line, acked_out, hout]

theorem slotTaken_sent (p : PortId) (i : Idx) (h : FrameTag) (r : RequestMsg) (k : Nat) (s : Slot) (d : Dev) :
    Sent (.short false h.seq) ((slotTaken p i h r k s d).port p) :=
  sent_of_line (slotTaken_line p i h r k s d) (emit_sent _ _)

theorem slotTaken_txHold (p : PortId) (i : Idx) (h : FrameTag) (r : RequestMsg) (k : Nat) (s : Slot) (d : Dev) :
    txHold ((slotTaken p i h r k s d).port p) = txHold (d.port p) := by
  obtain ⟨hfirst, hwindow⟩ := acked_plan i h d.us (d.port p)
  have hlev := slotTaken_field Port.lev (fun _ _ => rfl) (fun _ _ => rfl) (fun _ _ => rfl) (fun _ _ _ _ => rfl) p i h r k s d
  have hdrp := slotTaken_field Port.drp (fun _ _ => rfl) (fun _ _ => rfl) (fun _ _ => rfl) (fun _ _ _ _ => rfl) p i h r k s d
  simp only [txHold, slotTaken_line, hfirst, hwindow, hlev, hdrp]

/-- The slot that a REQUEST takes. -/
def requestSlotOf (i : Idx) (r : RequestMsg) (now arrival : Nat) (issue : Half) : Slot :=
  { state := 1, mtype := 0x08, idx := some i, req := r, since := now, arrival := arrival, issue := issue }

theorem onRequest_slot {p : PortId} {i : Idx} {h : FrameTag} {r : RequestMsg} {k : Nat} {d : Dev}
    (hnew : duplicateFrom (d.port p) i h = false) (hre : resyncs (d.port p) i r = false) (hslot : slotOf (d.port p) i = none)
    (hfree : freeSlot (d.port p) = some k) (hout : (d.port p).line.out = []) :
    ∃ a n, onRequest p i h r d =
      answerRequest p k (requestSlotOf i r d.us a n) i (slotTaken p i h r k (requestSlotOf i r d.us a n) d) := by
  have hk : freeSlot (((ackFrame p i h d).modPort p (dropOlder i r)).port p) = some k := by
    rw [modPort_port]
    refine Eq.trans ?_ hfree
    unfold freeSlot
    rw [dropOlder_field Port.slots (fun _ _ => rfl), ackFrame_field Port.slots (fun _ _ => rfl) (fun _ _ => rfl)]
  refine ⟨arrivalOf (d.port p) i r d.us, (((d.modPort p (acked i h d.us)).modPort p (dropOlder i r)).port p).issue, ?_⟩
  rw [ackFrame_idle hout] at hk
  unfold onRequest
  simp only [hnew, hre, hslot, ackFrame_idle hout, hk, Bool.false_eq_true, if_false, Bool.false_and, Option.isSome_none]
  rfl

theorem sendReject_contract (p : PortId) (i : Idx) (k : Nat) (reason : Nat) (d : Dev) :
    ((sendReject p i (some k) reason d).port p).contract = (d.port p).contract := by
  unfold sendReject
  dsimp only
  rw [postEndpoint_port, sendTo_contract, modPort_port, modPort_port]
  split <;> exact closeSlot_field Port.contract (fun _ _ _ => rfl) _ _

theorem sendReject_sent {x : TxItem} {p : PortId} {i : Idx} {k reason : Nat} {d : Dev} (h : Sent x (d.port p)) :
    Sent x ((sendReject p i (some k) reason d).port p) := by
  unfold sendReject
  dsimp only
  rw [postEndpoint_port]
  refine sent_sendTo ?_
  rw [modPort_port, modPort_port]
  refine sent_of_line ?_ h
  split <;> exact closeSlot_field Port.line (fun _ _ _ => rfl) _ _

theorem sendReject_asks (p : PortId) (i : Idx) (k reason : Nat) (d : Dev) : Asks .reject i ((sendReject p i (some k) reason d).port p) := by
  unfold sendReject
  dsimp only
  rw [postEndpoint_port]
  exact asks_sendTo _ _ _ _ _ _ _ _

theorem sendAccept_slots {p : PortId} {i : Idx} {k : Nat} {s : Slot} {l : Level} {spec : Bool} {d : Dev}
    (hout : (d.port p).line.out = []) :
    ∃ g, spFind ((sendAccept p i k s l spec d).port p).slots k = some { s with level := l, grant := g, accepted := true } := by
  unfold sendAccept
  dsimp only
  rw [sendTo_slots (by rw [modPort_port]; exact hout) (by simp), modPort_port]
  exact ⟨_, spFind_spPut _ _ _⟩

theorem sendAccept_sent {x : TxItem} {p : PortId} {i : Idx} {k : Nat} {s : Slot} {l : Level} {spec : Bool} {d : Dev}
    (h : Sent x (d.port p)) : Sent x ((sendAccept p i k s l spec d).port p) := by
  unfold sendAccept
  dsimp only
  refine sent_sendTo ?_
  rw [modPort_port]
  exact h

/-- A REQUEST with an increment: its slot is posted, undecided or granted (R181, R267). -/
theorem postRequest_port {p : PortId} {k : Nat} {s : Slot} {i : Idx} {d : Dev} (hout : (d.port p).line.out = []) :
    (∃ x, spFind ((postRequest p k s i d).port p).slots k = some x ∧ x.idx = s.idx ∧ x.req = s.req ∧ x.mtype = s.mtype
      ∧ x.posted = true ∧ (x.state = s.state ∨ x.state = 2))
    ∧ ((postRequest p k s i d).port p).contract = (d.port p).contract
    ∧ (∀ x, Sent x (d.port p) → Sent x ((postRequest p k s i d).port p))
    ∧ (postRequest p k s i d).port p.other = d.port p.other := by
  unfold postRequest
  dsimp only
  split
  · next l hl =>
    obtain ⟨g, hg⟩ := sendAccept_slots (p := p) (i := i) (k := k) (s := { s with state := 2, posted := true }) (l := l) (spec := true)
      (d := d.modPort p (dropPending i)) (by rw [modPort_port]; exact hout)
    refine ⟨⟨_, hg, rfl, rfl, rfl, rfl, Or.inr rfl⟩, ?_, fun x hx => sendAccept_sent ?_, ?_⟩
    · rw [sendAccept_contract, modPort_port]
      rfl
    · rw [modPort_port]
      exact hx
    · rw [sendAccept_other, modPort_port_other]
  · rw [modPort_port, modPort_port, modPort_port_other, modPort_port_other]
    exact ⟨⟨_, spFind_spPut _ _ _, rfl, rfl, rfl, rfl, Or.inl rfl⟩, rfl, fun _ hx => hx, rfl⟩

/-- Settles O20: the REQUEST's slot is taken on the acknowledged port, which keeps what the answer is decided by. -/
theorem requestAnswered : Obligations.RequestAnswered := by
  unfold Obligations.RequestAnswered
  intro s p i h r k ⟨hhead, hnew⟩ hre hslot hfree hout
  obtain ⟨a, n, hreq⟩ := onRequest_slot (d := s.dev) hnew hre hslot hfree hout
  have hcon := slotTaken_field Port.contract (fun _ _ => rfl) (fun _ _ => rfl) (fun _ _ => rfl) (fun _ _ _ _ => rfl) p i h r k
    (requestSlotOf i r s.dev.us a n) s.dev
  have hsent := slotTaken_sent p i h r k (requestSlotOf i r s.dev.us a n) s.dev
  refine ⟨fun hbad => ?malformed, fun hwell hlmax hswap hheld halloc htx => ?increment⟩
  all_goals
    rw [leads_onDev (show exec (.request p i h r) s = execRequest p i h r s from rfl), fromEndpoint_heard hhead, hreq]
  case malformed =>
    simp only [answerRequest, requestSlotOf, hbad, if_true]
    exact ⟨sendReject_sent hsent, sendReject_asks _ _ _ _ _, (sendReject_contract _ _ _ _ _).trans hcon⟩
  case increment =>
    have hctl := slotTaken_field (fun q => aboveLmax q r) (fun _ _ => rfl) (fun _ _ => rfl) (fun _ _ => rfl) (fun _ _ _ _ => rfl) p i h r k
      (requestSlotOf i r s.dev.us a n) s.dev
    have hrail := slotTaken_field Port.rail (fun _ _ => rfl) (fun _ _ => rfl) (fun _ _ => rfl) (fun _ _ _ _ => rfl) p i h r k
      (requestSlotOf i r s.dev.us a n) s.dev
    have hans : answerRequest p k (requestSlotOf i r s.dev.us a n) i (slotTaken p i h r k (requestSlotOf i r s.dev.us a n) s.dev)
        = postRequest p k (requestSlotOf i r s.dev.us a n) i (slotTaken p i h r k (requestSlotOf i r s.dev.us a n) s.dev) := by
      have halloc' : allocRuns (slotTaken p i h r k (requestSlotOf i r s.dev.us a n) s.dev) = true := by
        simpa only [allocRuns, slotTaken, modPort_tb, modPort_fwu, modPort_core] using halloc
      unfold answerRequest
      simp only [show (requestSlotOf i r s.dev.us a n).req = r from rfl, hwell, hctl.trans hlmax, contractOf_congr hcon, hheld, hrail, hswap,
        halloc', (slotTaken_txHold _ _ _ _ _ _ _).trans htx, Bool.false_eq_true, if_false, false_and, ne_eq, not_true_eq_false,
        Bool.not_true]
    obtain ⟨⟨x, hx, hidx, hxreq, hm, hposted, hst⟩, hc, hkeep, hother⟩ := postRequest_port (k := k) (s := requestSlotOf i r s.dev.us a n) (i := i)
      (slotTaken_out (i := i) (h := h) (r := r) (k := k) (s := requestSlotOf i r s.dev.us a n) hout)
    rw [hans]
    refine ⟨hkeep _ hsent, ⟨x, hx, hidx, hxreq, hm, hposted, hst⟩, hc.trans hcon, hother.trans ?_⟩
    unfold slotTaken
    rw [modPort_port_other, modPort_port_other, modPort_port_other]

/-! ## A pass of the allocator (R269 to R279, R330) -/

theorem passConfirm_steady (x : Candidate) (l : Level) (vs : List Idx) (d : Dev) : steady (passConfirm x l vs d) = steady d := by
  unfold passConfirm
  dsimp only
  split
  · exact confirmSlot_steady _ _ _ _ _ _
  · split
    · rfl
    · rw [confirmSlot_steady, steady_modPort]
      exact fun q => takeSlot_steady _ _ q

theorem passFail_steady (x : Candidate) (v : Verdict) (d : Dev) : steady (passFail x v d) = steady d := by
  have hcause (i : Idx) (a b : Nat) : steady (d.modPort x.p (noteCause i a b)) = steady d := steady_modPort _ _ _ fun _ => rfl
  unfold passFail
  split
  · split
    · exact withdrawGrant_steady _ _ _ _
    · split
      · exact sendReject_steady _ _ _ _ _
      · exact sendWait_steady _ _ _ _ _ _ _ _
      · rfl
  · split
    · exact hcause _ _ _
    · exact hcause _ _ _
    · rfl

theorem passOne_steady (st : PassState) (x : Candidate) : steady (passOne st x).1 = steady st.1 := by
  unfold passOne
  dsimp only
  split
  · exact passConfirm_steady _ _ _ _
  · split
    · next vs _ =>
      have hout : steady (foldDev (fun i d => withdrawContract 3 x.p i d) vs st.1) = steady st.1 :=
        steady_foldDev _ (fun i e => withdrawContract_steady _ _ _ _) _ _
      split
      · exact (passConfirm_steady _ _ _ _).trans hout
      · exact hout
    · exact passFail_steady _ _ _

theorem passes_steady (l : List Candidate) (st : PassState) : steady (l.foldl passOne st).1 = steady st.1 := by
  induction l generalizing st with
  | nil => rfl
  | cons x t ih => rw [List.foldl_cons, ih, passOne_steady]

theorem swapHolds_steady (p : PortId) (d : Dev) : steady (swapHolds p d) = steady d := by
  unfold swapHolds
  split
  · refine steady_foldDev _ (fun x e => ?_) _ _
    unfold swapStops
    repeat' split
    · exact withdrawGrant_steady _ _ _ _
    · exact sendWaitPlain_steady _ _ _ _ _
    all_goals rfl
  · rfl

theorem raiseAwaiting_steady (p : PortId) (d : Dev) : steady (raiseAwaiting p d) = steady d := by
  unfold raiseAwaiting
  refine steady_modPort _ _ _ fun q => ?_
  rw [beginStep_steady]
  refine portFoldl_field Port.steady _ (fun q x => ?_) _ _
  split
  · exact raiseTgt_steady _ _ _
  · rfl

theorem applyShare_fields (d : Dev) :
    (applyShare d).tb = d.tb ∧ (applyShare d).gang = { d.gang with share := d.gang.shareNext.or d.gang.share, shareNext := none }
    ∧ ∀ p, Port.still ((applyShare d).port p) = Port.still (d.port p) := by
  unfold applyShare
  split
  · next v hv =>
    rw [relieve_tb, relieve_gang]
    refine ⟨rfl, by rw [hv]; rfl, fun p => (relieve_still p _).trans ?_⟩
    cases p <;> rfl
  · next hv =>
    refine ⟨rfl, ?_, fun p => rfl⟩
    rw [hv, Option.none_or, ← hv]

/-- What a pass leaves of the tables, the gang and each port (R269, R330). -/
theorem allocatorPass_fields (d : Dev) :
    (allocatorPass d).tb = { d.tb with passAt := d.us }
    ∧ (allocatorPass d).gang = { d.gang with share := d.gang.shareNext.or d.gang.share, shareNext := none }
    ∧ ∀ p, Port.still ((allocatorPass d).port p) = Port.still (d.port p) := by
  have hpass (e : Dev) : steady (raiseAwaiting .p1 (raiseAwaiting .p0 ((((candidates e).foldl passOne (e, [])).1).bothPorts swapHolds)))
      = steady e := by
    rw [raiseAwaiting_steady, raiseAwaiting_steady]
    exact (swapHolds_steady _ _).trans ((swapHolds_steady _ _).trans (passes_steady _ _))
  obtain ⟨htb, hgang, hport⟩ := applyShare_fields { d with
    tb := { d.tb with passAt := d.us }
    fwu := { d.fwu with passLate := d.fwu.passLate || decide (d.tb.passAt + 8200 < d.us) } }
  unfold allocatorPass
  dsimp only
  refine ⟨?_, ?_, fun p => ?_⟩
  · rw [relieve_tb, tb_of_steady (hpass _), htb]
  · rw [relieve_gang, gang_of_steady (hpass _), hgang]
  · rw [relieve_still, still_of_steady (hpass _) p, hport]
    cases p <;> rfl

/-- Settles O23: every decision of a pass leaves the tables, the gang and what traffic leaves alone in each port; the pass itself writes
its time and takes the share. Its time stands at the low bound of 4 ms (assumption 3, the model's choice). -/
theorem allocatorPasses : Obligations.AllocatorPasses := by
  unfold Obligations.AllocatorPasses
  intro s hrun halloc hdue
  rw [leads_onDev (show exec .allocatorPass s = execAllocatorPass s from rfl)]
  simp only [hrun, halloc, hdue, decide_true, Bool.and_self, guardDev_true]
  obtain ⟨htb, hgang, hport⟩ := allocatorPass_fields s.dev
  exact ⟨htb, hgang, fun p => ⟨(congrArg Port.gate (hport p) :), (congrArg Port.role (hport p) :), (congrArg Port.ctl (hport p) :),
    (congrArg Port.grd (hport p) :)⟩⟩

end Sys2Proof.Laws
end

section
/-! The peer gap and the join (Table 10-1, R225 to R228). -/

namespace Sys2Proof.Laws

open Sys2Proof Machine

/-! ## The exchanges of the peer gap (R228) -/

/-- The port from which a frame of the peer gap is sent: its SEQ has advanced. -/
def peerSeq (q : Port) : Port :=
  if q.master then { q with line := { q.line with bseq := q.line.bseq + 1 } } else { q with ring := { q.ring with pseq := q.ring.pseq + 1 } }

/-- The frame that a feeder sends in the peer gap. -/
def peerFrameOf (kind : OutKind) (mt : BitVec 6) (payload : List Byte) (q : Port) : OutFrame :=
  if q.master then { kind := kind, idx := 0x3FE, frame := ⟨mt, 0x3FE, q.line.bseq, flBc, payload⟩ }
  else { kind := kind, idx := 0x3FE, frame := ⟨mt, 0x3FE, q.ring.pseq, flBc ||| flPeer, payload⟩ }

theorem sendPeer_port (p : PortId) (kind : OutKind) (mt : BitVec 6) (payload : List Byte) (d : Dev) :
    (sendPeer p kind mt payload d).port p = launchOn d.us { peerSeq (d.port p) with
      line := { (peerSeq (d.port p)).line with out := joinQueue (peerFrameOf kind mt payload (d.port p)) (d.port p).line.out } } := by
  unfold sendPeer peerSeq peerFrameOf
  dsimp only
  split <;> (rw [enqueue_port, modPort_port, modPort_us])

theorem peerSeq_line (q : Port) : (peerSeq q).line.due = q.line.due ∧ (peerSeq q).line.tx = q.line.tx ∧ (peerSeq q).line.later = q.line.later
    ∧ (peerSeq q).line.out = q.line.out := by
  unfold peerSeq
  split <;> exact ⟨rfl, rfl, rfl, rfl⟩

theorem asks_sendPeer (p : PortId) (kind : OutKind) (mt : BitVec 6) (payload : List Byte) (d : Dev) :
    Asks kind 0x3FE ((sendPeer p kind mt payload d).port p) := by
  rw [sendPeer_port]
  refine asks_launchOn ⟨peerFrameOf kind mt payload (d.port p), (mem_insertBy _ _ _ _).2 (Or.inl rfl), ?_⟩
  unfold peerFrameOf
  split <;> exact ⟨rfl, rfl⟩

theorem sent_sendPeer {x : TxItem} {p : PortId} {kind : OutKind} {mt : BitVec 6} {payload : List Byte} {d : Dev} (h : Sent x (d.port p)) :
    Sent x ((sendPeer p kind mt payload d).port p) := by
  rw [sendPeer_port]
  refine sent_launchOn ?_
  obtain ⟨-, htx, hlater, -⟩ := peerSeq_line (d.port p)
  simpa only [Sent, htx, hlater] using h

/-- A frame of the peer gap changes the line, the slots, and the SEQ and the gap of the ring alone. -/
theorem sendPeer_field {β : Type} (g : Port → β) (hl : ∀ q l, g { q with line := l } = g q)
    (hr : ∀ q n m, g { q with ring := { q.ring with gapDue := n, pseq := m } } = g q)
    (hs : ∀ q sl b, g { q with slots := sl, sig := b } = g q) (p : PortId) (kind : OutKind) (mt : BitVec 6) (payload : List Byte) (d : Dev) :
    g ((sendPeer p kind mt payload d).port p) = g (d.port p) := by
  rw [sendPeer_port, launchOn_field g hl (fun q n => hr q n q.ring.pseq) hs, hl]
  unfold peerSeq
  split
  · exact hl _ _
  · exact hr (d.port p) (d.port p).ring.gapDue _

theorem launchOn_gapUsed {now : Nat} {q : Port} (h : q.ring.gapDue = q.line.due) : (launchOn now q).ring.gapDue = q.line.due := by
  have hemit (x : TxItem) (q : Port) : (emit x q).ring = q.ring := emit_field Port.ring (fun _ _ => rfl) x q
  have hfree (o : OutFrame) (q : Port) : (freeEnrolSlot o q).ring = q.ring := by
    unfold freeEnrolSlot
    split <;> rfl
  unfold launchOn
  split
  · exact h
  · split
    · exact h
    · dsimp only
      rw [hemit, hfree]
      dsimp only
      split
      · rfl
      · exact h

theorem sendPeer_gapUsed {p : PortId} {kind : OutKind} {mt : BitVec 6} {payload : List Byte} {d : Dev}
    (h : (d.port p).ring.gapDue = (d.port p).line.due) : ((sendPeer p kind mt payload d).port p).ring.gapDue = (d.port p).line.due := by
  have hseq : (peerSeq (d.port p)).ring.gapDue = (d.port p).ring.gapDue := by
    unfold peerSeq
    split <;> rfl
  obtain ⟨hdue, -, -, -⟩ := peerSeq_line (d.port p)
  rw [sendPeer_port]
  refine Eq.trans (launchOn_gapUsed ?_) hdue
  exact hseq.trans (h.trans hdue.symm)

theorem sendHello_port (p : PortId) (d : Dev) :
    Asks .peerHello 0x3FE ((sendHello p d).port p) ∧ ((sendHello p d).port p).ring.helloDue = false
    ∧ ((sendHello p d).port p).ring.gapDue = (d.port p).line.due ∧ (sendHello p d).port p.other = d.port p.other := by
  unfold sendHello
  refine ⟨asks_sendPeer _ _ _ _ _, ?_, ?_, ?_⟩
  · rw [sendPeer_field (fun q => q.ring.helloDue) (fun _ _ => rfl) (fun _ _ _ => rfl) (fun _ _ _ => rfl), modPort_port]
    rfl
  · rw [sendPeer_gapUsed (by rw [modPort_port]; rfl), modPort_port]
    rfl
  · rw [sendPeer_other, modPort_port_other]

/-- What the exchange of a PEER_HELLO keeps of its port. -/
theorem sendHello_field {β : Type} (g : Port → β) (hl : ∀ q l, g { q with line := l } = g q)
    (hr : ∀ q n m b, g { q with ring := { q.ring with gapDue := n, pseq := m, helloDue := b } } = g q)
    (hs : ∀ q sl b, g { q with slots := sl, sig := b } = g q) (p : PortId) (d : Dev) : g ((sendHello p d).port p) = g (d.port p) := by
  unfold sendHello
  rw [sendPeer_field g hl (fun q n m => hr q n m q.ring.helloDue) hs, modPort_port]
  exact hr (d.port p) _ (d.port p).ring.pseq _

theorem sent_sendHello {x : TxItem} {p : PortId} {d : Dev} (h : Sent x (d.port p)) : Sent x ((sendHello p d).port p) := by
  unfold sendHello
  refine sent_sendPeer ?_
  rw [modPort_port]
  exact h

/-- The hand-off that a PARK begins is noted in the ring alone (R337). -/
theorem beginHandOff_field {β : Type} (g : Port → β) (hr : ∀ q x, g { q with ring := { q.ring with handOff := x } } = g q) (p : PortId) (d : Dev) :
    g ((beginHandOff p d).port p) = g (d.port p) := by
  unfold beginHandOff
  split
  · split
    · rw [modPort_port]
      exact hr _ _
    · rfl
  · rfl

@[simp] theorem beginHandOff_other (p : PortId) (d : Dev) : (beginHandOff p d).port p.other = d.port p.other := by
  unfold beginHandOff
  repeat' split
  all_goals simp

theorem sendReport_port (p : PortId) (d : Dev) :
    Asks .peerReport 0x3FE ((sendReport p d).port p) ∧ ((sendReport p d).port p).ring.gapDue = (d.port p).line.due
    ∧ ((sendReport p d).port p).gate = (d.port p).gate ∧ (sendReport p d).port p.other = d.port p.other := by
  unfold sendReport
  refine ⟨asks_sendPeer _ _ _ _ _, ?_, ?_, ?_⟩
  · rw [sendPeer_gapUsed (by rw [modPort_port]; rfl), modPort_port]
    exact beginHandOff_field (fun q => q.line.due) (fun _ _ => rfl) p d
  · rw [sendPeer_field Port.gate (fun _ _ => rfl) (fun _ _ _ => rfl) (fun _ _ _ => rfl), modPort_port]
    exact beginHandOff_field Port.gate (fun _ _ => rfl) p d
  · rw [sendPeer_other, modPort_port_other, beginHandOff_other]

/-- Settles O26: in an unused gap the exchange is the first of the order of `gapExchange` that is due. -/
theorem peerGapCarriesOne : Obligations.PeerGapCarriesOne := by
  unfold Obligations.PeerGapCarriesOne
  intro s p hhears hout hreload hgap hquiet hidle hfresh
  have hopen : (peerHears (s.dev.port p) && gapFree (s.dev.port p) s.dev.us && !swapSilences (s.dev.port p).rail.swap) = true := by
    simp only [hhears, gapFree, hout, hreload, hgap, hidle, hquiet, List.all_nil, Option.isNone_none, Bool.and_self, Bool.not_false]
  refine ⟨fun hhello => ?_, fun hno hdecided hheld hpeer hparity => ?_⟩
  all_goals
    rw [leads_onDev (show exec (.peerGap p) s = execPeerGap p s from rfl)]
    simp only [hopen, guardDev_true]
  · simp only [gapExchange, hfresh, hhello, ne_eq, not_false_eq_true, decide_true, Bool.and_self, if_true]
    exact sendHello_port p s.dev
  · simp only [gapExchange, hfresh, hno, hdecided, hheld, hpeer, hparity, ne_eq, not_false_eq_true, decide_true, Bool.and_false, Bool.false_and,
      Bool.and_self, Bool.false_eq_true, if_false, if_true]
    exact sendReport_port p s.dev

/-! ## Joining (Table 10-1, R225 to R227) -/

/-- What the acknowledgement of a peer's frame keeps of its port. -/
theorem peerAck_field {β : Type} (g : Port → β) (hl : ∀ q l, g { q with line := l } = g q)
    (hr : ∀ q a b c, g { q with ring := { q.ring with seqRx := a, heardAt := b, gapDue := c } } = g q) (h : FrameTag) (now : Nat) (q : Port) :
    g (peerAck h now q) = g q := by
  unfold peerAck answerShort
  dsimp only
  rw [emit_field g hl]
  refine (hl _ _).trans ((hr _ _ _ _).trans ?_)
  split
  · exact hl _ _
  · rfl

theorem peerAck_sent (h : FrameTag) (now : Nat) (q : Port) : Sent (.short false h.seq) (peerAck h now q) := emit_sent _ _

theorem peerAck_line (h : FrameTag) (now : Nat) (q : Port) :
    (peerAck h now q).line.silent = q.line.silent ∧ (peerAck h now q).line.due = q.line.due := by
  unfold peerAck answerShort emit
  dsimp only
  split <;> split <;> exact ⟨rfl, rfl⟩

/-- A frame of the other feeder that is heard as new reaches its act. -/
theorem peerFrame_new {p : PortId} {h : FrameTag} {needsPeer : Bool} {act : Dev → Dev} {d : Dev} (hhears : peerHears (d.port p) = true)
    (hnew : peerDuplicate (d.port p) h = false) (hpeer : needsPeer = true → (d.port p).ring.peer = true) :
    peerFrame p h needsPeer act d = act d := by
  have hact : (needsPeer && !(d.port p).ring.peer) = false := by
    cases needsPeer with
    | false => rfl
    | true => simp [hpeer rfl]
  simp only [peerFrame, hhears, guardDev_true, hact, hnew, Bool.false_eq_true, if_false]

theorem postPeerFound_port (p : PortId) (d : Dev) :
    (postPeerFound p d).port p = setPevt eRing { d.port p with ring := { (d.port p).ring with peer := true, mism := false } } := by
  unfold postPeerFound
  rw [postPort_port, modPort_port]

theorem postPeerFound_other (p : PortId) (d : Dev) : (postPeerFound p d).port p.other = d.port p.other := by
  unfold postPeerFound
  rw [postPort_port, modPort_port_other]

/-- The head's answer to a PEER_HELLO while it is not joining itself. -/
theorem isHead_peerAck (h : FrameTag) (now : Nat) (q : Port) : (peerAck h now q).isHead = q.isHead := by
  obtain ⟨hsilent, -⟩ := peerAck_line h now q
  have hrole := peerAck_field Port.role (fun _ _ => rfl) (fun _ _ _ _ => rfl) h now q
  have hpeer := peerAck_field (fun q => q.ring.peer) (fun _ _ => rfl) (fun _ _ _ _ => rfl) h now q
  have hjoin := peerAck_field (fun q => q.ring.join) (fun _ _ => rfl) (fun _ _ _ _ => rfl) h now q
  have hatt := peerAck_field Port.att (fun _ _ => rfl) (fun _ _ _ _ => rfl) h now q
  have hmaster := peerAck_field Port.master (fun _ _ => rfl) (fun _ _ _ _ => rfl) h now q
  simp only [Port.isHead, hsilent, hrole, hpeer, hjoin, hatt, hmaster]

theorem joinFail_port (p : PortId) (now : Nat) (d : Dev) :
    let q := (mismatch p (d.modPort p fun q =>
        let o := openPath q
        { o with att := { o.att with state := .fault }
                 ring := { o.ring with peer := false, synced := false, join := .failed (now + 9900000) } })).port p
    q.gate = .opened ∧ q.att.state = .fault ∧ q.ring.peer = false ∧ q.ring.join = .failed (now + 9900000) ∧ q.ring.mism = true
      ∧ q.pevt.getLsbD eRing = true := by
  rw [mismatch_port, modPort_port]
  exact ⟨rfl, rfl, rfl, rfl, rfl, setPevt_same eRing (by decide) _⟩

/-- Settles O27: each step of the join by its record. That the failure of the trim clears RING.PEER is the model's choice (assumption 85),
and times stand at their low bound (assumption 3). -/
theorem ringJoins : Obligations.RingJoins := by
  unfold Obligations.RingJoins
  intro s p
  refine ⟨fun h m n t hhears hnew hpeer hjoin hver => ?joins, fun h m hhears hnew hpeer hjoin hhead => ?answers,
    fun t hjoin hpeer hmatch hdue hlatch hxfer => ?trim, fun why hfails => ?fail, fun t hjoin hdue hrole hatt => ?retry,
    fun t hjoin hpeer hdue => ?synced⟩
  case joins =>
    rw [leads_onDev (show exec (.peerHello p h m) s = execPeerHello p h m s from rfl), peerFrame_new hhears hnew (by simp)]
    have hpeer' := (peerAck_field (fun q => q.ring.peer) (fun _ _ => rfl) (fun _ _ _ _ => rfl) h s.dev.us (s.dev.port p)).trans hpeer
    have hjoin' := (peerAck_field (fun q => q.ring.join) (fun _ _ => rfl) (fun _ _ _ _ => rfl) h s.dev.us (s.dev.port p)).trans hjoin
    have hgate := peerAck_field Port.gate (fun _ _ => rfl) (fun _ _ _ _ => rfl) h s.dev.us (s.dev.port p)
    have hsent := peerAck_sent h s.dev.us (s.dev.port p)
    simp only [onHello, modPort_port, hpeer', hjoin', Bool.false_eq_true, if_false, noteHello, hver, ne_eq, not_true_eq_false, decide_false]
    simp only [joinerFindsPeer, postPeerFound_port, postPeerFound_other, modPort_port, modPort_port_other, modPort_us]
    exact ⟨hsent, rfl, rfl, rfl, rfl, rfl, rfl, setPevt_same eRing (by decide) _, hgate, trivial⟩
  case answers =>
    rw [leads_onDev (show exec (.peerHello p h m) s = execPeerHello p h m s from rfl), peerFrame_new hhears hnew (by simp)]
    have hpeer' := (peerAck_field (fun q => q.ring.peer) (fun _ _ => rfl) (fun _ _ _ _ => rfl) h s.dev.us (s.dev.port p)).trans hpeer
    have hjoin' := (peerAck_field (fun q => q.ring.join) (fun _ _ => rfl) (fun _ _ _ _ => rfl) h s.dev.us (s.dev.port p)).trans hjoin
    have hsent := peerAck_sent h s.dev.us (s.dev.port p)
    simp only [onHello, modPort_port, hpeer', hjoin', Bool.false_eq_true, if_false, isHead_peerAck, hhead, if_true]
    obtain ⟨hasks, -, -, hother⟩ := sendHello_port p ((s.dev.modPort p (peerAck h s.dev.us)).modPort p (noteHello m))
    refine ⟨sent_sendHello (by rw [modPort_port, modPort_port]; exact hsent), hasks, ?_, ?_, ?_⟩
    · rw [sendHello_field (fun q => q.ring.peerEui) (fun _ _ => rfl) (fun _ _ _ _ => rfl) (fun _ _ _ => rfl), modPort_port]
      rfl
    · rw [sendHello_field (fun q => q.ring.peerLmax) (fun _ _ => rfl) (fun _ _ _ _ => rfl) (fun _ _ _ => rfl), modPort_port]
      rfl
    · rw [hother, modPort_port_other, modPort_port_other]
  case trim =>
    rw [leads_onDev (show exec (.ringJoinTrim p) s = execRingJoinTrim p s from rfl)]
    simp only [modPort_port, modPort_port_other, hjoin, hpeer, hmatch, hdue, hlatch, hxfer, and_self, if_true]
    exact ⟨rfl, trivial, rfl, trivial⟩
  case fail =>
    rw [leads_onDev (show exec (.ringJoinFail p why) s = execRingJoinFail p why s from rfl)]
    simp only [hfails, guardDev_true]
    obtain ⟨hgate, hstate, hpeer, hjoin, hmism, hpevt⟩ := joinFail_port p s.dev.us s.dev
    exact ⟨hgate, hstate, hpeer, hjoin, hmism, hpevt, (mismatch_other _ _).trans (modPort_port_other _ _ _)⟩
  case retry =>
    rw [leads_onDev (show exec (.ringJoinRetry p) s = execRingJoinRetry p s from rfl)]
    simp only [modPort_port, modPort_port_other, hjoin, hdue, hrole, hatt, and_self, if_true]
  case synced =>
    refine congrArg (fun d => Host.Outcome.next { s with dev := d }) (modPort_congr s.dev p _ _ ?_)
    simp only [hjoin, hpeer, hdue, and_self, if_true]

end Sys2Proof.Laws
end

section
/-! PEER_REPORT and the follower's mirror (R227, R231, R234), and the loss of a peer (R157, R235 to R237). -/

namespace Sys2Proof.Laws

open Sys2Proof Machine

/-! ## PEER_REPORT (R231, R232, R234) -/

theorem applyTrim_field {β : Type} (g : Port → β)
    (h : ∀ q t c, g { q with ring := { q.ring with trim := t }, lev := { q.lev with code := c } } = g q) (t : Int) (q : Port) :
    g (applyTrim t q) = g q := by
  unfold applyTrim
  dsimp only
  cases q.cfg.xfer with
  | none =>
    dsimp only
    split
    · exact h q _ _
    · rfl
  | some x =>
    dsimp only
    split
    · exact h q _ _
    · rfl

theorem followTrim_field {β : Type} (g : Port → β)
    (h : ∀ q t c, g { q with ring := { q.ring with trim := t }, lev := { q.lev with code := c } } = g q) (p : PortId) (m : PeerReportMsg)
    (d : Dev) : g ((followTrim p m d).port p) = g (d.port p) := by
  unfold followTrim
  split
  · rw [modPort_port]
    exact applyTrim_field g h _ _
  · rfl

@[simp] theorem followTrim_other (p : PortId) (m : PeerReportMsg) (d : Dev) : (followTrim p m d).port p.other = d.port p.other := by
  unfold followTrim
  split <;> simp

/-- The port with a report taken (R231). -/
def reportNoted (m : PeerReportMsg) (q : Port) : Port :=
  { q with ring := { q.ring with report := some m, missed := 0, reportDue := q.line.due } }

theorem reportMismatch_eq {p : PortId} {m : PeerReportMsg} {d : Dev} (h : (d.port p).follower = true → levelsDiffer (d.port p) m = false) :
    reportMismatch p m d = if levelsDiffer (d.port p) m then mismatch p d else d := by
  unfold reportMismatch
  split
  · next hdiff =>
    rw [if_neg (fun hfol => by simp [h hfol] at hdiff)]
  · rfl

theorem handOffDone_none {p : PortId} {m : PeerReportMsg} {d : Dev} (h : (d.port p).ring.handOff = none) : handOffDone p m d = d := by
  simp [handOffDone, h]

theorem ring_of_relieve {β : Type} (g : Ring → β) (hg : ∀ r, g (Ring.steady r) = g r) (p : PortId) (d : Dev) :
    g ((relieve d).port p).ring = g (d.port p).ring := by
  rw [← hg, relieve_ring, hg]

/-- A report of a feeder that is to hand nothing off, and of a follower whose level agrees: it is noted, and a mismatch shows. -/
theorem onPeerReport_port {p : PortId} {m : PeerReportMsg} {d : Dev} (hand : (d.port p).ring.handOff = none)
    (hfol : (d.port p).follower = true → levelsDiffer (d.port p) m = false) :
    let e := onPeerReport p m d
    (e.port p).ring.report = some m ∧ (e.port p).ring.missed = 0 ∧ (e.port p).ring.reportDue = (d.port p).line.due
    ∧ (e.port p).gate = (d.port p).gate
    ∧ (levelsDiffer (d.port p) m = true → (e.port p).ring.mism = true ∧ (e.port p).pevt.getLsbD eRing = true)
    ∧ OtherRole p d e := by
  have hnoted (β : Type) (g : Port → β) (h : ∀ q t c, g { q with ring := { q.ring with trim := t }, lev := { q.lev with code := c } } = g q) :
      g ((followTrim p m (d.modPort p (reportNoted m))).port p) = g (reportNoted m (d.port p)) := by
    rw [followTrim_field g h, modPort_port]
  have hdiff := hnoted _ (fun q => levelsDiffer q m) (fun _ _ _ => rfl)
  have hmis : reportMismatch p m (followTrim p m (d.modPort p (reportNoted m))) =
      if levelsDiffer (d.port p) m then mismatch p (followTrim p m (d.modPort p (reportNoted m)))
      else followTrim p m (d.modPort p (reportNoted m)) := by
    rw [reportMismatch_eq (fun h => hdiff.trans (hfol ((hnoted _ Port.follower (fun _ _ _ => rfl)).symm.trans h))), hdiff]
    rfl
  have hmism : ∀ (β : Type) (g : Port → β), (∀ q x, g (setPevt eRing { q with ring := { q.ring with mism := x } }) = g q) →
      (∀ q t c, g { q with ring := { q.ring with trim := t }, lev := { q.lev with code := c } } = g q) →
      g ((reportMismatch p m (followTrim p m (d.modPort p (reportNoted m)))).port p) = g (reportNoted m (d.port p)) := fun β g hm ht => by
    rw [hmis]
    split
    · rw [mismatch_port, hm, hnoted β g ht]
    · exact hnoted β g ht
  have hother : (reportMismatch p m (followTrim p m (d.modPort p (reportNoted m)))).port p.other = d.port p.other := by
    rw [hmis]
    split <;> simp
  have heq : onPeerReport p m d = relieve (reportMismatch p m (followTrim p m (d.modPort p (reportNoted m)))) := by
    show relieve (handOffDone p m (reportMismatch p m (followTrim p m (d.modPort p (reportNoted m))))) = _
    rw [handOffDone_none ((hmism _ (fun q => q.ring.handOff) (fun _ _ => rfl) (fun _ _ _ => rfl)).trans hand)]
  rw [heq]
  refine ⟨?_, ?_, ?_, ?_, fun hd => ⟨?_, ?_⟩, ?_, ?_⟩
  · exact (ring_of_relieve Ring.report (fun _ => rfl) _ _).trans (hmism _ (fun q => q.ring.report) (fun _ _ => rfl) (fun _ _ _ => rfl))
  · exact (ring_of_relieve Ring.missed (fun _ => rfl) _ _).trans (hmism _ (fun q => q.ring.missed) (fun _ _ => rfl) (fun _ _ _ => rfl))
  · exact (ring_of_relieve Ring.reportDue (fun _ => rfl) _ _).trans (hmism _ (fun q => q.ring.reportDue) (fun _ _ => rfl) (fun _ _ _ => rfl))
  · rw [relieve_gate]
    exact hmism _ Port.gate (fun _ _ => rfl) (fun _ _ _ => rfl)
  · rw [relieve_ring_mism, hmis, if_pos hd, mismatch_port]
    rfl
  · refine relieve_pevt ?_
    rw [hmis, if_pos hd, mismatch_port]
    exact setPevt_same eRing (by decide) _
  · rw [relieve_role, hother]
  · rw [relieve_ctl, hother]

theorem levelsDiffer_peerAck (h : FrameTag) (now : Nat) (m : PeerReportMsg) (q : Port) :
    levelsDiffer (peerAck h now q) m = levelsDiffer q m :=
  peerAck_field (fun q => levelsDiffer q m) (fun _ _ => rfl) (fun _ _ _ _ => rfl) h now q

theorem modPort_modPort (d : Dev) (p : PortId) (f g : Port → Port) : (d.modPort p f).modPort p g = d.modPort p fun q => g (f q) := by
  cases p <;> rfl

theorem mirrorDone_none {p : PortId} {f : Frame} {d : Dev} (h : f.mtype ≠ 0x11) : mirrorDone p f d = d := if_neg fun hx => h hx.1

/-- Settles O28: a report by what it notes and the mismatch it shows; a mirrored frame by the half of the mirror that its direction names
(the two halves are those of the model). -/
theorem ringReportsAndMirror : Obligations.RingReportsAndMirror := by
  unfold Obligations.RingReportsAndMirror
  intro s p
  refine ⟨fun h m hhears hpeer hnew hand hfol => ?report, fun f hmirror hline => ⟨fun hok hdir => ?endpoint, fun hok hdir hm => ?head,
    fun hbad => ?discards⟩⟩
  case report =>
    rw [leads_onDev (show exec (.peerReport p h m) s = execPeerReport p h m s from rfl), peerFrame_new hhears hnew fun _ => hpeer]
    have hack {β : Type} (g : Port → β) (hl : ∀ q l, g { q with line := l } = g q)
        (hr : ∀ q a b c, g { q with ring := { q.ring with seqRx := a, heardAt := b, gapDue := c } } = g q) :
        g ((s.dev.modPort p (peerAck h s.dev.us)).port p) = g (s.dev.port p) := by
      rw [modPort_port, peerAck_field g hl hr]
    have hdiff := hack (fun q => levelsDiffer q m) (fun _ _ => rfl) (fun _ _ _ _ => rfl)
    obtain ⟨hrep, hmissed, hdue, hgate, hmis, hrole, hctl⟩ := onPeerReport_port (m := m)
      (d := s.dev.modPort p (peerAck h s.dev.us))
      ((hack (fun q => q.ring.handOff) (fun _ _ => rfl) (fun _ _ _ _ => rfl)).trans hand)
      (fun hf => hdiff.trans (hfol ((hack Port.follower (fun _ _ => rfl) (fun _ _ _ _ => rfl)).symm.trans hf)))
    refine ⟨hrep, hmissed, hdue.trans ?_, hgate.trans (hack Port.gate (fun _ _ => rfl) (fun _ _ _ _ => rfl)),
      fun hd => hmis (hdiff.trans hd), hrole.trans ?_, hctl.trans ?_⟩
    · rw [modPort_port]
      exact (peerAck_line h s.dev.us (s.dev.port p)).2
    · rw [modPort_port_other]
    · rw [modPort_port_other]
  case endpoint =>
    show execRingFrameMirror p f s = _
    simp only [execRingFrameMirror, onDev_eq, hmirror, hline, decide_true, hok, Bool.and_self, Bool.not_false, guardDev_true, if_pos hdir,
      modPort_modPort]
    rfl
  case head =>
    show execRingFrameMirror p f s = _
    simp only [execRingFrameMirror, onDev_eq, hmirror, hline, decide_true, hok, Bool.and_self, Bool.not_false, guardDev_true,
      if_neg (not_not_intro hdir), mirrorDone_none hm, modPort_modPort]
    rfl
  case discards =>
    show execRingFrameMirror p f s = _
    simp only [execRingFrameMirror, onDev_eq, hbad, Bool.not_true, Bool.and_false, guardDev_false]

/-! ## Losing the peer (R157, R235 to R237) -/

theorem parkAdvance_none {d : Dev} (h : d.gl.park = none) : parkAdvance d = d := by
  simp only [parkAdvance, h]

theorem ringEnds_field {β : Type} (g : Port → β) (h : ∀ q l e, g { q with lev := l, pevt := e } = g q) (p : PortId) (d : Dev) :
    g ((ringEnds p d).port p) = g (d.port p) := by
  unfold ringEnds
  split
  · rw [modPort_port]
    refine (h _ _ ((levelEnds p d).port p).pevt).trans ?_
    unfold levelEnds
    split
    · rw [postPort_port, modPort_port]
      exact h (d.port p) _ _
    · rfl
  · rfl

@[simp] theorem ringEnds_other (p : PortId) (d : Dev) : (ringEnds p d).port p.other = d.port p.other := by
  unfold ringEnds
  split <;> simp

@[simp] theorem ringEnds_body (p : PortId) (d : Dev) : body (ringEnds p d) = body d := by
  unfold ringEnds
  split
  · rw [body_modPort, levelEnds_body]
  · rfl

@[simp] theorem nextPeerWindow_body (p : PortId) (d : Dev) : body (nextPeerWindow p d) = body d :=
  (body_modPort _ _ _).trans (body_of_steady (takeFree_steady d))

/-- A feeder whose peer is gone (R237). -/
def peerGone (q0 : Port) : Port :=
  let q := dropTrim q0
  setPevt eRing { q with
    ring := { q.ring with peer := false, report := none, synced := false, join := .none, joinAt := none, block := false
                          blocks := [], heldOpen := false, missed := 0, helloDue := false, polls := none }
    rail := { q.rail with swapReq := false, swap := .none, crossed := false, nakAt := none }
    grd := { q.grd with reclose := q.grd.reclose || (decide (q.gate = .opened) && !q.grd.latch && q.ring.handOff.isNone) } }

/-- What a feeder without PARK does as it loses its peer, before limits are relieved. -/
def peerLost (p : PortId) (d : Dev) : Dev := nextPeerWindow p (postPort 0x1A 1 p 0 false ((ringEnds p d).modPort p peerGone))

theorem losePeer_eq {p : PortId} {d : Dev} (h : d.gl.park = none) : losePeer p d = relieve (peerLost p d) := by
  show relieve (parkAdvance (peerLost p d)) = _
  rw [parkAdvance_none]
  refine (park_of_body ?_).trans h
  unfold peerLost
  rw [nextPeerWindow_body, body_of_steady (postPort_steady _ _ _ _ _ _), body_modPort, ringEnds_body]

/-- A field of a port that has lost its peer, but for its next window. -/
theorem peerLost_field {β : Type} (g : Port → β) (hw : ∀ q n, g { q with att := { q.att with windowAt := n } } = g q) (p : PortId) (d : Dev) :
    g ((peerLost p d).port p) = g (peerGone ((ringEnds p d).port p)) := by
  unfold peerLost
  rw [nextPeerWindow_field g hw, postPort_port, modPort_port]

theorem peerLost_other (p : PortId) (d : Dev) : (peerLost p d).port p.other = d.port p.other := by
  unfold peerLost
  rw [nextPeerWindow_other, postPort_port, modPort_port_other, ringEnds_other]

/-- What the loss of the peer leaves of a feeder's port (R237). -/
theorem losePeer_port {p : PortId} {d : Dev} (h : d.gl.park = none) :
    let e := losePeer p d
    (e.port p).ring.peer = false ∧ (e.port p).ring.report = none ∧ (e.port p).rail.swap = .none ∧ (e.port p).pevt.getLsbD eRing = true
    ∧ (e.port p).gate = (d.port p).gate ∧ (e.port p).role = (d.port p).role ∧ (e.port p).rail.sw = (d.port p).rail.sw
    ∧ OtherRole p d e := by
  rw [losePeer_eq h]
  refine ⟨?_, ?_, ?_, ?_, ?_, ?_, ?_, ?_, ?_⟩
  · rw [relieve_ring_peer]
    exact peerLost_field (fun q => q.ring.peer) (fun _ _ => rfl) p d
  · exact (ring_of_relieve Ring.report (fun _ => rfl) _ _).trans (peerLost_field (fun q => q.ring.report) (fun _ _ => rfl) p d)
  · rw [relieve_rail]
    exact peerLost_field (fun q => q.rail.swap) (fun _ _ => rfl) p d
  · refine relieve_pevt ((congrArg (fun e => e.getLsbD eRing) (peerLost_field Port.pevt (fun _ _ => rfl) p d)).trans ?_)
    exact setPevt_same eRing (by decide) _
  · rw [relieve_gate]
    exact (peerLost_field Port.gate (fun _ _ => rfl) p d).trans (ringEnds_field Port.gate (fun _ _ _ => rfl) p d)
  · rw [relieve_role]
    exact (peerLost_field Port.role (fun _ _ => rfl) p d).trans (ringEnds_field Port.role (fun _ _ _ => rfl) p d)
  · rw [relieve_rail]
    exact (peerLost_field (fun q => q.rail.sw) (fun _ _ => rfl) p d).trans (ringEnds_field (fun q => q.rail.sw) (fun _ _ _ => rfl) p d)
  · rw [relieve_role, peerLost_other]
  · rw [relieve_ctl, peerLost_other]

@[simp] theorem railOn_body (p : PortId) (d : Dev) : body (railOn p d) = body d := by
  unfold railOn
  dsimp only
  repeat' split
  · exact body_modPort _ _ _
  · rw [body_of_steady (postPort_steady _ _ _ _ _ _), body_modPort, body_modPort]
  · rfl

/-- The feeder of a ring that falls silent: its run is over, its path open, and it joins again (R157). -/
def yielded (q : Port) : Port :=
  let o := openPath q
  { o with rail := { o.rail with sw := if o.rail.en then .backup else .off }
           att := { o.att with state := .peerHead }
           ring := { o.ring with join := .hello 0 0, verBad := false } }

theorem yieldSegment_eq (p : PortId) (d : Dev) :
    yieldSegment p d = if decide ((d.port p).rail.sw = .on) then
        postPort 0x19 1 p 0 false (((abortRun 2 5 p d).modPort p yielded).modPort p (setPevt eRail))
      else (abortRun 2 5 p d).modPort p yielded := rfl

theorem yieldSegment_port (p : PortId) (d : Dev) (hpevt : (d.port p).pevt.getLsbD eLine = true) :
    let e := yieldSegment p d
    (e.port p).line.silent = (d.port p).line.silent ∧ (e.port p).pevt.getLsbD eLine = true ∧ (e.port p).gate = .opened
    ∧ (e.port p).ring.join = .hello 0 0 ∧ e.port p.other = d.port p.other := by
  have hsilent : ((abortRun 2 5 p d).port p).line.silent = (d.port p).line.silent :=
    (congrArg (fun q : Port => q.line.silent) (abortRun_base 2 5 p p d) :)
  have hp := abortRun_pevt (sa := 2) (w := 5) (p := p) hpevt
  have hyield (q : Port) : (yielded q).line.silent = q.line.silent ∧ (yielded q).pevt = q.pevt ∧ (yielded q).gate = .opened
      ∧ (yielded q).ring.join = .hello 0 0 := ⟨rfl, rfl, rfl, rfl⟩
  obtain ⟨h1, h2, h3, h4⟩ := hyield ((abortRun 2 5 p d).port p)
  rw [yieldSegment_eq]
  split
  · dsimp only
    rw [postPort_port, postPort_port, modPort_port, modPort_port, modPort_port_other, modPort_port_other, abortRun_other]
    refine ⟨h1.trans hsilent, ?_, h3, h4, rfl⟩
    rw [setPevt_pevt, h2, hp, Bool.true_or]
  · dsimp only
    rw [modPort_port, modPort_port_other, abortRun_other]
    exact ⟨h1.trans hsilent, by rw [h2, hp], h3, h4, rfl⟩

/-- Settles O29: the two losses of a peer are `losePeer`, after the rail of a takeover; a foreign beacon silences the head and, on a ring,
ends its run. -/
theorem ringPeerLost : Obligations.RingPeerLost := by
  unfold Obligations.RingPeerLost
  intro s p
  refine ⟨fun hrole hpeer hmaster hmissed hpark => ?lost, fun us hfol hsilent hpark => ?takeover, fun e hhead hlower => ?foreign⟩
  case lost =>
    rw [leads_onDev (show exec (.followerLost p) s = execFollowerLost p s from rfl)]
    simp only [hrole, hpeer, hmaster, hmissed, decide_true, Bool.and_self, guardDev_true]
    obtain ⟨h1, h2, h3, h4, h5, h6, -, h8⟩ := losePeer_port (p := p) hpark
    exact ⟨h1, h2, h3, h4, h5, h6.trans hrole, h8⟩
  case takeover =>
    have hgo : ((s.dev.port p).follower && (decide (1000 ≤ us) || masterSilent (s.dev.port p) s.dev.us)) = true := by
      simpa [hfol] using hsilent
    rw [leads_onDev (show exec (.followerTakeover p us) s = execFollowerTakeover p us s from rfl)]
    simp only [hgo, guardDev_true]
    have hpark' := (park_of_body ((railOn_body p _).trans (body_modPort s.dev p fun q =>
        { q with rail := { q.rail with swap := .none }, line := { q.line with due := nextDue s.dev.us q } }))).trans hpark
    obtain ⟨h1, -, -, h4, h5, -, h7, h8, h9⟩ := losePeer_port (p := p) hpark'
    refine ⟨fun hen => h7.trans (railOn_sw (by rw [modPort_port]; exact hen)), fun hen => h7.trans ?_, h1, h4, h5.trans ?_, h8.trans ?_, h9.trans ?_⟩
    · unfold railOn
      dsimp only
      rw [if_neg (by rw [modPort_port]; simp [hen]), modPort_port]
    · rw [railOn_field Port.gate (fun _ _ _ => rfl), modPort_port]
    · rw [railOn_other, modPort_port_other]
    · rw [railOn_other, modPort_port_other]
  case foreign =>
    rw [leads_onDev (show exec (.foreignBeacon p e) s = execForeignBeacon p e s from rfl)]
    simp only [hhead, hlower, Bool.not_false, Bool.and_self, guardDev_true]
    have hline : ((s.dev.modPort p fun q => notePLine { q with line := { q.line with silent := true } }).port p).pevt.getLsbD eLine = true := by
      rw [modPort_port]
      exact setPevt_same eLine (by decide) _
    split
    · next hen =>
      obtain ⟨h1, h2, h3, h4, h5⟩ := yieldSegment_port p _ hline
      refine ⟨h1.trans ?_, h2, fun _ => ⟨h3, h4⟩, fun hno => absurd hen (by simp [hno]), h5.trans (modPort_port_other _ _ _)⟩
      rw [modPort_port]
      rfl
    · next hen =>
      refine ⟨?_, hline, fun hyes => absurd hyes hen, fun _ => ?_, modPort_port_other _ _ _⟩
      · rw [modPort_port]
        rfl
      · rw [modPort_port]
        rfl

end Sys2Proof.Laws
end

section
/-! Rail swaps (R238 to R241) and PARK (R98, R99, R337). -/

namespace Sys2Proof.Laws

open Sys2Proof Machine

/-! ## Rail swaps (R238 to R241) -/

/-- A feeder whose swap is over without a change (R239). -/
def swapCleared (q : Port) : Port :=
  setPevt eRail { q with rail := { q.rail with swapReq := false, swap := .none, crossed := false, nakAt := none } }

theorem swapRefused_eq {p : PortId} {d : Dev} (h : d.gl.park = none) :
    swapRefused p d = postPort 0x19 2 p 0 false (d.modPort p swapCleared) := by
  show parkAdvance (postPort 0x19 2 p 0 false (d.modPort p swapCleared)) = _
  refine parkAdvance_none ((park_of_body ?_).trans h)
  rw [body_of_steady (postPort_steady _ _ _ _ _ _), body_modPort]

theorem swapRefused_port {p : PortId} {d : Dev} (h : d.gl.park = none) : (swapRefused p d).port p = swapCleared (d.port p) := by
  rw [swapRefused_eq h, postPort_port, modPort_port]

theorem swapRefused_other {p : PortId} {d : Dev} (h : d.gl.park = none) : (swapRefused p d).port p.other = d.port p.other := by
  rw [swapRefused_eq h, postPort_port, modPort_port_other]

theorem sendPeer_body (p : PortId) (kind : OutKind) (mt : BitVec 6) (payload : List Byte) (d : Dev) :
    body (sendPeer p kind mt payload d) = body d := body_of_steady (sendPeer_steady _ _ _ _ _)

theorem sendSwapAck_port (p : PortId) (refused : Bool) (d : Dev) :
    Asks (.swapAck refused) 0x3FE ((sendSwapAck p refused d).port p) ∧ ((sendSwapAck p refused d).port p).rail = (d.port p).rail
    ∧ (sendSwapAck p refused d).gl.park = d.gl.park ∧ (sendSwapAck p refused d).port p.other = d.port p.other := by
  unfold sendSwapAck
  refine ⟨asks_sendPeer _ _ _ _ _, ?_, park_of_body ?_, ?_⟩
  · rw [sendPeer_field Port.rail (fun _ _ => rfl) (fun _ _ _ => rfl) (fun _ _ _ => rfl), modPort_port]
    rfl
  · rw [sendPeer_body, body_modPort]
  · rw [sendPeer_other, modPort_port_other]

theorem sent_sendSwapAck {x : TxItem} {p : PortId} {refused : Bool} {d : Dev} (h : Sent x (d.port p)) :
    Sent x ((sendSwapAck p refused d).port p) := by
  unfold sendSwapAck
  refine sent_sendPeer ?_
  rw [modPort_port]
  exact h

theorem asks_of_line {k : OutKind} {i : Idx} {a b : Port} (h : a.line = b.line) (hb : Asks k i b) : Asks k i a := by
  simpa only [Asks, h] using hb

/-- The refusal of a swap that is asked for: the answer goes out, and the swap is over. -/
theorem swapAck_refused {p : PortId} {d : Dev} (h : d.gl.park = none) :
    let e := swapRefused p (sendSwapAck p true d)
    (e.port p).rail.swap = .none ∧ (e.port p).rail.swapReq = false ∧ Asks (.swapAck true) 0x3FE (e.port p)
    ∧ (e.port p).pevt.getLsbD eRail = true ∧ (∀ x, Sent x (d.port p) → Sent x (e.port p)) ∧ e.port p.other = d.port p.other := by
  obtain ⟨hasks, -, hpark, hother⟩ := sendSwapAck_port p true d
  dsimp only
  rw [swapRefused_port (hpark.trans h), swapRefused_other (hpark.trans h)]
  exact ⟨rfl, rfl, asks_of_line rfl hasks, setPevt_same eRail (by decide) _, fun x hx => sent_of_line rfl (sent_sendSwapAck hx), hother⟩

/-- The answer to a request (R238, R239): refused, held for free slots, or accepted. -/
theorem answerSwap_port {p : PortId} {takes : Bool} {d : Dev} (h : d.gl.park = none) :
    let e := answerSwap p takes d
    (swapRefusal (d.port p) takes = true → (e.port p).rail.swap = .none ∧ Asks (.swapAck true) 0x3FE (e.port p))
    ∧ (swapRefusal (d.port p) takes = false → takes = true → slotsFree (d.port p) = false → (e.port p).rail.swap = .held d.us)
    ∧ (swapRefusal (d.port p) takes = false → takes = false ∨ slotsFree (d.port p) = true →
        (e.port p).rail.swap = .accepted (!takes) ∧ Asks (.swapAck false) 0x3FE (e.port p))
    ∧ (∀ x, Sent x (d.port p) → Sent x (e.port p)) ∧ e.port p.other = d.port p.other := by
  obtain ⟨h1, -, h3, -, h5, h6⟩ := swapAck_refused (p := p) h
  obtain ⟨hasks, hrail, -, hother⟩ := sendSwapAck_port p false (d.modPort p fun q => { q with rail := { q.rail with swap := .accepted (!takes) } })
  unfold answerSwap
  dsimp only
  split
  · next href => exact ⟨fun _ => ⟨h1, h3⟩, fun hno => absurd href (by simp [hno]), fun hno => absurd href (by simp [hno]), h5, h6⟩
  · next href =>
    split
    · next hheld =>
      simp only [Bool.and_eq_true, Bool.not_eq_true'] at hheld
      rw [modPort_port, modPort_port_other]
      exact ⟨fun hyes => absurd hyes href, fun _ _ _ => rfl, fun _ hor => by simp [hheld.1, hheld.2] at hor, fun x hx => hx, rfl⟩
    · next hheld =>
      refine ⟨fun hyes => absurd hyes href, fun _ ht hf => absurd (by simp [ht, hf]) hheld, fun _ _ => ⟨?_, hasks⟩, fun x hx => ?_, ?_⟩
      · rw [hrail, modPort_port]
      · refine sent_sendSwapAck ?_
        rw [modPort_port]
        exact hx
      · rw [hother, modPort_port_other]

/-- A feeder whose swap is complete (Table 10-2 step 4a). -/
def swapDone (taker : Bool) (now : Nat) (q0 : Port) : Port :=
  let q := if taker then dropTrim q0 else q0
  setPevt eRail { q with
    rail := { q.rail with swap := .none, swapReq := false, sw := if taker then q.rail.sw else if q.rail.en then .backup else .off }
    ring := { q.ring with join := if taker then .none else .joined, missed := 0, heardAt := now } }

theorem swapCompletes_eq {taker : Bool} {p : PortId} {d : Dev} (h : d.gl.park = none) :
    relieve (parkAdvance (swapCompletes taker p d)) = relieve (postPort 0x19 (b2n !taker) p 0 false (d.modPort p (swapDone taker d.us))) := by
  refine congrArg relieve (parkAdvance_none ((park_of_body ?_).trans h))
  show body (postPort 0x19 (b2n !taker) p 0 false (d.modPort p (swapDone taker d.us))) = body d
  rw [body_of_steady (postPort_steady _ _ _ _ _ _), body_modPort]

/-- The end of a swap that is complete, on each side. -/
theorem swapCompletes_port {taker : Bool} {p : PortId} {d : Dev} (h : d.gl.park = none) :
    let e := relieve (parkAdvance (swapCompletes taker p d))
    (e.port p).rail = (swapDone taker d.us (d.port p)).rail ∧ (e.port p).ring.join = (if taker then .none else .joined)
    ∧ OtherRole p d e := by
  dsimp only
  rw [swapCompletes_eq h]
  refine ⟨?_, ?_, ?_, ?_⟩
  · rw [relieve_rail, postPort_port, modPort_port]
  · refine (ring_of_relieve Ring.join (fun _ => rfl) _ _).trans ?_
    rw [postPort_port, modPort_port]
    rfl
  · rw [relieve_role, postPort_port, modPort_port_other]
  · rw [relieve_ctl, postPort_port, modPort_port_other]

theorem startSwap_port (taker : Bool) (p : PortId) (d : Dev) :
    ((startSwap taker p d).port p).rail.swap = .running d.us taker
    ∧ ((startSwap taker p d).port p).rail.sw = (if taker && (d.port p).rail.en then .on else (d.port p).rail.sw)
    ∧ ((startSwap taker p d).port p).gate = (d.port p).gate ∧ (startSwap taker p d).port p.other = d.port p.other := by
  unfold startSwap
  rw [modPort_port, modPort_port_other]
  exact ⟨rfl, rfl, rfl, rfl⟩

/-- Settles O30: the request by its answer, the acknowledgement by the start or the end it brings, the end of a running swap by what it
conducted. Times stand at the low bound (assumption 3, the model's choice). -/
theorem railSwaps : Obligations.RailSwaps := by
  unfold Obligations.RailSwaps
  intro s p hpark
  have hack {β : Type} (g : Port → β) (hl : ∀ q l, g { q with line := l } = g q)
      (hr : ∀ q a b c, g { q with ring := { q.ring with seqRx := a, heardAt := b, gapDue := c } } = g q) (h : FrameTag) :
      g ((s.dev.modPort p (peerAck h s.dev.us)).port p) = g (s.dev.port p) := by
    rw [modPort_port, peerAck_field g hl hr]
  have hparkAck (h : FrameTag) : (s.dev.modPort p (peerAck h s.dev.us)).gl.park = none := by rw [modPort_gl]; exact hpark
  refine ⟨fun h e takes hhears hpeer hnew htakes hout hnak => ?request, fun h refused hhears hpeer hnew hawaits => ?ack,
    fun t hrun hdue hsw => ?backup, fun t taker c hrun hdue => ?ends, fun t hheld hdue => ?timeout⟩
  case request =>
    rw [leads_onDev (show exec (.railSwapReq p h e takes) s = execRailSwapReq p h e takes s from rfl), peerFrame_new hhears hnew fun _ => hpeer]
    simp only [onSwapReq, htakes, ne_eq, not_true_eq_false, if_false, hout, Bool.false_eq_true, hnak]
    rw [← htakes]
    have href := hack (fun q => swapRefusal q takes) (fun _ _ => rfl) (fun _ _ _ _ => rfl) h
    have hslots := hack slotsFree (fun _ _ => rfl) (fun _ _ _ _ => rfl) h
    obtain ⟨h1, h2, h3, h4, h5⟩ := answerSwap_port (p := p) (takes := takes) (hparkAck h)
    rw [href, hslots] at h2 h3
    rw [href] at h1
    rw [modPort_us] at h2
    refine ⟨h4 _ ?_, h1, h2, h3, h5.trans (modPort_port_other _ _ _)⟩
    rw [modPort_port]
    exact peerAck_sent h s.dev.us _
  case ack =>
    rw [leads_onDev (show exec (.railSwapAck p h refused) s = execRailSwapAck p h refused s from rfl), peerFrame_new hhears hnew fun _ => hpeer]
    have hgate := hack Port.gate (fun _ _ => rfl) (fun _ _ _ _ => rfl) h
    have hrail := hack Port.rail (fun _ _ => rfl) (fun _ _ _ _ => rfl) h
    have hmaster := hack Port.master (fun _ _ => rfl) (fun _ _ _ _ => rfl) h
    simp only [hawaits, if_true]
    cases refused with
    | true =>
      simp only [onSwapAck, if_true, swapRefused_port (hparkAck h), swapRefused_other (hparkAck h), Bool.true_eq_false, false_imp_iff, true_and,
        true_imp_iff]
      exact ⟨⟨rfl, rfl, setPevt_same eRail (by decide) _⟩, hgate, modPort_port_other _ _ _⟩
    | false =>
      obtain ⟨h1, h2, h3, h4⟩ := startSwap_port (!((s.dev.modPort p (peerAck h s.dev.us)).port p).master) p (s.dev.modPort p (peerAck h s.dev.us))
      rw [hmaster, modPort_us] at h1
      rw [hmaster, hrail] at h2
      rw [hmaster] at h3 h4
      simp only [onSwapAck, Bool.false_eq_true, if_false, false_imp_iff, true_and, true_imp_iff, hmaster, h1, h2, h3, hgate, h4,
        modPort_port_other, and_true]
      exact ⟨fun hm hen => by simp [hm, hen], fun hor => by rcases hor with hm | hen <;> simp_all⟩
  case backup =>
    refine congrArg (fun d => Host.Outcome.next { s with dev := d }) (modPort_congr s.dev p _ _ ?_)
    simp only [hrun, hdue, hsw, and_self, if_true]
  case ends =>
    rw [leads_onDev (show exec (.railSwapEnd p c) s = execRailSwapEnd p c s from rfl)]
    simp only [hrun, hdue, decide_true, guardDev_true]
    split
    · next hc =>
      have hparkAb : (s.dev.modPort p fun q =>
          { q with rail := { q.rail with sw := if q.rail.en then (if taker then .backup else .on) else .off } }).gl.park = none := by
        rw [modPort_gl]; exact hpark
      unfold swapAbandoned OtherRole
      rw [swapRefused_port hparkAb, swapRefused_other hparkAb, modPort_port, modPort_port_other]
      exact ⟨rfl, rfl, fun _ => rfl, fun hle => absurd hc (by omega), fun hle => absurd hc (by omega), rfl, rfl⟩
    · next hc =>
      obtain ⟨hr, hj, hother⟩ := swapCompletes_port (taker := taker) (p := p) hpark
      rw [hr, hj]
      refine ⟨rfl, rfl, fun hle => absurd hle hc, fun _ ht => ?_, fun _ ht => ?_, hother⟩
      · subst ht
        exact ⟨rfl, rfl⟩
      · subst ht
        exact ⟨rfl, rfl⟩
  case timeout =>
    rw [leads_onDev (show exec (.swapSlotTimeout p) s = execSwapSlotTimeout p s from rfl)]
    simp only [hheld, hdue, decide_true, guardDev_true]
    obtain ⟨h1, h2, h3, h4, -, h6⟩ := swapAck_refused (p := p) hpark
    exact ⟨h1, h2, h3, h4, h6⟩

/-! ## PARK (R98, R99, R337) -/

/-- What a port keeps once it has left its segment: the path open, and the role OFF where it was to go OFF. -/
def Vacated (p : PortId) (off : Prop) (d : Dev) : Prop := (d.port p).gate = .opened ∧ (off → (d.port p).role = .off)

theorem Vacated.congr {p : PortId} {off : Prop} {a b : Dev} (h : a.port p = b.port p) (hb : Vacated p off b) : Vacated p off a := by
  simpa only [Vacated, h] using hb

theorem shutFeed_other_gate (p : PortId) (d : Dev) : ((shutFeed p d).port p.other).gate = (d.port p.other).gate := by
  rw [shutFeed_eq]
  simp [other_ne p]

theorem shutDraw_other_gate (p : PortId) (d : Dev) : ((shutDraw p d).port p.other).gate = (d.port p.other).gate := by
  simp [shutDraw]

theorem leaveRole_other_gate (p : PortId) (d : Dev) : ((leaveRole p d).port p.other).gate = (d.port p.other).gate := by
  unfold leaveRole
  split
  · rw [relieve_gate, shutFeed_other_gate]
  · rw [relieve_gate, shutDraw_other_gate]
  · rfl

/-- A port that leaves its role keeps an open path open, its own and the other port's. -/
theorem leaveRole_vacated (r : PortId) {p : PortId} {off : Prop} {d : Dev} (h : Vacated p off d) : Vacated p off (leaveRole r d) := by
  obtain ⟨hgate, hrole⟩ := h
  by_cases hr : p = r
  · subst hr
    refine ⟨?_, fun _ => leaveRole_role p d⟩
    by_cases ho : (d.port p).role = .off
    · simpa only [leaveRole, ho] using hgate
    · exact leaveRole_gate ho
  · rw [eq_other_of_ne hr] at hgate hrole ⊢
    exact ⟨(leaveRole_other_gate r d).trans hgate, fun ho => (leaveRole_other_role r d).trans (hrole ho)⟩

theorem requestStore_port (d : Dev) (r : PortId) : (requestStore d).port r = d.port r := by
  unfold requestStore
  split
  · rfl
  · split
    · unfold beginStore
      dsimp only
      split <;> exact port_setKeep _ _ _
    · unfold storeFailed
      rw [postGlobal_port]
      exact port_congr rfl rfl r

theorem parkFinish_vacated {p : PortId} {off : Prop} {d : Dev} (h : Vacated p off d) : Vacated p off (parkFinish d) := by
  have hleft := leaveRole_vacated .p1 (leaveRole_vacated .p0 h)
  refine Vacated.congr ?_ hleft
  unfold parkFinish
  dsimp only
  rw [postGlobal_port]
  exact port_congr rfl rfl p

theorem parkStore_vacated {p : PortId} {off : Prop} {d : Dev} (h : Vacated p off d) : Vacated p off (parkStore d) := by
  have hstored : Vacated p off (requestStore d) := Vacated.congr (requestStore_port d p) h
  unfold parkStore
  split
  · exact h
  · dsimp only
    split
    · exact Vacated.congr (port_setGl _ _ _) hstored
    · exact parkFinish_vacated hstored

theorem parkFeeds_vacated {p : PortId} {off : Prop} {d : Dev} (h : Vacated p off d) : Vacated p off (parkFeeds d) := by
  have hside (r : PortId) {e : Dev} (he : Vacated p off e) : Vacated p off (if (e.port r).role = .feed then leaveRole r e else e) := by
    split
    · exact leaveRole_vacated r he
    · exact he
  exact hside .p1 (hside .p0 h)

theorem parkAfterHandOff_vacated {p : PortId} {off : Prop} {d : Dev} (h : Vacated p off d) : Vacated p off (parkAfterHandOff d) := by
  unfold parkAfterHandOff
  split
  · exact parkStore_vacated (Vacated.congr (port_setGl _ _ _) (parkFeeds_vacated h))
  · exact h

/-- PARK goes on, and opens no path again. -/
theorem parkAdvance_vacated {p : PortId} {off : Prop} {d : Dev} (h : Vacated p off d) : Vacated p off (parkAdvance d) := by
  unfold parkAdvance
  split
  · exact h
  · split
    · exact parkAfterHandOff_vacated (Vacated.congr (port_setGl _ _ _) h)
    · exact h
  · exact parkAfterHandOff_vacated h
  · exact parkStore_vacated h
  · exact h

/-- Step 3 takes each FEED port to OFF. -/
theorem parkFeeds_feed {p : PortId} {d : Dev} (h : (d.port p).role = .feed) : Vacated p True (parkFeeds d) := by
  have hfeed {r : PortId} {e : Dev} (he : (e.port r).role = .feed) : Vacated r True (leaveRole r e) :=
    ⟨leaveRole_gate (by rw [he]; decide), fun _ => leaveRole_role r e⟩
  show Vacated p True (let e := if (d.port .p0).role = .feed then leaveRole .p0 d else d
    if (e.port .p1).role = .feed then leaveRole .p1 e else e)
  dsimp only
  cases p with
  | p0 =>
    rw [if_pos h]
    split
    · exact leaveRole_vacated .p1 (hfeed h)
    · exact hfeed h
  | p1 =>
    have hkeep : ((if (d.port .p0).role = .feed then leaveRole .p0 d else d).port .p1).role = .feed := by
      split
      · exact (leaveRole_other_role .p0 d).trans h
      · exact h
    rw [if_pos hkeep]
    exact hfeed hkeep

theorem requestSwap_radial {p : PortId} {d : Dev} (h : (d.port p).ringFeeder = false) : requestSwap p d = d :=
  modPort_self d p _ (by simp [h])

theorem parkRails_radial {d : Dev} (h : ∀ p, (d.port p).ringFeeder = false) : parkRails d = d := by
  have hside (p : PortId) : (if (d.port p).master then requestSwap p d else d) = d := by rw [requestSwap_radial (h p), ite_self]
  show (fun e => if (Dev.port e .p1).master then requestSwap .p1 e else e) (if (d.port .p0).master then requestSwap .p0 d else d) = d
  rw [hside]
  exact hside .p1

/-- Without a ring feeder steps 1 and 2 of PARK are over at once (Table 04-7). -/
theorem parkAdvance_radial {d : Dev} (h : ∀ p, (d.port p).ringFeeder = false) (hpark : d.gl.park = some .rail) :
    ∃ g g', parkAdvance d = parkStore { parkFeeds { d with gl := g } with gl := g' } := by
  have hp0 : d.p0.ringFeeder = false := h .p0
  have hp1 : d.p1.ringFeeder = false := h .p1
  refine ⟨{ d.gl with park := some (.handOff d.us) },
    { (parkFeeds { d with gl := { d.gl with park := some (.handOff d.us) } }).gl with park := some .store }, ?_⟩
  simp only [parkAdvance, hpark, swapsDone, hp0, hp1, Bool.false_and, Bool.not_false, Bool.and_self, if_true, parkAfterHandOff, handedOff,
      Bool.true_or]

theorem writePark_vacated {p : PortId} {d : Dev} (hsafe : d.gl.safe = false) (hparking : parking d = false) (hhand : d.fwu.hand = none)
    (hring : ∀ p, (d.port p).ringFeeder = false) (hfeed : (d.port p).role = .feed) : Vacated p True (writePark d) := by
  have hport (r : PortId) : Dev.port { d with gl := { d.gl with park := some .rail, parkWaits := false } } r = d.port r := port_setGl _ _ _
  obtain ⟨g, g', hadv⟩ := parkAdvance_radial (d := { d with gl := { d.gl with park := some .rail, parkWaits := false } })
    (fun r => (congrArg Port.ringFeeder (hport r)).trans (hring r)) rfl
  have hbegin : writePark d = parkStore { parkFeeds { d with gl := g } with gl := g' } := by
    unfold writePark beginPark
    rw [if_neg (by simp [hsafe, hparking]), if_neg (by simp [hhand]), parkRails_radial fun r => (congrArg Port.ringFeeder (hport r)).trans (hring r)]
    exact hadv
  rw [hbegin]
  refine parkStore_vacated (Vacated.congr (port_setGl _ _ _) (parkFeeds_feed ?_))
  rw [port_setGl]
  exact hfeed

/-- Settles O31: without a ring feeder PARK passes steps 1 and 2 at once and takes every FEED port to OFF in step 3; later steps open no
path again. That a hand-off that never began ends at 95 ms is the model's choice (assumption 131), and times stand at their low bound
(assumption 3). -/
theorem parkTakesPortsOff : Obligations.ParkTakesPortsOff := by
  unfold Obligations.ParkTakesPortsOff
  intro s
  refine ⟨fun hok hsafe hparking => ⟨fun hhand hp0 hp1 => ?parks, fun hhand => ?waits⟩, fun p t hover => ?timeout⟩
  case parks =>
    rw [leads_onDev (show exec .park s = execPark s from rfl), byHost_of_ok hok]
    have hring : ∀ p, (s.dev.port p).ringFeeder = false := fun p => by
      cases p
      · exact hp0
      · exact hp1
    intro p hfeed
    obtain ⟨hgate, hrole⟩ := writePark_vacated hsafe hparking hhand hring hfeed
    rw [markHost_port]
    exact ⟨hrole trivial, hgate⟩
  case waits =>
    rw [leads_onDev (show exec .park s = execPark s from rfl), byHost_of_ok hok]
    simp only [writePark, hsafe, hparking, Bool.or_self, Bool.false_eq_true, if_false, hhand, if_true, markHost_gl]
    exact ⟨trivial, markHost_port _ _ .p0, markHost_port _ _ .p1⟩
  case timeout =>
    have hends : handOffOver s.dev p = true := by
      rcases hover with ⟨ht, hdue⟩ | ⟨hnone, hpark, hring, hdue⟩
      · simp [handOffOver, ht, hdue]
      · simp [handOffOver, hnone, hpark, hring, hdue]
    rw [leads_onDev (show exec (.parkHandoffTimeout p) s = execParkHandoffTimeout p s from rfl)]
    simp only [hends, guardDev_true]
    refine (parkAdvance_vacated (p := p) (off := False) ⟨?_, False.elim⟩).1
    rw [modPort_port]
    rfl

end Sys2Proof.Laws
end

section
/-! Relieving a limit takes back nothing that was sent (R280, R281). -/

namespace Sys2Proof.Laws

open Sys2Proof Machine

/-! ## Relieving a limit takes back nothing that was sent (R280, R281) -/

theorem foldDev_induct {α : Type} {Q : Dev → Prop} {f : α → Dev → Dev} (h : ∀ a d, Q d → Q (f a d)) (l : List α) {d : Dev} (hd : Q d) :
    Q (foldDev f l d) := by
  induction l generalizing d with
  | nil => exact hd
  | cons a t ih => exact ih (h a d hd)

/-- What the notes of THROT, the end of a grant and the end of a contract preserve, relieving a limit preserves. -/
theorem relieve_induct {Q : Dev → Prop} (hn : ∀ p d, Q d → Q (noteThrot p d)) (hg : ∀ rsn p k d, Q d → Q (withdrawGrant rsn p k d))
    (hc : ∀ rsn p i d, Q d → Q (withdrawContract rsn p i d)) {d : Dev} (hd : Q d) : Q (relieve d) := by
  have htrim (p : PortId) {e : Dev} (he : Q e) : Q (trimGrants p e) := by
    refine foldDev_induct (fun k e he => ?_) _ he
    split
    · exact hg _ _ _ _ he
    · exact he
  have hport (p : PortId) {e : Dev} (he : Q e) : Q (shedPort p e) := by
    unfold shedPort
    dsimp only
    split
    · refine foldDev_induct (fun x e he => ?_) _ (foldDev_induct (fun k e he => hg _ _ _ _ he) _ he)
      split
      · exact hc _ _ _ _ he
      · exact he
    · exact he
  have hclass (c : Cls) (p : PortId) {e : Dev} (he : Q e) : Q (shedClass p c e) := by
    unfold shedClass
    dsimp only
    split
    · refine foldDev_induct (fun x e he => ?contracts) _ (foldDev_induct (fun k e he => ?grants) _ he)
      case contracts =>
        split
        · exact hc _ _ _ _ he
        · exact he
      case grants =>
        repeat' split
        · exact hg _ _ _ _ he
        all_goals exact he
    · exact he
  have htenant (t : Tenant) {e : Dev} (he : Q e) : Q (shedTenant t e) := by
    have hgrants (p : PortId) (k : Nat) {e : Dev} (he : Q e) : Q (match spFind (e.port p).slots k with
        | some s => (match s.idx with
          | some i => if (rosterOf (e.port p) i.toNat).tenant == t then withdrawGrant 3 p k e else e
          | none => e)
        | none => e) := by
      repeat' split
      · exact hg _ _ _ _ he
      all_goals exact he
    unfold shedTenant
    dsimp only
    split
    · refine foldDev_induct (fun x e he => ?_) _ (foldDev_induct (fun k e he => hgrants .p1 k he) _
        (foldDev_induct (fun k e he => hgrants .p0 k he) _ he))
      split
      · exact hc _ _ _ _ he
      · exact he
    · exact he
  unfold relieve
  dsimp only
  have hd1 : Q (trimGrants .p1 (trimGrants .p0 (d.bothPorts noteThrot))) := htrim .p1 (htrim .p0 (hn .p1 _ (hn .p0 _ hd)))
  split
  · exact foldDev_induct (fun t e he => htenant t he) _
      (foldDev_induct (fun c e he => hclass c .p1 (hclass c .p0 he)) _ (hport .p1 (hport .p0 hd1)))
  · exact hd1

theorem noteThrot_line (p r : PortId) (d : Dev) : ((noteThrot p d).port r).line = (d.port r).line := by
  have hpost : ((postThrot p d).port r).line = (d.port r).line := by
    unfold postThrot
    dsimp only
    split
    · rw [post_port]
      exact field_modPort Port.line p r _ (by intro q; rfl) d
    · rfl
  have hflush : ((flushThrot p d).port r).line = (d.port r).line := by
    unfold flushThrot
    split
    · exact hpost
    · rfl
  unfold noteThrot
  dsimp only
  split
  · rfl
  · exact (field_modPort Port.line p r _ (by intro q; rfl) _).trans hflush

theorem clearContract_line (i : Idx) (q : Port) : (clearContract i q).line = q.line := by
  unfold clearContract
  dsimp only [dropHint, dropPending]
  split <;> rfl

theorem rateFor_line (i : Idx) (pw us : Nat) (q : Port) : (rateFor i pw us q).line = q.line := by
  unfold rateFor
  dsimp only
  split <;> rfl

theorem endContract_line (code : Nat) (p r : PortId) (i : Idx) (d : Dev) : ((endContract code p i d).port r).line = (d.port r).line := by
  unfold endContract
  rw [postEndpoint_port]
  exact field_modPort Port.line p r _ (fun q => (rateFor_line _ _ _ _).trans (clearContract_line _ _)) d

theorem sent_sendWithdraw {x : TxItem} {r : PortId} (reason : Nat) (p : PortId) (i : Idx) (slot : Option Nat) (reserve : Nat) {d : Dev}
    (h : Sent x (d.port r)) : Sent x ((sendWithdraw reason p i slot reserve d).port r) := by
  by_cases hr : r = p
  · subst hr
    have hclose (k : Nat) (f : Nat → Port → Port) (hf : ∀ q, (f k q).line = q.line) : Sent x ((d.modPort r (f k)).port r) := by
      rw [modPort_port]
      exact sent_of_line (hf _) h
    unfold sendWithdraw
    dsimp only
    split
    · refine sent_sendTo ?_
      split
      · exact hclose _ closeSlot (closeSlot_field Port.line (fun _ _ _ => rfl) _)
      · exact h
    · split
      · exact hclose _ dropSlot fun _ => rfl
      · exact h
  · rw [eq_other_of_ne hr] at h ⊢
    rw [sendWithdraw_other]
    exact h

theorem sent_withdrawGrant {x : TxItem} {r : PortId} (rsn : Nat) (p : PortId) (k : Nat) (d : Dev) (h : Sent x (d.port r)) :
    Sent x ((withdrawGrant rsn p k d).port r) := by
  unfold withdrawGrant
  split
  · split
    · exact sent_of_line (endContract_line _ _ _ _ _) (sent_sendWithdraw _ _ _ _ _ h)
    · exact h
  · exact h

theorem sent_withdrawContract {x : TxItem} {r : PortId} (rsn : Nat) (p : PortId) (i : Idx) (d : Dev) (h : Sent x (d.port r)) :
    Sent x ((withdrawContract rsn p i d).port r) := by
  unfold withdrawContract
  exact sent_of_line (endContract_line _ _ _ _ _) (sent_sendWithdraw _ _ _ _ _ h)

/-- What has been given to a wire stays so while limits are relieved. -/
theorem sent_relieve {x : TxItem} {r : PortId} {d : Dev} (h : Sent x (d.port r)) : Sent x ((relieve d).port r) :=
  relieve_induct (Q := fun e => Sent x (e.port r)) (fun p _ he => sent_of_line (noteThrot_line p r _) he)
    (fun rsn p k e he => sent_withdrawGrant rsn p k e he) (fun rsn p i e he => sent_withdrawContract rsn p i e he) h

end Sys2Proof.Laws
end

section
/-! A frame of the head at a DRAW port, and the frames of a contract (R148, R149, R170, R184 to R189). -/

namespace Sys2Proof.Laws

open Sys2Proof Machine

/-! ## A frame of the head at a DRAW port (R148, R149, R170) -/

theorem drawShort_field {β : Type} (g : Port → β) (hl : ∀ q l, g { q with line := l } = g q) (d : Dev) (nak : Bool) (h : FrameTag) (q : Port) :
    g (drawShort d nak h q) = g q := by
  unfold drawShort answerShort
  split
  · exact emit_field g hl _ _
  · rfl

theorem drawShort_sent {d : Dev} {nak : Bool} {h : FrameTag} {q : Port} (hs : drawSpeaks d q = true) : Sent (.short nak h.seq) (drawShort d nak h q) := by
  unfold drawShort
  rw [if_pos hs]
  exact emit_sent _ _

theorem sent_drawShort {x : TxItem} {d : Dev} {nak : Bool} {h : FrameTag} {q : Port} (hx : Sent x q) : Sent x (drawShort d nak h q) := by
  unfold drawShort
  split
  · exact sent_emit hx
  · exact hx

/-- An addressed frame that a DRAW port has accepted: heard, noted and acknowledged (R148, R149). -/
def drawTaken (d : Dev) (h : FrameTag) (q : Port) : Port :=
  drawShort d false h { drawHeard d.us q with drw := { (drawHeard d.us q).drw with seqRx := some h.seq } }

/-- A broadcast frame that a DRAW port has accepted. -/
def drawTakenBc (d : Dev) (h : FrameTag) (q : Port) : Port :=
  { drawHeard d.us q with drw := { (drawHeard d.us q).drw with seqRxBc := some h.seq } }

theorem drawTaken_drw (d : Dev) (h : FrameTag) (q : Port) :
    (drawTaken d h q).drw = { q.drw with heardAt := d.us, seqRx := some h.seq } := by
  unfold drawTaken
  rw [drawShort_field Port.drw fun _ _ => rfl]
  rfl

theorem drawTakenBc_drw (d : Dev) (h : FrameTag) (q : Port) :
    (drawTakenBc d h q).drw = { q.drw with heardAt := d.us, seqRxBc := some h.seq } := rfl

theorem drawTaken_field {β : Type} (g : Port → β) (hl : ∀ q l, g { q with line := l } = g q) (hw : ∀ q w, g { q with drw := w } = g q)
    (d : Dev) (h : FrameTag) (q : Port) : g (drawTaken d h q) = g q := by
  unfold drawTaken
  rw [drawShort_field g hl]
  exact (hw _ _).trans ((hl _ _).trans (hw _ _))

theorem drawTakenBc_field {β : Type} (g : Port → β) (hl : ∀ q l, g { q with line := l } = g q) (hw : ∀ q w, g { q with drw := w } = g q)
    (d : Dev) (h : FrameTag) (q : Port) : g (drawTakenBc d h q) = g q := (hw _ _).trans ((hl _ _).trans (hw _ _))

theorem drawTaken_sent {d : Dev} {h : FrameTag} {q : Port} (hs : drawSpeaks d q = true) : Sent (.short false h.seq) (drawTaken d h q) :=
  drawShort_sent hs

/-- An addressed frame that names the port and is new reaches its act on the port that has taken it. -/
theorem drawFrame_new {p : PortId} {h : FrameTag} {act : Dev → Dev} {d : Dev} (hn : drawNamed (d.port p) = true)
    (hd : drawDuplicate (d.port p) h false = false) : drawFrame p h false false act d = act (d.modPort p (drawTaken d h)) := by
  unfold drawFrame
  simp only [Bool.false_eq_true, if_false, hn, if_true, hd, modPort_modPort]
  rfl

theorem drawFrame_newBc {p : PortId} {h : FrameTag} {act : Dev → Dev} {d : Dev} (hn : drawHears (d.port p) = true)
    (hd : drawDuplicate (d.port p) h true = false) : drawFrame p h true false act d = act (d.modPort p (drawTakenBc d h)) := by
  unfold drawFrame
  simp only [if_true, hn, Bool.false_eq_true, if_false, hd, modPort_modPort]
  rfl

/-- A malformed addressed frame gets NAK and nothing else (R170). -/
theorem drawFrame_bad {p : PortId} {h : FrameTag} {act : Dev → Dev} {d : Dev} (hn : drawNamed (d.port p) = true) :
    drawFrame p h false true act d = d.modPort p fun q => drawShort d true h (drawHeard d.us q) := by
  unfold drawFrame
  simp only [Bool.false_eq_true, if_false, hn, if_true, modPort_modPort]

/-- What a port answers with that has taken a frame, after a change that keeps its line, its SEQ and the time it heard. -/
theorem drawAnswers_of {p : PortId} {h : FrameTag} {d : Dev} {f : Port → Port} (hline : ∀ q, (f q).line = q.line)
    (hseq : ∀ q, (f q).drw.seqRx = q.drw.seqRx ∧ (f q).drw.heardAt = q.drw.heardAt) :
    DrawAnswers p h d ((d.modPort p (drawTaken d h)).modPort p f) := by
  obtain ⟨hs, hh⟩ := hseq (drawTaken d h (d.port p))
  unfold DrawAnswers
  rw [modPort_port, modPort_port, hs, hh, drawTaken_drw]
  exact ⟨rfl, rfl, fun hsp => sent_of_line (hline _) (drawTaken_sent hsp)⟩

theorem takeCeil_fields (c : Half) (now : Nat) (w : Draw) :
    (takeCeil c now w).grant = w.grant ∧ (takeCeil c now w).open_ = w.open_ ∧ (takeCeil c now w).contract = w.contract
    ∧ (takeCeil c now w).limitMw = w.limitMw ∧ (takeCeil c now w).seqRx = w.seqRx ∧ (takeCeil c now w).heardAt = w.heardAt
    ∧ (takeCeil c now w).reply = w.reply ∧ (takeCeil c now w).ready = w.ready ∧ (takeCeil c now w).idx = w.idx
    ∧ (takeCeil c now w).seq = w.seq ∧ (takeCeil c now w).beacons = w.beacons ∧ (takeCeil c now w).bits = w.bits := by
  unfold takeCeil
  split <;> simp

/-! ## READY (R184, R190) -/

/-- The path of a port that READY lets close (R136, R255). -/
def drawCloseOf (now : Nat) (q : Port) : Port :=
  if q.gate = .opened ∧ q.grd.latch = false ∧ q.grd.reclose = false then startClosing now q else q

theorem drawCloses_port (p r : PortId) (d : Dev) : (drawCloses p d).port r = (d.modPort p (drawCloseOf d.us)).port r := pllNeed_port _ r

theorem drawCloseOf_drw (now : Nat) (q : Port) : (drawCloseOf now q).drw = q.drw := by
  unfold drawCloseOf
  split <;> rfl

theorem drawCloseOf_line (now : Nat) (q : Port) : (drawCloseOf now q).line = q.line := by
  unfold drawCloseOf
  split <;> rfl

theorem drawCloses_line (p : PortId) (d : Dev) : ((drawCloses p d).port p).line = (d.port p).line := by
  rw [drawCloses_port, modPort_port, drawCloseOf_line]

theorem drawCloses_drw (p : PortId) (d : Dev) : ((drawCloses p d).port p).drw = (d.port p).drw := by
  rw [drawCloses_port, modPort_port, drawCloseOf_drw]

theorem drawCloses_gate (p : PortId) (d : Dev) : ((drawCloses p d).port p).gate = (drawCloseOf d.us (d.port p)).gate := by
  rw [drawCloses_port, modPort_port]

theorem drawCloses_other (p : PortId) (d : Dev) : (drawCloses p d).port p.other = d.port p.other := by
  rw [drawCloses_port, modPort_port_other]

/-- Relieving limits keeps what a DRAW port answers. -/
theorem drawAnswers_relieve {p : PortId} {h : FrameTag} {d0 d : Dev} (hd : DrawAnswers p h d0 d) : DrawAnswers p h d0 (relieve d) := by
  obtain ⟨h1, h2, h3⟩ := hd
  unfold DrawAnswers
  rw [relieve_drw]
  exact ⟨h1, h2, fun hs => sent_relieve (h3 hs)⟩

theorem otherRole_relieve {p : PortId} {d0 d : Dev} (h : d.port p.other = d0.port p.other) : OtherRole p d0 (relieve d) := by
  unfold OtherRole
  rw [relieve_role, relieve_ctl, h]
  exact ⟨rfl, rfl⟩

/-- Settles O32: every frame is taken by the port first, then acts on its record. That the path stays on WITHDRAW, and that a contract's
floor is that of the last REQUEST, is the model's choice (assumption 89). -/
theorem drawContractFrames : Obligations.DrawContractFrames := by
  unfold Obligations.DrawContractFrames
  intro s p h hn hnew
  have hgate : (drawTaken s.dev h (s.dev.port p)).gate = (s.dev.port p).gate := drawTaken_field Port.gate (fun _ _ => rfl) (fun _ _ => rfl) _ _ _
  have hgrd : (drawTaken s.dev h (s.dev.port p)).grd = (s.dev.port p).grd := drawTaken_field Port.grd (fun _ _ => rfl) (fun _ _ => rfl) _ _ _
  have hdrw := drawTaken_drw s.dev h (s.dev.port p)
  refine ⟨fun m => ?accept, fun m => ?ready, fun m hok => ?withdraw, fun m hbad => ?malformed, fun m r t hok hopen => ?wait,
    fun m r t hok hr hopen => ?reject⟩
  case accept =>
    rw [leads_onDev (show exec (.acceptReceived p h m) s = execAcceptReceived p h m s from rfl), drawFrame_new hn hnew]
    refine ⟨drawAnswers_of (fun _ => rfl) fun q => ?_, ?_⟩
    · obtain ⟨-, -, -, -, h5, h6, -⟩ := takeCeil_fields m.ceil (s.dev.modPort p (drawTaken s.dev h)).us
        { q.drw with grant := some (m, (s.dev.modPort p (drawTaken s.dev h)).us), open_ := none, waiting := none }
      exact ⟨h5, h6⟩
    · rw [modPort_port, modPort_port, modPort_port_other, modPort_port_other, modPort_us]
      obtain ⟨h1, h2, h3, h4, -⟩ := takeCeil_fields m.ceil s.dev.us
        { (drawTaken s.dev h (s.dev.port p)).drw with grant := some (m, s.dev.us), open_ := none, waiting := none }
      refine ⟨h1, h2, h3.trans ?_, h4.trans ?_, hgate, rfl⟩ <;> rw [hdrw]
  case ready =>
    rw [leads_onDev (show exec (.readyReceived p h false m) s = execReadyReceived p h false m s from rfl), drawFrame_new hn hnew]
    simp only [Bool.false_eq_true, if_false]
    have hadopt : ((((s.dev.modPort p (drawTaken s.dev h)).modPort p fun q =>
        { q with drw := adopt m.power m.level (if m.grant = 0 then 0 else q.drw.reqFloor) m.grant q.drw })).port p) =
        { drawTaken s.dev h (s.dev.port p) with
          drw := adopt m.power m.level (if m.grant = 0 then 0 else (s.dev.port p).drw.reqFloor) m.grant
            { (s.dev.port p).drw with heardAt := s.dev.us, seqRx := some h.seq } } := by
      rw [modPort_port, modPort_port, hdrw]
    refine ⟨drawAnswers_relieve ?_, ?_⟩
    · obtain ⟨h1, h2, h3⟩ := drawAnswers_of (p := p) (h := h) (d := s.dev) (f := fun q =>
        { q with drw := adopt m.power m.level (if m.grant = 0 then 0 else q.drw.reqFloor) m.grant q.drw }) (fun _ => rfl) fun _ => ⟨rfl, rfl⟩
      unfold DrawAnswers
      rw [drawCloses_drw]
      exact ⟨h1, h2, fun hs => sent_of_line (drawCloses_line _ _) (h3 hs)⟩
    · rw [relieve_drw, relieve_gate, drawCloses_drw, drawCloses_gate, hadopt, modPort_us, modPort_us]
      refine ⟨rfl, rfl, rfl, rfl, fun hs => ?_, fun hs => ?_, fun hg hl hr => ?_, fun hl => ?_, otherRole_relieve ?_⟩
      · simp [adopt, contractMw, hs]
      · simp [adopt, hs]
      · rw [drawCloseOf, if_pos ⟨hgate.trans hg, by rw [← hl, ← hgrd], by rw [← hr, ← hgrd]⟩]
        rfl
      · rw [drawCloseOf, if_neg fun hc => by rw [← hgrd] at hl; simp [hl] at hc]
        exact hgate
      · rw [drawCloses_other, modPort_port_other, modPort_port_other]
  case withdraw =>
    rw [leads_onDev (show exec (.withdrawReceived p h false m) s = execWithdrawReceived p h false m s from rfl), hok, drawFrame_new hn hnew]
    simp only [Bool.false_and, Bool.false_eq_true, if_false]
    refine ⟨drawAnswers_relieve (drawAnswers_of (fun _ => rfl) fun _ => ⟨rfl, rfl⟩), ?_⟩
    rw [relieve_drw, relieve_gate, modPort_port, modPort_port, hdrw]
    refine ⟨rfl, rfl, rfl, rfl, rfl, rfl, rfl, hgate, otherRole_relieve ?_⟩
    rw [modPort_port_other, modPort_port_other]
  case malformed =>
    rw [leads_onDev (show exec (.waitReceived p h m) s = execWaitReceived p h m s from rfl), hbad, drawFrame_bad hn, modPort_port, modPort_port_other]
    refine ⟨?_, fun hs => drawShort_sent hs, rfl⟩
    rw [drawShort_field Port.drw fun _ _ => rfl]
    rfl
  case wait =>
    rw [leads_onDev (show exec (.waitReceived p h m) s = execWaitReceived p h m s from rfl), hok, drawFrame_new hn hnew]
    refine ⟨drawAnswers_of (fun _ => rfl) fun _ => ⟨rfl, rfl⟩, ?_⟩
    rw [modPort_port, modPort_port, modPort_port_other, modPort_port_other, modPort_us]
    simp only [hdrw, hopen]
    exact ⟨trivial, trivial, trivial, trivial, hgate, trivial⟩
  case reject =>
    rw [leads_onDev (show exec (.rejectReceived p h false m) s = execRejectReceived p h false m s from rfl), hok, drawFrame_new hn hnew]
    simp only [Bool.false_eq_true, if_false]
    refine ⟨drawAnswers_of (fun _ => rfl) fun _ => ⟨rfl, rfl⟩, ?_⟩
    rw [modPort_port, modPort_port, modPort_port_other, modPort_port_other, modPort_us, hdrw]
    simp only [drawRefused, refusedPower, hopen, if_neg hr]
    exact ⟨trivial, trivial, trivial, trivial, trivial, hgate, trivial⟩

end Sys2Proof.Laws
end

section
/-! What else a DRAW port takes (R163, R165, R178, R185, R191, R193, R295). -/

namespace Sys2Proof.Laws

open Sys2Proof Machine

/-! ## What else a DRAW port takes (R163, R165, R178, R185, R191, R193, R295) -/

/-- A frame that a DRAW port has accepted, addressed or broadcast. -/
def drawTakenAs (d : Dev) (h : FrameTag) (bc : Bool) (q : Port) : Port := if bc then drawTakenBc d h q else drawTaken d h q

theorem drawTakenAs_field {β : Type} (g : Port → β) (hl : ∀ q l, g { q with line := l } = g q)
    (hw : ∀ q a b c, g { q with drw := { q.drw with heardAt := a, seqRx := b, seqRxBc := c } } = g q) (d : Dev) (h : FrameTag) (bc : Bool)
    (q : Port) : g (drawTakenAs d h bc q) = g q := by
  cases bc with
  | true => exact (hw { q with line := (hears d.us q).line } d.us q.drw.seqRx _).trans (hl _ _)
  | false =>
    refine (drawShort_field g hl d false h _).trans ?_
    exact (hw { q with line := (hears d.us q).line } d.us _ q.drw.seqRxBc).trans (hl _ _)

theorem drawFrame_newAs {p : PortId} {h : FrameTag} {bc : Bool} {act : Dev → Dev} {d : Dev} (hhears : drawHears (d.port p) = true)
    (hn : (if bc then true else drawNamed (d.port p)) = true) (hd : drawDuplicate (d.port p) h bc = false) :
    drawFrame p h bc false act d = act (d.modPort p (drawTakenAs d h bc)) := by
  cases bc with
  | true => exact drawFrame_newBc hhears hd
  | false => exact drawFrame_new hn hd

/-- A frame that ends a DRAW port's contract and relieves the limits that fall with it, by what its change does to the record. -/
theorem drawReset_port {p : PortId} {h : FrameTag} {bc : Bool} {d : Dev} (f : Draw → Draw) :
    let e := relieve ((d.modPort p (drawTakenAs d h bc)).modPort p fun q => { q with drw := f q.drw })
    (e.port p).drw = f (drawTakenAs d h bc (d.port p)).drw ∧ (e.port p).gate = (d.port p).gate ∧ OtherRole p d e := by
  dsimp only
  rw [relieve_drw, relieve_gate, modPort_port, modPort_port]
  refine ⟨rfl, drawTakenAs_field Port.gate (fun _ _ => rfl) (fun _ _ _ _ => rfl) d h bc _, otherRole_relieve ?_⟩
  rw [modPort_port_other, modPort_port_other]

/-- What a hard reset makes the port forget besides its contract (R191). -/
def drawForgets (w : Draw) : Draw :=
  { drawEnds w with
      idx := none, cls := 0, tenant := 0, seq := 0, seqRx := none, seqRxBc := none, beacons := 0, reply := none, tried := none }

/-- A DRAW port with the index of an ASSIGN (R178). -/
def drawAssigned (d : Dev) (h : FrameTag) (idx : Idx) (m : AssignMsg) (q : Port) : Port :=
  let q1 := drawHeard d.us (drawAccept d h false q)
  { q1 with drw := { q1.drw with idx := some idx, cls := m.cls, tenant := m.tenant, lost := 0, skip := 0, tried := none } }

theorem drawAccept_drw (d : Dev) (h : FrameTag) (q : Port) : (drawAccept d h false q).drw = { q.drw with seqRx := some h.seq } := by
  unfold drawAccept
  rw [if_neg (by simp), drawShort_field Port.drw fun _ _ => rfl]

theorem drawAssigned_fields (d : Dev) (h : FrameTag) (idx : Idx) (m : AssignMsg) (q : Port) :
    (drawAssigned d h idx m q).drw = { q.drw with
      seqRx := some h.seq, heardAt := d.us, idx := some idx, cls := m.cls, tenant := m.tenant, lost := 0, skip := 0, tried := none }
    ∧ (drawAssigned d h idx m q).gate = q.gate
    ∧ (drawSpeaks d q = true → Sent (.short false h.seq) (drawAssigned d h idx m q)) := by
  refine ⟨?_, ?_, fun hs => ?_⟩
  · unfold drawAssigned drawHeard hears
    dsimp only
    rw [drawAccept_drw]
  · show (drawAccept d h false q).gate = q.gate
    unfold drawAccept
    rw [if_neg (by simp), drawShort_field Port.gate fun _ _ => rfl]
  · have hsent : Sent (.short false h.seq) (drawAccept d h false q) := by
      unfold drawAccept
      rw [if_neg (by simp)]
      exact drawShort_sent hs
    exact hsent

theorem senderCut_draw {f : Frame} {q : Port} (h : q.role = .draw) :
    senderCut f q = { q with drw := { q.drw with tried := if f.mtype = 0x04 then none else q.drw.tried } } := by
  unfold senderCut
  rw [if_pos h]
  split <;> rfl

/-- A shed tone at a DRAW port: the frame on its line ends, and the record falls to its floor (R165, R295). -/
def drawToned (now : Nat) (q : Port) : Port :=
  let q1 := drawHeard now (toneCuts now q)
  { q1 with drw := drawShed now q1.drw }

theorem drawToned_port {now : Nat} {q : Port} (h : q.role = .draw) :
    (drawToned now q).drw = { q.drw with
      heardAt := now, shed := true, toneAt := now, restoreAt := none
      limitMw := Nat.min q.drw.limitMw (contractFloorMw q.drw)
      tried := match onLine now q with
        | some f => if f.mtype = 0x04 then none else q.drw.tried
        | none => q.drw.tried }
    ∧ (∀ f, onLine now q = some f → (drawToned now q).line.tx = cutItem f q.line.tx)
    ∧ (drawToned now q).gate = q.gate := by
  unfold drawToned toneCuts
  cases ho : onLine now q with
  | none => exact ⟨rfl, fun f hf => by simp at hf, rfl⟩
  | some f =>
    dsimp only
    rw [senderCut_draw (by exact h)]
    refine ⟨rfl, fun f' hf => ?_, rfl⟩
    obtain rfl : f = f' := by simpa using hf
    rfl

theorem leads_next {c : Instr} {s : State} {d : Dev} {P : Dev → Prop} (h : exec c s = .next { s with dev := d }) (hP : P d) :
    Leads c s P := ⟨d, h, hP⟩

/-- Settles O33: each control by the change of the port's record. -/
theorem drawControls : Obligations.DrawControls := by
  unfold Obligations.DrawControls
  intro s p hhears
  refine ⟨fun h idx m hhere heui hnew => ?assign, fun h idx m => ⟨fun hno => ?elsewhere, fun heui hidx => ?unnamed, fun heui hidx => ?nak⟩,
    fun h bc hheard hnew => ⟨?soft, ?hard⟩, ?tone, fun h m before during hok hnew => ?pulse, ?timeout⟩
  case assign =>
    refine ⟨s.dev.modPort p (drawAssigned s.dev h idx m), ?_, ?_⟩
    · show execAssignReceived p h idx m s = _
      simp only [execAssignReceived, onDev_eq, hhere, guardDev_true]
      refine congrArg (fun d => Host.Outcome.next { s with dev := d }) (modPort_congr s.dev p _ _ ?_)
      rw [if_pos heui, if_neg (by simp [hnew])]
      rfl
    · obtain ⟨hdrw, hgate, hsent⟩ := drawAssigned_fields s.dev h idx m (s.dev.port p)
      unfold DrawAnswers
      rw [modPort_port, modPort_port_other, hdrw]
      exact ⟨⟨rfl, rfl, hsent⟩, rfl, rfl, rfl, rfl, rfl, hgate, rfl⟩
  case elsewhere =>
    show execAssignReceived p h idx m s = _
    simp only [execAssignReceived, onDev_eq, hno, guardDev_false]
  case unnamed =>
    have hhere : assignHere (s.dev.port p) idx = true := by simp [assignHere, hhears, hidx]
    show execAssignReceived p h idx m s = _
    simp only [execAssignReceived, onDev_eq, hhere, guardDev_true]
    refine congrArg (fun d => Host.Outcome.next { s with dev := d }) (modPort_congr s.dev p _ _ ?_)
    simp only [if_neg heui, hidx, Option.isSome_none, Bool.false_eq_true, if_false]
  case nak =>
    have hhere : assignHere (s.dev.port p) idx = true := by simp [assignHere, hhears, hidx]
    show execAssignReceived p h idx m s = _
    simp only [execAssignReceived, onDev_eq, hhere, guardDev_true]
    refine congrArg (fun d => Host.Outcome.next { s with dev := d }) (modPort_congr s.dev p _ _ ?_)
    simp only [if_neg heui, hidx, Option.isSome_some, if_true]
  case soft =>
    rw [leads_onDev (show exec (.softResetReceived p h bc) s = execSoftResetReceived p h bc s from rfl), drawFrame_newAs hhears hheard hnew]
    obtain ⟨hdrw, hg, hother⟩ := drawReset_port (p := p) (h := h) (bc := bc) (d := s.dev) drawEnds
    rw [hdrw]
    refine ⟨rfl, rfl, rfl, rfl, ?_, ?_, hg, hother⟩
    · exact drawTakenAs_field (fun q => q.drw.idx) (fun _ _ => rfl) (fun _ _ _ _ => rfl) s.dev h bc _
    · exact drawTakenAs_field (fun q => q.drw.seq) (fun _ _ => rfl) (fun _ _ _ _ => rfl) s.dev h bc _
  case hard =>
    rw [leads_onDev (show exec (.hardResetReceived p h bc) s = execHardResetReceived p h bc s from rfl), drawFrame_newAs hhears hheard hnew]
    obtain ⟨hdrw, hg, hother⟩ := drawReset_port (p := p) (h := h) (bc := bc) (d := s.dev) drawForgets
    exact ⟨(congrArg Draw.contract hdrw :), (congrArg Draw.ready hdrw :), (congrArg Draw.idx hdrw :), (congrArg Draw.seq hdrw :),
      (congrArg Draw.seqRx hdrw :), (congrArg Draw.beacons hdrw :), (congrArg Draw.limitMw hdrw :), (congrArg Draw.tenant hdrw :), hg, hother⟩
  case tone =>
    refine leads_next (d := s.dev.modPort p (drawToned s.dev.us)) ?_ ?_
    · refine congrArg (fun d => Host.Outcome.next { s with dev := d }) (modPort_congr s.dev p _ _ ?_)
      exact if_pos hhears
    · rw [modPort_port, modPort_port_other]
      have hrole : (s.dev.port p).role = .draw := by
        simp only [drawHears, Bool.and_eq_true, decide_eq_true_eq] at hhears
        exact hhears.1.1
      obtain ⟨h1, h2, h3⟩ := drawToned_port (now := s.dev.us) hrole
      exact ⟨h1, h2, h3, rfl⟩
  case pulse =>
    rw [leads_onDev (show exec (.calPulseReceived p h m before during) s = execCalPulseReceived p h m before during s from rfl), hok,
      drawFrame_newBc hhears hnew, modPort_port, modPort_port, modPort_port_other, modPort_port_other]
    refine ⟨rfl, rfl, fun hno => ?_, rfl, rfl⟩
    have hidx : (drawTakenBc s.dev h (s.dev.port p)).drw.idx ≠ some m.drawer := hno
    simp [hidx]
  case timeout =>
    rw [leads_onDev (show exec (.grantTimeout p) s = execGrantTimeout p s from rfl), modPort_port, modPort_port_other]
    refine ⟨fun g t hg => ?_, fun r t ho hr => ?_, rfl, rfl⟩
    · simp only [hg, decide_eq_true_eq]
    · simp only [ho, hr, Option.isNone_none, Bool.true_and, decide_eq_true_eq]

end Sys2Proof.Laws
end

section
/-! A DRAW port hears its head: beacons, adverts, POLLs and its ENROLL (R136, R152, R154, R161, R173 to R176, R297). -/

namespace Sys2Proof.Laws

open Sys2Proof Machine

/-! ## A BEACON at a DRAW port (R136, R161, R173, R297) -/

theorem enrolWindow_keeps {β : Type} (g : Draw → β) (h : ∀ w a b, g { w with enrw := a, skip := b } = g w) (e : Bool) (w : Draw) :
    g (enrolWindow e w) = g w := by
  unfold enrolWindow
  split
  · split
    · exact h _ _ w.skip
    · exact h _ _ _
  · exact h _ _ w.skip

theorem enrolWindow_enrw (e : Bool) (w : Draw) : (enrolWindow e w).enrw = (e && decide (w.skip = 0)) := by
  unfold enrolWindow
  split
  · split <;> simp_all
  · simp_all

theorem shedReleased_keeps {β : Type} (g : Draw → β) (h : ∀ w a, g { w with restoreAt := a } = g w) (m : BeaconMsg) (now : Nat) (w : Draw) :
    g (shedReleased m now w) = g w := by
  unfold shedReleased
  split
  · exact h _ _
  · rfl

theorem drawLevel_keeps {β : Type} (g : Port → β) (h : ∀ q l, g { q with lev := l } = g q) (q : Port) : g (drawLevel q) = g q := by
  unfold drawLevel
  split
  · rfl
  · exact h _ _

/-- The record of a port after a beacon, and the port with it. -/
def beaconDraw (pinB : Bool) (h : FrameTag) (m : BeaconMsg) (ns now : Nat) (w : Draw) : Draw :=
  shedReleased m now (enrolWindow m.enrw (noteBeacon pinB h m ns now w))

def beaconTaken (pinB : Bool) (h : FrameTag) (m : BeaconMsg) (ns now : Nat) (q : Port) : Port :=
  drawLevel <| drawHeard now { q with drw := beaconDraw pinB h m ns now q.drw }

theorem beaconTaken_drw (pinB : Bool) (h : FrameTag) (m : BeaconMsg) (ns now : Nat) (q : Port) :
    (beaconTaken pinB h m ns now q).drw = { beaconDraw pinB h m ns now q.drw with heardAt := now } :=
  drawLevel_keeps Port.drw (fun _ _ => rfl) _

theorem beaconDraw_keeps {β : Type} (g : Draw → β) (hw : ∀ w a b, g { w with enrw := a, skip := b } = g w)
    (hr : ∀ w a, g { w with restoreAt := a } = g w) (pinB : Bool) (h : FrameTag) (m : BeaconMsg) (ns now : Nat) (w : Draw) :
    g (beaconDraw pinB h m ns now w) = g (noteBeacon pinB h m ns now w) := by
  unfold beaconDraw
  rw [shedReleased_keeps g hr, enrolWindow_keeps g hw]

theorem beaconDraw_restore {pinB : Bool} {h : FrameTag} {m : BeaconMsg} {ns now : Nat} {w : Draw} (hs : w.shed = true) (hm : m.shed = false)
    (ht : beaconAfterTone w now = true) (hr : w.restoreAt = none) :
    (beaconDraw pinB h m ns now w).restoreAt = some (now + 2000 * w.cls.toNat) := by
  have hkeep {β : Type} (g : Draw → β) (hw : ∀ w a b, g { w with enrw := a, skip := b } = g w) :
      g (enrolWindow m.enrw (noteBeacon pinB h m ns now w)) = g (noteBeacon pinB h m ns now w) := enrolWindow_keeps g hw _ _
  unfold beaconDraw shedReleased
  rw [if_pos ⟨(hkeep Draw.shed fun _ _ _ => rfl).trans hs, hm, (hkeep (fun w => beaconAfterTone w now) fun _ _ _ => rfl).trans ht,
    (hkeep Draw.restoreAt fun _ _ _ => rfl).trans hr⟩]
  exact congrArg (fun c : Cls => some (now + 2000 * c.toNat)) (hkeep Draw.cls fun _ _ _ => rfl)

theorem beaconTaken_cur {pinB : Bool} {h : FrameTag} {m : BeaconMsg} {ns now : Nat} {q : Port} (hg : q.gate ≠ .opened) :
    (beaconTaken pinB h m ns now q).lev.cur = m.cur := by
  unfold beaconTaken drawLevel
  rw [if_neg (by exact hg)]
  exact beaconDraw_keeps Draw.segCur (fun _ _ _ => rfl) (fun _ _ => rfl) pinB h m ns now q.drw

/-! ## A POLL at a DRAW port (R119, R152, R154, R175, R176) -/

theorem bandOf_device (mv : Nat) (d : Dev) :
    (∀ r, (bandOf mv d).2.port r = d.port r) ∧ (bandOf mv d).2.pw = d.pw ∧ (bandOf mv d).2.us = d.us := by
  unfold bandOf
  repeat' split
  all_goals exact ⟨fun r => by cases r <;> rfl, rfl, rfl⟩

theorem bandOf_hold {mv : Nat} {d : Dev} (h : mv < 550) : (bandOf mv d).1 = 0 := by
  rw [bandOf, if_pos h]

theorem bandOf_free {mv : Nat} {d : Dev} (h : 650 ≤ mv) : (bandOf mv d).1 ≠ 0 := by
  rw [bandOf, if_neg (by omega), if_neg (by omega)]
  split
  · exact Nat.one_ne_zero
  · split
    · dsimp only
      omega
    · exact Nat.succ_ne_zero 1

theorem bandOf_enroll {mv : Nat} {d : Dev} (h : 1350 < mv) : bandOf mv d = (2, d) := by
  rw [bandOf, if_neg (by omega), if_neg (by omega), if_neg (by omega), if_neg (by omega)]

theorem alignDraw_keeps {β : Type} (g : Draw → β) (h : ∀ w c r l, g { w with contract := c, ready := r, limitMw := l } = g w) (m : PollMsg) (w : Draw) :
    g (alignDraw m w) = g w := by
  unfold alignDraw
  split
  · split
    · exact h _ _ _ _
    · rfl
  · split
    · split
      · exact h w _ w.ready _
      · rfl
    · rfl

theorem takeCeil_keeps {β : Type} (g : Draw → β) (h : ∀ w a b c, g { w with ceil := a, ceilPrev := b, ceilFrom := c } = g w) (c : Half) (now : Nat)
    (w : Draw) : g (takeCeil c now w) = g w := by
  unfold takeCeil
  split
  · rfl
  · exact h _ _ _ _

/-- What a POLL leaves of the record besides its SEQ, the head's view of the contract, and the ceiling. -/
theorem notePoll_keeps {β : Type} (g : Draw → β) (ha : ∀ w c r l, g { w with contract := c, ready := r, limitMw := l } = g w)
    (hc : ∀ w a b c, g { w with ceil := a, ceilPrev := b, ceilFrom := c } = g w) (hs : ∀ w a b, g { w with seqRx := a, heardAt := b } = g w)
    (h : FrameTag) (m : PollMsg) (dup : Bool) (now : Nat) (q : Port) : g (notePoll h m dup now q).drw = g q.drw := by
  cases dup with
  | true => exact hs q.drw q.drw.seqRx now
  | false =>
    refine (hs (takeCeil m.ceil now (alignDraw m { q.drw with seqRx := some h.seq })) _ now).trans ?_
    rw [takeCeil_keeps g hc, alignDraw_keeps g ha]
    exact hs q.drw _ q.drw.heardAt

theorem notePoll_port {β : Type} (g : Port → β) (hl : ∀ q l, g { q with line := l } = g q) (hw : ∀ q w, g { q with drw := w } = g q)
    (h : FrameTag) (m : PollMsg) (dup : Bool) (now : Nat) (q : Port) : g (notePoll h m dup now q) = g q := by
  cases dup with
  | true => exact (hl _ _).trans (hw _ _)
  | false => exact (hl _ _).trans ((hw _ _).trans (hw _ _))

theorem notePoll_speaks (d : Dev) (h : FrameTag) (m : PollMsg) (dup : Bool) (now : Nat) (q : Port) :
    drawSpeaks d (notePoll h m dup now q) = drawSpeaks d q := by
  have hb := notePoll_keeps Draw.beacons (fun _ _ _ _ => rfl) (fun _ _ _ _ => rfl) (fun _ _ _ => rfl) h m dup now q
  have hbits := notePoll_keeps Draw.bits (fun _ _ _ _ => rfl) (fun _ _ _ _ => rfl) (fun _ _ _ => rfl) h m dup now q
  simp only [drawSpeaks, hb, hbits]

/-- A POLL that shows no contract ends the port's (R176). -/
theorem notePoll_ends {h : FrameTag} {m : PollMsg} {now : Nat} {q : Port} (hm : m.held = false) :
    (notePoll h m false now q).drw.contract = none ∧ (notePoll h m false now q).drw.seqRx = some h.seq
    ∧ (q.drw.contract.isSome = true → (notePoll h m false now q).drw.limitMw = 50 ∧ (notePoll h m false now q).drw.ready = false) := by
  have halign : alignDraw m { q.drw with seqRx := some h.seq } =
      if q.drw.contract.isSome then drawFalls { q.drw with seqRx := some h.seq } else { q.drw with seqRx := some h.seq } := by
    simp [alignDraw, hm]
  obtain ⟨-, -, hcon, hlim, hseq, -, -, hready, -⟩ := takeCeil_fields m.ceil now (alignDraw m { q.drw with seqRx := some h.seq })
  show (takeCeil m.ceil now (alignDraw m { q.drw with seqRx := some h.seq })).contract = none
    ∧ (takeCeil m.ceil now (alignDraw m { q.drw with seqRx := some h.seq })).seqRx = some h.seq
    ∧ (_ → (takeCeil m.ceil now (alignDraw m { q.drw with seqRx := some h.seq })).limitMw = 50
      ∧ (takeCeil m.ceil now (alignDraw m { q.drw with seqRx := some h.seq })).ready = false)
  rw [hcon, hlim, hseq, hready, halign]
  split
  · exact ⟨rfl, rfl, fun _ => ⟨rfl, rfl⟩⟩
  · next hno => exact ⟨by simpa using hno, rfl, fun hs => absurd hs hno⟩

theorem drawSend_drw (mt : BitVec 6) (pay : List Byte) (q : Port) :
    (drawSend mt pay q).drw = { q.drw with seq := q.drw.seq + 1, reply := some ⟨mt, q.drw.idx.getD 0, q.drw.seq, flDir, pay⟩ } := by
  unfold drawSend
  exact emit_field Port.drw (fun _ _ => rfl) _ _

theorem drawSend_field {β : Type} (g : Port → β) (hl : ∀ q l, g { q with line := l } = g q) (hw : ∀ q w, g { q with drw := w } = g q)
    (mt : BitVec 6) (pay : List Byte) (q : Port) : g (drawSend mt pay q) = g q := by
  unfold drawSend
  exact (emit_field g hl _ _).trans (hw _ _)

/-- The answer to a GENERAL POLL that shows no contract, outside the HOLD band (Table 08-3, R154). -/
theorem answerGeneral_fields {d : Dev} {h : FrameTag} {m : PollMsg} {reply : PollReply} {q : Port} (hm : m.held = false) :
    let e := answerGeneral d h m false reply q
    e.drw.contract = q.drw.contract ∧ e.drw.seqRx = q.drw.seqRx ∧ (q.drw.ready = false → e.drw.limitMw = q.drw.limitMw) ∧ e.gate = q.gate := by
  have hmiss : missesReady m q.drw = false := by simp [missesReady, hm]
  have hshort : (drawShort d false h q).drw = q.drw ∧ (drawShort d false h q).gate = q.gate :=
    ⟨drawShort_field Port.drw (fun _ _ => rfl) d false h q, drawShort_field Port.gate (fun _ _ => rfl) d false h q⟩
  obtain ⟨hsd, hsg⟩ := hshort
  cases reply with
  | nothing =>
    simp only [answerGeneral, hmiss, Bool.false_and, Bool.false_eq_true, if_false, hsd, hsg]
    exact ⟨trivial, trivial, fun _ => trivial, trivial⟩
  | decline =>
    simp only [answerGeneral, hmiss, Bool.false_and, Bool.false_eq_true, if_false, hsd, hsg]
    exact ⟨trivial, trivial, fun _ => trivial, trivial⟩
  | report x =>
    simp only [answerGeneral, hmiss, Bool.false_and, Bool.false_eq_true, if_false, drawReport, drawSend_drw]
    exact ⟨trivial, trivial, fun _ => trivial, (drawSend_field Port.gate (fun _ _ => rfl) (fun _ _ => rfl) _ _ _)⟩
  | hint x =>
    simp only [answerGeneral, hmiss, Bool.false_eq_true, if_false, drawSend_drw]
    exact ⟨trivial, trivial, fun _ => trivial, (drawSend_field Port.gate (fun _ _ => rfl) (fun _ _ => rfl) _ _ _)⟩
  | request r =>
    simp only [answerGeneral, hmiss, Bool.false_eq_true, if_false]
    split
    · simp only [drawRequest, drawSend_drw]
      exact ⟨trivial, trivial, fun hr => by simp [hr], (drawSend_field Port.gate (fun _ _ => rfl) (fun _ _ => rfl) _ _ _)⟩
    · rw [hsd, hsg]
      exact ⟨rfl, rfl, fun _ => rfl, rfl⟩

/-- A POLL as the port takes it: the band of its wire read, the POLL noted, the answer given (R176). -/
theorem execPollReceived_eq {p : PortId} {h : FrameTag} {m : PollMsg} {r : PollReply} {mv : Nat} {s : State}
    (hn : drawNamed (s.dev.port p) = true) (hs : drawSpeaks s.dev (s.dev.port p) = true) :
    ∃ d1 d2 : Dev, (∀ x, d1.port x = s.dev.port x) ∧ execPollReceived p h m r mv s = .next { s with
      dev := relieve (d1.modPort p fun q => answerPoll d2 h m (decide ((bandOf mv s.dev).1 = 0)) (drawDuplicate (s.dev.port p) h false) r
        (notePoll h m (drawDuplicate (s.dev.port p) h false) s.dev.us q)) }
      ∧ d2.us = s.dev.us ∧ ∀ q, drawSpeaks d2 q = drawSpeaks s.dev q := by
  obtain ⟨hport, hpw, hus⟩ := bandOf_device mv s.dev
  refine ⟨(bandOf mv s.dev).2, (bandOf mv s.dev).2.modPort p (notePoll h m (drawDuplicate (s.dev.port p) h false) s.dev.us), hport, ?_, ?_, ?_⟩
  · have hspeaks : drawSpeaks ((bandOf mv s.dev).2.modPort p (notePoll h m (drawDuplicate (s.dev.port p) h false) s.dev.us))
        (((bandOf mv s.dev).2.modPort p (notePoll h m (drawDuplicate (s.dev.port p) h false) s.dev.us)).port p) = true := by
      rw [modPort_port, notePoll_speaks, hport, ← hs]
      simp only [drawSpeaks, modPort_pw, hpw]
    simp only [execPollReceived, onDev_eq, hn, guardDev_true, hspeaks, if_true, modPort_modPort]
  · rw [modPort_us, hus]
  · intro q
    simp only [drawSpeaks, modPort_pw, hpw]

theorem sent_answerGeneral_nothing {d : Dev} {h : FrameTag} {m : PollMsg} {hold : Bool} {q : Port} (hm : m.held = false)
    (hs : drawSpeaks d q = true) : Sent (.short false h.seq) (answerGeneral d h m hold .nothing q) := by
  simp only [answerGeneral, missesReady, hm, Bool.false_and, Bool.false_eq_true, if_false]
  exact drawShort_sent hs

/-- A reply without its ACK stays held, whatever the POLL is answered with (R152). -/
theorem answerPoll_reply {d : Dev} {h : FrameTag} {m : PollMsg} {hold dup : Bool} {r : PollReply} {q : Port} {f : Frame}
    (hf : q.drw.reply = some f) : (answerPoll d h m hold dup r q).drw.reply = some f := by
  have hshort (nak : Bool) (q : Port) : (drawShort d nak h q).drw = q.drw := drawShort_field Port.drw (fun _ _ => rfl) d nak h q
  unfold answerPoll
  simp only [hf]
  split
  · rw [emit_field Port.drw fun _ _ => rfl, hf]
  · split
    · unfold answerRestore
      split <;> rw [hshort, hf]
    · unfold pollShort
      rw [hshort, hf]

theorem answerPoll_permits {d : Dev} {h : FrameTag} {m : PollMsg} {hold dup : Bool} {r : PollReply} {q : Port} {f : Frame}
    (hf : q.drw.reply = some f) (hp : pollPermits m.kind hold f = true) :
    Sent (.full { f with flags := f.flags ||| flRetry }) (answerPoll d h m hold dup r q) := by
  unfold answerPoll
  simp only [hf, hp, if_true]
  exact emit_sent _ _

theorem answerPoll_withholds {d : Dev} {h : FrameTag} {m : PollMsg} {hold dup : Bool} {r : PollReply} {q : Port} {f : Frame}
    (hf : q.drw.reply = some f) (hp : pollPermits m.kind hold f = false) (hk : m.kind = 0 ∨ m.kind = 2) (hs : drawSpeaks d q = true) :
    Sent (.short (decide (m.kind = 2)) h.seq) (answerPoll d h m hold dup r q) := by
  have h1 : m.kind ≠ 1 := by rcases hk with hk | hk <;> simp [hk]
  unfold answerPoll
  simp only [hf, hp, Bool.false_eq_true, if_false, h1, false_and, pollShort, decide_false, Bool.false_and, Bool.or_false]
  exact drawShort_sent hs

/-- Settles O34: a beacon by the record it leaves, a POLL by what it notes and the answer it gets. That a reply without its ACK waits for a
POLL that permits it is the model's choice (assumption 115). -/
theorem drawHearsItsHead : Obligations.DrawHearsItsHead := by
  unfold Obligations.DrawHearsItsHead
  intro s p
  refine ⟨fun pinB h m ns hhears hnew htried hrestore => ?beacon, fun h m hhears => ⟨fun hnew => ?advert, fun hdup => ?repeated⟩,
    fun h m r mv hn hnew hkind hheld hlow hhigh hs hreply => ?poll, fun h m r mv f hn hs hf => ?reply,
    fun k j m mv idle hmay hmv hnow => ?enroll⟩
  case beacon =>
    have hlost : enrolLost p s.dev = s.dev := by simp [enrolLost, htried]
    have hexec : exec (.beaconReceived p pinB h m ns) s = .next { s with dev := s.dev.modPort p (beaconTaken pinB h m ns s.dev.us) } := by
      show execBeaconReceived p pinB h m ns s = _
      simp only [execBeaconReceived, onDev_eq, hhears, guardDev_true, hnew, Bool.false_eq_true, if_false, hlost]
      rfl
    refine leads_next hexec ?_
    rw [modPort_port, modPort_port_other, beaconTaken_drw]
    have hkeep {β : Type} (g : Draw → β) (hw : ∀ w a b, g { w with enrw := a, skip := b } = g w) (hr : ∀ w a, g { w with restoreAt := a } = g w) :
        g (beaconDraw pinB h m ns s.dev.us (s.dev.port p).drw) = g (noteBeacon pinB h m ns s.dev.us (s.dev.port p).drw) :=
      beaconDraw_keeps g hw hr pinB h m ns s.dev.us _
    refine ⟨hkeep Draw.beacons (fun _ _ _ => rfl) (fun _ _ => rfl), rfl, hkeep Draw.beaconAdv (fun _ _ _ => rfl) (fun _ _ => rfl),
      hkeep Draw.seqRxBc (fun _ _ _ => rfl) (fun _ _ => rfl), fun hj => ⟨?_, ?_⟩, fun hg => beaconTaken_cur hg, ?_,
      fun hshed hm ht => beaconDraw_restore hshed hm ht hrestore, ?_, rfl⟩
    · refine (hkeep Draw.pinA (fun _ _ _ => rfl) (fun _ _ => rfl)).trans ?_
      cases pinB <;> simp [noteBeacon, hj]
    · refine (hkeep Draw.pinB (fun _ _ _ => rfl) (fun _ _ => rfl)).trans ?_
      cases pinB <;> simp [noteBeacon, hj]
    · exact (shedReleased_keeps Draw.enrw (fun _ _ => rfl) _ _ _).trans (enrolWindow_enrw _ _)
    · exact drawLevel_keeps Port.gate (fun _ _ => rfl) _
  case advert =>
    show execAdvertReceived p h m s = _
    rw [execAdvertReceived, onDev_eq, drawFrame_newBc hhears hnew, modPort_modPort]
    rfl
  case repeated =>
    show execAdvertReceived p h m s = _
    simp only [execAdvertReceived, onDev_eq, drawFrame, if_true, hhears, Bool.false_eq_true, if_false, hdup]
    rfl
  case poll =>
    obtain ⟨d1, d2, hport, hexec, hus, hspeaks⟩ := execPollReceived_eq (p := p) (h := h) (m := m) (r := r) (mv := mv) hn hs
    have hhold : decide ((bandOf mv s.dev).1 = 0) = false := decide_eq_false (bandOf_free hlow)
    have hnoreply := (notePoll_keeps Draw.reply (fun _ _ _ _ => rfl) (fun _ _ _ _ => rfl) (fun _ _ _ => rfl) h m false s.dev.us
      (s.dev.port p)).trans hreply
    have hgate := notePoll_port Port.gate (fun _ _ => rfl) (fun _ _ => rfl) h m false s.dev.us (s.dev.port p)
    have hspeak := ((hspeaks _).trans (notePoll_speaks s.dev h m false s.dev.us (s.dev.port p))).trans hs
    obtain ⟨hcon, hseq, hlim⟩ := notePoll_ends (h := h) (now := s.dev.us) (q := s.dev.port p) hheld
    rw [hnew, hhold] at hexec
    have hans : answerPoll d2 h m false false r (notePoll h m false s.dev.us (s.dev.port p)) =
        answerGeneral d2 h m false r (notePoll h m false s.dev.us (s.dev.port p)) := by
      simp only [answerPoll, hnoreply, Bool.false_eq_true, if_false, hkind, if_true]
    obtain ⟨h1, h2, h3, h4⟩ := answerGeneral_fields (d := d2) (h := h) (reply := r) (q := notePoll h m false s.dev.us (s.dev.port p)) hheld
    refine leads_next hexec ?_
    rw [relieve_drw, relieve_gate, modPort_port, hport, hans]
    refine ⟨h1.trans hcon, fun hsome => (h3 (hlim hsome).2).trans (hlim hsome).1, h2.trans hseq, fun hr => sent_relieve ?_,
      fun x hr => sent_relieve ?_, h4.trans hgate, otherRole_relieve ?_⟩
    · rw [modPort_port, hport, hans, hr]
      exact sent_answerGeneral_nothing hheld hspeak
    · have hidx := notePoll_keeps Draw.idx (fun _ _ _ _ => rfl) (fun _ _ _ _ => rfl) (fun _ _ _ => rfl) h m false s.dev.us (s.dev.port p)
      have hown := notePoll_keeps Draw.seq (fun _ _ _ _ => rfl) (fun _ _ _ _ => rfl) (fun _ _ _ => rfl) h m false s.dev.us (s.dev.port p)
      rw [modPort_port, hport, hans, hr]
      simp only [answerGeneral, missesReady, hheld, Bool.false_and, Bool.false_eq_true, if_false, drawSend, hidx, hown]
      exact emit_sent _ _
    · rw [modPort_port_other, hport]
  case reply =>
    obtain ⟨d1, d2, hport, hexec, hus, hspeaks⟩ := execPollReceived_eq (p := p) (h := h) (m := m) (r := r) (mv := mv) hn hs
    have hheld := (notePoll_keeps Draw.reply (fun _ _ _ _ => rfl) (fun _ _ _ _ => rfl) (fun _ _ _ => rfl) h m
      (drawDuplicate (s.dev.port p) h false) s.dev.us (s.dev.port p)).trans hf
    have hspeak := ((hspeaks _).trans (notePoll_speaks s.dev h m (drawDuplicate (s.dev.port p) h false) s.dev.us (s.dev.port p))).trans hs
    refine leads_next hexec ?_
    rw [relieve_drw]
    have hsent {x : TxItem} (hx : Sent x (answerPoll d2 h m (decide ((bandOf mv s.dev).1 = 0)) (drawDuplicate (s.dev.port p) h false) r
        (notePoll h m (drawDuplicate (s.dev.port p) h false) s.dev.us (s.dev.port p)))) : Sent x ((relieve (d1.modPort p fun q =>
          answerPoll d2 h m (decide ((bandOf mv s.dev).1 = 0)) (drawDuplicate (s.dev.port p) h false) r
            (notePoll h m (drawDuplicate (s.dev.port p) h false) s.dev.us q))).port p) := by
      refine sent_relieve ?_
      rw [modPort_port, hport]
      exact hx
    refine ⟨?_, fun hmv hk => hsent (answerPoll_permits hheld ?_), fun hm hk => hsent (answerPoll_permits hheld ?_),
      fun hm hmv hk => hsent ?_, fun hm hk => hsent ?_⟩
    · rw [modPort_port, hport]
      exact answerPoll_reply hheld
    · simp [pollPermits, hk, bandOf_free hmv]
    · simpa [pollPermits, hm] using hk
    · have hno := answerPoll_withholds (d := d2) (h := h) (m := m) (hold := decide ((bandOf mv s.dev).1 = 0))
        (dup := drawDuplicate (s.dev.port p) h false) (r := r) hheld (by rw [pollPermits, if_neg hm]; simp [bandOf_hold hmv]) (Or.inl hk) hspeak
      rw [hk] at hno
      exact hno
    · have hno := answerPoll_withholds (d := d2) (h := h) (m := m) (hold := decide ((bandOf mv s.dev).1 = 0))
        (dup := drawDuplicate (s.dev.port p) h false) (r := r) hheld (by rw [pollPermits, if_neg hm]; simp [hk]) (Or.inr hk) hspeak
      rw [hk] at hno
      exact hno
  case enroll =>
    rw [leads_onDev (show exec (.enrollMinislot p k j m mv idle) s = execEnrollMinislot p k j m mv idle s from rfl)]
    simp only [hmay, hnow, decide_true, Bool.and_self, guardDev_true, bandOf_enroll hmv, if_true, modPort_port, modPort_port_other]
    cases idle with
    | true =>
      simp only [if_true, true_imp_iff, Bool.true_eq_false, false_imp_iff, true_and, and_true]
      unfold sendEnroll
      rw [emit_field Port.drw fun _ _ => rfl]
      exact ⟨rfl, rfl, rfl, emit_sent _ _⟩
    | false =>
      simp only [Bool.false_eq_true, if_false, false_imp_iff, true_imp_iff, and_true, true_and]

end Sys2Proof.Laws
end

section
/-! The gang bus: what its events leave, membership, and the frames (R317 to R335). -/

namespace Sys2Proof.Laws

open Sys2Proof Machine

/-! ## What the gang's own events leave (R332, R333, R335) -/

theorem post_core (x : EventSpec) (d : Dev) : (post x d).core = d.core := by
  have hlose (a b : Half) (e : Dev) : (loseEvent a b e).core = e.core := by
    unfold loseEvent setOvf setG
    repeat' split
    all_goals rfl
  unfold post
  dsimp only
  split
  · rw [hlose]
    dsimp only
    split <;> rfl
  · dsimp only
    split <;> rfl

/-- A gang without what it has told the host and stored. -/
def Gang.bare (g : Gang) : Gang :=
  { g with told := (0, 0, 0, false, false), toldShare := 0, stored := none, storedAt := none }

/-- A read of a gang that looks past what was told and stored. -/
theorem bare_field {α : Type} (f : Gang → α) (hf : ∀ g, f (Gang.bare g) = f g) {a b : Gang}
    (h : Gang.bare a = Gang.bare b) : f a = f b := by
  rw [← hf a, ← hf b, h]

theorem gangTell_gang (d : Dev) : Gang.bare (gangTell d).gang = Gang.bare d.gang := by
  unfold gangTell
  dsimp only
  split
  · rw [gang_of_steady (postGlobal_steady _ _ _ _ _)]
    rfl
  · rfl

theorem gangTell_reads {α : Type} (f : Gang → α) (hf : ∀ g, f (Gang.bare g) = f g) (d : Dev) :
    f (gangTell d).gang = f d.gang := bare_field f hf (gangTell_gang d)

@[simp] theorem gangTell_port (d : Dev) (r : PortId) : (gangTell d).port r = d.port r := by
  unfold gangTell
  dsimp only
  split
  · rw [postGlobal_port]
    exact port_congr rfl rfl r
  · rfl

theorem gangTell_core (d : Dev) : (gangTell d).core = d.core := by
  unfold gangTell
  dsimp only
  split
  · exact post_core _ _
  · rfl

theorem storeShare_bare (d : Dev) :
    Gang.bare (storeShare d).gang = Gang.bare d.gang ∧ (storeShare d).core = d.core := by
  unfold storeShare
  split
  · exact ⟨rfl, rfl⟩
  · dsimp only
    generalize (_ && _ && !d.gl.khot : Bool) = due
    cases due <;> exact ⟨rfl, rfl⟩

theorem followLevel_gang (d : Dev) : (followLevel d).gang = d.gang := by
  unfold followLevel
  split
  · exact (modPort_gang _ .p1 _).trans (modPort_gang d .p0 _)
  · rfl

theorem followLevel_core (d : Dev) : (followLevel d).core = d.core := by
  unfold followLevel
  split
  · exact (modPort_core _ .p1 _).trans (modPort_core d .p0 _)
  · rfl

/-- What follows a GLEAD, sent or taken: the level, the stored share, what the host is told. -/
def gangFollows (d : Dev) : Dev := gangTell (storeShare (followLevel d))

theorem gangFollows_gang (d : Dev) : Gang.bare (gangFollows d).gang = Gang.bare d.gang := by
  unfold gangFollows
  rw [gangTell_gang, (storeShare_bare _).1, followLevel_gang]

theorem gangFollows_core (d : Dev) : (gangFollows d).core = d.core := by
  unfold gangFollows
  rw [gangTell_core, (storeShare_bare _).2, followLevel_core]

/-! ## A frame of the leader (R317, R325) -/

/-- The leader as its frame begins: the frame before is closed and this one is counted. -/
def frameBegun (d : Dev) : Dev :=
  { d with gang := { closeFrame d.gang with
      edgeAt := d.us, frame := d.gang.frame + 1, leaderId := d.gang.id, modeIn := d.gang.mode } }

/-- The leader as its GLEAD goes out with these shares. -/
def gleadSent (shares : Sparse Half) (d : Dev) : Dev :=
  { d with gang := { driveGdat 100 0x01 (gleadPayload (gleadOf d shares)) d.gang with
    shares := shares, level := (gleadOf d shares).level, allIdle := (gleadOf d shares).allIdle
    txLead := gleadOf d shares :: d.gang.txLead
    shareNext := if d.gang.alone then none else some (spGet 0 shares d.gang.id.toNat)
    shedShare := !d.gang.alone && decide ((spGet 0 shares d.gang.id.toNat).toNat
      < (ownGmem d).fixedRes.toNat + (ownGmem d).admitted.toNat) } }

theorem leadFrame_eq (d : Dev) :
    leadFrame d = gangFollows (gleadSent (frameShares (frameBegun d)) (frameBegun d)) := rfl

theorem leadFrame_reads {α : Type} (f : Gang → α) (hf : ∀ g, f (Gang.bare g) = f g) (d : Dev) :
    f (leadFrame d).gang = f (gleadSent (frameShares (frameBegun d)) (frameBegun d)).gang :=
  bare_field f hf (gangFollows_gang _)

theorem guardDev_pos {c : Bool} (h : c = true) {f : Dev → Dev} {d : Dev} : guardDev c f d = f d := if_pos h

/-! ## Membership (R320 to R325) -/

/-- Settles O35: each event by the gang it leaves, of which `gangTell` keeps all but what the host was told. -/
theorem gangMembership : Obligations.GangMembership := by
  unfold Obligations.GangMembership
  intro s hd
  refine ⟨fun t n hph hready => ?_, fun hph hidle => ?_, fun hph hbad => ?_, fun t hph ht => ?_⟩
  · rw [leads_onDev (show exec .gangJoin s = execGangJoin s from rfl)]
    have hg : (gangDrives s.dev && (decide (2 ≤ n) || gsyncIdle s.dev t 0)) = true := by simpa [hd] using hready
    simp only [hph, guardDev_pos hg]
    exact ⟨gangTell_reads Gang.phase (fun _ => rfl) _, gangTell_reads Gang.leader (fun _ => rfl) _,
      gangTell_reads Gang.alone (fun _ => rfl) _,
      gangTell_reads Gang.shares (fun _ => rfl) _, gangTell_port _ .p0, gangTell_port _ .p1⟩
  · rw [leads_onDev (show exec .gangElection s = execGangElection s from rfl)]
    have hg : (gangDrives s.dev && decide (s.dev.gang.phase = .member) && gsyncIdle s.dev 0 (2000 * s.dev.gang.id.toNat)) = true := by
      simp [hd, hph, hidle]
    simp only [guardDev_pos hg]
    exact ⟨leadFrame_reads Gang.phase (fun _ => rfl) _, leadFrame_reads Gang.leader (fun _ => rfl) _,
      leadFrame_reads Gang.edgeAt (fun _ => rfl) _,
      leadFrame_reads Gang.leaderId (fun _ => rfl) _, leadFrame_reads Gang.frame (fun _ => rfl) _,
      leadFrame_reads (fun g => g.txLead.length) (fun _ => rfl) _⟩
  · rw [leads_onDev (show exec .gangReadbackFault s = execGangReadbackFault s from rfl)]
    have hg : (decide (3 ≤ s.dev.gang.badReads) && decide (s.dev.gang.phase = .member)) = true := by simp [hph, hbad]
    simp only [guardDev_pos hg]
    exact ⟨gangTell_reads Gang.phase (fun _ => rfl) _, gangTell_reads Gang.alone (fun _ => rfl) _,
      gangTell_reads Gang.leader (fun _ => rfl) _,
      gangTell_reads Gang.count (fun _ => rfl) _, gangTell_reads Gang.share (fun _ => rfl) _, gangTell_port _ .p0, gangTell_port _ .p1⟩
  · show execGangRetry s = _
    simp only [execGangRetry, onDev_eq, hph, guardDev_pos (show (gangDrives s.dev && decide (t ≤ s.dev.us)) = true by simp [hd, ht])]

/-! ## Frames (R317, R321, R323, R330, R331) -/

/-- A member as a GLEAD reaches it, before its level follows. -/
def gleadTaken (m : GleadMsg) (d : Dev) : Dev :=
  { d with
    fwu := { d.fwu with gleadSeen := true }
    gang := { noteGlead m d.gang with
      modeIn := m.mode, level := m.level, allIdle := m.allIdle, alone := false, leader := false
      count := BitVec.ofNat 4 (((List.range 16).filter fun i => m.bitmap.getLsbD i).length - 1)
      shareNext := if m.bitmap.getLsbD d.gang.id.toNat then some (m.shares.getD d.gang.id.toNat 0) else d.gang.shareNext
      shedShare := if m.bitmap.getLsbD d.gang.id.toNat then
          decide ((m.shares.getD d.gang.id.toNat 0).toNat < (ownGmem d).fixedRes.toNat + (ownGmem d).admitted.toNat)
        else d.gang.shedShare } }

theorem takeGlead_eq (m : GleadMsg) (d : Dev) : takeGlead m d = gangFollows (gleadTaken m d) := rfl

theorem takeGlead_reads {α : Type} (f : Gang → α) (hf : ∀ g, f (Gang.bare g) = f g) (m : GleadMsg) (d : Dev) :
    f (takeGlead m d).gang = f (gleadTaken m d).gang :=
  bare_field f hf (gangFollows_gang _)

theorem hearGang_awake {d : Dev} (h : d.gang.phase ≠ .silent) : hearGang d = raise 6 d := if_neg h

theorem raise_six (d : Dev) : (raise 6 d).core.ipend.getLsbD 6 = true := by
  simp [raise]

/-- A frame of the leader, by what it counts, sends and gives itself. -/
theorem leadFrame_leads (s : State) (hd : gangDrives s.dev = true) (hph : s.dev.gang.phase = .leader)
    (ht : s.dev.gang.edgeAt + 39800 ≤ s.dev.us) : Leads .gangFrame s fun d =>
      d.gang.phase = .leader ∧ d.gang.edgeAt = s.dev.us ∧ d.gang.frame = s.dev.gang.frame + 1
      ∧ (∃ m, d.gang.txLead = m :: s.dev.gang.txLead ∧ m.leader = s.dev.gang.id ∧ m.mode = s.dev.gang.mode
          ∧ m.frame = s.dev.gang.frame + 1 ∧ m.budget = s.dev.gl.shelf
          ∧ (d.gang.alone = false → d.gang.shareNext = some (spGet 0 d.gang.shares s.dev.gang.id.toNat)))
      ∧ (3 ≤ s.dev.gang.noGmem → d.gang.alone = true ∧ d.gang.members = []) := by
  rw [leads_onDev (show exec .gangFrame s = execGangFrame s from rfl)]
  rw [guardDev_pos (by simp [hd, hph, ht])]
  have halone := leadFrame_reads Gang.alone (fun _ => rfl) s.dev
  refine ⟨(leadFrame_reads Gang.phase (fun _ => rfl) _).trans hph, leadFrame_reads Gang.edgeAt (fun _ => rfl) _,
    leadFrame_reads Gang.frame (fun _ => rfl) _,
    ⟨_, leadFrame_reads Gang.txLead (fun _ => rfl) _, rfl, rfl, rfl, rfl, fun ha => ?_⟩, fun hn => ⟨?_, ?_⟩⟩
  · rw [leadFrame_reads Gang.shareNext (fun _ => rfl) _, leadFrame_reads Gang.shares (fun _ => rfl) _]
    have hbegun : (frameBegun s.dev).gang.alone = false := halone.symm.trans ha
    exact if_neg (by rw [hbegun]; decide)
  · exact halone.trans (decide_eq_true hn)
  · rw [leadFrame_reads Gang.members (fun _ => rfl) _]
    exact if_pos (decide_eq_true hn)

theorem glead_leads (s : State) (hup : s.dev.up = true) (m : GleadMsg) :
    (s.dev.gang.phase = .member → Leads (.glead m) s fun d =>
      d.gang.phase = .member ∧ d.gang.leaderId = m.leader ∧ d.gang.frame = m.frame ∧ d.gang.modeIn = m.mode
      ∧ d.gang.level = m.level ∧ d.gang.s = m.budget ∧ d.gang.slotDue = true ∧ d.core.ipend.getLsbD 6 = true
      ∧ (m.bitmap.getLsbD s.dev.gang.id.toNat = true → d.gang.shareNext = some (m.shares.getD s.dev.gang.id.toNat 0))
      ∧ (m.bitmap.getLsbD s.dev.gang.id.toNat = false → d.gang.shareNext = s.dev.gang.shareNext))
    ∧ (∀ t n, s.dev.gang.phase = .listening t n → Leads (.glead m) s fun d => d.gang.phase = .listening t (n + 1))
    ∧ (s.dev.gang.phase = .leader → s.dev.gang.foreign = true → m.leader < s.dev.gang.id → Leads (.glead m) s fun d =>
      d.gang.phase = .member ∧ d.gang.leader = false ∧ d.gang.members = [] ∧ d.gang.leaderId = m.leader)
    ∧ (s.dev.gang.phase = .leader → s.dev.gang.foreign = false → Leads (.glead m) s fun d => d.gang = s.dev.gang) := by
  refine ⟨fun hph => ?_, fun t n hph => ?_, fun hph hf hlt => ?_, fun hph hf => ?_⟩ <;>
    rw [leads_onDev (show exec (.glead m) s = execGlead m s from rfl), guardDev_pos hup] <;>
    dsimp only <;> rw [hearGang_awake (by simp [hph])] <;>
    simp only [show (raise 6 s.dev).gang = s.dev.gang from rfl, hph]
  · refine ⟨(takeGlead_reads Gang.phase (fun _ => rfl) m _).trans hph,
      takeGlead_reads Gang.leaderId (fun _ => rfl) m _,
      takeGlead_reads Gang.frame (fun _ => rfl) m _,
      takeGlead_reads Gang.modeIn (fun _ => rfl) m _, takeGlead_reads Gang.level (fun _ => rfl) m _,
      takeGlead_reads Gang.s (fun _ => rfl) m _,
      takeGlead_reads Gang.slotDue (fun _ => rfl) m _, ?_, fun hb => ?_, fun hb => ?_⟩
    · rw [takeGlead_eq, gangFollows_core]
      exact raise_six s.dev
    · exact (takeGlead_reads Gang.shareNext (fun _ => rfl) m _).trans (if_pos hb)
    · exact (takeGlead_reads Gang.shareNext (fun _ => rfl) m _).trans (if_neg (by simp [hb]))
  · rw [if_pos ⟨hf, hlt⟩]
    exact ⟨takeGlead_reads Gang.phase (fun _ => rfl) m _, takeGlead_reads Gang.leader (fun _ => rfl) m _,
      takeGlead_reads Gang.members (fun _ => rfl) m _, takeGlead_reads Gang.leaderId (fun _ => rfl) m _⟩
  · rw [if_neg (by simp [hf])]
    rfl

theorem gsyncEdge_leads (s : State) (hup : s.dev.up = true) : Leads .gsyncEdge s fun d =>
    d.gang.edgeAt = s.dev.us ∧ d.gang.slotDue = false ∧ (d.gang.foreign = true ↔ s.dev.gang.phase = .leader)
    ∧ (∀ t n, s.dev.gang.phase = .listening t n → s.dev.gang.slotDue = false → d.gang.phase = .listening t 0)
    ∧ d.gang.shares = s.dev.gang.shares ∧ d.p0 = s.dev.p0 ∧ d.p1 = s.dev.p1 := by
  rw [leads_onDev (show exec .gsyncEdge s = execGsyncEdge s from rfl), guardDev_pos hup]
  refine ⟨rfl, rfl, decide_eq_true_iff, fun t n hph hslot => ?_, rfl, rfl, rfl⟩
  simp only [hph, hslot]
  rfl

theorem gmem_leads (s : State) (hup : s.dev.up = true) (m : GmemMsg) (hph : s.dev.gang.phase = .leader)
    (hid : m.id ≠ s.dev.gang.id) : Leads (.gmem m) s fun d =>
    (∃ l, d.gang.members = l ++ [⟨m, 0⟩] ∧ ∀ x ∈ l, x ∈ s.dev.gang.members ∧ x.last.id ≠ m.id)
    ∧ d.gang.noGmem = 0 ∧ d.gang.alone = false ∧ d.gang.heardOther = true ∧ m.id ∉ d.gang.awaiting
    ∧ d.gang.shares = s.dev.gang.shares ∧ d.p0 = s.dev.p0 ∧ d.p1 = s.dev.p1 := by
  rw [leads_onDev (show exec (.gmem m) s = execGmem m s from rfl), guardDev_pos hup]
  rw [hearGang_awake (by simp [hph]), guardDev_pos (by simp [raise, hph, hid])]
  refine ⟨⟨_, rfl, fun x hx => ?_⟩, rfl, rfl, rfl, ?_, rfl, rfl, rfl⟩
  · simpa [raise] using hx
  · simp

/-- Settles O36: the leader's frame by `leadFrame_leads`, a GLEAD by `glead_leads`, and the edge, the GMEM and the slot by what each
writes to the gang. -/
theorem gangFrames : Obligations.GangFrames := by
  unfold Obligations.GangFrames
  intro s hup
  refine ⟨leadFrame_leads s, gsyncEdge_leads s hup, glead_leads s hup, gmem_leads s hup, fun ok hd hph hslot ht => ?_⟩
  show execMemberSlot ok s = _
  have hslotAt : s.dev.gang.edgeAt + (3500 + 2000 * s.dev.gang.id.toNat) + 50
      = s.dev.gang.edgeAt + 3550 + 2000 * s.dev.gang.id.toNat := by omega
  simp only [execMemberSlot, onDev_eq, guardDev_pos (show (gangDrives s.dev && decide (s.dev.gang.phase = .member) && s.dev.gang.slotDue
    && decide (s.dev.gang.edgeAt + 3500 + 2000 * s.dev.gang.id.toNat ≤ s.dev.us)) = true by simp [hd, hph, hslot, ht]),
    driveGdat, hslotAt]

end Sys2Proof.Laws
end

section
/-! Heat: the points' limits, the bundle model and the THROT event (R47, R306 to R309). -/

namespace Sys2Proof.Laws

open Sys2Proof Machine

/-! ## A thermal point and its limit (R306) -/

theorem rising_spErase {α : Type} (s : Sparse α) (k : Nat) (hs : spRising s = true) : spRising (spErase s k) = true := by
  induction s with
  | nil => rfl
  | cons x t ih =>
    obtain ⟨a, w⟩ := x
    have ht : spRising t = true := ((spRising_cons a w t).1 hs).2
    have habove := keysAbove_spErase a k t (keysAbove_of_rising a w t hs)
    by_cases h : a = k
    · simpa [spErase, h] using ht
    · by_cases h2 : k < a
      · simpa [spErase, h, h2] using hs
      · simpa [spErase, h, h2] using rising_cons_of_above a w _ habove (ih ht)

/-- What a point's step does to a port: it moves the point's own limit and nothing else. -/
def pointMove (d : Dev) (p : PortId) (i : Nat) (q : Port) : Option (Option Nat) :=
  let (en, t, lim) := pointSeen d i
  if !en then some none
  else match spFind q.thermal i with
    | none => if lim ≤ t then some (some (admitSum (d.port p))) else none
    | some v =>
      if lim < t then some (some (v - capShare q 5))
      else if lim - 20 < t then none
      else if portCap q < v + capShare q 5 then some none
      else some (some (v + capShare q 5))

/-- A port with a point's limit moved: kept, dropped, or put. -/
def movedPoint (i : Nat) (q : Port) : Option (Option Nat) → Port
  | none => q
  | some none => { q with thermal := spErase q.thermal i }
  | some (some v) => { q with thermal := spPut q.thermal i v }

theorem pointStep_eq (d : Dev) (p : PortId) (i : Nat) (q : Port) : pointStep d p i q = movedPoint i q (pointMove d p i q) := by
  unfold pointStep pointMove
  generalize pointSeen d i = seen
  obtain ⟨en, t, lim⟩ := seen
  cases hf : spFind q.thermal i <;> dsimp only <;> (repeat' split) <;> rfl

theorem movedPoint_field {β : Type} (g : Port → β) (h : ∀ q l, g { q with thermal := l } = g q) (i : Nat) (q : Port)
    (m : Option (Option Nat)) : g (movedPoint i q m) = g q := by
  rcases m with _ | _ | v
  · rfl
  · exact h q _
  · exact h q _

theorem movedPoint_rising {i : Nat} {q : Port} (h : spRising q.thermal = true) (m : Option (Option Nat)) :
    spRising (movedPoint i q m).thermal = true := by
  rcases m with _ | _ | v
  · exact h
  · exact rising_spErase _ _ h
  · exact rising_spPut _ _ _ h

theorem movedPoint_other {i j : Nat} {q : Port} (h : spRising q.thermal = true) (hj : j ≠ i) (m : Option (Option Nat)) :
    spFind (movedPoint i q m).thermal j = spFind q.thermal j := by
  rcases m with _ | _ | v
  · rfl
  · exact spFind_spErase_ne _ _ _ h hj
  · exact spFind_spPut_ne _ _ _ _ hj

theorem movedPoint_same {i : Nat} {q : Port} (h : spRising q.thermal = true) (m : Option Nat) :
    spFind (movedPoint i q (some m)).thermal i = m := by
  rcases m with _ | v
  · exact spFind_spErase _ _ h
  · exact spFind_spPut _ _ _

/-- The steps of points other than `i` keep the port's cap, the order of its table, and the limit of `i`. -/
theorem pointSteps_other (d : Dev) (p : PortId) (i : Nat) (l : List Nat) (hl : i ∉ l) (q : Port) (hq : spRising q.thermal = true) :
    spRising (l.foldl (fun q j => pointStep d p j q) q).thermal = true
    ∧ spFind (l.foldl (fun q j => pointStep d p j q) q).thermal i = spFind q.thermal i
    ∧ portCap (l.foldl (fun q j => pointStep d p j q) q) = portCap q := by
  induction l generalizing q with
  | nil => exact ⟨hq, rfl, rfl⟩
  | cons j t ih =>
    simp only [List.mem_cons, not_or] at hl
    obtain ⟨hij, ht⟩ := hl
    have hr := movedPoint_rising hq (i := j) (pointMove d p j q)
    rw [← pointStep_eq] at hr
    obtain ⟨h1, h2, h3⟩ := ih ht _ hr
    refine ⟨h1, h2.trans ?_, h3.trans ?_⟩
    · rw [pointStep_eq, movedPoint_other hq hij]
    · rw [pointStep_eq, movedPoint_field portCap (fun _ _ => rfl)]

/-- Where a point of the port decides on a move, its limit after all points' steps is what it moved to. -/
theorem pointSteps_find {d : Dev} {p : PortId} {i : Nat} {q : Port} (hi : i ∈ pointsOf p) (hq : spRising q.thermal = true) :
    ∃ q', portCap q' = portCap q ∧ spFind q'.thermal i = spFind q.thermal i
      ∧ spFind (pointSteps d p q).thermal i = (pointMove d p i q').getD (spFind q.thermal i) := by
  have hnodup : (pointsOf p).Nodup := by cases p <;> decide
  obtain ⟨pre, post, hsplit⟩ := List.append_of_mem hi
  rw [hsplit] at hnodup
  have hpre : i ∉ pre := fun h => (List.nodup_append.1 hnodup).2.2 i h i (by simp) rfl
  have hpost : i ∉ post := (List.nodup_cons.1 (List.nodup_append.1 hnodup).2.1).1
  obtain ⟨hr, hf, hc⟩ := pointSteps_other d p i pre hpre q hq
  refine ⟨_, hc, hf, ?_⟩
  unfold pointSteps
  rw [hsplit, List.foldl_append, List.foldl_cons]
  generalize pre.foldl (fun q j => pointStep d p j q) q = q' at *
  rw [pointStep_eq]
  rw [(pointSteps_other d p i post hpost _ (movedPoint_rising hr _)).2.1]
  cases hm : pointMove d p i q' with
  | none => exact hf
  | some m => exact movedPoint_same hr m

/-- The limit of an enabled point, found or not, after the steps of one second. -/
theorem pointSteps_limit {d : Dev} {p : PortId} {i : Nat} {t lim : Int} {q : Port} (hi : i ∈ pointsOf p)
    (hseen : pointSeen d i = (true, t, lim)) (hq : spRising q.thermal = true) :
    (spFind q.thermal i = none → lim ≤ t → spFind (pointSteps d p q).thermal i = some (admitSum (d.port p)))
    ∧ ∀ v, spFind q.thermal i = some v →
      (lim < t → spFind (pointSteps d p q).thermal i = some (v - capShare q 5))
      ∧ (t ≤ lim → lim - 20 < t → spFind (pointSteps d p q).thermal i = some v)
      ∧ (t ≤ lim - 20 → spFind (pointSteps d p q).thermal i =
          if portCap q < v + capShare q 5 then none else some (v + capShare q 5)) := by
  obtain ⟨q', hcap, hf, hres⟩ := pointSteps_find (d := d) hi hq
  have hshare : capShare q' 5 = capShare q 5 := by rw [capShare, hcap, capShare]
  rw [hres]
  refine ⟨fun hnone hle => ?_, fun v hv => ⟨fun hlt => ?_, fun hle hlt => ?_, fun hle => ?_⟩⟩
  · simp [pointMove, hseen, hf, hnone, hle]
  · simp [pointMove, hseen, hf, hv, hlt, hshare]
  · simp [pointMove, hseen, hf, hv, Int.not_lt.mpr hle, hlt]
  · have h1 : ¬ lim < t := by omega
    have h2 : ¬ lim - 20 < t := by omega
    simp only [pointMove, hseen, hf, hv, Bool.not_true, Bool.false_eq_true, if_false, h1, h2, hshare, hcap]
    split <;> rfl

theorem throttleStep_thermal (d : Dev) (p : PortId) :
    ((throttleStep d).port p).thermal = (pointSteps d p (d.port p)).thermal := by
  unfold throttleStep
  rw [relieve_thermal]
  cases p <;> rfl

theorem pointSteps_gate (d : Dev) (p : PortId) (q : Port) : (pointSteps d p q).gate = q.gate := by
  unfold pointSteps
  induction pointsOf p generalizing q with
  | nil => rfl
  | cons i t ih =>
    rw [List.foldl_cons, ih, pointStep_eq]
    exact movedPoint_field Port.gate (fun _ _ => rfl) _ _ _

theorem throttleStep_gate (d : Dev) (p : PortId) : ((throttleStep d).port p).gate = (d.port p).gate := by
  unfold throttleStep
  rw [relieve_gate]
  cases p <;> exact pointSteps_gate _ _ _

theorem throttleStep_tb (d : Dev) : (throttleStep d).tb = { d.tb with thermalAt := d.us } := relieve_tb _

/-- THERMAL_THROTTLE_UPDATE, by its readings and, where it is due, the steps of every point. -/
theorem thermalThrottleUpdate_leads (s : State) (hup : s.dev.up = true) (a0 b0 a1 b1 : NtcReading) :
    Leads (.thermalThrottleUpdate a0 b0 a1 b1) s fun d =>
      d.tb.ntcA0 = readNtc a0 s.dev.tb.ntcA0 ∧ d.tb.ntcB1 = readNtc b1 s.dev.tb.ntcB1
      ∧ (allocRuns s.dev = true → s.dev.tb.thermalAt + 990000 ≤ s.dev.us → d.tb.thermalAt = s.dev.us ∧
          ∀ p i t lim, i ∈ pointsOf p → pointSeen (readPoints a0 b0 a1 b1 s.dev) i = (true, t, lim) →
            ((s.dev.port p).thermal = [] → lim ≤ t → spFind (d.port p).thermal i = some (admitSum (s.dev.port p)))
            ∧ ∀ v, (s.dev.port p).thermal = [(i, v)] →
              (lim < t → spFind (d.port p).thermal i = some (v - capShare (s.dev.port p) 5))
              ∧ (t ≤ lim → lim - 20 < t → spFind (d.port p).thermal i = some v)
              ∧ (t ≤ lim - 20 → spFind (d.port p).thermal i =
                  if portCap (s.dev.port p) < v + capShare (s.dev.port p) 5 then none
                  else some (v + capShare (s.dev.port p) 5)))
      ∧ (allocRuns s.dev = false → d.p0 = s.dev.p0 ∧ d.p1 = s.dev.p1 ∧ d.tb.thermalAt = s.dev.tb.thermalAt)
      ∧ ∀ p, (d.port p).gate = (s.dev.port p).gate := by
  rw [leads_onDev (show exec (.thermalThrottleUpdate a0 b0 a1 b1) s = execThermalThrottleUpdate a0 b0 a1 b1 s from rfl),
    guardDev_pos hup]
  have hport (p : PortId) : (readPoints a0 b0 a1 b1 s.dev).port p = s.dev.port p := port_congr rfl rfl p
  by_cases hdue : (allocRuns s.dev && decide (s.dev.tb.thermalAt + 990000 ≤ s.dev.us)) = true
  · rw [guardDev_pos hdue, throttleStep_tb]
    have hruns : allocRuns s.dev = true := (Bool.and_eq_true_iff.1 hdue).1
    refine ⟨rfl, rfl, fun _ _ => ⟨rfl, fun p i t lim hi hseen => ?_⟩, fun h => absurd (hruns.symm.trans h) (by decide), fun p => ?_⟩
    · rw [throttleStep_thermal, ← hport p]
      exact ⟨fun hnil => (pointSteps_limit hi hseen (by rw [hnil]; rfl)).1 (by rw [hnil]; rfl),
        fun v hv => (pointSteps_limit hi hseen (by rw [hv]; rfl)).2 v (by rw [hv]; simp [spFind])⟩
    · rw [throttleStep_gate, hport]
  · rw [Bool.eq_false_iff.2 hdue, guardDev_false]
    refine ⟨rfl, rfl, fun hruns ht => absurd ?_ hdue, fun _ => ⟨rfl, rfl, rfl⟩, fun p => congrArg Port.gate (hport p)⟩
    rw [hruns, decide_eq_true ht]
    rfl

/-! ## The bundle model (R307) -/

theorem bundleStep_field {β : Type} (g : Port → β) (h : ∀ q l, g { q with bundle := l } = g q) (n : Nat) (d : Dev) (r : PortId) :
    g ((bundleStep n d).port r) = g (d.port r) := by
  have hdrop (e : Dev) : g ((bundleDrop n e).port r) = g (e.port r) :=
    (field_modPort g .p1 r _ (fun q => h q _) _).trans (field_modPort g .p0 r _ (fun q => h q _) e)
  have hset (b : BundleRec) (e : Dev) : g ((setBundle n b e).port r) = g (e.port r) := congrArg g (port_congr rfl rfl r)
  have hask (b : BundleRec) (ta : Int) (he pw : Nat) (e : Dev) : g ((bundleAsk b ta he pw e).2.port r) = g (e.port r) := by
    unfold bundleAsk
    dsimp only
    repeat' split
    · exact congrArg g (port_congr rfl rfl r)
    · rfl
    · exact congrArg g (port_congr rfl rfl r)
    · rfl
  have hlim (b : BundleRec) (ta : Int) (he : Nat) (m : Bool) (p : PortId) (e : Dev) :
      g ((bundleLimit n b ta he m p e).port r) = g (e.port r) := by
    unfold bundleLimit
    split
    · exact (field_modPort g p r _ (fun q => h q _) _).trans (hask _ _ _ _ _)
    · exact field_modPort g p r _ (fun q => h q _) e
  unfold bundleStep
  dsimp only
  repeat' split
  all_goals simp only [hdrop, hset, hlim]

theorem bundleModel_port {β : Type} (g : Port → β) (h : ∀ q l, g { q with bundle := l } = g q) (d : Dev) (r : PortId) :
    g ((foldDev bundleStep (List.range 8) d).port r) = g (d.port r) :=
  foldDev_field (fun e => g (e.port r)) bundleStep (fun n e => bundleStep_field g h n e r) _ d

/-- Disabled groups leave the groups as they are, and ports that hold no limit of a group without one. -/
theorem bundleFold_disabled (l : List Nat) (d : Dev)
    (h : ∀ n ∈ l, (bundleOf d n).en = false ∧ (bundleOf d n).throttling = false) :
    (foldDev bundleStep l d).tb = d.tb
    ∧ ((∀ p, (d.port p).bundle = []) → ∀ p, ((foldDev bundleStep l d).port p).bundle = []) := by
  induction l generalizing d with
  | nil => exact ⟨rfl, id⟩
  | cons n t ih =>
    obtain ⟨hen, hthr⟩ := h n (by simp)
    have hstep : bundleStep n d = bundleDrop n d := by simp [bundleStep, hen, hthr]
    have htb : (bundleDrop n d).tb = d.tb := rfl
    have hnil (hall : ∀ p, (d.port p).bundle = []) (p : PortId) : ((bundleDrop n d).port p).bundle = [] := by
      have h0 := hall .p0
      have h1 := hall .p1
      cases p
      · show spErase d.p0.bundle n = []
        rw [show d.p0.bundle = [] from h0]; rfl
      · show spErase d.p1.bundle n = []
        rw [show d.p1.bundle = [] from h1]; rfl
    rw [foldDev, hstep]
    obtain ⟨h1, h2⟩ := ih (bundleDrop n d) (fun k hk => by
      unfold bundleOf
      rw [htb]
      exact h k (List.mem_cons_of_mem _ hk))
    exact ⟨h1.trans htb, fun hall => h2 (hnil hall)⟩

/-- The model's second is over: both ports' sums start again. -/
def bundleDone (now : Nat) (d : Dev) : Dev :=
  { (d.modPort .p0 secondDone).modPort .p1 secondDone with tb := { d.tb with bundleAt := now } }

theorem bundleDone_port (now : Nat) (d : Dev) (p : PortId) : (bundleDone now d).port p = secondDone (d.port p) := by
  cases p <;> rfl

theorem bundleDone_bundles (now : Nat) (d : Dev) : (bundleDone now d).tb.bundles = d.tb.bundles := rfl

theorem bundleModel_eq (d : Dev) : bundleModel d = relieve (bundleDone d.us (foldDev bundleStep (List.range 8) d)) := rfl

theorem bundleModel_leads (s : State) (hruns : allocRuns s.dev = true) (ht : s.dev.tb.bundleAt + 990000 ≤ s.dev.us) :
    Leads .bundleModel s fun d =>
      d.tb.bundleAt = s.dev.us
      ∧ (∀ p, (d.port p).met.secN = 0 ∧ (d.port p).met.secI = 0 ∧ (d.port p).gate = (s.dev.port p).gate)
      ∧ ((∀ g < 8, (bundleOf s.dev g).en = false ∧ (bundleOf s.dev g).throttling = false) →
          d.tb.bundles = s.dev.tb.bundles ∧ ((∀ p, (s.dev.port p).bundle = []) → ∀ p, (d.port p).bundle = [])) := by
  rw [leads_onDev (show exec .bundleModel s = execBundleModel s from rfl), guardDev_pos (by rw [hruns, decide_eq_true ht]; rfl)]
  rw [bundleModel_eq, relieve_tb]
  refine ⟨rfl, fun p => ?_, fun hoff => ?_⟩
  · rw [relieve_met, relieve_gate, bundleDone_port]
    exact ⟨rfl, rfl, bundleModel_port Port.gate (fun _ _ => rfl) s.dev p⟩
  · obtain ⟨htb, hnil⟩ := bundleFold_disabled (List.range 8) s.dev (fun g hg => hoff g (List.mem_range.1 hg))
    rw [bundleDone_bundles, htb]
    refine ⟨rfl, fun hall p => ?_⟩
    rw [relieve_bundle, bundleDone_port]
    exact hnil hall p

/-! ## The THROT event (R309) -/

theorem throt_leads (s : State) (hup : s.dev.up = true) (p : PortId) (ht : (s.dev.port p).throtAtMs < s.dev.us / 1000) :
    Leads (.throt p) s fun d =>
      (d.port p).throtDirty = false ∧ d.port p.other = s.dev.port p.other ∧ (d.port p).gate = (s.dev.port p).gate
      ∧ ((s.dev.port p).throtDirty = true → (d.port p).pevt.getLsbD eThrot = true)
      ∧ ((s.dev.port p).throtDirty = false → d = s.dev) := by
  rw [leads_onDev (show exec (.throt p) s = execThrot p s from rfl), guardDev_pos hup]
  unfold flushThrot postThrot
  rw [if_pos ht]
  dsimp only
  by_cases hdirty : (s.dev.port p).throtDirty = true
  · rw [if_pos hdirty, post_port, post_port, modPort_port, modPort_port_other]
    exact ⟨rfl, rfl, rfl, fun _ => setPevt_same eThrot (by decide) _, fun h => absurd (hdirty.symm.trans h) (by decide)⟩
  · rw [if_neg hdirty]
    exact ⟨Bool.eq_false_iff.2 hdirty, rfl, rfl, fun h => absurd h hdirty, fun _ => rfl⟩

/-- Settles O37: the readings and the points' limits, the groups of the bundle model, and the event that the last millisecond owes. -/
theorem heatThrottles : Obligations.HeatThrottles := by
  unfold Obligations.HeatThrottles
  intro s hup
  refine ⟨fun t => ?_, thermalThrottleUpdate_leads s hup, bundleModel_leads s, fun p => ⟨throt_leads s hup p, fun ht => ?_⟩⟩
  · show execTdieUpdate t s = _
    simp only [execTdieUpdate, onDev_eq, hup, Bool.true_and]
    by_cases hms : s.dev.us % 1000 = 0
    · rw [if_pos hms, guardDev_pos (decide_eq_true hms)]
    · rw [if_neg hms, decide_eq_false hms, guardDev_false]
  · show execThrot p s = _
    simp only [execThrot, onDev_eq, guardDev_pos hup, flushThrot, if_neg (Nat.not_lt.2 ht)]

end Sys2Proof.Laws
end

section
/-! The sample of a port with PCTL.EN 0 whose path is to close (R131, R339). -/

namespace Sys2Proof.Laws

open Sys2Proof Machine

/-! ## The sample of a port that closes with PCTL.EN 0 (R131, R339) -/

theorem noteThrot_grd (p r : PortId) (d : Dev) : ((noteThrot p d).port r).grd = (d.port r).grd :=
  (congrArg Port.grd (noteThrot_still p r d) :)

theorem noteThrot_wait (p : PortId) (d : Dev) : (noteThrot p d).core.wait = d.core.wait :=
  (congrArg Core.wait (noteThrot_coreOf p d) :)

/-- The guard of the tap side after a sample of a running device whose core waits for nothing. -/
theorem sampleDev_grd {a b : Sample} {d : Dev} (hup : d.up = true) (hwait : d.core.wait = none) :
    (sampleDev a b d).p0.grd = (samplePort (d.us + 1) a d.p0).grd := by
  have hup' : ({ d with us := d.us + 1 } : Dev).up = true := hup
  unfold sampleDev
  dsimp only
  rw [if_pos hup', settleWait_of_none]
  · exact (noteThrot_grd .p1 .p0 _).trans (noteThrot_grd .p0 .p0 _)
  · exact ((noteThrot_wait .p1 _).trans (noteThrot_wait .p0 _)).trans hwait

/-- A port with PCTL.EN 0 whose path is to close now, with its breaker not empty. -/
def closingDisabled : Port :=
  { att := { closeAt := some 0 }, cfg := { xfer := some (0, 0) }, grd := { acc := 1 } }

/-- A running device with that port. -/
def closingDisabledState : State :=
  { State.reset with dev := { State.reset.dev with
      pw := { State.reset.dev.pw with phase := .running, supply := true }, p0 := closingDisabled } }

/-- The sample closes the path, and closing empties the breaker. -/
theorem closingDisabled_sampled : (samplePort 1 ⟨0, 0, 0, 0, 0, 0⟩ closingDisabled).grd.acc = 0 := by
  decide

/-- Refutes O38: with PCTL.EN 0 the guard does not stay in a sample at which the path starts to close: R131's closing empties the
breaker's accumulator. -/
theorem not_meterCounts : ¬ Obligations.MeterCounts := by
  unfold Obligations.MeterCounts
  intro h
  obtain ⟨hsample, _⟩ := h closingDisabledState rfl rfl
  have hleads := hsample ⟨0, 0, 0, 0, 0, 0⟩ ⟨0, 0, 0, 0, 0, 0⟩ rfl
  rw [leads_onDev (show exec (.guardMeterSample _ _) closingDisabledState = execGuardMeterSample _ _ _ from rfl),
    guardDev_pos (show closingDisabledState.dev.pw.supply = true from rfl)] at hleads
  obtain ⟨_, _, _, _, _, hports⟩ := hleads
  obtain ⟨_, _, hoff, _⟩ := hports .p0
  obtain ⟨_, _, hgrd⟩ := hoff rfl
  have hacc : (samplePort 1 ⟨0, 0, 0, 0, 0, 0⟩ closingDisabled).grd = closingDisabled.grd :=
    (sampleDev_grd rfl rfl).symm.trans hgrd
  have : (0 : Int) = 1 := closingDisabled_sampled.symm.trans (congrArg Guard.acc hacc)
  exact absurd this (by decide)

end Sys2Proof.Laws
end

section
/-! Bytes read back, and what the engine's own pages leave from 0x8000 on (R401, R404, R409, R410, R492). -/

namespace Sys2Proof.Laws

open Sys2Proof Machine

/-! ## Byte stores: what a run of writes leaves at an address -/

/-- A write of bytes leaves each at its place. -/
theorem get_writeBytes (l : List Byte) (m : Sparse Byte) (a i : Nat) (h : Memory.wf m = true) (hi : i < l.length) :
    spGet 0 (writeBytes m a l) (a + i) = l[i] := by
  induction l generalizing m a i with
  | nil => exact absurd hi (by simp)
  | cons b t ih =>
    rw [writeBytes]
    cases i with
    | zero => rw [get_writeBytes_ne t _ _ _ (wf_byte m a b h) (by omega)]; exact get_byte m a b h
    | succ i =>
      have := ih _ (a + 1) i (wf_byte m a b h) (by simpa using hi)
      rw [show a + (i + 1) = a + 1 + i by omega, this]
      rfl

theorem readBytes_eq_map (m : Sparse Byte) (a n : Nat) : readBytes m a n = (List.range n).map fun i => spGet 0 m (a + i) := by
  induction n generalizing a with
  | zero => rfl
  | succ n ih =>
    rw [readBytes, ih, List.range_succ_eq_map, List.map_cons, List.map_map]
    congr 1
    exact List.map_congr_left fun i _ => by rw [show a + 1 + i = a + (i + 1) by omega]; rfl

@[simp] theorem length_readBytes (m : Sparse Byte) (a n : Nat) : (readBytes m a n).length = n := by
  simp [readBytes_eq_map]

theorem readBytes_congr {m m' : Sparse Byte} {a n : Nat} (h : ∀ i < n, spGet 0 m' (a + i) = spGet 0 m (a + i)) :
    readBytes m' a n = readBytes m a n := by
  rw [readBytes_eq_map, readBytes_eq_map]
  exact List.map_congr_left fun i hi => h i (List.mem_range.1 hi)

theorem readBytes_writeBytes (l : List Byte) (m : Sparse Byte) (a : Nat) (h : Memory.wf m = true) :
    readBytes (writeBytes m a l) a l.length = l := by
  rw [readBytes_eq_map]
  refine List.ext_getElem (by simp) fun i h1 h2 => ?_
  rw [List.getElem_map, List.getElem_range]
  exact get_writeBytes l m a i h h2

/-- Writing back what a range holds leaves every byte. -/
theorem get_writeBytes_readBytes (m : Sparse Byte) (a n j : Nat) (h : Memory.wf m = true) :
    spGet 0 (writeBytes m a (readBytes m a n)) j = spGet 0 m j := by
  by_cases hj : a ≤ j ∧ j < a + n
  · obtain ⟨i, rfl⟩ : ∃ i, j = a + i := ⟨j - a, by omega⟩
    have hi : i < (readBytes m a n).length := by rw [length_readBytes]; omega
    rw [get_writeBytes _ m a i h hi]
    simp [readBytes_eq_map]
  · exact get_writeBytes_ne _ m a j h (by rw [length_readBytes]; omega)

@[simp] theorem leNat_leBytes_two (n : Nat) : leNat (leBytes n 2) = n % 65536 := by
  simp only [leBytes, leNat, BitVec.toNat_ofNat]
  omega

/-! ## The engine's own pages lie below 0x8000 -/

/-- A Keep that comes from another by writes of the engine's own pages: every byte from 0x8000 on stays, and so does every
uncorrectable group there. -/
structure Above (k k' : Keep) : Prop where
  wf : Memory.wf k.e = true → Memory.wf k'.e = true
  bytes : Memory.wf k.e = true → ∀ a, 0x8000 ≤ a → spGet 0 k'.e a = spGet 0 k.e a
  bad : ∀ g, 4096 ≤ g → g ∈ k.bad → g ∈ k'.bad

theorem Above.of_same {k k' : Keep} (he : k'.e = k.e) (hbad : k'.bad = k.bad) : Above k k' :=
  ⟨fun h => by rwa [he], fun _ _ _ => by rw [he], fun _ _ hg => by rwa [hbad]⟩

theorem Above.refl (k : Keep) : Above k k := .of_same rfl rfl

theorem Above.trans {a b c : Keep} (h : Above a b) (h' : Above b c) : Above a c :=
  ⟨fun hw => h'.wf (h.wf hw), fun hw x hx => (h'.bytes (h.wf hw) x hx).trans (h.bytes hw x hx),
    fun g hg hb => h'.bad g hg (h.bad g hg hb)⟩

theorem groupsOf_below {a len g : Nat} (h : a + len ≤ 0x8000) (hg : 4096 ≤ g) : g ∉ groupsOf a len := by
  simp only [groupsOf, List.mem_map, List.mem_range, not_exists, not_and]
  omega

theorem above_eWrite {a : Nat} {l : List Byte} (k : Keep) (h : a + l.length ≤ 0x8000) : Above k (eWrite a l k) :=
  ⟨wf_writeBytes l k.e a, fun hw j hj => get_writeBytes_ne l k.e a j hw (by omega),
    fun g hg hb => List.mem_filter.2 ⟨hb, by simpa using groupsOf_below h hg⟩⟩

theorem above_sysWrite {g : Nat} {l : List Byte} (k : Keep) (h : 8 * g + l.length ≤ 0x4E00) : Above k (sysWrite g l k) :=
  above_eWrite k (by omega)

theorem above_tallyInc {c : Nat} (k : Keep) (hc : c < 64) : Above k (tallyInc c k) := by
  have hwrite (v : Nat) (sat : Bool) : Above k (tallyWrite c v sat k) := by
    refine above_eWrite k ?_
    have : v % 32 < 32 := Nat.mod_lt _ (by decide)
    simp only [cellAddr, List.length_append, length_leBytes, List.length_singleton]
    omega
  unfold tallyInc
  dsimp only
  split
  · exact hwrite _ _
  · exact hwrite _ _

theorem length_logBytes (l : LogEntry) : (logBytes l).length = 16 := rfl

theorem above_logRing (l : LogEntry) (k : Keep) : Above k (logRing l k) := by
  refine (above_eWrite k ?_).trans (.of_same rfl rfl)
  have : k.logPos % 1024 < 1024 := Nat.mod_lt _ (by decide)
  rw [length_logBytes]
  omega

theorem above_poisonPut {i : Nat} (v : Nat) (k : Keep) (hi : i < 32) : Above k (poisonPut i v k) :=
  (above_eWrite k (by rw [length_leBytes]; omega)).trans (above_eWrite _ (by rw [length_leBytes]; omega))

theorem freeEntry_lt {l : List Nat} {i j : Nat} (h : freeEntry l i = some j) : j < i + l.length := by
  induction l generalizing i with
  | nil => exact absurd h (by simp [freeEntry])
  | cons e t ih =>
    rw [freeEntry] at h
    rw [List.length_cons]
    split at h
    · have := ih h
      omega
    · injection h with h
      omega

theorem length_poisonEntries (k : Keep) : (poisonEntries k).length = 32 := by simp [poisonEntries]

theorem above_poisonAdd (g : Nat) (page : Bool) (k : Keep) : Above k (poisonAdd g page k) := by
  unfold poisonAdd
  split
  · exact .refl k
  · next i hi =>
    have : i < 32 := by simpa [length_poisonEntries] using freeEntry_lt hi
    exact (above_poisonPut _ k this).trans (above_tallyInc _ (by decide))

theorem above_poisonClearAt (g : Nat) (l : List Nat) (i : Nat) (k : Keep) (h : i + l.length ≤ 32) :
    Above k (poisonClearAt g l i k) := by
  induction l generalizing i k with
  | nil => exact .refl k
  | cons e t ih =>
    rw [List.length_cons] at h
    have hput : Above k (if poisonHits e g then poisonPut i 0 k else k) := by
      split
      · exact above_poisonPut 0 k (by omega)
      · exact .refl k
    exact hput.trans (ih _ _ (by omega))

theorem above_poisonClear (g : Nat) (k : Keep) : Above k (poisonClear g k) :=
  above_poisonClearAt g _ 0 k (Nat.le_of_eq (by rw [length_poisonEntries, Nat.zero_add]))

/-! ## What posting an event leaves (R354, R404) -/

theorem loseEvent_keep (a b : Half) (d : Dev) : (loseEvent a b d).keep = d.keep := by
  unfold loseEvent setOvf setG
  repeat' split
  all_goals rfl

theorem logEvent_above (e : Event) (ms : Word) (d : Dev) : Above d.keep (logEvent e ms d).keep := by
  unfold logEvent
  dsimp only
  split
  · exact .of_same rfl rfl
  · refine Above.trans ?_ (above_logRing _ _)
    exact .of_same rfl rfl

theorem logEvent_keep {β : Type} (g : Keep → β)
    (h : ∀ k e b hd lg lp, g { k with e := e, bad := b, held := hd, log := lg, logPos := lp } = g k)
    (e : Event) (ms : Word) (d : Dev) : g (logEvent e ms d).keep = g d.keep := by
  unfold logEvent
  dsimp only
  split
  · exact h d.keep d.keep.e d.keep.bad _ _ d.keep.logPos
  · exact h d.keep _ _ d.keep.held _ _

/-- A posted event is logged or not, and then taken into the queue or lost. -/
theorem post_shape (x : EventSpec) (d : Dev) : ∃ d1, (d1 = d ∨ ∃ e ms, d1 = logEvent e ms d)
    ∧ ((∃ a b qq, post x d = loseEvent a b { d1 with q := qq }) ∨ ∃ qq, post x d = { d1 with q := qq }) := by
  unfold post
  dsimp only
  generalize d.q.loses = lost
  cases hlog : x.log && logRoom d with
  | true =>
    cases lost with
    | true => exact ⟨_, .inr ⟨_, _, rfl⟩, .inl ⟨_, _, _, rfl⟩⟩
    | false => exact ⟨_, .inr ⟨_, _, rfl⟩, .inr ⟨_, rfl⟩⟩
  | false =>
    cases lost with
    | true => exact ⟨_, .inl rfl, .inl ⟨_, _, _, rfl⟩⟩
    | false => exact ⟨_, .inl rfl, .inr ⟨_, rfl⟩⟩

/-- The Keep after an event is posted: as it was, or with the event logged. -/
theorem post_keep_cases (x : EventSpec) (d : Dev) :
    (post x d).keep = d.keep ∨ ∃ e ms, (post x d).keep = (logEvent e ms d).keep := by
  obtain ⟨d1, hd1, hpost⟩ := post_shape x d
  have hkeep : (post x d).keep = d1.keep := by
    rcases hpost with ⟨a, b, qq, h⟩ | ⟨qq, h⟩
    · rw [h, loseEvent_keep]
    · rw [h]
  rcases hd1 with rfl | ⟨e, ms, rfl⟩
  · exact .inl hkeep
  · exact .inr ⟨e, ms, hkeep⟩

theorem post_keep {β : Type} (g : Keep → β)
    (h : ∀ k e b hd lg lp, g { k with e := e, bad := b, held := hd, log := lg, logPos := lp } = g k)
    (x : EventSpec) (d : Dev) : g (post x d).keep = g d.keep := by
  rcases post_keep_cases x d with he | ⟨e, ms, he⟩
  · rw [he]
  · rw [he, logEvent_keep g h]

theorem post_above (x : EventSpec) (d : Dev) : Above d.keep (post x d).keep := by
  rcases post_keep_cases x d with he | ⟨e, ms, he⟩
  · rw [he]; exact .refl _
  · rw [he]; exact logEvent_above e ms d

/-- A flag of GSTAT that is set stays set when an event is posted. -/
theorem post_gstat {i : Nat} (x : EventSpec) {d : Dev} (h : d.gl.gstat.getLsbD i = true) :
    (post x d).gl.gstat.getLsbD i = true := by
  have hlose (a b : Half) {e : Dev} (he : e.gl.gstat.getLsbD i = true) : (loseEvent a b e).gl.gstat.getLsbD i = true := by
    unfold loseEvent setOvf setG
    repeat' split
    · simp [he]
    all_goals exact he
  obtain ⟨d1, hd1, hpost⟩ := post_shape x d
  have hd1 : d1.gl = d.gl := by rcases hd1 with rfl | ⟨e, ms, rfl⟩ <;> rfl
  rw [← hd1] at h
  rcases hpost with ⟨a, b, qq, hp⟩ | ⟨qq, hp⟩
  · rw [hp]; exact hlose a b h
  · rw [hp]; exact h

theorem setG_same {i : Nat} (hi : i < 14) (d : Dev) : (setG i d).gl.gstat.getLsbD i = true := by
  simp only [setG, BitVec.getLsbD_or, BitVec.getLsbD_ofNat, Nat.testBit_two_pow_self, hi, decide_true, Bool.and_self, Bool.or_true]

end Sys2Proof.Laws
end

section
/-! A commit is issued, refused and started; due changes and dirty pages become commits (R107, R392 to R394, R400). -/

namespace Sys2Proof.Laws

open Sys2Proof Machine

/-! ## How a commit is issued (R392, R393) -/

/-- A field of Keep that a refusal leaves: KEEP_REFUSED touches the log alone. -/
theorem keepRefused_keep {β : Type} (g : Keep → β)
    (h : ∀ k e b hd lg lp, g { k with e := e, bad := b, held := hd, log := lg, logPos := lp } = g k) (n : Nat) (d : Dev) :
    g (keepRefused n d).keep = g d.keep := post_keep g h _ _

theorem keepRefused_gstat (n : Nat) (d : Dev) : (keepRefused n d).gl.gstat.getLsbD gKeep = true :=
  post_gstat _ (setG_same (by decide) _)

theorem keepRefused_ipend (n : Nat) (d : Dev) : (keepRefused n d).core.ipend.getLsbD 5 = true := by
  have hraise : (raise 5 d).core.ipend.getLsbD 5 = true := by simp [raise]
  exact (congrArg (fun c => c.ipend.getLsbD 5) (post_core _ (setG gKeep (raise 5 d))) :).trans hraise

theorem issue_protected {c : Commit} {d : Dev} (h : commitProtected d.keep.bp c.writes = true) :
    issue c d = (false, keepRefused 2 (bpRefused d)) := if_pos h

theorem issue_hot {c : Commit} {d : Dev} (h : commitProtected d.keep.bp c.writes = false) (hcrit : d.gl.crit = true) :
    issue c d = (false, keepRefused 1 { d with keep := { d.keep with bperr := false } }) := by
  simp [issue, h, hcrit]

theorem issue_queued {c : Commit} {d : Dev} (h : commitProtected d.keep.bp c.writes = false) (hcrit : d.gl.crit = false) :
    issue c d = (true, { d with keep := { d.keep with bperr := false, queue := d.keep.queue ++ [c] } }) := by
  simp [issue, h, hcrit]

/-- What an issued commit leaves of a field of Keep that neither the queue nor a refusal is. -/
theorem issue_keep {β : Type} (g : Keep → β)
    (h : ∀ k e b hd lg lp, g { k with e := e, bad := b, held := hd, log := lg, logPos := lp } = g k)
    (hq : ∀ k b q, g { k with bperr := b, queue := q } = g k) (c : Commit) (d : Dev) : g (issue c d).2.keep = g d.keep := by
  by_cases hprot : commitProtected d.keep.bp c.writes = true
  · rw [issue_protected hprot, keepRefused_keep g h]
    exact hq d.keep true d.keep.queue
  rw [Bool.not_eq_true] at hprot
  by_cases hcrit : d.gl.crit = true
  · rw [issue_hot hprot hcrit, keepRefused_keep g h]
    exact hq d.keep false d.keep.queue
  · rw [issue_queued hprot (Bool.eq_false_iff.2 hcrit)]
    exact hq d.keep false _

/-- The queue after a commit is issued while the latch is clear: the commit at its end, unless protection refuses it. -/
theorem issue_queue {c : Commit} {d : Dev} (hcrit : d.gl.crit = false) :
    (issue c d).2.keep.queue = d.keep.queue ++ (if commitProtected d.keep.bp c.writes then [] else [c]) := by
  by_cases hprot : commitProtected d.keep.bp c.writes = true
  · rw [issue_protected hprot, keepRefused_keep Keep.queue (fun _ _ _ _ _ _ => rfl), if_pos hprot, List.append_nil]
    rfl
  · rw [issue_queued (Bool.eq_false_iff.2 hprot) hcrit, if_neg hprot]

theorem keepCommitIssue_leads {s : State} {w : List (Nat × Byte)} (hrun : s.dev.core.run = true)
    (hsized : commitSized w = true) (hroom : queueRoom 1 s.dev = true) :
    (commitProtected s.dev.keep.bp w = false → s.dev.gl.crit = false → exec (.keepCommitIssue w) s = .next { s with dev :=
      { s.dev with keep := { s.dev.keep with bperr := false, queue := s.dev.keep.queue ++ [⟨w, .firmware⟩] } } })
    ∧ (commitProtected s.dev.keep.bp w = true → Leads (.keepCommitIssue w) s fun d =>
        d.keep.queue = s.dev.keep.queue ∧ d.keep.bperr = true ∧ d.gl.gstat.getLsbD gKeep = true ∧ d.core.ipend.getLsbD 5 = true)
    ∧ (commitProtected s.dev.keep.bp w = false → s.dev.gl.crit = true → Leads (.keepCommitIssue w) s fun d =>
        d.keep.queue = s.dev.keep.queue ∧ d.keep.bperr = false ∧ d.gl.gstat.getLsbD gKeep = true) := by
  have hguard : (s.dev.core.run && commitSized w && queueRoom 1 s.dev) = true := by simp [hrun, hsized, hroom]
  refine ⟨fun hprot hcrit => ?_, fun hprot => ?_, fun hprot hcrit => ?_⟩
  · show execKeepCommitIssue w s = _
    simp only [execKeepCommitIssue, onDev_eq, guardDev_pos hguard, issue_queued (c := ⟨w, .firmware⟩) hprot hcrit]
  · rw [leads_onDev (show exec (.keepCommitIssue w) s = execKeepCommitIssue w s from rfl), guardDev_pos hguard]
    rw [issue_protected (c := ⟨w, .firmware⟩) hprot]
    exact ⟨keepRefused_keep Keep.queue (fun _ _ _ _ _ _ => rfl) _ _, keepRefused_keep Keep.bperr (fun _ _ _ _ _ _ => rfl) _ _,
      keepRefused_gstat _ _, keepRefused_ipend _ _⟩
  · rw [leads_onDev (show exec (.keepCommitIssue w) s = execKeepCommitIssue w s from rfl), guardDev_pos hguard]
    rw [issue_hot (c := ⟨w, .firmware⟩) hprot hcrit]
    exact ⟨keepRefused_keep Keep.queue (fun _ _ _ _ _ _ => rfl) _ _, keepRefused_keep Keep.bperr (fun _ _ _ _ _ _ => rfl) _ _,
      keepRefused_gstat _ _⟩

/-! ## The start of a commit (R393, R394) -/

theorem keepCommitStart_leads {s : State} {c : Commit} {t : List Commit} (hup : s.dev.up = true) (hrun : s.dev.keep.run = none)
    (hroll : s.dev.keep.rollback = none) (hq : s.dev.keep.queue = c :: t) :
    Leads .keepCommitStart s fun d =>
      d.keep.queue = t ∧ d.keep.lastNum = s.dev.keep.lastNum + 1
      ∧ d.keep.run = some { commit := c, num := s.dev.keep.lastNum + 1, pages := pagesOf c.writes [], hdr := s.dev.keep.jptr }
      ∧ d.keep.jptr = (s.dev.keep.jptr + 1 + 2 * (pagesOf c.writes []).length) % 64
      ∧ (Memory.wf s.dev.keep.e = true → ∀ a, 0x8000 ≤ a → spGet 0 d.keep.e a = spGet 0 s.dev.keep.e a) := by
  rw [leads_onDev (show exec .keepCommitStart s = execKeepCommitStart s from rfl), guardDev_pos hup]
  unfold startCommit
  simp only [hrun, hroll, hq]
  refine ⟨rfl, rfl, rfl, rfl, fun hw => ?_⟩
  exact ((Above.of_same rfl rfl).trans (above_sysWrite (g := 3) _ (by rw [length_leBytes]; decide))).bytes hw

/-! ## Changes that become commits (R107, R400) -/

theorem dueLater_due (x : Due) (d : Dev) : (dueLater x d).keep.due = d.keep.due ∧ (dueLater x d).keep.queue = d.keep.queue
    ∧ x ∈ (dueLater x d).keep.dueHot := by
  unfold dueLater
  split
  · next h => exact ⟨rfl, rfl, by simpa using h⟩
  · exact ⟨rfl, rfl, by simp⟩

/-- The device as a due change is taken up. -/
def dueTaken (x : Due) (d : Dev) : Dev := { d with keep := { d.keep with due := d.keep.due.erase x } }

/-- A due change of one commit: issued, and due again where HOT refuses it. -/
theorem issueDue_one {x : Due} {c : Commit} {d : Dev} (hroom : queueRoom 1 d = true) :
    issueDue x [c] d =
      if (issue c (dueTaken x d)).1 then (issue c (dueTaken x d)).2
      else if d.gl.crit && !commitProtected d.keep.bp c.writes then dueLater x (issue c (dueTaken x d)).2
      else (issue c (dueTaken x d)).2 := by
  unfold issueDue
  rw [if_pos (show queueRoom [c].length d = true from hroom)]
  rfl

theorem issueDue_cool {x : Due} {c : Commit} {d : Dev} (hroom : queueRoom 1 d = true) (hcrit : d.gl.crit = false) :
    issueDue x [c] d = (issue c (dueTaken x d)).2 := by
  rw [issueDue_one hroom]
  simp [hcrit]

theorem issueNext_settings {l : List Due} {d : Dev} (h : d.keep.due = .settings :: l) :
    issueNext d = issueDue .settings [⟨settingsCommit d, .due .settings⟩] d := by
  simp only [issueNext, h]

theorem dueTaken_due {x : Due} {l : List Due} {d : Dev} (h : d.keep.due = x :: l) : (dueTaken x d).keep.due = l := by
  simp [dueTaken, h]

theorem tableDurableCommit_leads {s : State} {l : List Due} (hrun : s.dev.core.run = true)
    (hdue : s.dev.keep.due = .settings :: l) (hroom : queueRoom 1 s.dev = true) (hcrit : s.dev.gl.crit = false) :
    Leads .tableDurableCommit s fun d => d.keep.due = l ∧ d.keep.queue = s.dev.keep.queue ++
      (if commitProtected s.dev.keep.bp (settingsCommit s.dev) then [] else [⟨settingsCommit s.dev, .due .settings⟩]) := by
  rw [leads_onDev (show exec .tableDurableCommit s = execTableDurableCommit s from rfl), guardDev_pos hrun,
    issueNext_settings hdue, issueDue_cool hroom hcrit]
  exact ⟨(issue_keep Keep.due (fun _ _ _ _ _ _ => rfl) (fun _ _ _ => rfl) _ _).trans (dueTaken_due hdue),
    issue_queue (d := dueTaken _ s.dev) hcrit⟩

theorem tableDurableCommit_hot {s : State} {l : List Due} (hrun : s.dev.core.run = true)
    (hdue : s.dev.keep.due = .settings :: l) (hroom : queueRoom 1 s.dev = true) (hcrit : s.dev.gl.crit = true)
    (hprot : commitProtected s.dev.keep.bp (settingsCommit s.dev) = false) :
    Leads .tableDurableCommit s fun d => d.keep.queue = s.dev.keep.queue ∧ d.keep.due = l ∧ Due.settings ∈ d.keep.dueHot := by
  rw [leads_onDev (show exec .tableDurableCommit s = execTableDurableCommit s from rfl), guardDev_pos hrun,
    issueNext_settings hdue, issueDue_one hroom]
  rw [issue_hot (c := ⟨settingsCommit s.dev, .due .settings⟩) (d := dueTaken .settings s.dev) hprot hcrit]
  simp only [Bool.false_eq_true, if_false, hcrit, hprot, Bool.not_false, Bool.and_self, if_true]
  obtain ⟨h1, h2, h3⟩ := dueLater_due .settings
    (keepRefused 1 { dueTaken .settings s.dev with keep := { (dueTaken .settings s.dev).keep with bperr := false } })
  exact ⟨h2.trans (keepRefused_keep Keep.queue (fun _ _ _ _ _ _ => rfl) _ _),
    h1.trans ((keepRefused_keep Keep.due (fun _ _ _ _ _ _ => rfl) _ _).trans (dueTaken_due hdue)), h3⟩

theorem rosterPageWrite_leads {s : State} {p : PortId} {page : BitVec 7} (hrun : s.dev.core.run = true)
    (hdirty : 512 + p.toNat * 128 + page.toNat ∈ s.dev.keep.pageDirty)
    (hnever : spFind s.dev.keep.pageAt (512 + p.toNat * 128 + page.toNat) = none) (hroom : queueRoom 1 s.dev = true)
    (hcrit : s.dev.gl.crit = false) : Leads (.rosterPageWrite p page) s fun d =>
      d.keep.queue = s.dev.keep.queue
        ++ (if commitProtected s.dev.keep.bp (rosterCommit s.dev p (512 + p.toNat * 128 + page.toNat)) then []
          else [⟨rosterCommit s.dev p (512 + p.toNat * 128 + page.toNat), .due (pageDue p page)⟩])
      ∧ 512 + p.toNat * 128 + page.toNat ∉ d.keep.pageDirty
      ∧ spFind d.keep.pageAt (512 + p.toNat * 128 + page.toNat) = some s.dev.us := by
  rw [leads_onDev (show exec (.rosterPageWrite p page) s = execRosterPageWrite p page s from rfl)]
  dsimp only
  generalize 512 + p.toNat * 128 + page.toNat = pg at *
  simp only [hnever, hrun, hroom, List.contains_iff_mem.2 hdirty, Bool.and_self, guardDev_true, hcrit, Bool.false_and,
    Bool.false_eq_true, if_false]
  exact ⟨issue_queue hcrit, by simp, spFind_spPut _ _ _⟩

/-- Settles O39: a commit issued, started, and made of a due change or a dirty page, each by how `issue` ends. -/
theorem keepCommitsIssuedAndStarted : Obligations.KeepCommitsIssuedAndStarted := by
  unfold Obligations.KeepCommitsIssuedAndStarted
  intro s
  exact ⟨fun w hrun hsized hroom => keepCommitIssue_leads hrun hsized hroom,
    fun c t hup hrun hroll hq => keepCommitStart_leads hup hrun hroll hq,
    fun l hrun hdue hroom hcrit => tableDurableCommit_leads hrun hdue hroom hcrit,
    fun l hrun hdue hroom hcrit hprot => tableDurableCommit_hot hrun hdue hroom hcrit hprot,
    fun p page hrun hdirty hnever hroom hcrit => rosterPageWrite_leads hrun hdirty hnever hroom hcrit⟩

end Sys2Proof.Laws
end

section
/-! The page writes of a commit, its end, and THERM.KHOT (R394, R395, R397). -/

namespace Sys2Proof.Laws

open Sys2Proof Machine

/-! ## The bytes above the engine's own pages -/

/-- Keep-E stays in canonical form and keeps every byte from 0x8000 on. -/
def HighBytes (k k' : Keep) : Prop :=
  Memory.wf k.e = true → Memory.wf k'.e = true ∧ ∀ a, 0x8000 ≤ a → spGet 0 k'.e a = spGet 0 k.e a

theorem Above.high {k k' : Keep} (h : Above k k') : HighBytes k k' := fun hw => ⟨h.wf hw, h.bytes hw⟩

theorem HighBytes.of_same {k k' : Keep} (h : k'.e = k.e) : HighBytes k k' := fun hw => ⟨by rwa [h], fun _ _ => by rw [h]⟩

theorem HighBytes.trans {a b c : Keep} (h : HighBytes a b) (h' : HighBytes b c) : HighBytes a c := fun hw =>
  have ⟨hb, hab⟩ := h hw
  have ⟨hc, hbc⟩ := h' hb
  ⟨hc, fun x hx => (hbc x hx).trans (hab x hx)⟩

theorem tallyInc_keep {β : Type} (g : Keep → β) (h : ∀ k e b, g { k with e := e, bad := b } = g k) (c : Nat) (k : Keep) :
    g (tallyInc c k) = g k := by
  unfold tallyInc
  dsimp only
  split <;> exact h k _ _

theorem poisonClear_keep {β : Type} (g : Keep → β) (h : ∀ k e b, g { k with e := e, bad := b } = g k) (n : Nat) (k : Keep) :
    g (poisonClear n k) = g k := by
  unfold poisonClear
  generalize poisonEntries k = l
  generalize 0 = i
  induction l generalizing i k with
  | nil => rfl
  | cons e t ih =>
    rw [poisonClearAt, ih]
    split
    · exact h k _ _
    · rfl

theorem cleanGroups_keep {β : Type} (g : Keep → β) (h : ∀ k e b, g { k with e := e, bad := b } = g k) (ws : List Host.Cell)
    (k : Keep) : g (cleanGroups ws k) = g k := by
  unfold cleanGroups
  induction groupsWritten ws generalizing k with
  | nil => rfl
  | cons n t ih =>
    rw [List.foldl_cons, ih, poisonClear_keep g h]
    exact h k k.e _

theorem cleanGroups_high (ws : List Host.Cell) (k : Keep) : HighBytes k (cleanGroups ws k) := by
  unfold cleanGroups
  induction groupsWritten ws generalizing k with
  | nil => exact .of_same rfl
  | cons n t ih =>
    rw [List.foldl_cons]
    refine HighBytes.trans ?_ ((above_poisonClear n _).high.trans (ih _))
    exact .of_same rfl

/-! ## The page writes of a commit (R394, Table 18-3) -/

/-- Page writes one after the other change the bytes of Keep-E alone. -/
theorem foldl_pageWrite (l : List (Nat × List Byte)) (k : Keep) :
    l.foldl (fun k x => pageWrite x k) k = { k with e := l.foldl (fun m x => writeBytes m x.1 x.2) k.e } := by
  induction l generalizing k with
  | nil => rfl
  | cons x t ih => rw [List.foldl_cons, ih]; rfl

/-- A page write of the engine's own pages. -/
def LowWrite (x : Nat × List Byte) : Prop := x.1 + x.2.length ≤ 0x8000

theorem foldl_writeBytes_low {l : List (Nat × List Byte)} (hl : ∀ x ∈ l, LowWrite x) (k : Keep) :
    HighBytes k { k with e := l.foldl (fun m x => writeBytes m x.1 x.2) k.e } := by
  induction l generalizing k with
  | nil => exact .of_same rfl
  | cons x t ih =>
    have hx : HighBytes k { k with e := writeBytes k.e x.1 x.2 } := (above_eWrite k (hl x (by simp))).high
    exact hx.trans (ih (fun y hy => hl y (List.mem_cons_of_mem _ hy)) { k with e := writeBytes k.e x.1 x.2 })

theorem lowWrite_journal {pos : Nat} {l : List Byte} (h : l.length ≤ 128) : LowWrite (journalPage pos, l) := by
  have : pos % 64 < 64 := Nat.mod_lt _ (by decide)
  simp only [LowWrite, journalPage]
  omega

theorem length_headerPage (st : Byte) (num : Word) (pages : List Nat) {dchk : List Byte} (h : dchk.length = 4) :
    (headerPage st num pages dchk).length = 48 := by
  have hpages : ((List.range 16).map fun _ => 2).sum = 32 := rfl
  simp [headerPage, headerBody, h, List.length_flatMap, hpages]

/-- The journal's part of a commit before its seal: the open header, then the undo and the new images. -/
def journalOpen (e : Sparse Byte) (r : Running) : List (Nat × List Byte) :=
  (journalPage r.hdr, headerPage hOpen r.num r.pages [0, 0, 0, 0])
    :: (r.pages.map (pageBytes e) ++ r.pages.map (newImage e r.commit.writes)).zipIdx.map fun (l, i) => (journalPage (r.hdr + 1 + i), l)

/-- The sealed header of a commit. -/
def journalSeal (e : Sparse Byte) (r : Running) : Nat × List Byte :=
  (journalPage r.hdr, headerPage hSealed r.num r.pages
    (leBytes (crc32 ((r.pages.map (pageBytes e) ++ r.pages.map (newImage e r.commit.writes)).flatMap id)).toNat 4))

/-- The home pages of a commit with their new images. -/
def homeWrites (e : Sparse Byte) (r : Running) : List (Nat × List Byte) :=
  r.pages.map fun pg => (pg * 128, newImage e r.commit.writes pg)

theorem commitSteps_eq (e : Sparse Byte) (r : Running) :
    commitSteps e r = journalOpen e r ++ (journalSeal e r :: homeWrites e r ++ [(journalPage r.hdr, [hDone])]) := by
  have hhome : ((r.pages.zip (r.pages.map (newImage e r.commit.writes))).map fun (pg, l) => (pg * 128, l)) = homeWrites e r := by
    rw [homeWrites, List.zip_map_right, List.map_map]
    induction r.pages with
    | nil => rfl
    | cons a t ih => simpa using ih
  unfold commitSteps
  dsimp only
  rw [hhome]
  simp [journalOpen, journalSeal]

theorem length_journalOpen (e : Sparse Byte) (r : Running) : (journalOpen e r).length = 1 + 2 * r.pages.length := by
  simp [journalOpen]
  omega

theorem length_commitSteps (e : Sparse Byte) (r : Running) : (commitSteps e r).length = commitLength r := by
  rw [commitSteps_eq]
  simp [length_journalOpen, homeWrites, commitLength]
  omega

theorem journalOpen_low (e : Sparse Byte) (r : Running) : ∀ x ∈ journalOpen e r, LowWrite x := by
  intro x hx
  rcases List.mem_cons.1 hx with rfl | hx
  · exact lowWrite_journal (by rw [length_headerPage _ _ _ rfl]; decide)
  · obtain ⟨⟨l, i⟩, hl, rfl⟩ := List.mem_map.1 hx
    have hmem := (List.mem_zipIdx hl).2.2
    have hlen : ∀ l' ∈ r.pages.map (pageBytes e) ++ r.pages.map (newImage e r.commit.writes), l'.length = 128 := by
      intro l' hl'
      rcases List.mem_append.1 hl' with h | h <;> obtain ⟨pg, _, rfl⟩ := List.mem_map.1 h <;> exact length_readBytes _ _ _
    exact lowWrite_journal (Nat.le_of_eq (hlen l (hmem ▸ List.getElem_mem _)))

theorem journalSeal_low (e : Sparse Byte) (r : Running) : LowWrite (journalSeal e r) :=
  lowWrite_journal (by rw [length_headerPage _ _ _ (length_leBytes _ _)]; decide)

theorem getD_of_lt {α : Type} {l : List α} {i : Nat} (d : α) (h : i < l.length) : l.getD i d = l[i] := by
  rw [List.getD_eq_getElem?_getD, List.getElem?_eq_getElem h, Option.getD_some]

/-- Whole pages written one after the other: a byte of a written page is its image's, another stays. -/
theorem foldl_writeBytes_pages {f : Nat → List Byte} (hf : ∀ pg, (f pg).length = 128) (l : List Nat) (m : Sparse Byte)
    (hw : Memory.wf m = true) :
    Memory.wf ((l.map fun pg => (pg * 128, f pg)).foldl (fun m x => writeBytes m x.1 x.2) m) = true
    ∧ ∀ a, spGet 0 ((l.map fun pg => (pg * 128, f pg)).foldl (fun m x => writeBytes m x.1 x.2) m) a =
        if a / 128 ∈ l then (f (a / 128)).getD (a % 128) 0 else spGet 0 m a := by
  induction l generalizing m with
  | nil => exact ⟨hw, fun a => rfl⟩
  | cons pg t ih =>
    obtain ⟨h1, h2⟩ := ih (writeBytes m (pg * 128) (f pg)) (wf_writeBytes _ _ _ hw)
    refine ⟨h1, fun a => (h2 a).trans ?_⟩
    by_cases ht : a / 128 ∈ t
    · rw [if_pos ht, if_pos (List.mem_cons_of_mem _ ht)]
    rw [if_neg ht]
    by_cases hpg : a / 128 = pg
    · have hlt : a % 128 < (f pg).length := by rw [hf]; omega
      rw [if_pos (by simp [hpg]), hpg, getD_of_lt _ hlt, ← get_writeBytes (f pg) m (pg * 128) (a % 128) hw hlt]
      congr 1
      omega
    · rw [if_neg (by simp [hpg, ht]), get_writeBytes_ne _ _ _ _ hw (by rw [hf]; omega)]

/-- Every page write of a commit: a byte of its pages from 0x8000 on is that of the new image, another stays. -/
theorem commitWrites_all (r : Running) (k : Keep) (hw : Memory.wf k.e = true) :
    Memory.wf (commitWrites (commitLength r) r k).e = true
    ∧ ∀ a, 0x8000 ≤ a → spGet 0 (commitWrites (commitLength r) r k).e a =
        if a / 128 ∈ r.pages then (newImage k.e r.commit.writes (a / 128)).getD (a % 128) 0 else spGet 0 k.e a := by
  have hopen := foldl_writeBytes_low (journalOpen_low k.e r) k hw
  unfold commitWrites
  rw [← length_commitSteps k.e r, List.take_length, foldl_pageWrite, commitSteps_eq, List.foldl_append, List.cons_append,
    List.foldl_cons, List.foldl_append, List.foldl_cons, List.foldl_nil]
  dsimp only at hopen ⊢
  obtain ⟨ho1, ho2⟩ := hopen
  generalize (journalOpen k.e r).foldl (fun m x => writeBytes m x.1 x.2) k.e = m1 at *
  have hseal := (above_eWrite { k with e := m1 } (journalSeal_low k.e r)).high ho1
  obtain ⟨hs1, hs2⟩ := hseal
  generalize hm2 : writeBytes m1 (journalSeal k.e r).1 (journalSeal k.e r).2 = m2
  rw [show (eWrite (journalSeal k.e r).1 (journalSeal k.e r).2 { k with e := m1 }).e = m2 from hm2] at hs1 hs2
  obtain ⟨hh1, hh2⟩ := foldl_writeBytes_pages (f := newImage k.e r.commit.writes) (fun pg => length_readBytes _ _ _) r.pages m2 hs1
  rw [← homeWrites] at hh1 hh2
  generalize (homeWrites k.e r).foldl (fun m x => writeBytes m x.1 x.2) m2 = m3 at *
  have hdone := (above_eWrite { k with e := m3 } (lowWrite_journal (pos := r.hdr) (l := [hDone]) (by decide))).high hh1
  refine ⟨hdone.1, fun a ha => (hdone.2 a ha).trans ((hh2 a).trans ?_)⟩
  split
  · rfl
  · exact (hs2 a ha).trans (ho2 a ha)

/-! ## The end of a commit (R395) -/

/-- The Keep of a durable commit, before its events. -/
def durableKeep (r : Running) (k : Keep) : Keep :=
  tallyInc 8 (cleanGroups r.commit.writes { commitWrites (commitLength r) r k with run := none, dseq := r.num.setWidth 8 })

/-- The device at the end of a commit, before its event. -/
def durableDev (r : Running) (d : Dev) : Dev :=
  setG gKeep <| raise 5 { d with keep := durableKeep r d.keep
                                 fwu := { d.fwu with durable := d.fwu.durable || decide (d.fwu.durableFrom < r.num.toNat) } }

theorem commitDurable_firmware {r : Running} {d : Dev} (hrun : d.keep.run = some r) (htag : r.commit.tag = .firmware)
    (hpark : d.gl.park = none) : commitDurable d = postGlobal 0x31 0 (r.num.setWidth 16) false (durableDev r d) := by
  have hshape : commitDurable d =
      parkAdvance (commitEnds r.commit d.keep (postGlobal 0x31 0 (r.num.setWidth 16) false (durableDev r d))) := by
    simp only [commitDurable, hrun]
    rfl
  rw [hshape, commitEnds, htag]
  exact parkAdvance_none ((gl_park_of_steady (postGlobal_steady _ _ _ _ _)).trans hpark)

theorem durableKeep_field {β : Type} (g : Keep → β) (h : ∀ k e b, g { k with e := e, bad := b } = g k) (r : Running) (k : Keep) :
    g (durableKeep r k) = g { k with run := none, dseq := r.num.setWidth 8 } := by
  unfold durableKeep commitWrites
  rw [tallyInc_keep g h, cleanGroups_keep g h, foldl_pageWrite]
  exact h { k with run := none, dseq := r.num.setWidth 8 } _ k.bad

/-- The bytes of Keep-E from 0x8000 on after a durable commit. -/
theorem durableKeep_bytes (r : Running) (k : Keep) (hw : Memory.wf k.e = true) :
    Memory.wf (durableKeep r k).e = true ∧ ∀ a, 0x8000 ≤ a → spGet 0 (durableKeep r k).e a =
      if a / 128 ∈ r.pages then (newImage k.e r.commit.writes (a / 128)).getD (a % 128) 0 else spGet 0 k.e a := by
  obtain ⟨h1, h2⟩ := commitWrites_all r k hw
  have hrest : HighBytes (commitWrites (commitLength r) r k) (durableKeep r k) := by
    refine HighBytes.trans ?_ ((cleanGroups_high _ _).trans (above_tallyInc _ (by decide)).high)
    exact .of_same rfl
  obtain ⟨h3, h4⟩ := hrest h1
  exact ⟨h3, fun a ha => (h4 a ha).trans (h2 a ha)⟩

theorem getElem_readBytes (m : Sparse Byte) (a n i : Nat) (h : i < (readBytes m a n).length) :
    (readBytes m a n)[i] = spGet 0 m (a + i) := by
  simp [readBytes_eq_map]

theorem postGlobal_above (typ code : Nat) (w : Half) (log : Bool) (d : Dev) :
    Above d.keep (postGlobal typ code w log d).keep := post_above _ d

theorem keepDurable_leads {s : State} {r : Running} (hw : Memory.wf s.dev.keep.e = true) (hrun : s.dev.keep.run = some r)
    (htag : r.commit.tag = .firmware) (hpark : s.dev.gl.park = none) : Leads .keepDurable s fun d =>
      d.keep.run = none ∧ d.keep.dseq = r.num.setWidth 8 ∧ d.gl.gstat.getLsbD gKeep = true ∧ d.core.ipend.getLsbD 5 = true
      ∧ (∀ pg ∈ r.pages, 256 ≤ pg → readBytes d.keep.e (pg * 128) 128 = newImage s.dev.keep.e r.commit.writes pg)
      ∧ (∀ a, 0x8000 ≤ a → a / 128 ∉ r.pages → spGet 0 d.keep.e a = spGet 0 s.dev.keep.e a)
      ∧ d.p0 = s.dev.p0 ∧ d.p1 = s.dev.p1 := by
  rw [leads_onDev (show exec .keepDurable s = execKeepDurable s from rfl), commitDurable_firmware hrun htag hpark]
  obtain ⟨hwf, hbytes⟩ := durableKeep_bytes r s.dev.keep hw
  have hpost := (postGlobal_above 0x31 0 (r.num.setWidth 16) false (durableDev r s.dev)).bytes hwf
  have hall (a : Nat) (ha : 0x8000 ≤ a) := (hpost a ha).trans (hbytes a ha)
  refine ⟨(post_keep Keep.run (fun _ _ _ _ _ _ => rfl) _ _).trans (durableKeep_field Keep.run (fun _ _ _ => rfl) _ _),
    (post_keep Keep.dseq (fun _ _ _ _ _ _ => rfl) _ _).trans (durableKeep_field Keep.dseq (fun _ _ _ => rfl) _ _),
    post_gstat _ (setG_same (by decide) _), ?_, fun pg hpg hlow => ?_, fun a ha hnot => (hall a ha).trans (if_neg hnot),
    postGlobal_port _ _ _ _ _ .p0, postGlobal_port _ _ _ _ _ .p1⟩
  · exact (congrArg (fun c => c.ipend.getLsbD 5) (post_core _ (durableDev r s.dev)) :).trans (by simp [durableDev, setG, raise])
  · refine List.ext_getElem (by simp [newImage, pageBytes]) fun i h1 h2 => ?_
    have hi : i < 128 := by simpa using h1
    have hpage : (pg * 128 + i) / 128 = pg := by omega
    have hoff : (pg * 128 + i) % 128 = i := by omega
    rw [getElem_readBytes]
    refine (hall (pg * 128 + i) (by omega)).trans ?_
    rw [hpage, hoff, if_pos hpg, getD_of_lt _ h2]

/-! ## High temperature (R397) -/

/-- A field of Keep that a lost commit leaves: it may only make a change due again or re-read the scrub interval. -/
theorem commitLost_keep {β : Type} (g : Keep → β)
    (h : ∀ k e b hd lg lp, g { k with e := e, bad := b, held := hd, log := lg, logPos := lp } = g k)
    (hd : ∀ k l, g { k with dueHot := l } = g k) (hs : ∀ k n, g { k with scrubHours := n } = g k) (d : Dev) (c : Commit) :
    g (commitLost d c).keep = g d.keep := by
  have hmbx (r : Byte) (l : List Half) (x : Dev) : (mbxEnds r l x).keep = x.keep := by unfold mbxEnds; split <;> rfl
  unfold commitLost
  split
  case h_1 => rfl
  case h_2 => rw [hmbx]
  case h_3 => rw [hmbx]
  case h_4 => rw [hmbx]; exact hs d.keep _
  case h_5 =>
    unfold dueLater
    split
    · rfl
    · exact hd d.keep _
  case h_6 => exact post_keep g h _ _
  case h_7 => rfl

theorem commitLost_high (d : Dev) (c : Commit) : HighBytes d.keep (commitLost d c).keep := by
  have hmbx (r : Byte) (l : List Half) (x : Dev) : (mbxEnds r l x).keep = x.keep := by unfold mbxEnds; split <;> rfl
  unfold commitLost
  split
  case h_1 => exact .of_same rfl
  case h_2 => exact .of_same (by rw [hmbx])
  case h_3 => exact .of_same (by rw [hmbx])
  case h_4 => exact .of_same (by rw [hmbx]; rfl)
  case h_5 => unfold dueLater; split <;> exact .of_same rfl
  case h_6 => exact (post_above _ d).high
  case h_7 => exact .of_same rfl

theorem stopCommit_open {n : Nat} {r : Running} {k : Keep} (h : n < sealedAt r) :
    stopCommit n r k = { pageWrite (journalPage r.hdr, [hVoid]) { commitWrites n r k with run := none } with jroll := true } :=
  if_pos h

theorem stopCommit_sealed {n : Nat} {r : Running} {k : Keep} (h : sealedAt r ≤ n) :
    stopCommit n r k =
      { pageWrite (journalPage r.hdr, [hRollback]) { commitWrites n r k with run := none } with rollback := some r } :=
  if_neg (Nat.not_lt.2 h)

theorem commitWrites_eq (n : Nat) (r : Running) (k : Keep) : commitWrites n r k =
    { k with e := ((commitSteps k.e r).take n).foldl (fun m x => writeBytes m x.1 x.2) k.e } := foldl_pageWrite _ k

/-- A commit stopped before its seal has written the journal alone. -/
theorem stopCommit_high {n : Nat} {r : Running} {k : Keep} (h : n < sealedAt r) : HighBytes k (stopCommit n r k) := by
  have hlow : ∀ x ∈ (commitSteps k.e r).take n, LowWrite x := by
    rw [commitSteps_eq, List.take_append_of_le_length (by rw [length_journalOpen]; unfold sealedAt at h; omega)]
    exact fun x hx => journalOpen_low k.e r x (List.mem_of_mem_take hx)
  have hwrites : HighBytes k (commitWrites n r k) := by
    rw [commitWrites_eq]
    exact foldl_writeBytes_low hlow k
  have hvoid : HighBytes (commitWrites n r k) (eWrite (journalPage r.hdr) [hVoid] (commitWrites n r k)) :=
    (above_eWrite _ (lowWrite_journal (by decide))).high
  rw [stopCommit_open h]
  exact (hwrites.trans hvoid).trans (.of_same rfl)

/-- The device as THERM.KHOT stops its commit. -/
def stopped (n : Nat) (r : Running) (d : Dev) : Dev :=
  { d with gl := { d.gl with khot := true }, keep := stopCommit n r d.keep }

theorem khotRise_leads {s : State} {n : Nat} {r : Running} (hrun : s.dev.keep.run = some r) (hn : n < commitLength r) :
    Leads (.khotRise n) s fun d =>
      d.gl.khot = true ∧ d.keep.run = none ∧ (n < sealedAt r → d.keep.jroll = true ∧ d.keep.rollback = s.dev.keep.rollback
        ∧ (Memory.wf s.dev.keep.e = true → ∀ a, 0x8000 ≤ a → spGet 0 d.keep.e a = spGet 0 s.dev.keep.e a))
      ∧ (sealedAt r ≤ n → d.keep.rollback = some r) := by
  rw [leads_onDev (show exec (.khotRise n) s = execKhotRise n s from rfl)]
  dsimp only
  simp only [hrun, if_neg (Nat.not_le.2 hn)]
  rw [← stopped]
  have hkeep {β : Type} (g : Keep → β)
      (h : ∀ k e b hd lg lp, g { k with e := e, bad := b, held := hd, log := lg, logPos := lp } = g k)
      (hd : ∀ k l, g { k with dueHot := l } = g k) (hs : ∀ k n, g { k with scrubHours := n } = g k) :
      g (commitLost (stopped n r s.dev) r.commit).keep = g (stopCommit n r s.dev.keep) :=
    commitLost_keep g h hd hs (stopped n r s.dev) r.commit
  have hrunNone : (stopCommit n r s.dev.keep).run = none := by
    by_cases h : n < sealedAt r
    · rw [stopCommit_open h]; rfl
    · rw [stopCommit_sealed (Nat.not_lt.1 h)]; rfl
  refine ⟨(congrArg Global.khot (commitLost_spared (stopped n r s.dev) r.commit).2.2 :),
    (hkeep Keep.run (fun _ _ _ _ _ _ => rfl) (fun _ _ => rfl) (fun _ _ => rfl)).trans hrunNone,
    fun h => ⟨?_, ?_, fun hw => ?_⟩, fun h => ?_⟩
  · rw [hkeep Keep.jroll (fun _ _ _ _ _ _ => rfl) (fun _ _ => rfl) (fun _ _ => rfl), stopCommit_open h]
  · rw [hkeep Keep.rollback (fun _ _ _ _ _ _ => rfl) (fun _ _ => rfl) (fun _ _ => rfl), stopCommit_open h, commitWrites_eq]
    rfl
  · exact (((stopCommit_high h).trans (commitLost_high (stopped n r s.dev) r.commit)) hw).2
  · rw [hkeep Keep.rollback (fun _ _ _ _ _ _ => rfl) (fun _ _ => rfl) (fun _ _ => rfl), stopCommit_sealed h]

theorem foldl_logRing_keep {β : Type} (g : Keep → β) (h : ∀ k e b lp, g { k with e := e, bad := b, logPos := lp } = g k)
    (l : List LogEntry) (k : Keep) : g (l.foldl (fun k l => logRing l k) k) = g k := by
  induction l generalizing k with
  | nil => rfl
  | cons x t ih => rw [List.foldl_cons, ih]; exact h k _ _ _

theorem rollBack_fields (r : Running) (k : Keep) :
    (rollBack r k).held = k.held ∧ (rollBack r k).rollback = none ∧ (rollBack r k).jroll = true := by
  unfold rollBack
  dsimp only
  rw [foldl_pageWrite]
  exact ⟨rfl, rfl, rfl⟩

theorem khotClear_leads {s : State} (hhot : s.dev.gl.khot = true) : Leads .khotClear s fun d =>
    d.gl.khot = false ∧ d.keep.held = [] ∧ d.keep.rollback = none
    ∧ (s.dev.keep.rollback.isSome = true → d.keep.jroll = true) ∧ d.p0 = s.dev.p0 ∧ d.p1 = s.dev.p1 := by
  rw [leads_onDev (show exec .khotClear s = execKhotClear s from rfl), guardDev_pos hhot]
  dsimp only
  have hroll := foldl_logRing_keep Keep.rollback (fun _ _ _ _ => rfl) s.dev.keep.held s.dev.keep
  generalize s.dev.keep.held.foldl (fun k l => logRing l k) s.dev.keep = k at *
  cases hk : k.rollback with
  | none => exact ⟨rfl, rfl, rfl, fun h => by rw [← hroll, hk] at h; exact absurd h (by decide), rfl, rfl⟩
  | some r =>
    obtain ⟨h1, h2, h3⟩ := rollBack_fields r { k with held := [] }
    exact ⟨rfl, h1, h2, fun _ => h3, rfl, rfl⟩

/-- Settles O40: a durable commit by all its page writes, one that THERM.KHOT stops by the writes before and after its seal, and the
rollback that runs as KHOT clears. -/
theorem keepCommitsEnd : Obligations.KeepCommitsEnd := by
  unfold Obligations.KeepCommitsEnd
  intro s hw
  refine ⟨fun r hrun htag hpark => keepDurable_leads hw hrun htag hpark, fun n r hrun hn => ?_, fun hrun n => ?_, khotClear_leads⟩
  · obtain ⟨d, hd, h1, h2, h3, h4⟩ := khotRise_leads hrun hn
    exact ⟨d, hd, h1, h2, fun h => ⟨(h3 h).1, (h3 h).2.1, (h3 h).2.2 hw⟩, h4⟩
  · show execKhotRise n s = _
    simp only [execKhotRise, onDev_eq, hrun]

end Sys2Proof.Laws
end

section
/-! Keep-S stores, the power-fail trigger, block protection and the scrubber (R48, R389, R405 to R409). -/

namespace Sys2Proof.Laws

open Sys2Proof Machine

/-! ## A host write leaves its mark on the core alone -/

theorem markHost_cmp (n : Nat) (d : Dev) : (markHost n d).cmp = d.cmp := by unfold markHost; split <;> rfl

/-! ## Keep-S stores (R48, R405) -/

theorem beginStore_keep (d : Dev) :
    (beginStore d).keep.store = some (olderIsB d.keep, d.us) ∧ (beginStore d).keep.s = writeCells d.keep.s (storeImage d)
    ∧ (beginStore d).keep.e = d.keep.e := by
  unfold beginStore
  generalize storeImage d = l
  cases olderIsB d.keep <;> exact ⟨rfl, rfl, rfl⟩

theorem storeFailed_keep {β : Type} (g : Keep → β)
    (h : ∀ k e b hd lg lp, g { k with e := e, bad := b, held := hd, log := lg, logPos := lp } = g k) (d : Dev) :
    g (storeFailed d).keep = g { d.keep with sfail := true } := by
  have h' : ∀ k e b, g { k with e := e, bad := b } = g k := fun k e b => h k e b k.held k.log k.logPos
  exact (post_keep g h _ _).trans (tallyInc_keep g h' 13 _)

theorem storeFailed_gstat (d : Dev) : (storeFailed d).gl.gstat.getLsbD gKeep = true := post_gstat _ (setG_same (by decide) _)

theorem requestStore_ready {d : Dev} (hidle : d.keep.store = none) (hready : d.pw.sready = true) :
    requestStore d = beginStore d := by
  rw [requestStore, hidle, if_neg (by decide), if_pos hready]

theorem requestStore_unready {d : Dev} (hidle : d.keep.store = none) (hready : d.pw.sready = false) :
    requestStore d = storeFailed d := by
  rw [requestStore, hidle, if_neg (by decide), if_neg (by simp [hready])]

theorem storeFailed_cmp (d : Dev) : (storeFailed d).cmp = d.cmp := by
  unfold storeFailed
  rw [cmp_of_steady (postGlobal_steady _ _ _ _ _)]
  rfl

theorem requestStore_cmp (d : Dev) : (requestStore d).cmp = d.cmp := by
  unfold requestStore
  split
  · rfl
  split
  · rfl
  · exact storeFailed_cmp d

theorem keepCtlStore_leads {s : State} (hok : hostOk s.dev = true) (hidle : s.dev.keep.store = none) :
    Leads .keepCtlStore s fun d =>
      (s.dev.pw.sready = true → d.keep.store = some (olderIsB s.dev.keep, s.dev.us)
        ∧ d.keep.s = writeCells s.dev.keep.s (storeImage s.dev) ∧ d.keep.e = s.dev.keep.e)
      ∧ (s.dev.pw.sready = false → d.keep.sfail = true ∧ d.gl.gstat.getLsbD gKeep = true ∧ d.keep.store = none
        ∧ d.keep.s = s.dev.keep.s) := by
  rw [leads_onDev (show exec .keepCtlStore s = execKeepCtlStore s from rfl), byHost_of_ok hok, markHost_keep, markHost_gl]
  refine ⟨fun hready => ?_, fun hready => ?_⟩
  · rw [requestStore_ready hidle hready]
    exact beginStore_keep s.dev
  · rw [requestStore_unready hidle hready]
    exact ⟨storeFailed_keep Keep.sfail (fun _ _ _ _ _ _ => rfl) _, storeFailed_gstat _,
      (storeFailed_keep Keep.store (fun _ _ _ _ _ _ => rfl) _).trans hidle, storeFailed_keep Keep.s (fun _ _ _ _ _ _ => rfl) _⟩

theorem finishStore_fields {k : Keep} {b : Bool} {t : Nat} (h : k.store = some (b, t)) :
    (finishStore k).store = none ∧ (finishStore k).sfail = false
    ∧ (if b then (finishStore k).shadowB else (finishStore k).shadowA).done = true
    ∧ (if b then (finishStore k).shadowB else (finishStore k).shadowA).seq = Nat.max k.shadowA.seq k.shadowB.seq + 1
    ∧ (if b then (finishStore k).shadowA else (finishStore k).shadowB) = (if b then k.shadowA else k.shadowB) := by
  unfold finishStore
  simp only [h]
  rw [tallyInc_keep Keep.store (fun _ _ _ => rfl), tallyInc_keep Keep.sfail (fun _ _ _ => rfl),
    tallyInc_keep Keep.shadowA (fun _ _ _ => rfl), tallyInc_keep Keep.shadowB (fun _ _ _ => rfl)]
  cases b <;> exact ⟨rfl, rfl, rfl, rfl, rfl⟩

theorem keepSStoreDone_leads {s : State} {b : Bool} {t : Nat} (hstore : s.dev.keep.store = some (b, t))
    (ht : t + 7600 ≤ s.dev.us) (hpark : s.dev.gl.park = none) : Leads .keepSStoreDone s fun d =>
      d.keep.store = none ∧ d.keep.sfail = false
      ∧ (if b then d.keep.shadowB else d.keep.shadowA).done = true
      ∧ (if b then d.keep.shadowB else d.keep.shadowA).seq = Nat.max s.dev.keep.shadowA.seq s.dev.keep.shadowB.seq + 1
      ∧ (if b then d.keep.shadowA else d.keep.shadowB) = (if b then s.dev.keep.shadowA else s.dev.keep.shadowB) := by
  rw [leads_onDev (show exec .keepSStoreDone s = execKeepSStoreDone s from rfl)]
  simp only [hstore, decide_eq_true ht, guardDev_true, hpark]
  exact finishStore_fields hstore

/-! ## The power-fail trigger (R389) -/

theorem powerFailTrigger_leads {s : State} (hen : s.dev.keep.pfen = true) (hfired : s.dev.cmp.fired = true)
    (hidle : s.dev.keep.store = none) : Leads .powerFailTrigger s fun d =>
      d.cmp.armed = false ∧ d.cmp.fired = false
      ∧ (s.dev.pw.sready = true → d.keep.store = some (olderIsB s.dev.keep, s.dev.us)) := by
  rw [leads_onDev (show exec .powerFailTrigger s = execPowerFailTrigger s from rfl), guardDev_pos (by simp [hen, hfired]),
    requestStore_cmp]
  refine ⟨rfl, rfl, fun hready => ?_⟩
  have hbegin := beginStore_keep { s.dev with cmp := { s.dev.cmp with armed := false, fired := false } }
  rw [← requestStore_ready (d := { s.dev with cmp := { s.dev.cmp with armed := false, fired := false } }) hidle hready] at hbegin
  exact hbegin.1

theorem powerFailRearm_next {s : State} (hen : s.dev.keep.pfen = true) (harmed : s.dev.cmp.armed = false)
    (hfired : s.dev.cmp.fired = false) (hout : (chanOf s.dev s.dev.keep.pfch.toNat).out = false)
    (ht : s.dev.cmp.zeroAt + 990000 ≤ s.dev.us) :
    exec .powerFailRearm s = .next { s with dev := { s.dev with cmp := { s.dev.cmp with armed := true } } } := by
  show execPowerFailRearm s = _
  have hguard : (s.dev.keep.pfen && !s.dev.cmp.armed && !s.dev.cmp.fired && !(chanOf s.dev s.dev.keep.pfch.toNat).out
      && decide (s.dev.cmp.zeroAt + 990000 ≤ s.dev.us)) = true := by simp [hen, harmed, hfired, hout, ht]
  simp only [execPowerFailRearm, onDev_eq, guardDev_pos hguard]

theorem tickFrom_fields (d0 d : Dev) : (tickFrom d0 d).keep = d.keep ∧ (tickFrom d0 d).cmp.armed = d.cmp.armed := by
  unfold tickFrom
  split <;> exact ⟨rfl, rfl⟩

theorem powerFailTriggerAssign_leads {s : State} (en : Bool) (ch : BitVec 4) (hok : hostOk s.dev = true) :
    Leads (.powerFailTriggerAssign en ch) s fun d =>
      d.keep.pfen = en ∧ d.keep.pfch = ch ∧ (d.cmp.armed = true ↔ en = true ∧ (chanOf s.dev ch.toNat).out = false)
      ∧ d.keep.bp = s.dev.keep.bp := by
  rw [leads_onDev (show exec (.powerFailTriggerAssign en ch) s = execPowerFailTriggerAssign en ch s from rfl), byHost_of_ok hok,
    markHost_keep, markHost_cmp]
  unfold assignTrigger
  obtain ⟨hkeep, harmed⟩ := tickFrom_fields s.dev { s.dev with
    keep := sysCtl { s.dev.keep with pfen := en, pfch := ch }
    cmp := { s.dev.cmp with armed := en && !(chanOf s.dev ch.toNat).out, zeroAt := s.dev.us, fired := false } }
  rw [hkeep, harmed]
  exact ⟨rfl, rfl, by simp, rfl⟩

/-! ## Block protection (R407) -/

theorem blockProtectWrite_leads {s : State} (bp : BitVec 2) (hok : hostOk s.dev = true) :
    Leads (.blockProtectWrite bp) s fun d =>
      (s.dev.keep.bp ≤ bp ∨ lockOpens s.dev = true → d.keep.bp = bp ∧ d.keep.bperr = false)
      ∧ (bp < s.dev.keep.bp → lockOpens s.dev = false →
          d.keep.bp = s.dev.keep.bp ∧ d.keep.bperr = true ∧ d.gl.gstat.getLsbD gKeep = true ∧ d.keep.e = s.dev.keep.e) := by
  rw [leads_onDev (show exec (.blockProtectWrite bp) s = execBlockProtectWrite bp s from rfl), byHost_of_ok hok, markHost_keep,
    markHost_gl]
  refine ⟨fun hmay => ?_, fun hlow hshut => ?_⟩
  · have hguard : ¬(decide (bp < s.dev.keep.bp) && !lockOpens s.dev) = true := by
      rcases hmay with h | h
      · simp [BitVec.not_lt.2 h]
      · simp [h]
    rw [writeBp, if_neg hguard]
    exact ⟨rfl, rfl⟩
  · rw [writeBp, if_pos (by simp [hlow, hshut])]
    exact ⟨rfl, rfl, setG_same (by decide) _, rfl⟩

/-! ## The scrubber (R409) -/

/-- What the scrubber's visit of a group that reads clean or is corrected leaves: the queue and every byte. -/
theorem scrubVisit_clean {g : Nat} {r : EccResult} {d : Dev} (hr : r ≠ .uncorrectable) :
    (scrubVisit g r d).keep.queue = d.keep.queue
    ∧ (Memory.wf d.keep.e = true → Memory.wf (scrubVisit g r d).keep.e = true
      ∧ ∀ a, spGet 0 (scrubVisit g r d).keep.e a = spGet 0 d.keep.e a) := by
  cases r with
  | clean => exact ⟨rfl, fun hw => ⟨hw, fun _ => rfl⟩⟩
  | correctable =>
    exact ⟨rfl, fun hw => ⟨wf_writeBytes _ _ _ hw, fun a => get_writeBytes_readBytes d.keep.e (8 * g) 8 a hw⟩⟩
  | uncorrectable => exact absurd rfl hr

/-- The Keep with a group listed as uncorrectable. -/
def badListed (g : Nat) (k : Keep) : Keep := { k with bad := if k.bad.contains g then k.bad else k.bad ++ [g] }

/-- The same and, unless an entry names the group already, with it poisoned. -/
def badKeep (g : Nat) (k : Keep) : Keep :=
  if (poisonEntries (badListed g k)).any (poisonHits · g) then badListed g k else poisonAdd g false (badListed g k)

/-- What restores an uncorrectable group: the other copy of its area where that is valid. -/
def scrubFix (g : Nat) (d : Dev) : Option (List Host.Cell) :=
  match copyAround g with
  | some (a, base) =>
    let src := if base = copyA a then copyB a else copyA a
    if copyValid d.keep src (copyLen a) then some (cellsAt base (keepBytes d.keep src (copyLen a))) else none
  | none => none

/-- The group is restored by a commit, or reported. -/
def scrubRestore (g : Nat) (d : Dev) : Option (List Host.Cell) → Dev
  | some ws => if (issue ⟨ws, .restore g⟩ d).1 then (issue ⟨ws, .restore g⟩ d).2
    else postGlobal 0x30 0 (h16 g) true (issue ⟨ws, .restore g⟩ d).2
  | none => postGlobal 0x30 0 (h16 g) true d

theorem scrubBad_eq (g : Nat) (d : Dev) :
    scrubBad g d = scrubRestore g { d with keep := badKeep g d.keep } (scrubFix g { d with keep := badKeep g d.keep }) := rfl

theorem badListed_bad (g : Nat) (k : Keep) : g ∈ (badListed g k).bad := by
  show g ∈ (if k.bad.contains g then k.bad else k.bad ++ [g])
  split
  · next h => simpa using h
  · simp

theorem badKeep_bad (g : Nat) (k : Keep) (hg : 4096 ≤ g) : g ∈ (badKeep g k).bad := by
  unfold badKeep
  split
  · exact badListed_bad g k
  · exact (above_poisonAdd g false _).bad g hg (badListed_bad g k)

theorem poisonAdd_keep {β : Type} (f : Keep → β) (h : ∀ k e b, f { k with e := e, bad := b } = f k) (g : Nat) (page : Bool)
    (k : Keep) : f (poisonAdd g page k) = f k := by
  unfold poisonAdd
  split
  · rfl
  · rw [tallyInc_keep f h]
    exact (h (eWrite _ _ k) _ _).trans (h k _ _)

theorem badKeep_scrubFast (g : Nat) (k : Keep) : (badKeep g k).scrubFast = k.scrubFast := by
  unfold badKeep
  split
  · rfl
  · exact poisonAdd_keep Keep.scrubFast (fun _ _ _ => rfl) g false _

theorem issue_above (c : Commit) (d : Dev) : Above d.keep (issue c d).2.keep := by
  unfold issue
  split
  · exact Above.trans (b := { d.keep with bperr := true }) (.of_same rfl rfl) (post_above _ (setG gKeep (raise 5 (bpRefused d))))
  dsimp only
  split
  · exact Above.trans (b := { d.keep with bperr := false }) (.of_same rfl rfl)
      (post_above _ (setG gKeep (raise 5 { d with keep := { d.keep with bperr := false } })))
  · exact .of_same rfl rfl

theorem scrubRestore_keep (g : Nat) (d : Dev) (fix : Option (List Host.Cell)) :
    Above d.keep (scrubRestore g d fix).keep ∧ (scrubRestore g d fix).keep.scrubFast = d.keep.scrubFast := by
  have hpost (e : Dev) : (postGlobal 0x30 0 (h16 g) true e).keep.scrubFast = e.keep.scrubFast :=
    post_keep Keep.scrubFast (fun _ _ _ _ _ _ => rfl) _ _
  have hissue (c : Commit) : (issue c d).2.keep.scrubFast = d.keep.scrubFast :=
    issue_keep Keep.scrubFast (fun _ _ _ _ _ _ => rfl) (fun _ _ _ => rfl) c d
  unfold scrubRestore
  split
  · split
    · exact ⟨issue_above _ d, hissue _⟩
    · exact ⟨(issue_above _ d).trans (postGlobal_above _ _ _ _ _), (hpost _).trans (hissue _)⟩
  · exact ⟨postGlobal_above _ _ _ _ d, hpost d⟩

theorem scrubVisit_scrubFast (g : Nat) (r : EccResult) (d : Dev) : (scrubVisit g r d).keep.scrubFast = d.keep.scrubFast := by
  cases r with
  | clean => rfl
  | correctable => rfl
  | uncorrectable =>
    show (scrubBad g d).keep.scrubFast = _
    rw [scrubBad_eq, (scrubRestore_keep g _ _).2]
    exact badKeep_scrubFast g d.keep

/-- A group found uncorrectable is listed, whatever is then written for it below 0x8000. -/
theorem scrubBad_bad {g : Nat} {d : Dev} (hg : 4096 ≤ g) : g ∈ (scrubBad g d).keep.bad := by
  rw [scrubBad_eq]
  exact (scrubRestore_keep g _ _).1.bad g hg (badKeep_bad g d.keep hg)

theorem scrubNext_fields (g : Nat) (d : Dev) :
    (scrubNext g d).keep.queue = d.keep.queue ∧ (scrubNext g d).keep.scrubFast = (d.keep.scrubFast && decide (g ≠ 16383))
    ∧ Above d.keep (scrubNext g d).keep := by
  refine ⟨rfl, rfl, ?_⟩
  exact (above_sysWrite (g := 2) d.keep (by rw [length_leBytes]; decide)).trans (.of_same rfl rfl)

/-- The pass's own position is what the scrubber writes, and nothing at or above 0x3218 is. -/
theorem scrubNext_pos (g : Nat) (d : Dev) (hw : Memory.wf d.keep.e = true) :
    scrubPos (scrubNext g d).keep = (g + 1) % 16384
    ∧ ∀ a, 0x3218 ≤ a → spGet 0 (scrubNext g d).keep.e a = spGet 0 d.keep.e a := by
  have he : (scrubNext g d).keep.e = writeBytes d.keep.e 0x3210 (leBytes ((g + 1) % 16384) 2) := rfl
  refine ⟨?_, fun a ha => ?_⟩
  · have hread := readBytes_writeBytes (leBytes ((g + 1) % 16384) 2) d.keep.e 0x3210 hw
    rw [length_leBytes] at hread
    rw [scrubPos, he, hread, leNat_leBytes_two]
    omega
  · rw [he]
    exact get_writeBytes_ne _ _ _ _ hw (by rw [length_leBytes]; omega)

theorem scrubGroup_leads {s : State} (r : EccResult) (hup : s.dev.up = true) (hrun : s.dev.keep.run = none)
    (hlater : s.dev.keep.scrubLater = []) :
    (scrubDue s.dev = false → exec (.scrubGroup r) s = .next s)
    ∧ (scrubDue s.dev = true → Leads (.scrubGroup r) s fun d =>
      d.keep.scrubFast = (s.dev.keep.scrubFast && decide (scrubPos s.dev.keep ≠ 16383))
      ∧ (r ≠ .uncorrectable → d.keep.queue = s.dev.keep.queue ∧ (Memory.wf s.dev.keep.e = true →
          scrubPos d.keep = (scrubPos s.dev.keep + 1) % 16384
          ∧ ∀ a, 0x3218 ≤ a → spGet 0 d.keep.e a = spGet 0 s.dev.keep.e a))
      ∧ (r = .uncorrectable → 0x8000 ≤ 8 * scrubPos s.dev.keep → scrubPos s.dev.keep ∈ d.keep.bad)) := by
  refine ⟨fun hdue => ?_, fun hdue => ?_⟩
  · show execScrubGroup r s = _
    simp only [execScrubGroup, onDev_eq, guardDev_pos hup, hrun, hlater, hdue]
    rfl
  · rw [leads_onDev (show exec (.scrubGroup r) s = execScrubGroup r s from rfl), guardDev_pos hup]
    have hnot : inRunning s.dev.keep (scrubPos s.dev.keep) = false := by simp [inRunning, hrun]
    simp only [hrun, hlater, hdue, hnot, Bool.not_true, Bool.false_eq_true, if_false]
    generalize scrubPos s.dev.keep = g
    obtain ⟨hqueue, hfast, habove⟩ := scrubNext_fields g (scrubVisit g r s.dev)
    refine ⟨?_, fun hr => ?_, fun hr hg => ?_⟩
    · rw [hfast, scrubVisit_scrubFast]
    · obtain ⟨hq, hbytes⟩ := scrubVisit_clean (g := g) (d := s.dev) hr
      refine ⟨hqueue.trans hq, fun hw => ?_⟩
      obtain ⟨hw1, hsame⟩ := hbytes hw
      obtain ⟨hpos, hrest⟩ := scrubNext_pos g (scrubVisit g r s.dev) hw1
      exact ⟨hpos, fun a ha => (hrest a ha).trans (hsame a)⟩
    · subst hr
      exact habove.bad g (by omega) (scrubBad_bad (by omega))

/-- Settles O41: the stores by how they begin and end, the trigger and block protection by what each write keeps, and the
scrubber's pass by the bytes and groups that its visits keep. -/
theorem keepStoresAndProtection : Obligations.KeepStoresAndProtection := by
  unfold Obligations.KeepStoresAndProtection
  intro s
  refine ⟨keepCtlStore_leads, fun b t hstore ht hpark => keepSStoreDone_leads hstore ht hpark, fun r => rfl, powerFailTrigger_leads,
    powerFailRearm_next, fun en ch hok => powerFailTriggerAssign_leads en ch hok, fun bp hok => blockProtectWrite_leads bp hok,
    fun hok => ?_, fun r hup hrun hlater => scrubGroup_leads r hup hrun hlater⟩
  rw [leads_onDev (show exec .keepCtlScrub s = execKeepCtlScrub s from rfl), byHost_of_ok hok, markHost_keep]
  exact ⟨rfl, rfl⟩

end Sys2Proof.Laws
end

section
/-! What a role, a run and an event leave alone, and what ROMBOOT leaves (R65 to R70, R95, Table 03-2). -/

namespace Sys2Proof.Laws

open Sys2Proof Machine

/-! ## A property that ports and events leave alone

The commands of the ports end runs, contracts and roles by changes of a port and by events. A property of the device that neither
touches outlives all of them; each lemma here takes those two facts. -/

section Untouched
variable {Q : Dev → Prop} (hmod : ∀ p f d, Q d → Q (d.modPort p f)) (hpost : ∀ x d, Q d → Q (post x d))
include hmod

theorem sendWithdraw_keeps (rsn : Nat) (p : PortId) (i : Idx) (slot : Option Nat) (r : Nat) {d : Dev} (h : Q d) :
    Q (sendWithdraw rsn p i slot r d) := by
  have hsend {e : Dev} (he : Q e) (x y z w u) : Q (sendTo p i x y z w u e) := hmod _ _ _ (hmod _ _ _ (hmod _ _ _ he))
  unfold sendWithdraw
  dsimp only
  split
  · split
    · exact hsend (hmod _ _ _ h) _ _ _ _ _
    · exact hsend h _ _ _ _ _
  · split
    · exact hmod _ _ _ h
    · exact h

include hpost

theorem endContract_keeps (code : Nat) (p : PortId) (i : Idx) {d : Dev} (h : Q d) : Q (endContract code p i d) :=
  hpost _ _ (hmod _ _ _ h)

theorem withdrawGrant_keeps (rsn : Nat) (p : PortId) (k : Nat) {d : Dev} (h : Q d) : Q (withdrawGrant rsn p k d) := by
  unfold withdrawGrant
  repeat' split
  · exact endContract_keeps hmod hpost _ _ _ (sendWithdraw_keeps hmod _ _ _ _ _ h)
  all_goals exact h

theorem withdrawContract_keeps (rsn : Nat) (p : PortId) (i : Idx) {d : Dev} (h : Q d) : Q (withdrawContract rsn p i d) :=
  endContract_keeps hmod hpost _ _ _ (sendWithdraw_keeps hmod _ _ _ _ _ h)

theorem noteThrot_keeps (p : PortId) {d : Dev} (h : Q d) : Q (noteThrot p d) := by
  have hflush : Q (flushThrot p d) := by
    unfold flushThrot postThrot
    dsimp only
    repeat' split
    · exact hpost _ _ (hmod _ _ _ h)
    all_goals exact h
  unfold noteThrot
  dsimp only
  split
  · exact h
  · exact hmod _ _ _ hflush

theorem relieve_keeps {d : Dev} (h : Q d) : Q (relieve d) :=
  relieve_induct (fun p _ h => noteThrot_keeps hmod hpost p h) (fun rsn p k _ h => withdrawGrant_keeps hmod hpost rsn p k h)
    (fun rsn p i _ h => withdrawContract_keeps hmod hpost rsn p i h) h

theorem setRole_keeps (p : PortId) (r : Role) {d : Dev} (h : Q d) : Q (setRole p r d) := by
  unfold setRole
  split
  · exact h
  · exact hpost _ _ (hmod _ _ _ h)

theorem levelEnds_keeps (p : PortId) {d : Dev} (h : Q d) : Q (levelEnds p d) := by
  unfold levelEnds
  split
  · exact hpost _ _ (hmod _ _ _ h)
  · exact h

theorem abortSlots_keeps (sa w : Nat) (p : PortId) {d : Dev} (h : Q d) : Q (abortSlots sa w p d) := by
  refine foldDev_induct (fun x e he => ?_) _ h
  unfold abortSlot
  dsimp only
  repeat' split
  · exact hpost _ _ (hmod _ _ _ he)
  · exact endContract_keeps hmod hpost _ _ _ (hpost _ _ (hmod _ _ _ he))
  · exact hpost _ _ (hmod _ _ _ he)

theorem endAll_keeps (w : Nat) (p : PortId) {d : Dev} (h : Q d) : Q (endAll w p d) := by
  unfold endAll
  split
  · exact hmod _ _ _ h
  · exact foldDev_induct (fun x e he => endContract_keeps hmod hpost _ _ _ he) _ h

theorem railOff_keeps (p : PortId) {d : Dev} (h : Q d) : Q (railOff p d) := by
  unfold railOff
  dsimp only
  split
  · exact hpost _ _ (hmod _ _ _ (hmod _ _ _ h))
  split
  · exact hpost _ _ (hmod _ _ _ h)
  · exact hmod _ _ _ h

theorem leaveRole_keeps (p : PortId) {d : Dev} (h : Q d) : Q (leaveRole p d) := by
  unfold leaveRole
  split
  · refine relieve_keeps hmod hpost (hmod _ _ _ (railOff_keeps hmod hpost p (setRole_keeps hmod hpost p _ (hmod _ _ _ ?_))))
    exact endAll_keeps hmod hpost _ p (levelEnds_keeps hmod hpost p (hmod _ _ _ (abortSlots_keeps hmod hpost _ _ p h)))
  · exact relieve_keeps hmod hpost (setRole_keeps hmod hpost p _ (hmod _ _ _ h))
  · exact h

variable (hpll : ∀ d, Q d → Q (pllNeed d)) (hunpark : ∀ d, Q d → Q (unpark d))
include hpll hunpark

theorem applyRole_keeps (p : PortId) (r : Role) {d : Dev} (h : Q d) : Q (applyRole p r d) := by
  have hleft := leaveRole_keeps hmod hpost p h
  unfold applyRole
  split
  · exact h
  cases r with
  | off => exact hleft
  | feed => exact hunpark _ (hpll _ (hmod _ _ _ (setRole_keeps hmod hpost p _ hleft)))
  | draw => exact hunpark _ (hmod _ _ _ (setRole_keeps hmod hpost p _ hleft))

theorem autoStart_keeps (p : PortId) {d : Dev} (h : Q d) : Q (autoStart p d) := by
  unfold autoStart
  dsimp only
  split
  · split
    · exact hpost _ _ (hmod _ _ _ (hmod _ _ _ h))
    · exact applyRole_keeps hmod hpost hpll hunpark p _ (hmod _ _ _ (hmod _ _ _ h))
  · exact h

end Untouched

/-! ## The start view: what a start sets and its events and roles leave -/

/-- The time, the start phase and its cause, the latch and RESET#, whether the core runs, and the latches of SAFE. -/
def startView (d : Dev) : Nat × Phase × BitVec 2 × Bool × Bool × Option Bool × Bool × Bool × Bool :=
  (d.us, d.pw.phase, d.pw.cause, d.pw.latchArmed, d.pw.resetLow, d.pw.coldHeld, d.core.run, d.gl.crit, d.gl.safe)

/-- The device has a start view and a flag of GSTAT set. -/
def Started (v : Nat × Phase × BitVec 2 × Bool × Bool × Option Bool × Bool × Bool × Bool) (i : Nat) (d : Dev) : Prop :=
  startView d = v ∧ d.gl.gstat.getLsbD i = true

theorem startView_post (x : EventSpec) (d : Dev) : startView (post x d) = startView d :=
  (congrArg startView (post_steady x d) :)

section
variable {v : Nat × Phase × BitVec 2 × Bool × Bool × Option Bool × Bool × Bool × Bool} {i : Nat}

theorem started_modPort (p : PortId) (f : Port → Port) (d : Dev) (h : Started v i d) : Started v i (d.modPort p f) := by
  cases p <;> exact h

theorem started_post (x : EventSpec) (d : Dev) (h : Started v i d) : Started v i (post x d) :=
  ⟨(startView_post x d).trans h.1, post_gstat x h.2⟩

theorem started_setG (j : Nat) (d : Dev) (h : Started v i d) : Started v i (setG j d) :=
  ⟨h.1, by
    obtain ⟨_, hflag⟩ := h
    simp [setG, hflag]⟩

theorem started_pllNeed (d : Dev) (h : Started v i d) : Started v i (pllNeed d) := by
  unfold pllNeed
  split <;> exact h

theorem started_unpark (d : Dev) (h : Started v i d) : Started v i (unpark d) := by
  unfold unpark
  split <;> exact h

theorem started_autoStart (p : PortId) {d : Dev} (h : Started v i d) : Started v i (autoStart p d) :=
  autoStart_keeps started_modPort started_post started_pllNeed started_unpark p h

theorem started_bootEvents (f : Found) {d : Dev} (h : Started v i d) : Started v i (bootEvents f d) := by
  have hpoison (g : Nat) {e : Dev} (he : Started v i e) : Started v i (postGlobal 0x30 0 (h16 g) true e) := started_post _ _ he
  have h1 : Started v i (if f.sfail then postGlobal 0x33 0 0 true (setG gKeep d) else d) := by
    split
    · exact started_post _ _ (started_setG _ _ h)
    · exact h
  unfold bootEvents
  extract_lets d1 d2 poison d3 d4
  have h2 : Started v i d2 := by
    show Started v i (match f.done with | some n => postGlobal 0x31 0 (h16 n) false (setG gKeep d1) | none => d1)
    cases f.done with
    | none => exact h1
    | some n => exact started_post _ _ (started_setG _ _ h1)
  have h3 : Started v i d3 := foldDev_induct (fun pg e he => hpoison _ he) _ h2
  have h4 : Started v i d4 := foldDev_induct (fun g e he => hpoison _ he) _ h3
  split
  · exact started_post _ _ (started_setG _ _ h4)
  · exact h4

end

/-! ## What a start reads from Keep (Table 03-2, steps 2 to 4) -/

/-- What reading Keep back leaves: the time, the power state, the core, and the roles in force. -/
def Loads (a b : Dev) : Prop := b.us = a.us ∧ b.pw = a.pw ∧ b.core = a.core ∧ ∀ p, (b.port p).role = (a.port p).role

theorem Loads.refl (d : Dev) : Loads d d := ⟨rfl, rfl, rfl, fun _ => rfl⟩

theorem Loads.trans {a b c : Dev} (h : Loads a b) (h' : Loads b c) : Loads a c :=
  have ⟨h1, h2, h3, h4⟩ := h
  have ⟨k1, k2, k3, k4⟩ := h'
  ⟨k1.trans h1, k2.trans h2, k3.trans h3, fun p => (k4 p).trans (h4 p)⟩

theorem loads_modPort (p : PortId) (f : Port → Port) (hf : ∀ q, (f q).role = q.role) (d : Dev) : Loads d (d.modPort p f) :=
  ⟨modPort_us d p f, modPort_pw d p f, modPort_core d p f, fun r => field_modPort Port.role p r f hf d⟩

theorem loads_of_frame {a b : Dev} (hus : b.us = a.us) (hpw : b.pw = a.pw) (hcore : b.core = a.core) (h0 : b.p0 = a.p0)
    (h1 : b.p1 = a.p1) : Loads a b := ⟨hus, hpw, hcore, fun p => congrArg Port.role (port_congr h0 h1 p)⟩

/-- A device with other tables, global block, Keep, update and gang. -/
theorem loads_set (d : Dev) (gl : Global) (tb : Tables) (keep : Keep) (fwu : Fwu) (gang : Gang) :
    Loads d { d with gl := gl, tb := tb, keep := keep, fwu := fwu, gang := gang } :=
  loads_of_frame rfl rfl rfl rfl rfl

theorem dueSettings_loads (d : Dev) : Loads d (dueSettings d) := by
  unfold dueSettings
  split
  · exact .refl d
  · exact loads_set d _ _ _ _ _

theorem deviceFrom_loads (k : Keep) (d : Dev) : Loads d (deviceFrom k d) := loads_set d _ _ _ _ _

theorem loadSettings_loads (d : Dev) : Loads d (loadSettings d) := by
  have hports (k : Keep) : Loads d ((d.modPort .p0 fun q => capsFrom k .p0 (portFrom (keepBytes k 0x19010 64) q)).modPort .p1
      fun q => capsFrom k .p1 (portFrom (keepBytes k 0x19050 64) q)) :=
    (loads_modPort .p0 _ (by intro q; rfl) d).trans (loads_modPort .p1 _ (by intro q; rfl) _)
  have hdev := (hports d.keep).trans (deviceFrom_loads d.keep _)
  unfold loadSettings
  dsimp only
  split
  · exact .refl d
  split
  · exact hdev
  · exact hdev.trans (dueSettings_loads _)

theorem loadTuning_loads (d : Dev) : Loads d (loadTuning d) := loads_set d _ _ _ _ _

theorem loadTenants_loads (d : Dev) : Loads d (loadTenants d) := by
  unfold loadTenants
  dsimp only
  split
  · exact .refl d
  · exact loads_set d _ _ _ _ _

theorem loadOwner_loads (d : Dev) : Loads d (loadOwner d) := by
  unfold loadOwner
  dsimp only
  split <;> exact loads_set d _ _ _ _ _

theorem dueCopies_loads (d : Dev) : Loads d (dueCopies d) := loads_set d _ _ _ _ _

/-- A port with its records as Keep holds them. -/
def rosterFrom (k : Keep) (p : PortId) (q : Port) : Port :=
  { q with roster := (loadRoster k p).map fun (i, r) => (i, storedCeiling q r) }

theorem rosterFrom_role (k : Keep) (p : PortId) (q : Port) : (rosterFrom k p q).role = q.role := by
  unfold rosterFrom
  generalize loadRoster k p = l
  rfl

/-- The records of both ports as Keep holds them. -/
def rostersFrom (k : Keep) (d : Dev) : Dev := (d.modPort .p0 (rosterFrom k .p0)).modPort .p1 (rosterFrom k .p1)

theorem rostersFrom_loads (k : Keep) (d : Dev) : Loads d (rostersFrom k d) :=
  (loads_modPort .p0 _ (rosterFrom_role k .p0) d).trans (loads_modPort .p1 _ (rosterFrom_role k .p1) _)

/-- Block protection and the trigger as the system page holds them. -/
def controlsFrom (d : Dev) : Dev :=
  { d with keep := { d.keep with bp := BitVec.ofNat 2 (leNat (readBytes d.keep.e 0x3208 1))
                                 pfch := BitVec.ofNat 4 (leNat (readBytes d.keep.e 0x3209 1))
                                 pfen := bit (leNat (readBytes d.keep.e 0x3209 1)) 4 } }

theorem controlsFrom_loads (d : Dev) : Loads d (controlsFrom d) := loads_set d _ _ _ _ _

theorem loadKeep_loads (d : Dev) : Loads d (loadKeep d) := by
  have hread : Loads d (dueCopies (loadOwner (loadTenants (loadTuning (loadSettings d))))) :=
    ((loadSettings_loads d).trans (loadTuning_loads _)).trans
      ((loadTenants_loads _).trans ((loadOwner_loads _).trans (dueCopies_loads _)))
  have heq : loadKeep d = rostersFrom (dueCopies (loadOwner (loadTenants (loadTuning (loadSettings d))))).keep
      (controlsFrom (dueCopies (loadOwner (loadTenants (loadTuning (loadSettings d)))))) := rfl
  rw [heq]
  exact hread.trans ((controlsFrom_loads _).trans (rostersFrom_loads _ _))

theorem loadEnergy_loads (d : Dev) : Loads d (loadEnergy d) := by
  unfold loadEnergy
  extract_lets ps es sNum newest meters
  have hports : Loads d ((d.modPort .p0 (meters 0)).modPort .p1 (meters 1024)) :=
    (loads_modPort .p0 _ (by intro q; rfl) d).trans (loads_modPort .p1 _ (by intro q; rfl) _)
  exact hports.trans (loads_set _ _ _ _ _ _)

theorem loadShare_loads (d : Dev) : Loads d (loadShare d) := loads_set d _ _ _ _ _

theorem bootKeep_loads (cold : Bool) (d : Dev) : Loads d (bootKeep cold d).2 := by
  unfold bootKeep
  dsimp only
  refine Loads.trans ?_ ((loadEnergy_loads _).trans (loadShare_loads _))
  refine Loads.trans ?_ (loadKeep_loads _)
  exact loads_set d _ _ _ _ _

theorem failPending_loads (b : Bool) (x : Found × Dev) : Loads x.2 (failPending b x).2 := by
  unfold failPending
  split
  · exact loads_set _ _ _ _ _ _
  · exact .refl _

/-- The time starts again from 0, and PRESENT#'s delay with it. -/
def restarted (d : Dev) : Dev := { d with us := 0, pw := { d.pw with present := d.pw.present.rebase d.us } }

/-- A start as it has read Keep and failed a pending image. -/
def bootFound (cold : Bool) (d : Dev) : Found × Dev :=
  failPending true (failPending false (bootKeep cold (restarted d)))

theorem bootFound_loads (cold : Bool) (d : Dev) :
    Loads (restarted d) (bootFound cold d).2 :=
  ((bootKeep_loads cold (restarted d)).trans (failPending_loads false _)).trans (failPending_loads true _)

theorem romboot_eq (cause : BitVec 2) (cold recovery : Bool) (d : Dev) :
    romboot cause cold recovery d = match if recovery then none else bootBank (bootFound cold d).2 with
      | some b => startFirmware cause b (bootFound cold d).1 (bootFound cold d).2
      | none => { (bootFound cold d).2 with pw := { (bootFound cold d).2.pw with phase := .recovery, cause := cause } } := by
  unfold romboot bootFound restarted
  generalize failPending true _ = x
  rfl

/-! ## The firmware starts (steps 7 and 8) -/

/-- The device with an image entered and its ports' sequencers loaded, before BOOT. -/
def imageEntered (cause : BitVec 2) (b : Bool) (d : Dev) : Dev :=
  let d0 := { d with fwu := { d.fwu with active := b } }
  let d1 := enterImage (runningImage d0)
    { d0 with fwu := { d0.fwu with other := otherHolds d0 }, pw := { d0.pw with phase := .running, cause := cause }
              gl := { d0.gl with safe := d0.gl.crit }, tb := { d0.tb with alloc := true } }
  d1.bothPorts fun p d => d.modPort p fun q => { q with line := { q.line with seqRun := true } }

/-- The device as its first events are posted, before auto-start. -/
def booted (cause : BitVec 2) (b : Bool) (f : Found) (d : Dev) : Dev :=
  beginMigration (bootEvents f (postGlobal 0x01 0 (h16 cause.toNat) true (setG gBoot (clearTorn (imageEntered cause b d)))))

theorem startFirmware_eq (cause : BitVec 2) (b : Bool) (f : Found) (d : Dev) :
    startFirmware cause b f d =
      if (booted cause b f d).gl.safe then booted cause b f d else (booted cause b f d).bothPorts autoStart := rfl

theorem clearTorn_frame (d : Dev) : startView (clearTorn d) = startView d ∧ ∀ p, (clearTorn d).port p = d.port p := by
  unfold clearTorn
  split
  · exact ⟨rfl, fun _ => rfl⟩
  · unfold dueSettings
    dsimp only
    split <;> exact ⟨rfl, fun p => port_congr rfl rfl p⟩

theorem booted_started (cause : BitVec 2) (b : Bool) (f : Found) (d : Dev) :
    Started (d.us, .running, cause, d.pw.latchArmed, d.pw.resetLow, d.pw.coldHeld, true, d.gl.crit, d.gl.crit) gBoot
      (booted cause b f d) := by
  have hview : startView (imageEntered cause b d)
      = (d.us, .running, cause, d.pw.latchArmed, d.pw.resetLow, d.pw.coldHeld, true, d.gl.crit, d.gl.crit) := rfl
  exact started_bootEvents f (started_post _ _ ⟨(clearTorn_frame _).1.trans hview, setG_same (by decide) _⟩)

theorem bootEvents_port (f : Found) (d : Dev) (p : PortId) : (bootEvents f d).port p = d.port p := by
  unfold bootEvents
  extract_lets d1 d2 poison d3 d4
  have h1 : d1.port p = d.port p := by
    show Dev.port (if f.sfail then postGlobal 0x33 0 0 true (setG gKeep d) else d) p = _
    split
    · rw [postGlobal_port]; exact port_congr rfl rfl p
    · rfl
  have h2 : d2.port p = d1.port p := by
    show Dev.port (match f.done with | some n => postGlobal 0x31 0 (h16 n) false (setG gKeep d1) | none => d1) p = _
    cases f.done with
    | none => rfl
    | some n => exact (postGlobal_port _ _ _ _ _ _).trans (port_congr rfl rfl p)
  have h3 : d3.port p = d2.port p := foldDev_port p _ (fun g e => postGlobal_port _ _ _ _ e p) _ d2
  have h4 : d4.port p = d3.port p := foldDev_port p _ (fun g e => postGlobal_port _ _ _ _ e p) _ d3
  split
  · rw [postFwu_port, h4, h3, h2, h1]
  · rw [h4, h3, h2, h1]

theorem booted_role (cause : BitVec 2) (b : Bool) (f : Found) (d : Dev) (p : PortId) :
    ((booted cause b f d).port p).role = (d.port p).role := by
  have hmig : (booted cause b f d).port p =
      (bootEvents f (postGlobal 0x01 0 (h16 cause.toNat) true (setG gBoot (clearTorn (imageEntered cause b d))))).port p :=
    port_congr rfl rfl p
  have hflag : (setG gBoot (clearTorn (imageEntered cause b d))).port p = (clearTorn (imageEntered cause b d)).port p :=
    port_congr rfl rfl p
  rw [hmig, bootEvents_port, postGlobal_port, hflag, (clearTorn_frame _).2]
  cases p <;> rfl

/-- The firmware runs after a start: the time and the pins as they were, BOOT set, and SAFE where the critical latch is set. -/
theorem startFirmware_started (cause : BitVec 2) (b : Bool) (f : Found) (d : Dev) :
    Started (d.us, .running, cause, d.pw.latchArmed, d.pw.resetLow, d.pw.coldHeld, true, d.gl.crit, d.gl.crit) gBoot
      (startFirmware cause b f d) := by
  have h := booted_started cause b f d
  rw [startFirmware_eq]
  split
  · exact h
  · exact started_autoStart .p1 (started_autoStart .p0 h)

theorem startFirmware_role {cause : BitVec 2} {b : Bool} {f : Found} {d : Dev} (hcrit : d.gl.crit = true) (p : PortId) :
    ((startFirmware cause b f d).port p).role = (d.port p).role := by
  have hsafe : (booted cause b f d).gl.safe = true :=
    (congrArg (fun v => v.2.2.2.2.2.2.2.2) (booted_started cause b f d).1 :).trans hcrit
  rw [startFirmware_eq, if_pos hsafe]
  exact booted_role cause b f d p

/-- A device that has started: in RECOVERY with nothing running, or with the firmware running, SAFE where the critical latch is set. -/
def HasStarted (off : Prop) (d : Dev) : Prop :=
  (d.pw.phase = .recovery ∧ (off → d.core.run = false ∧ ∀ p, (d.port p).role = .off))
  ∨ (d.pw.phase = .running ∧ d.core.run = true ∧ d.gl.gstat.getLsbD gBoot = true ∧ d.gl.safe = d.gl.crit
    ∧ (off → d.gl.safe = true → ∀ p, (d.port p).role = .off))

/-- What ROMBOOT leaves, where the core was held and the ports were OFF in particular (Table 03-2). -/
theorem romboot_started (cause : BitVec 2) (cold recovery : Bool) (d : Dev) :
    (romboot cause cold recovery d).us = 0 ∧ (romboot cause cold recovery d).pw.cause = cause
    ∧ (romboot cause cold recovery d).pw.latchArmed = d.pw.latchArmed
    ∧ (romboot cause cold recovery d).pw.resetLow = d.pw.resetLow ∧ (romboot cause cold recovery d).pw.coldHeld = d.pw.coldHeld
    ∧ (recovery = true → (romboot cause cold recovery d).pw.phase = .recovery)
    ∧ HasStarted (d.core.run = false ∧ ∀ p, (d.port p).role = .off) (romboot cause cold recovery d) := by
  obtain ⟨hus, hpw, hcore, hrole⟩ := bootFound_loads cold d
  have hports (p : PortId) : ((bootFound cold d).2.port p).role = (d.port p).role :=
    (hrole p).trans (congrArg Port.role (port_congr (b := d) rfl rfl p))
  rw [romboot_eq]
  generalize bootFound cold d = x at *
  have harmed : x.2.pw.latchArmed = d.pw.latchArmed := by rw [hpw]; rfl
  have hreset : x.2.pw.resetLow = d.pw.resetLow := by rw [hpw]; rfl
  have hheld : x.2.pw.coldHeld = d.pw.coldHeld := by rw [hpw]; rfl
  cases hbank : (if recovery then none else bootBank x.2) with
  | none =>
    refine ⟨hus, rfl, harmed, hreset, hheld, fun _ => rfl,
      .inl ⟨rfl, fun ⟨hrun, hoff⟩ => ⟨(congrArg Core.run hcore).trans hrun, fun p => ?_⟩⟩⟩
    exact (congrArg Port.role (port_congr rfl rfl p)).trans ((hports p).trans (hoff p))
  | some b =>
    obtain ⟨hview, hflag⟩ := startFirmware_started cause b x.1 x.2
    simp only [startView, Prod.mk.injEq] at hview
    obtain ⟨h1, h2, h3, h4, h5, h6, h7, h8, h9⟩ := hview
    refine ⟨h1.trans hus, h3, h4.trans harmed, h5.trans hreset, h6.trans hheld, fun hr => by simp [hr] at hbank,
      .inr ⟨h2, h7, hflag, h9.trans h8.symm, fun ⟨_, hoff⟩ hsafe p => ?_⟩⟩
    exact (startFirmware_role (h9.symm.trans hsafe) p).trans ((hports p).trans (hoff p))

end Sys2Proof.Laws
end

section
/-! Loss of supply, RESET#, the cold start, PRESENT# and the PLL (R30, R57 to R64, R67, R474). -/

namespace Sys2Proof.Laws

open Sys2Proof Machine

/-! ## Loss of supply and RESET# (R30, R61, R62) -/

theorem finishStore_s (k : Keep) : (finishStore k).s = k.s := by
  unfold finishStore
  split
  · rfl
  · dsimp only
    rw [tallyInc_keep Keep.s (fun _ _ _ => rfl)]
    split <;> rfl

theorem commitWrites_s (n : Nat) (r : Running) (k : Keep) : (commitWrites n r k).s = k.s := by rw [commitWrites_eq]

theorem stopKeep_s (n : Nat) (d : Dev) : (stopKeep n d).keep.s = d.keep.s := by
  unfold stopKeep
  dsimp only
  rw [finishStore_s]
  split
  · rfl
  · split
    · rw [tallyInc_keep Keep.s (fun _ _ _ => rfl), cleanGroups_keep Keep.s (fun _ _ _ => rfl)]
      exact commitWrites_s _ _ _
    · unfold interruptCommit
      split
      · rfl
      · exact commitWrites_s _ _ _

theorem freshDev_port (d : Dev) (p : PortId) : (freshDev d).port p = {} := by cases p <;> rfl

theorem supplyLost_leads {s : State} (n : Nat) (hsupply : s.dev.pw.supply = true) : Leads (.supplyLost n) s fun d =>
    d.pw.supply = false ∧ d.pw.phase = .dormant ∧ d.core.run = false ∧ d.keep.s = [] ∧ d.gl.gstat = 0
    ∧ (∀ p, d.port p = {}) ∧ d.fwu.bankA = s.dev.fwu.bankA ∧ d.fwu.bankB = s.dev.fwu.bankB := by
  rw [leads_onDev (show exec (.supplyLost n) s = execSupplyLost n s from rfl), guardDev_pos hsupply]
  exact ⟨rfl, rfl, rfl, rfl, rfl, fun p => by cases p <;> rfl, rfl, rfl⟩

theorem resetAssert_leads {s : State} (n : Nat) (hsupply : s.dev.pw.supply = true) (harmed : s.dev.pw.latchArmed = false) :
    Leads (.resetAssert n) s fun d =>
      d.pw.resetLow = true ∧ d.pw.phase = .held ∧ d.pw.rdata = none ∧ d.core.run = false ∧ d.gl.gstat = 0
      ∧ (∀ p, d.port p = {}) ∧ d.keep.s = s.dev.keep.s ∧ d.gl.crit = s.dev.gl.crit
      ∧ d.fwu.bankA = s.dev.fwu.bankA ∧ d.fwu.bankB = s.dev.fwu.bankB := by
  rw [leads_onDev (show exec (.resetAssert n) s = execResetAssert n s from rfl)]
  dsimp only
  rw [if_pos (show (s.dev.pw.supply && !s.dev.pw.latchArmed) = true by simp [hsupply, harmed])]
  exact ⟨rfl, rfl, rfl, rfl, rfl, freshDev_port _, stopKeep_s n _, rfl, rfl, rfl⟩

/-! ## The cold start and the release of RESET# (R39, R57, R62) -/

/-- The device as the armed latch releases the core. -/
def latchReleased (d : Dev) : Dev := freshDev { d with pw := { d.pw with supply := true, latchArmed := false } }

theorem coldStart_held {s : State} (bootsel : Bool) (harmed : s.dev.pw.latchArmed = true) (hlow : s.dev.pw.resetLow = true) :
    Leads (.coldStart bootsel) s fun d =>
      d.pw.supply = true ∧ d.pw.latchArmed = false ∧ d.pw.phase = .held ∧ d.core.run = false ∧ d.pw.coldHeld = some bootsel := by
  rw [leads_onDev (show exec (.coldStart bootsel) s = execColdStart bootsel s from rfl), guardDev_pos harmed]
  dsimp only
  rw [if_pos (show (freshDev { s.dev with pw := { s.dev.pw with supply := true, latchArmed := false } }).pw.resetLow = true from hlow)]
  exact ⟨rfl, rfl, rfl, rfl, rfl⟩

theorem coldStart_leads {s : State} (bootsel : Bool) (harmed : s.dev.pw.latchArmed = true) (hlow : s.dev.pw.resetLow = false) :
    Leads (.coldStart bootsel) s fun d =>
      d.us = 0 ∧ d.pw.cause = 0 ∧ d.pw.latchArmed = false ∧ (bootsel = true → d.pw.phase = .recovery)
      ∧ (d.pw.phase = .recovery ∧ d.core.run = false ∧ (∀ p, (d.port p).role = .off)
        ∨ d.pw.phase = .running ∧ d.core.run = true ∧ d.gl.gstat.getLsbD gBoot = true ∧ d.gl.safe = d.gl.crit
          ∧ (d.gl.safe = true → ∀ p, (d.port p).role = .off)) := by
  have hshape : (guardDev s.dev.pw.latchArmed (fun d =>
      let d1 := freshDev { d with pw := { d.pw with supply := true, latchArmed := false } }
      if d1.pw.resetLow then { d1 with pw := { d1.pw with coldHeld := some bootsel } } else romboot 0 true bootsel d1) s.dev)
      = romboot 0 true bootsel (latchReleased s.dev) := by
    rw [guardDev_pos harmed]
    exact if_neg (show ¬ s.dev.pw.resetLow = true by simp [hlow])
  rw [leads_onDev (show exec (.coldStart bootsel) s = execColdStart bootsel s from rfl), hshape]
  have hoff : (latchReleased s.dev).core.run = false ∧ ∀ p, ((latchReleased s.dev).port p).role = .off :=
    ⟨rfl, fun p => congrArg Port.role (freshDev_port _ p)⟩
  obtain ⟨hus, hcause, harmed', _, _, hrec, hstarted⟩ := romboot_started 0 true bootsel (latchReleased s.dev)
  generalize romboot 0 true bootsel (latchReleased s.dev) = e at *
  refine ⟨hus, hcause, harmed', hrec, ?_⟩
  rcases hstarted with ⟨hph, h⟩ | ⟨hph, hrun, hboot, hsafe, h⟩
  · exact .inl ⟨hph, h hoff⟩
  · exact .inr ⟨hph, hrun, hboot, hsafe, h hoff⟩

/-- The device as RESET# goes high. -/
def resetReleased (d : Dev) : Dev := { d with pw := { d.pw with resetLow := false, coldHeld := none } }

/-- ROMBOOT after the release of RESET#, by its cause and whether BOOTSEL forces RECOVERY. -/
theorem romboot_released (cause : BitVec 2) (cold recovery : Bool) (d : Dev) :
    let e := romboot cause cold recovery (resetReleased d)
    e.us = 0 ∧ e.pw.cause = cause ∧ e.pw.resetLow = false ∧ e.pw.coldHeld = none ∧ (recovery = true → e.pw.phase = .recovery)
      ∧ (e.pw.phase = .recovery ∨ e.pw.phase = .running ∧ e.core.run = true ∧ e.gl.gstat.getLsbD gBoot = true) := by
  obtain ⟨hus, hcause, _, hlow, hheld, hrec, hstarted⟩ := romboot_started cause cold recovery (resetReleased d)
  refine ⟨hus, hcause, hlow, hheld, hrec, ?_⟩
  rcases hstarted with ⟨hph, _⟩ | ⟨hph, hrun, hboot, _⟩
  · exact .inl hph
  · exact .inr ⟨hph, hrun, hboot⟩

theorem resetRelease_leads {s : State} (hlow : s.dev.pw.resetLow = true) (hsupply : s.dev.pw.supply = true)
    (harmed : s.dev.pw.latchArmed = false) : Leads .resetRelease s fun d =>
      d.us = 0 ∧ d.pw.cause = (if s.dev.pw.coldHeld.isSome then 0 else 1) ∧ d.pw.resetLow = false ∧ d.pw.coldHeld = none
      ∧ (s.dev.pw.coldHeld = some true → d.pw.phase = .recovery)
      ∧ (d.pw.phase = .recovery ∨ d.pw.phase = .running ∧ d.core.run = true ∧ d.gl.gstat.getLsbD gBoot = true) := by
  have hshape : exec .resetRelease s = onDev (fun d => if d.pw.resetLow && d.pw.supply && !d.pw.latchArmed then
      match d.pw.coldHeld with
      | some bootsel => romboot 0 true bootsel (resetReleased d)
      | none => romboot 1 false false (resetReleased d)
    else resetReleased d) s := rfl
  rw [leads_onDev hshape]
  rw [if_pos (show (s.dev.pw.resetLow && s.dev.pw.supply && !s.dev.pw.latchArmed) = true by simp [hlow, hsupply, harmed])]
  cases hheld : s.dev.pw.coldHeld with
  | none =>
    have h := romboot_released 1 false false s.dev
    dsimp only at h ⊢
    generalize romboot 1 false false (resetReleased s.dev) = e at *
    obtain ⟨h1, h2, h3, h4, _, h6⟩ := h
    exact ⟨h1, h2, h3, h4, fun h => absurd h (by decide), h6⟩
  | some bootsel =>
    have h := romboot_released 0 true bootsel s.dev
    dsimp only at h ⊢
    generalize romboot 0 true bootsel (resetReleased s.dev) = e at *
    obtain ⟨h1, h2, h3, h4, h5, h6⟩ := h
    exact ⟨h1, h2, h3, h4, fun h => h5 (Option.some.inj h), h6⟩

/-! ## PRESENT#, VIO and the PLL (R64, R67, R474) -/

theorem clockFail_leads {s : State} (hon : s.dev.pw.pllOn = true) (hfailed : s.dev.pw.pllFailed = false) (hup : s.dev.up = true)
    (hlocked : s.dev.pw.pllLocked = false) (ht : s.dev.pw.pllAt + 2000 ≤ s.dev.us) : Leads .clockFail s fun d =>
      d.pw = { s.dev.pw with pllFailed := true } ∧ d.gl.gstat.getLsbD gClk = true ∧ d.p0 = s.dev.p0 ∧ d.p1 = s.dev.p1 := by
  rw [leads_onDev (show exec .clockFail s = execClockFail s from rfl)]
  rw [guardDev_pos (show (s.dev.up && s.dev.pw.pllOn && !s.dev.pw.pllLocked && !s.dev.pw.pllFailed
    && decide (s.dev.pw.pllAt + 2000 ≤ s.dev.us)) = true by simp [hup, hon, hlocked, hfailed, ht])]
  refine ⟨?_, post_gstat _ (setG_same (by decide) _), postGlobal_port _ _ _ _ _ .p0, postGlobal_port _ _ _ _ _ .p1⟩
  rw [pw_of_steady (postGlobal_steady _ _ _ _ _)]
  rfl

/-- Settles O42: the resets by what `freshDev` and `stopKeep` leave, the starts by `romboot_started`, and the pins by their own
writes. That the latch's sample of BOOTSEL waits for RESET#, that RESET_RELEASE then starts with cause 0, and that the ROM takes no
time, are the model's choices (log entries 41 and 3). -/
theorem startsAndResets : Obligations.StartsAndResets := by
  unfold Obligations.StartsAndResets
  intro s
  refine ⟨fun n h => supplyLost_leads n h, fun h => ?rearm, fun n h1 h2 => resetAssert_leads n h1 h2,
    fun b h1 h2 => coldStart_held b h1 h2, fun b h1 h2 => coldStart_leads b h1 h2, resetRelease_leads, fun h => ?low, fun t h => ?live,
    rfl, fun hon hfailed => ⟨?lock, fun hup hlocked ht => clockFail_leads hon hfailed hup hlocked ht⟩, rfl⟩
  case rearm =>
    show execLatchRearm s = _
    simp only [execLatchRearm, onDev_eq, h, Bool.not_false, guardDev_true]
  case low =>
    show execPresentLow s = _
    simp only [execPresentLow, onDev_eq, h, if_true]
  case live =>
    show execBusLive s = _
    simp only [execBusLive, onDev_eq, h]
    split <;> rfl
  case lock =>
    rw [leads_onDev (show exec .pllLock s = execPllLock s from rfl), guardDev_pos (by simp [hon, hfailed])]

end Sys2Proof.Laws
end

section
/-! The watchdog and the allocator's resumption (R367 to R373). -/

namespace Sys2Proof.Laws

open Sys2Proof Machine

/-! ## The allocator resumes: what its first shedding leaves (R95, R306, R369) -/

theorem pointBegins_eq (d : Dev) : pointBegins d =
    (d.modPort .p0 fun q => (pointsOf .p0).foldl (pointBegin d) q).modPort .p1
      fun q => (pointsOf .p1).foldl (pointBegin (d.modPort .p0 fun q => (pointsOf .p0).foldl (pointBegin d) q)) q := rfl

section Untouched
variable {Q : Dev → Prop} (hmod : ∀ p f d, Q d → Q (d.modPort p f)) (hpost : ∀ x d, Q d → Q (post x d))
include hmod hpost

theorem shedLate_keeps (p : PortId) {d : Dev} (h : Q d) : Q (shedLate p d) := by
  unfold shedLate
  split
  · unfold shedForLevel
    dsimp only
    refine foldDev_induct (fun x e he => ?late) _ (foldDev_induct (fun x e he => ?barredBy) _ (hmod _ _ _ h))
    all_goals
      split
      · exact withdrawContract_keeps hmod hpost _ _ _ he
      · exact he
  · exact h

/-- What the allocator does as it resumes leaves what ports and events leave. -/
theorem resumed_keeps {d : Dev} (h : Q d) : Q (relieve (pointBegins (d.bothPorts shedLate))) := by
  have hshed : Q (d.bothPorts shedLate) := shedLate_keeps hmod hpost .p1 (shedLate_keeps hmod hpost .p0 h)
  refine relieve_keeps hmod hpost ?_
  rw [pointBegins_eq]
  exact hmod .p1 _ _ (hmod .p0 _ _ hshed)

theorem throtSync_keeps (p : PortId) {d : Dev} (h : Q d) : Q (throtSync p d) :=
  hpost _ _ (hmod _ _ _ (noteThrot_keeps hmod hpost p h))

end Untouched

/-- The ports' paths and roles are these and, where `n` holds, they hold no reservation. -/
def Calm (n : Prop) (v : PortId → Gate × Role) (d : Dev) : Prop :=
  ∀ r, ((d.port r).gate, (d.port r).role) = v r ∧ (n → (d.port r).hints = [])

/-- A change of a port that keeps path, role and an empty list of reservations. -/
def Gentle (f : Port → Port) : Prop :=
  ∀ q, (f q).gate = q.gate ∧ (f q).role = q.role ∧ (q.hints = [] → (f q).hints = [])

theorem gentle_of_fields {f : Port → Port} (hg : ∀ q, (f q).gate = q.gate) (hr : ∀ q, (f q).role = q.role)
    (hh : ∀ q, (f q).hints = q.hints) : Gentle f := fun q => ⟨hg q, hr q, fun h => (hh q).trans h⟩

theorem Gentle.foldl {α : Type} {f : Port → α → Port} (hf : ∀ a, Gentle fun q => f q a) (l : List α) :
    Gentle fun q => l.foldl f q := by
  induction l with
  | nil => exact fun q => ⟨rfl, rfl, id⟩
  | cons a t ih =>
    intro q
    obtain ⟨h1, h2, h3⟩ := hf a q
    obtain ⟨k1, k2, k3⟩ := ih (f q a)
    exact ⟨k1.trans h1, k2.trans h2, fun h => k3 (h3 h)⟩

section
variable {n : Prop} {v : PortId → Gate × Role}

theorem calm_post (x : EventSpec) {d : Dev} (h : Calm n v d) : Calm n v (post x d) := fun r => by
  rw [post_port]
  exact h r

theorem calm_congr {a b : Dev} (h0 : a.p0 = b.p0) (h1 : a.p1 = b.p1) (h : Calm n v b) : Calm n v a := fun r => by
  rw [port_congr h0 h1 r]
  exact h r

theorem calm_modPort {f : Port → Port} (hf : Gentle f) (p : PortId) {d : Dev} (h : Calm n v d) : Calm n v (d.modPort p f) := by
  intro r
  obtain ⟨hg, hr, hh⟩ := hf (d.port p)
  by_cases hrp : r = p
  · subst hrp
    rw [modPort_port, hg, hr]
    exact ⟨(h r).1, fun hn => hh ((h r).2 hn)⟩
  · rw [show (d.modPort p f).port r = d.port r by cases r <;> cases p <;> first | exact absurd rfl hrp | rfl]
    exact h r

theorem calm_noteThrot (p : PortId) {d : Dev} (h : Calm n v d) : Calm n v (noteThrot p d) := by
  have hflush : Calm n v (flushThrot p d) := by
    unfold flushThrot postThrot
    dsimp only
    repeat' split
    · exact calm_post _ (calm_modPort (by intro q; exact ⟨rfl, rfl, id⟩) p h)
    all_goals exact h
  unfold noteThrot
  dsimp only
  split
  · exact h
  · exact calm_modPort (by intro q; exact ⟨rfl, rfl, id⟩) p hflush

theorem gentle_launchOn (now : Nat) : Gentle (launchOn now) :=
  gentle_of_fields (launchOn_field Port.gate (fun _ _ => rfl) (fun _ _ => rfl) (fun _ _ _ => rfl) now)
    (launchOn_field Port.role (fun _ _ => rfl) (fun _ _ => rfl) (fun _ _ _ => rfl) now)
    (launchOn_field Port.hints (fun _ _ => rfl) (fun _ _ => rfl) (fun _ _ _ => rfl) now)

theorem gentle_closeSlot (k : Nat) : Gentle (closeSlot k) :=
  gentle_of_fields (closeSlot_field Port.gate (fun _ _ _ => rfl) k) (closeSlot_field Port.role (fun _ _ _ => rfl) k)
    (closeSlot_field Port.hints (fun _ _ _ => rfl) k)

theorem gentle_endContract (i : Idx) (now : Nat) : Gentle fun q => rateFor i 50 now (clearContract i q) := by
  intro q
  have hdrop (r : Port) : (dropHint i (dropPending i r)).gate = r.gate ∧ (dropHint i (dropPending i r)).role = r.role
      ∧ (dropHint i (dropPending i r)).hints = r.hints.filter (·.idx != i) := ⟨rfl, rfl, rfl⟩
  have hclear : (clearContract i q).gate = q.gate ∧ (clearContract i q).role = q.role
      ∧ (clearContract i q).hints = q.hints.filter (·.idx != i) := by
    unfold clearContract
    dsimp only
    split <;> exact hdrop _
  obtain ⟨hg, hr, hh⟩ := hclear
  have hrate : (rateFor i 50 now (clearContract i q)).gate = (clearContract i q).gate
      ∧ (rateFor i 50 now (clearContract i q)).role = (clearContract i q).role
      ∧ (rateFor i 50 now (clearContract i q)).hints = (clearContract i q).hints := by
    unfold rateFor
    dsimp only
    split <;> exact ⟨rfl, rfl, rfl⟩
  obtain ⟨kg, kr, kh⟩ := hrate
  exact ⟨kg.trans hg, kr.trans hr, fun h => by rw [kh, hh, h]; rfl⟩

theorem calm_sendWithdraw (rsn : Nat) (p : PortId) (i : Idx) (slot : Option Nat) (res : Nat) {d : Dev} (h : Calm n v d) :
    Calm n v (sendWithdraw rsn p i slot res d) := by
  have hsend {e : Dev} (he : Calm n v e) (x y z w u) : Calm n v (sendTo p i x y z w u e) :=
    calm_modPort (gentle_launchOn _) p (calm_modPort (by intro q; exact ⟨rfl, rfl, id⟩) p (calm_modPort (by intro q; exact ⟨rfl, rfl, id⟩) p he))
  unfold sendWithdraw
  dsimp only
  split
  · split
    · exact hsend (calm_modPort (gentle_closeSlot _) p h) _ _ _ _ _
    · exact hsend h _ _ _ _ _
  · split
    · exact calm_modPort (by intro q; exact ⟨rfl, rfl, id⟩) p h
    · exact h

theorem calm_endContract (code : Nat) (p : PortId) (i : Idx) {d : Dev} (h : Calm n v d) : Calm n v (endContract code p i d) :=
  calm_post _ (calm_modPort (gentle_endContract i d.us) p h)

theorem calm_withdrawContract (rsn : Nat) (p : PortId) (i : Idx) {d : Dev} (h : Calm n v d) : Calm n v (withdrawContract rsn p i d) :=
  calm_endContract _ _ _ (calm_sendWithdraw _ _ _ _ _ h)

theorem calm_withdrawGrant (rsn : Nat) (p : PortId) (k : Nat) {d : Dev} (h : Calm n v d) : Calm n v (withdrawGrant rsn p k d) := by
  unfold withdrawGrant
  repeat' split
  · exact calm_endContract _ _ _ (calm_sendWithdraw _ _ _ _ _ h)
  all_goals exact h

theorem calm_relieve {d : Dev} (h : Calm n v d) : Calm n v (relieve d) :=
  relieve_induct (fun p _ h => calm_noteThrot p h) (fun rsn p k _ h => calm_withdrawGrant rsn p k h)
    (fun rsn p i _ h => calm_withdrawContract rsn p i h) h

theorem calm_shedLate (p : PortId) {d : Dev} (h : Calm n v d) : Calm n v (shedLate p d) := by
  unfold shedLate
  split
  · unfold shedForLevel
    dsimp only
    refine foldDev_induct (fun x e he => ?late) _ (foldDev_induct (fun x e he => ?barredBy) _
      (calm_modPort (by intro q; exact ⟨rfl, rfl, id⟩) p h))
    all_goals
      split
      · exact calm_withdrawContract _ _ _ he
      · exact he
  · exact h

theorem gentle_pointBegins (d : Dev) (l : List Nat) : Gentle fun q => l.foldl (pointBegin d) q := by
  refine Gentle.foldl (fun i q => ?_) l
  unfold pointBegin
  generalize pointSeen d i = seen
  obtain ⟨en, t, lim⟩ := seen
  dsimp only
  split <;> exact ⟨rfl, rfl, id⟩

theorem calm_resumed {d : Dev} (h : Calm n v d) : Calm n v (relieve (pointBegins (d.bothPorts shedLate))) := by
  have hshed : Calm n v (d.bothPorts shedLate) := calm_shedLate .p1 (calm_shedLate .p0 h)
  refine calm_relieve ?_
  rw [pointBegins_eq]
  exact calm_modPort (gentle_pointBegins _ _) .p1 (calm_modPort (gentle_pointBegins _ _) .p0 hshed)

theorem calm_throtSync (p : PortId) {d : Dev} (h : Calm n v d) : Calm n v (throtSync p d) :=
  calm_post _ (calm_modPort (by intro q; exact ⟨rfl, rfl, id⟩) p (calm_noteThrot p h))

end

theorem rebuildPort_calm (ms pointMs budget : Nat) (q : Port) :
    (rebuildPort ms pointMs budget q).gate = q.gate ∧ (rebuildPort ms pointMs budget q).role = q.role
    ∧ (rebuildPort ms pointMs budget q).hints = [] := by
  have hone (x : Nat × RosterRec) : Gentle fun q => rebuildEndpoint ms pointMs q x := by
    intro q
    unfold rebuildEndpoint
    dsimp only
    split <;> exact ⟨rfl, rfl, id⟩
  obtain ⟨h1, h2, h3⟩ := Gentle.foldl hone q.roster (rebuildPending { q with hints := [] })
  exact ⟨h1, h2, h3 rfl⟩

/-- The state rebuilt from the tables: paths and roles as they were, no reservation (R370). -/
theorem rebuilt_calm (d : Dev) : Calm True (fun r => ((d.port r).gate, (d.port r).role)) (rebuildGang (rebuildState d)) := by
  intro r
  have hport : (rebuildGang (rebuildState d)).port r =
      rebuildPort (d.us / 1000) d.tb.pointMs (if r = .p0 then d.tb.budgetAt0 else d.tb.budgetAt1) (d.port r) := by
    cases r <;> rfl
  obtain ⟨h1, h2, h3⟩ := rebuildPort_calm (d.us / 1000) d.tb.pointMs (if r = .p0 then d.tb.budgetAt0 else d.tb.budgetAt1) (d.port r)
  rw [hport]
  exact ⟨Prod.ext h1 h2, fun _ => h3⟩

theorem throtSync_port (p : PortId) (d : Dev) :
    ((throtSync p d).port p).throtDirty = false ∧ (throtSync p d).port p.other = d.port p.other := by
  have hflush : (flushThrot p d).port p.other = d.port p.other := by
    unfold flushThrot postThrot
    dsimp only
    repeat' split
    · rw [post_port, modPort_port_other]
    all_goals rfl
  have hnote : (noteThrot p d).port p.other = d.port p.other := by
    unfold noteThrot
    dsimp only
    split
    · rfl
    · rw [modPort_port_other, hflush]
  unfold throtSync
  dsimp only
  refine ⟨?_, ?_⟩
  · rw [postPort_port, modPort_port]
  · rw [postPort_port, modPort_port_other, hnote]

/-- The core and the allocator run, the allocator since this time. -/
def RunsSince (t : Nat) (d : Dev) : Prop :=
  d.core.run = true ∧ d.core.restart = none ∧ d.tb.alloc = true ∧ d.tb.passAt = t

theorem runsSince_modPort {t : Nat} (p : PortId) (f : Port → Port) (d : Dev) (h : RunsSince t d) : RunsSince t (d.modPort p f) := by
  cases p <;> exact h

theorem runsSince_post {t : Nat} (x : EventSpec) (d : Dev) (h : RunsSince t d) : RunsSince t (post x d) := by
  unfold RunsSince
  rw [post_core, tb_of_steady (post_steady x d)]
  exact h

theorem resumeAllocator_eq (d : Dev) : resumeAllocator d = relieve (pointBegins
    (({ d with tb := { d.tb with alloc := true, passAt := d.us }, core := { d.core with run := true, restart := none } } : Dev).bothPorts
      shedLate)) := rfl

theorem resumeAllocator_runs (d : Dev) : RunsSince d.us (resumeAllocator d) := by
  rw [resumeAllocator_eq]
  exact resumed_keeps runsSince_modPort runsSince_post ⟨rfl, rfl, rfl, rfl⟩

theorem resumeAllocator_calm {n : Prop} {v : PortId → Gate × Role} {d : Dev} (h : Calm n v d) : Calm n v (resumeAllocator d) := by
  rw [resumeAllocator_eq]
  exact calm_resumed (calm_congr rfl rfl h)

theorem rebuilt_us (d : Dev) : (rebuildGang (rebuildState d)).us = d.us := by
  have hgang (e : Dev) : (rebuildGang e).us = e.us := rfl
  have hports (e : Dev) (b : List (Nat × BundleRec)) : ({ e with tb := { e.tb with bundles := b } } : Dev).us = e.us := rfl
  rw [hgang, rebuildState, hports, modPort_us, modPort_us]

theorem allocatorResume_leads {s : State} (hrestart : s.dev.core.restart.isSome = true) : Leads .allocatorResume s fun d =>
    d.core.run = true ∧ d.core.restart = none ∧ d.tb.alloc = true ∧ d.tb.passAt = s.dev.us
    ∧ ∀ p, (d.port p).hints = [] ∧ (d.port p).gate = (s.dev.port p).gate ∧ (d.port p).role = (s.dev.port p).role
      ∧ (d.port p).throtDirty = false := by
  rw [leads_onDev (show exec .allocatorResume s = execAllocatorResume s from rfl), guardDev_pos hrestart]
  have hruns := resumeAllocator_runs (rebuildGang (rebuildState s.dev))
  rw [rebuilt_us] at hruns
  have hcalm := resumeAllocator_calm (rebuilt_calm s.dev)
  generalize resumeAllocator (rebuildGang (rebuildState s.dev)) = e at *
  have hruns2 : RunsSince s.dev.us (e.bothPorts throtSync) :=
    throtSync_keeps runsSince_modPort runsSince_post .p1 (throtSync_keeps runsSince_modPort runsSince_post .p0 hruns)
  have hcalm2 : Calm True _ (e.bothPorts throtSync) := calm_throtSync .p1 (calm_throtSync .p0 hcalm)
  obtain ⟨h1, h2, h3, h4⟩ := hruns2
  refine ⟨h1, h2, h3, h4, fun p => ?_⟩
  obtain ⟨hview, hhints⟩ := hcalm2 p
  obtain ⟨hgate, hrole⟩ := Prod.mk.inj hview
  refine ⟨hhints trivial, hgate, hrole, ?_⟩
  cases p with
  | p0 => exact (congrArg Port.throtDirty (throtSync_port .p1 (throtSync .p0 e)).2 :).trans (throtSync_port .p0 e).1
  | p1 => exact (throtSync_port .p1 (throtSync .p0 e)).1

/-! ## The watchdog (R367, R372, R373) -/

/-- A firing counted: its time among those of the last 60 s, RESTART due, tally 6 (R367, R372). -/
def firingCounted (d : Dev) : Dev :=
  countUp 6 { d with q := { d.q with restart := true }
                     core := { d.core with fires := d.us :: d.core.fires.filter fun t => decide (d.us < t + 60000000)
                                           wdNow := false, wdAt := d.us } }

/-- The device as a pending image is handed back from, before the handover (R373). -/
def firingHands (d : Dev) : Dev :=
  { noteBudgets d with
    core := { (noteBudgets d).core with restart := none }
    mbx := if (noteBudgets d).mbx.state = 1 then { (noteBudgets d).mbx with outcome := some (0x02, []), waits := false }
      else (noteBudgets d).mbx }

theorem watchdogFires_third {d : Dev} (h : 2 ≤ (d.core.fires.filter fun t => decide (d.us < t + 60000000)).length) :
    watchdogFires d = watchdogReset (firingCounted d) := by
  have h3 : 3 ≤ (d.us :: d.core.fires.filter fun t => decide (d.us < t + 60000000)).length := by
    rw [List.length_cons]
    omega
  exact if_pos h3

theorem watchdogFires_below {d : Dev} (h : (d.core.fires.filter fun t => decide (d.us < t + 60000000)).length < 2) :
    watchdogFires d = match watchdogHands (firingCounted d) with
      | some b => handTo 3 b (firingHands (firingCounted d))
      | none => restartCore (firingCounted d) := by
  have h3 : ¬ 3 ≤ (d.us :: d.core.fires.filter fun t => decide (d.us < t + 60000000)).length := by
    rw [List.length_cons]
    omega
  exact if_neg h3

theorem watchdog_leads {s : State} {P : Dev → Prop} (hup : s.dev.up = true) (hrun : s.dev.core.restart = none)
    (hdue : s.dev.core.wdNow = true ∨ s.dev.core.wdAt + 95000 ≤ s.dev.us) : Leads .watchdog s P ↔ P (watchdogFires s.dev) := by
  rw [leads_onDev (show exec .watchdog s = execWatchdog s from rfl),
    guardDev_pos (show (s.dev.up && s.dev.core.restart.isNone && (s.dev.core.wdNow || decide (s.dev.core.wdAt + 95000 ≤ s.dev.us))) = true by
      simpa [hup, hrun] using hdue)]

theorem restartCore_leaves (d : Dev) :
    (restartCore d).core.run = false ∧ (restartCore d).core.restart = some d.us ∧ (restartCore d).tb.alloc = false
    ∧ (restartCore d).q.restart = d.q.restart ∧ (restartCore d).core.wdNow = false
    ∧ (d.mbx.state = 1 → (restartCore d).mbx.outcome = some (0x02, [])) ∧ (restartCore d).us = d.us
    ∧ ∀ p, ((restartCore d).port p).gate = (d.port p).gate ∧ ((restartCore d).port p).role = (d.port p).role
      ∧ ((restartCore d).port p).contract = (d.port p).contract := by
  refine ⟨rfl, rfl, rfl, rfl, rfl, fun h => ?_, rfl, fun p => by cases p <;> exact ⟨rfl, rfl, rfl⟩⟩
  have hmbx : (restartCore d).mbx = if d.mbx.state = 1 then { d.mbx with outcome := some (0x02, []), waits := false } else d.mbx := rfl
  rw [hmbx, if_pos h]

/-- What the ROM tells the image it enters (R31, R464). -/
def handInfoOf (cause : BitVec 2) (toB rebuild : Bool) (d : Dev) : HandInfo :=
  { cause := cause, toB := toB, role0 := d.p0.role, role1 := d.p1.role
    gangHeard := decide (d.gang.mode ≠ 0) && !d.gang.alone, rebuild := rebuild }

/-- An image entered touches a port's request signal alone. -/
theorem enterImage_port (img : List Byte) (d : Dev) (p : PortId) : (enterImage img d).port p = { d.port p with sig := false } := by
  cases p <;> rfl

theorem enterBank_leaves (cause : BitVec 2) (toB rebuild : Bool) (d : Dev) :
    (enterBank cause toB rebuild d).fwu = { d.fwu with hand := some (handInfoOf cause toB rebuild d) }
    ∧ (enterBank cause toB rebuild d).tb = { d.tb with alloc := false } ∧ (enterBank cause toB rebuild d).core.run = true
    ∧ ∀ p, (enterBank cause toB rebuild d).port p = { d.port p with sig := false } :=
  ⟨rfl, rfl, rfl, fun p => (port_congr rfl rfl p).trans
    (enterImage_port (bankOf d.fwu toB).image { d with core := keepHandover d.core } p)⟩

theorem writeBlock_frame (cause : Nat) (toB : Bool) (n : Nat) (d : Dev) :
    (writeBlock cause toB n d).fwu = d.fwu ∧ ∀ p, (writeBlock cause toB n d).port p = d.port p := by
  unfold writeBlock
  dsimp only
  generalize putBytes _ _ _ = m
  exact ⟨rfl, fun p => port_congr rfl rfl p⟩

/-- The device as it hands back: the bank left is marked FAILED, and nothing is pending. -/
def handFailed (failed : Bool) (d : Dev) : Dev :=
  let d1 := addRecord failed 4 (countUp 15 d)
  { d1 with fwu := { d1.fwu with pend := false } }

theorem handTo_eq (cause : BitVec 2) (failed : Bool) (d : Dev) :
    handTo cause failed d = enterBank cause (!failed) true (writeBlock cause.toNat (!failed) 0 (handFailed failed d)) := rfl

theorem handFailed_port (failed : Bool) (d : Dev) (p : PortId) : (handFailed failed d).port p = d.port p := port_congr rfl rfl p

theorem handTo_leaves (cause : BitVec 2) (failed : Bool) (d : Dev) :
    (handTo cause failed d).fwu.pend = false ∧ (handTo cause failed d).tb.alloc = false ∧ (handTo cause failed d).core.run = true
    ∧ (∃ i, (handTo cause failed d).fwu.hand = some i ∧ i.cause = cause ∧ i.toB = !failed)
    ∧ ∀ p, (handTo cause failed d).port p = { d.port p with sig := false } := by
  rw [handTo_eq]
  obtain ⟨hblock, hports⟩ := writeBlock_frame cause.toNat (!failed) 0 (handFailed failed d)
  generalize writeBlock cause.toNat (!failed) 0 (handFailed failed d) = e at *
  obtain ⟨hfwu, htb, hrun, hport⟩ := enterBank_leaves cause (!failed) true e
  rw [hfwu, htb, hrun, hblock]
  refine ⟨rfl, rfl, rfl, ⟨_, rfl, rfl, rfl⟩, fun p => ?_⟩
  rw [hport, hports, handFailed_port]

theorem firingCounted_port (d : Dev) (p : PortId) : (firingCounted d).port p = d.port p := port_congr rfl rfl p

theorem firingHands_port (d : Dev) (p : PortId) : (firingHands d).port p = d.port p := port_congr rfl rfl p

/-- The device as the third firing resets it, before its ROMBOOT (R373). -/
def thirdReset (d : Dev) : Dev := resetDev 0 { d with keep := tallyInc 7 d.keep }

theorem watchdogReset_eq (d : Dev) : watchdogReset d = romboot 3 false false (thirdReset d) := rfl

/-- Settles O43: a firing below the third restarts the core or hands back, the third restarts the device, and the allocator resumes
from the state that the tables hold. -/
theorem coreRestarts : Obligations.CoreRestarts := by
  unfold Obligations.CoreRestarts
  intro s hup
  refine ⟨fun hrun hdue => ⟨fun hfew => ⟨fun hpend hhand => ?restarts, fun hpend hhand => ?hands⟩, fun hthird => ?resets⟩,
    allocatorResume_leads⟩
  case restarts =>
    have hnone : watchdogHands (firingCounted s.dev) = none := by
      have : (firingCounted s.dev).fwu = s.dev.fwu := rfl
      simp [watchdogHands, this, hhand, hpend]
    rw [watchdog_leads hup hrun hdue, watchdogFires_below hfew, hnone]
    obtain ⟨h1, h2, h3, h4, h5, h6, h7, h8⟩ := restartCore_leaves (firingCounted s.dev)
    refine ⟨h1, h2, h3, h4, h5, h6, h7, fun p => ?_⟩
    rw [← firingCounted_port s.dev p]
    exact h8 p
  case hands =>
    have hsome : watchdogHands (firingCounted s.dev) = some s.dev.fwu.active := by
      have : (firingCounted s.dev).fwu = s.dev.fwu := rfl
      simp [watchdogHands, this, hhand, hpend]
    rw [watchdog_leads hup hrun hdue, watchdogFires_below hfew, hsome]
    obtain ⟨h1, h2, _, h3, h4⟩ := handTo_leaves 3 s.dev.fwu.active (firingHands (firingCounted s.dev))
    refine ⟨h1, h2, h3, fun p => ?_⟩
    rw [h4, firingHands_port, firingCounted_port]
    exact ⟨rfl, rfl⟩
  case resets =>
    rw [watchdog_leads hup hrun hdue, watchdogFires_third hthird]
    rw [watchdogReset_eq]
    obtain ⟨hus, hcause, _⟩ := romboot_started 3 false false (thirdReset (firingCounted s.dev))
    generalize romboot 3 false false (thirdReset (firingCounted s.dev)) = e at *
    exact ⟨hus, hcause⟩

end Sys2Proof.Laws
end

section
/-! Handover, revert, health and confirmation (R456 to R468). -/

namespace Sys2Proof.Laws

open Sys2Proof Machine

/-! ## What a handover's steps leave of the update unit and of the ports -/

@[simp] theorem markHost_fwu (n : Nat) (d : Dev) : (markHost n d).fwu = d.fwu := by unfold markHost; split <;> rfl
@[simp] theorem markHost_tb (n : Nat) (d : Dev) : (markHost n d).tb = d.tb := by unfold markHost; split <;> rfl
@[simp] theorem postFwu_fwu (code : Nat) (d : Dev) : (postFwu code d).fwu = d.fwu := fwu_of_steady (postFwu_steady code d)
@[simp] theorem postFwu_tb (code : Nat) (d : Dev) : (postFwu code d).tb = d.tb := tb_of_steady (postFwu_steady code d)
@[simp] theorem postFwu_core (code : Nat) (d : Dev) : (postFwu code d).core = d.core := post_core _ _

theorem mbxEnds_frame (r : Byte) (l : List Half) (d : Dev) :
    (mbxEnds r l d).fwu = d.fwu ∧ ∀ p, (mbxEnds r l d).port p = d.port p := by
  unfold mbxEnds
  split
  · exact ⟨rfl, fun p => port_congr rfl rfl p⟩
  · exact ⟨rfl, fun _ => rfl⟩

/-- The bank that a record is added to stands in that state, and its image is the same (R451). -/
theorem bankState_addRecord (b : Bool) (st : BitVec 3) (d : Dev) : bankState (bankOf (addRecord b st d).fwu b) = st := by
  cases b <;> rfl

theorem addRecord_hand (b : Bool) (st : BitVec 3) (d : Dev) :
    (addRecord b st d).fwu.handReq = d.fwu.handReq ∧ (addRecord b st d).fwu.hand = d.fwu.hand
    ∧ (addRecord b st d).fwu.pend = d.fwu.pend ∧ (addRecord b st d).fwu.confirmed = d.fwu.confirmed := by
  cases b <;> exact ⟨rfl, rfl, rfl, rfl⟩

theorem addRecord_port (b : Bool) (st : BitVec 3) (d : Dev) (p : PortId) : (addRecord b st d).port p = d.port p :=
  port_congr rfl rfl p

/-- A bank entered runs on the fresh core of the image alone. -/
theorem enterBank_fresh (cause : BitVec 2) (toB rebuild : Bool) (d : Dev) :
    (enterBank cause toB rebuild d).core.phys = [] ∧ (enterBank cause toB rebuild d).core.g = [] := ⟨rfl, rfl⟩

/-- The device as the handover looks at the other bank: the payload is placed, the block written and the request answered (R462). -/
def handPrepared (d : Dev) : Dev :=
  let e := writeBlock 0 (!d.fwu.active) (placePayload d).1
    { (placePayload d).2.2 with fwu := { (placePayload d).2.2.fwu with handReq := none } }
  if (match d.fwu.handReq with | some (_, w) => w | none => false) then mbxEnds 0 [] e else e

theorem handover_eq (d : Dev) : handover d =
    if bankState (bankOf (handPrepared d).fwu (!d.fwu.active)) = 1
        ∧ imageDigests (bankOf (handPrepared d).fwu (!d.fwu.active)).image = true then
      enterBank 0 (!d.fwu.active) (placePayload d).2.1 (addRecord (!d.fwu.active) 2 (handPrepared d))
    else handTo 1 (!d.fwu.active) (handPrepared d) := rfl

theorem placePayload_frame (d : Dev) :
    (placePayload d).2.2.fwu = d.fwu ∧ ∀ p, (placePayload d).2.2.port p = d.port p := by
  unfold placePayload takeFree
  dsimp only
  generalize putBytes _ _ _ = m
  exact ⟨rfl, fun p => port_congr rfl rfl p⟩

theorem handPrepared_frame (d : Dev) :
    (handPrepared d).fwu = { d.fwu with handReq := none } ∧ ∀ p, (handPrepared d).port p = d.port p := by
  unfold handPrepared
  dsimp only
  obtain ⟨hfwu, hport⟩ := placePayload_frame d
  generalize hx : (placePayload d).2.2 = x at *
  obtain ⟨hblock, hports⟩ := writeBlock_frame 0 (!d.fwu.active) (placePayload d).1 { x with fwu := { x.fwu with handReq := none } }
  generalize writeBlock 0 (!d.fwu.active) (placePayload d).1 { x with fwu := { x.fwu with handReq := none } } = e at *
  have he : e.fwu = { d.fwu with handReq := none } ∧ ∀ p, e.port p = d.port p :=
    ⟨by rw [hblock, hfwu], fun p => by rw [hports, ← hport]; exact port_congr rfl rfl p⟩
  obtain ⟨hm, hmp⟩ := mbxEnds_frame 0 [] e
  have hends : (mbxEnds 0 [] e).fwu = { d.fwu with handReq := none } ∧ ∀ p, (mbxEnds 0 [] e).port p = d.port p :=
    ⟨hm.trans he.1, fun p => (hmp p).trans (he.2 p)⟩
  cases d.fwu.handReq with
  | none => exact he
  | some r =>
    dsimp only
    split
    · exact hends
    · exact he

theorem handTo_fwu (cause : BitVec 2) (failed : Bool) (d : Dev) :
    bankState (bankOf (handTo cause failed d).fwu failed) = 4 ∧ (handTo cause failed d).fwu.handReq = d.fwu.handReq
    ∧ (handTo cause failed d).core.phys = [] ∧ (handTo cause failed d).core.g = [] := by
  rw [handTo_eq]
  obtain ⟨hblock, -⟩ := writeBlock_frame cause.toNat (!failed) 0 (handFailed failed d)
  generalize writeBlock cause.toNat (!failed) 0 (handFailed failed d) = e at *
  obtain ⟨hfwu, -⟩ := enterBank_leaves cause (!failed) true e
  obtain ⟨hphys, hg⟩ := enterBank_fresh cause (!failed) true e
  refine ⟨?_, ?_, hphys, hg⟩ <;> rw [hfwu, hblock] <;> cases failed <;> rfl

theorem handover_leads {s : State} (hmay : handoverMay s.dev = true) : Leads .handover s fun d =>
    (∃ i, d.fwu.hand = some i
      ∧ (bankState (bankOf s.dev.fwu (!s.dev.fwu.active)) = 1 ∧ imageDigests (bankOf s.dev.fwu (!s.dev.fwu.active)).image = true →
          i.cause = 0 ∧ i.toB = (!s.dev.fwu.active) ∧ bankState (bankOf d.fwu (!s.dev.fwu.active)) = 2)
      ∧ (¬(bankState (bankOf s.dev.fwu (!s.dev.fwu.active)) = 1 ∧ imageDigests (bankOf s.dev.fwu (!s.dev.fwu.active)).image = true) →
          i.cause = 1 ∧ i.toB = s.dev.fwu.active ∧ bankState (bankOf d.fwu (!s.dev.fwu.active)) = 4))
    ∧ d.tb.alloc = false ∧ d.fwu.handReq = none ∧ d.core.run = true ∧ d.core.phys = [] ∧ d.core.g = []
    ∧ ∀ p, (d.port p).gate = (s.dev.port p).gate ∧ (d.port p).role = (s.dev.port p).role
      ∧ (d.port p).contract = (s.dev.port p).contract := by
  rw [leads_onDev (show exec .handover s = execHandover s from rfl), guardDev_pos hmay, handover_eq]
  obtain ⟨hfwu, hport⟩ := handPrepared_frame s.dev
  generalize handPrepared s.dev = e at *
  have hbank : bankOf e.fwu (!s.dev.fwu.active) = bankOf s.dev.fwu (!s.dev.fwu.active) := by rw [hfwu]; rfl
  rw [hbank]
  split
  · next hgood =>
    obtain ⟨hf, htb, hrun, hp⟩ := enterBank_leaves 0 (!s.dev.fwu.active) (placePayload s.dev).2.1 (addRecord (!s.dev.fwu.active) 2 e)
    obtain ⟨hphys, hg⟩ := enterBank_fresh 0 (!s.dev.fwu.active) (placePayload s.dev).2.1 (addRecord (!s.dev.fwu.active) 2 e)
    generalize enterBank 0 (!s.dev.fwu.active) (placePayload s.dev).2.1 (addRecord (!s.dev.fwu.active) 2 e) = w at *
    refine ⟨⟨_, congrArg Fwu.hand hf, fun _ => ⟨rfl, rfl, ?_⟩, fun h => absurd hgood h⟩, congrArg Tables.alloc htb, ?_, hrun, hphys, hg, fun p => ?_⟩
    · rw [hf]
      exact bankState_addRecord _ _ _
    · rw [hf]
      exact (addRecord_hand _ _ _).1.trans (by rw [hfwu])
    · rw [hp, addRecord_port, hport]
      exact ⟨rfl, rfl, rfl⟩
  · next hgood =>
    obtain ⟨-, halloc, hrun, ⟨i, hi, hcause, hto⟩, hp⟩ := handTo_leaves 1 (!s.dev.fwu.active) e
    obtain ⟨hst, hreq, hphys, hg⟩ := handTo_fwu 1 (!s.dev.fwu.active) e
    generalize handTo 1 (!s.dev.fwu.active) e = w at *
    refine ⟨⟨i, hi, fun h => absurd h hgood, fun _ => ⟨hcause, hto.trans (Bool.not_not _), hst⟩⟩, halloc, hreq.trans (by rw [hfwu]),
      hrun, hphys, hg, fun p => ?_⟩
    rw [hp, hport]
    exact ⟨rfl, rfl, rfl⟩

/-! ## The image entered resumes the allocator (R463, R464) -/

/-- The device as the image entered finds it: its bank is active, and the state is rebuilt where the image asks for it. -/
def handoverTaken (i : HandInfo) (d : Dev) : Dev :=
  let f := { d.fwu with active := i.toB, hand := none, handSafe := false, pend := decide (i.cause = 0), confirmed := false
                        healthAt := d.us, trapped := false, durable := false
                        durableFrom := d.keep.lastNum.toNat + d.keep.queue.length, gleadSeen := false, passLate := false, info := some i }
  if i.rebuild then rebuildState { d with fwu := f } else { d with fwu := f }

/-- What follows the allocator's resumption in a handover. -/
def handoverEnds (i : HandInfo) (changed : Bool) (d : Dev) : Dev :=
  let d2 := { d with fwu := { d.fwu with other := otherHolds d } }
  let d3 := d2.bothPorts fun p d => d.modPort p fun q => dropCarries (reloadIf changed q)
  afterHandover (beginMigration (postFwu (if decide (i.cause = 0) then 4 else 6) d3))

/-- Both ports' programs are sent anew where they may have changed, and the roster's carries end. -/
def reloadBoth (changed : Bool) (d : Dev) : Dev :=
  (d.modPort .p0 fun q => dropCarries (reloadIf changed q)).modPort .p1 fun q => dropCarries (reloadIf changed q)

theorem handoverEnds_eq (i : HandInfo) (changed : Bool) (d : Dev) : handoverEnds i changed d =
    afterHandover (beginMigration (postFwu (if decide (i.cause = 0) then 4 else 6)
      (reloadBoth changed { d with fwu := { d.fwu with other := otherHolds d } }))) := rfl

/-- Whether the other image may carry another program for the endpoints. -/
def imageChanged (i : HandInfo) (d : Dev) : Bool :=
  decide (imgSeqDigest (bankOf d.fwu i.toB).image ≠ imgSeqDigest (bankOf d.fwu (!i.toB)).image)

theorem handoverResume_eq (i : HandInfo) (d : Dev) :
    handoverResume i d = handoverEnds i (imageChanged i d) (resumeAllocator (handoverTaken i d)) := by
  simp only [handoverResume, handoverEnds, handoverTaken, imageChanged]

/-- What a handover decides: the update unit's fields, a device that no longer waits to park, and the allocator since this time. -/
def Resumed (i : HandInfo) (t : Nat) (d : Dev) : Prop :=
  (d.fwu.hand = none ∧ d.fwu.active = i.toB ∧ d.fwu.pend = decide (i.cause = 0) ∧ d.fwu.healthAt = t ∧ d.fwu.cancelDue = false)
  ∧ d.gl.parkWaits = false ∧ RunsSince t d

theorem resumed_modPort {i : HandInfo} {t : Nat} (p : PortId) (f : Port → Port) (d : Dev) (h : Resumed i t d) :
    Resumed i t (d.modPort p f) := by
  cases p <;> exact h

theorem resumed_post {i : HandInfo} {t : Nat} (x : EventSpec) (d : Dev) (h : Resumed i t d) : Resumed i t (post x d) := by
  obtain ⟨hfwu, hpark, hruns⟩ := h
  refine ⟨?_, ?_, runsSince_post x d hruns⟩
  · rw [fwu_of_steady (post_steady x d)]
    exact hfwu
  · rw [gl_parkWaits_of_steady (post_steady x d)]
    exact hpark

theorem handoverTaken_us (i : HandInfo) (d : Dev) : (handoverTaken i d).us = d.us := by
  unfold handoverTaken
  split
  · exact (modPort_us _ _ _).trans (modPort_us _ _ _)
  · rfl

theorem handoverTaken_calm (i : HandInfo) (d : Dev) :
    Calm False (fun r => ((d.port r).gate, (d.port r).role)) (handoverTaken i d) := by
  unfold handoverTaken
  split
  · refine fun r => ⟨?_, False.elim⟩
    cases r with
    | p0 => exact (rebuilt_calm d .p0).1
    | p1 => exact (rebuilt_calm d .p1).1
  · exact fun r => ⟨by cases r <;> rfl, False.elim⟩

/-- The device as the allocator starts to run in it. -/
def handoverRuns (i : HandInfo) (d : Dev) : Dev :=
  { handoverTaken i d with
    tb := { (handoverTaken i d).tb with alloc := true, passAt := (handoverTaken i d).us }
    core := { (handoverTaken i d).core with run := true, restart := none } }

theorem handoverRuns_resumed {i : HandInfo} {d : Dev} (hcancel : d.fwu.cancelDue = false) (hpark : d.gl.parkWaits = false) :
    Resumed i d.us (handoverRuns i d) := by
  refine ⟨?_, ?_, rfl, rfl, rfl, handoverTaken_us i d⟩
  · show (handoverTaken i d).fwu.hand = none ∧ _
    unfold handoverRuns handoverTaken
    split <;> exact ⟨rfl, rfl, rfl, rfl, hcancel⟩
  · unfold handoverRuns handoverTaken
    split <;> exact hpark

theorem handoverEnds_resumed {i : HandInfo} {t : Nat} {changed : Bool} {d : Dev} (h : Resumed i t d) :
    Resumed i t (handoverEnds i changed d) ∧ ∀ p, ((handoverEnds i changed d).port p).gate = (d.port p).gate
      ∧ ((handoverEnds i changed d).port p).role = (d.port p).role := by
  have hset : Resumed i t { d with fwu := { d.fwu with other := otherHolds d } } := h
  rw [handoverEnds_eq]
  generalize hx : ({ d with fwu := { d.fwu with other := otherHolds d } } : Dev) = x at *
  have hxp (p : PortId) : x.port p = d.port p := by rw [← hx]; exact port_congr rfl rfl p
  have hreload (q : Port) : (dropCarries (reloadIf changed q)).gate = q.gate ∧ (dropCarries (reloadIf changed q)).role = q.role := by
    unfold reloadIf
    split <;> exact ⟨rfl, rfl⟩
  have hboth (p : PortId) : ((reloadBoth changed x).port p).gate = (d.port p).gate
      ∧ ((reloadBoth changed x).port p).role = (d.port p).role := by
    rw [← hxp]
    cases p with
    | p0 => exact hreload x.p0
    | p1 => exact hreload x.p1
  have hrs : Resumed i t (reloadBoth changed x) := resumed_modPort .p1 _ _ (resumed_modPort .p0 _ _ hset)
  generalize reloadBoth changed x = y at *
  obtain ⟨⟨h1, h2, h3, h4, h5⟩, h6, h7, h8, h9, h10⟩ := hrs
  have hafter (z : Dev) (hz : z.fwu.cancelDue = false) (hw : z.gl.parkWaits = false) : afterHandover z = z := by
    unfold afterHandover
    simp [hz, hw]
  have hpark (c : Nat) : (beginMigration (postFwu c y)).gl.parkWaits = false :=
    (gl_parkWaits_of_steady (postFwu_steady c y)).trans h6
  have hfwu (c : Nat) : (beginMigration (postFwu c y)).fwu = y.fwu := postFwu_fwu c y
  have htb (c : Nat) : (beginMigration (postFwu c y)).tb = y.tb := postFwu_tb c y
  have hcore (c : Nat) : (beginMigration (postFwu c y)).core = y.core := postFwu_core c y
  have hport (c : Nat) (p : PortId) : (beginMigration (postFwu c y)).port p = y.port p :=
    (port_congr rfl rfl p).trans (postFwu_port c y p)
  generalize (if decide (i.cause = 0) = true then 4 else 6) = c
  rw [hafter _ (by rw [hfwu]; exact h5) (hpark c)]
  refine ⟨⟨by rw [hfwu]; exact ⟨h1, h2, h3, h4, h5⟩, hpark c, ?_⟩, fun p => ?_⟩
  · unfold RunsSince
    rw [hcore, htb]
    exact ⟨h7, h8, h9, h10⟩
  · rw [hport]
    exact hboth p

theorem handoverResume_leads {s : State} {i : HandInfo} (hhand : s.dev.fwu.hand = some i) (hcancel : s.dev.fwu.cancelDue = false)
    (hpark : s.dev.gl.parkWaits = false) : Leads .handoverResume s fun d =>
    d.fwu.hand = none ∧ d.fwu.active = i.toB ∧ d.fwu.pend = decide (i.cause = 0) ∧ d.tb.alloc = true ∧ d.core.run = true
    ∧ d.tb.passAt = s.dev.us ∧ d.fwu.healthAt = s.dev.us
    ∧ ∀ p, (d.port p).gate = (s.dev.port p).gate ∧ (d.port p).role = (s.dev.port p).role := by
  rw [leads_onDev (show exec .handoverResume s = execHandoverResume s from rfl)]
  simp only [hhand]
  rw [handoverResume_eq]
  have hres : Resumed i s.dev.us (resumeAllocator (handoverTaken i s.dev)) := by
    rw [resumeAllocator_eq]
    exact resumed_keeps resumed_modPort resumed_post (handoverRuns_resumed hcancel hpark)
  have hcalm := resumeAllocator_calm (handoverTaken_calm i s.dev)
  generalize resumeAllocator (handoverTaken i s.dev) = e at *
  obtain ⟨⟨⟨h1, h2, h3, h4, -⟩, -, h5, -, h6, h7⟩, hp⟩ := handoverEnds_resumed (changed := imageChanged i s.dev) hres
  refine ⟨h1, h2, h3, h6, h5, h7, h4, fun p => ?_⟩
  obtain ⟨hgate, hrole⟩ := Prod.mk.inj (hcalm p).1
  exact ⟨(hp p).1.trans hgate, (hp p).2.trans hrole⟩

/-! ## Confirmation, and the request that no quiet moment answers (R465 to R468) -/

theorem handBack_pending {cause : BitVec 2} {d : Dev} (hhand : d.fwu.hand = none) (hpend : d.fwu.pend = true) :
    handBack cause d = handTo cause d.fwu.active d := by
  unfold handBack
  simp [hhand, hpend]

theorem confirmImage_leaves {d : Dev} (hpend : d.fwu.pend = true) :
    (confirmImage d).fwu.pend = false ∧ (confirmImage d).fwu.confirmed = true ∧ (confirmImage d).fwu.hand = d.fwu.hand
    ∧ bankState (bankOf (confirmImage d).fwu d.fwu.active) = 3 := by
  unfold confirmImage
  rw [if_pos hpend]
  dsimp only
  rw [postFwu_fwu]
  cases d.fwu.active <;> exact ⟨rfl, rfl, rfl, rfl⟩

theorem handoverBusyTimeout_leads {s : State} {t : Nat} {w : Bool} (hreq : s.dev.fwu.handReq = some (t, w))
    (hdue : t + 500000 ≤ s.dev.us) (hstep : s.dev.p0.lev.step.isSome = true) (hpark : parking s.dev = false) :
    Leads .handoverBusyTimeout s fun d => d.fwu.handReq = none ∧ d.fwu.refuse = 1 ∧ d.p0 = s.dev.p0 := by
  rw [leads_onDev (show exec .handoverBusyTimeout s = execHandoverBusyTimeout s from rfl)]
  simp only [hreq]
  rw [guardDev_pos (by simp [hdue, hstep, hpark])]
  have hfwu : (fwuRefused 1 { s.dev with fwu := { s.dev.fwu with handReq := none } }).fwu =
      { s.dev.fwu with handReq := none, refuse := 1, apply := none } := postFwu_fwu _ _
  have hp0 : (fwuRefused 1 { s.dev with fwu := { s.dev.fwu with handReq := none } }).p0 = s.dev.p0 := postFwu_port _ _ .p0
  generalize fwuRefused 1 { s.dev with fwu := { s.dev.fwu with handReq := none } } = e at *
  obtain ⟨hm, hmp⟩ := mbxEnds_frame 0x10 [] e
  split
  · rw [hm, hfwu]
    exact ⟨rfl, rfl, (hmp .p0).trans hp0⟩
  · rw [hfwu]
    exact ⟨rfl, rfl, hp0⟩

/-- Settles O44: the handover enters the other bank or comes back, the image entered resumes the allocator, and a pending image is
confirmed, handed back or timed out. -/
theorem handsOver : Obligations.HandsOver := by
  unfold Obligations.HandsOver
  refine fun s => ⟨handover_leads, fun i => handoverResume_leads, fun hhand hpend => ⟨fun hok => ?revert, fun hrestart hlate => ?late⟩,
    fun hpend => ⟨fun hrun hconf => ?core, fun hok => ?host, fun hrun hconf hself => ?selfCheck⟩, fun hconf => ⟨?coreBarred, ?selfBarred⟩,
    fun t w => handoverBusyTimeout_leads⟩
  case revert =>
    obtain ⟨h1, h2, -, h3, -⟩ := handTo_leaves 2 s.dev.fwu.active s.dev
    rw [leads_onDev (show exec .revert s = execRevert s from rfl), byHost_of_ok hok, handBack_pending hhand hpend, markHost_fwu, markHost_tb]
    exact ⟨h1, h2, h3⟩
  case late =>
    obtain ⟨h1, h2, -, h3, -⟩ := handTo_leaves 1 s.dev.fwu.active s.dev
    rw [leads_onDev (show exec .healthTimeout s = execHealthTimeout s from rfl), guardDev_pos (by simp [hrestart, hlate]),
      handBack_pending hhand hpend]
    exact ⟨h1, h2, h3⟩
  case core =>
    rw [leads_onDev (show exec (.confirm true) s = execConfirm true s from rfl), if_pos rfl, guardDev_pos (by simp [hrun, hconf])]
    exact confirmImage_leaves hpend
  case host =>
    obtain ⟨h1, h2, -⟩ := confirmImage_leaves hpend
    rw [leads_onDev (show exec (.confirm false) s = execConfirm false s from rfl), if_neg Bool.false_ne_true, byHost_of_ok hok, markHost_fwu]
    exact ⟨h1, h2⟩
  case selfCheck =>
    obtain ⟨h1, h2, -⟩ := confirmImage_leaves hpend
    rw [leads_onDev (show exec .healthSelfCheck s = execHealthSelfCheck s from rfl), guardDev_pos (by simp [hrun, hconf, hself])]
    exact ⟨h1, h2⟩
  case coreBarred =>
    show execConfirm true s = _
    simp [execConfirm, onDev_eq, guardDev, hconf]
  case selfBarred =>
    show execHealthSelfCheck s = _
    simp [execHealthSelfCheck, onDev_eq, guardDev, hconf]

end Sys2Proof.Laws
end

section
/-! Reads with an effect (R28, R82, R85, R86, R91). -/

namespace Sys2Proof.Laws

open Sys2Proof Machine

/-! ## Host reads with an effect (R28, R82, R85, R86, R91) -/

theorem hostRead_barred {f : Dev → Half × Dev} {d : Dev} (hbus : busLive d = true) :
    hostRead false f d = { d with pw := { d.pw with rdata := some 0 } } := by
  unfold hostRead
  rw [if_pos hbus]
  rfl

theorem hostRead_reached {f : Dev → Half × Dev} {d : Dev} (hbus : busLive d = true) : hostRead true f d = drive (f d) := by
  unfold hostRead
  rw [if_pos hbus]
  rfl

theorem exec_hostRead_barred {c : Instr} {f : Dev → Half × Dev} {s : State} {reach : Dev → Bool}
    (hexec : exec c s = onDev (fun d => hostRead (reach d) f d) s) (hbus : busLive s.dev = true) (hreach : reach s.dev = false) :
    exec c s = .next { s with dev := { s.dev with pw := { s.dev.pw with rdata := some 0 } } } := by
  rw [hexec, onDev_eq, hreach, hostRead_barred hbus]

theorem exec_hostRead {c : Instr} {f : Dev → Half × Dev} {s : State} {reach : Dev → Bool}
    (hexec : exec c s = onDev (fun d => hostRead (reach d) f d) s) (hbus : busLive s.dev = true) (hreach : reach s.dev = true) :
    exec c s = .next { s with dev := drive (f s.dev) } := by
  rw [hexec, onDev_eq, hreach, hostRead_reached hbus]

/-- The event queue without an overflow record gives the words of its oldest event (R85). -/
theorem popWord_of_cons {d : Dev} {e : Event} {l : List Event} (hovf : d.q.ovf = none) (hq : d.q.q = e :: l) :
    popWord d = ((eventWords e).getD d.q.phase.toNat 0,
      if d.q.phase.toNat = 3 then { d with q := { d.q with phase := 0, q := l } }
      else { d with q := { d.q with phase := d.q.phase + 1 } }) := by
  have hfront : ovfFront d.q = false := by simp [ovfFront, hovf]
  have hwords : frontWords d.q = some (eventWords e) := by rw [frontWords, hovf, hq]
  unfold popWord
  rw [hwords, hfront]
  dsimp only
  split <;> simp_all

theorem popWord_of_nil {d : Dev} (hovf : d.q.ovf = none) (hq : d.q.q = []) : popWord d = (0, d) := by
  have hfront : ovfFront d.q = false := by simp [ovfFront, hovf]
  have hwords : frontWords d.q = none := by rw [frontWords, hovf, hq]
  unfold popWord
  rw [hwords]

/-- Settles O45: each read drives what its register gives and changes what its rule names; that the mailbox gives a free value once
its results are read is the model's choice (log entry 5). -/
theorem readsWithEffects : Obligations.ReadsWithEffects := by
  unfold Obligations.ReadsWithEffects
  intro s
  refine ⟨fun p early hbus hup c hc => ?early, fun hbus hreach => exec_hostRead_barred (f := readMbxArg) rfl hbus hreach, fun hok => ?_⟩
  case early =>
    simp only [List.mem_cons, List.not_mem_nil, or_false] at hc
    obtain rfl | rfl | rfl | rfl := hc
    · exact exec_hostRead_barred (f := popWord) rfl hbus hup
    · exact exec_hostRead_barred (f := readTimeLo) rfl hbus hup
    · exact exec_hostRead_barred (f := readEnergyLo p) rfl hbus hup
    · exact exec_hostRead_barred (f := fun d => if early then earlyTdata d else readTdata d) rfl hbus hup
  obtain ⟨hbus, hup⟩ : busLive s.dev = true ∧ s.dev.up = true := by simpa [hostOk] using hok
  have hreach : mbxReach s.dev = true := by simp [mbxReach, hbus, hup]
  refine ⟨fun e l hovf hq => ?pop, fun hovf hq => ?popEmpty, exec_hostRead (f := readTimeLo) rfl hbus hup, fun p => ?energy,
    fun w l hres => ?arg, fun hres hidle => ?argIdle, fun hres hused => ?argFree, fun e l hrun hfifo => ?capture⟩
  case pop =>
    refine ⟨_, exec_hostRead (f := popWord) rfl hbus hup, ?_⟩
    rw [popWord_of_cons hovf hq]
    have hphase : s.dev.q.phase.toNat = 3 ↔ s.dev.q.phase = 3 := by
      generalize s.dev.q.phase = x
      constructor
      · exact fun h => BitVec.eq_of_toNat_eq h
      · rintro rfl
        rfl
    simp only [hphase]
    by_cases h3 : s.dev.q.phase = 3
    · rw [if_pos h3]
      exact ⟨rfl, fun h => absurd h3 h, fun _ => ⟨rfl, rfl⟩, rfl, rfl, rfl⟩
    · rw [if_neg h3]
      exact ⟨rfl, fun _ => ⟨rfl, rfl⟩, fun h => absurd h h3, rfl, rfl, rfl⟩
  case popEmpty =>
    rw [exec_hostRead (f := popWord) rfl hbus hup, popWord_of_nil hovf hq]
    rfl
  case energy =>
    refine ⟨_, exec_hostRead (f := readEnergyLo p) rfl hbus hup, rfl, ?_⟩
    cases p <;> exact ⟨rfl, rfl⟩
  case arg =>
    rw [exec_hostRead (f := readMbxArg) rfl hbus hreach, readMbxArg, hres]
    rfl
  case argIdle =>
    rw [exec_hostRead (f := readMbxArg) rfl hbus hreach, readMbxArg, hres]
    simp only [if_pos hidle]
    rfl
  case argFree =>
    rw [exec_hostRead (f := readMbxArg) rfl hbus hreach, readMbxArg, hres]
    simp only [if_neg hused]
    rfl
  case capture =>
    show execCaptureFifoRead s = _
    rw [execCaptureFifoRead, onDev_eq, guardDev_pos hrun, captureRead, hfifo]

end Sys2Proof.Laws
end

section
/-! Register writes, flags, comparator registers and the tick (R84 to R87, R377 to R384). -/

namespace Sys2Proof.Laws

open Sys2Proof Machine

/-! ## A register write by the host (R84, R85, assumption 107) -/

theorem markHost_rest (n : Nat) (d : Dev) : { markHost n d with core := d.core } = d := by
  unfold markHost
  split <;> rfl

theorem markHost_off {n : Nat} {d : Dev} (h : d.core.hwmask.getLsbD n = false) : markHost n d = d := by
  unfold markHost
  rw [if_neg (by simp [h])]

/-- What a write by word address leads to, where the mailbox does not take it. -/
theorem registerWrite_leads {s : State} {a : BitVec 7} {v : Half} {P : Dev → Prop} (hok : hostOk s.dev = true) :
    Leads (.registerWrite a v) s P ↔ P (markHost a.toNat (writeReg false (2 * a.toNat) v s.dev)) := by
  have hboth : busLive s.dev = true ∧ s.dev.up = true := by simpa [hostOk] using hok
  rw [leads_onDev (show exec (.registerWrite a v) s = execRegisterWrite a v s from rfl), if_pos hboth.1]
  dsimp only
  rw [if_pos hboth.2]

theorem writeReg_up {byCore : Bool} {a : Nat} {v : Half} {d : Dev} (hup : d.up = true) (hcmd : a ≠ 0x18) (harg : a ≠ 0x1A) :
    writeReg byCore a v d = if a < 0x40 then writeGlobal byCore a v d
      else if a < 0x80 then writePort .p0 (a - 0x40) v d
      else if a < 0xC0 then writePort .p1 (a - 0x80) v d else d := by
  unfold writeReg
  rw [if_neg hcmd, if_neg harg, hup]
  rfl

/-- Read-only and reserved addresses take no write (R11, R85). -/
theorem writeReg_ignored {byCore : Bool} {a : BitVec 7} {v : Half} {d : Dev} (hup : d.up = true)
    (ha : a.toNat ∈ [0, 1, 2, 6, 7, 14, 17, 18, 20, 22, 26, 29, 30, 32, 36, 38, 39, 43, 44, 45] ∨ 96 ≤ a.toNat) :
    writeReg byCore (2 * a.toNat) v d = d := by
  obtain hlow | hhigh := ha
  · simp only [List.mem_cons, List.not_mem_nil, or_false] at hlow
    rcases hlow with h | h | h | h | h | h | h | h | h | h | h | h | h | h | h | h | h | h | h | h <;>
      (rw [h, writeReg_up hup (by decide) (by decide)]; rfl)
  · rw [writeReg_up hup (by omega) (by omega), if_neg (by omega), if_neg (by omega), if_neg (by omega)]

theorem ignoredWrite_leads {s : State} {a : BitVec 7} {v : Half} (hok : hostOk s.dev = true)
    (ha : a.toNat ∈ [0, 1, 2, 6, 7, 14, 17, 18, 20, 22, 26, 29, 30, 32, 36, 38, 39, 43, 44, 45] ∨ 96 ≤ a.toNat) :
    Leads (.registerWrite a v) s fun d =>
      { d with core := s.dev.core } = s.dev ∧ (s.dev.core.hwmask.getLsbD a.toNat = false → d = s.dev) := by
  have hup : s.dev.up = true := (by simpa [hostOk] using hok : _ ∧ _).2
  rw [registerWrite_leads hok, writeReg_ignored hup ha]
  exact ⟨markHost_rest _ _, markHost_off⟩

/-! ## Flags that a write of 1 clears (R87) -/

theorem gstat_clearG {mask sets : Half} {d : Dev} {i : Nat} (hlow : 3 ≤ i) (hhigh : i < 14) :
    (clearG mask sets d).gl.gstat.getLsbD i = (sets.getLsbD i || (d.gl.gstat.getLsbD i && !mask.getLsbD i)) := by
  have hfield : (clearG mask sets d).gl.gstat =
      (d.gl.gstat &&& ~~~(mask.setWidth 14 &&& 0x3FF8)) ||| (sets.setWidth 14 &&& 0x3FF8) := rfl
  have hbit : (0x3FF8 : BitVec 14).getLsbD i = true := by
    have hbits : ∀ j : Fin 14, 3 ≤ j.val → (0x3FF8 : BitVec 14).getLsbD j.val = true := by decide
    exact hbits ⟨i, hhigh⟩ hlow
  have h14 : decide (i < 14) = true := decide_eq_true hhigh
  rw [hfield]
  simp only [BitVec.getLsbD_or, BitVec.getLsbD_and, BitVec.getLsbD_not, BitVec.getLsbD_setWidth, h14, hbit, Bool.and_true, Bool.true_and]
  exact Bool.or_comm _ _

theorem pevt_clearPevt {mask sets : Half} {q : Port} {i : Nat} (hhigh : i < 13) :
    (clearPevt mask sets q).pevt.getLsbD i = (sets.getLsbD i || (q.pevt.getLsbD i && !mask.getLsbD i)) := by
  have hfield : (clearPevt mask sets q).pevt = (q.pevt &&& ~~~(mask.setWidth 13)) ||| sets.setWidth 13 := rfl
  have h13 : decide (i < 13) = true := decide_eq_true hhigh
  rw [hfield]
  simp only [BitVec.getLsbD_or, BitVec.getLsbD_and, BitVec.getLsbD_not, BitVec.getLsbD_setWidth, h13, Bool.true_and]
  exact Bool.or_comm _ _

/-! ## A comparator's registers (R384) -/

theorem chanOf_modChan {n : Nat} {f : Chan → Chan} {d : Dev} (h : f (chanOf d n) ≠ {}) : chanOf (modChan n f d) n = f (chanOf d n) :=
  spGet_spSet d.cmp.chans n h

theorem chanWrite_ne (now : Nat) (f : ChanCfg → ChanCfg) (c : Chan) : chanWrite now f c ≠ {} := fun h => by
  have hnil : c.writes ++ [(now, f c.reg)] = [] := congrArg Chan.writes h
  simp at hnil

theorem chanOf_markHost (k n : Nat) (d : Dev) : chanOf (markHost k d) n = chanOf d n :=
  congrArg (fun b : Bank16 => spGet ({} : Chan) b.chans n) (markHost_cmp k d)

/-! ## The tick of the comparator bank (R377, R378, R381) -/

theorem reachAll_none (now : Nat) (c : Chan) : reachAll now [] (c, false) = ({ c with writes := [] }, false) := rfl

/-- What a tick may not change: the time, the next tick and both ports. -/
def aside (d : Dev) : Nat × Nat × Port × Port := (d.us, d.cmp.tickAt, d.p0, d.p1)

/-- The bank has this channel alone, enabled and with this output. -/
def Lone (ch : Nat) (out : Bool) (d : Dev) : Prop := ∃ y, d.cmp.chans = [(ch, y)] ∧ y.out = out ∧ y.eff.en = true

theorem Lone.chanOf {ch : Nat} {out : Bool} {d : Dev} (h : Lone ch out d) : (chanOf d ch).out = out := by
  obtain ⟨y, hy, hout, -⟩ := h
  simp [Machine.chanOf, hy, spGet, spGetF, spFind, hout]

theorem ne_default_of_en {c : Chan} (h : c.eff.en = true) : c ≠ {} := by
  rintro rfl
  exact absurd h (by decide)

theorem chans_modChan_lone {ch : Nat} {y : Chan} {f : Chan → Chan} {d : Dev} (h : d.cmp.chans = [(ch, y)]) (hen : (f y).eff.en = true) :
    (modChan ch f d).cmp.chans = [(ch, f y)] := by
  have hchan : Machine.chanOf d ch = y := by simp [Machine.chanOf, h, spGet, spGetF, spFind]
  show spSet {} d.cmp.chans ch (f (Machine.chanOf d ch)) = _
  rw [hchan, h, spSet, spSetF, if_neg (ne_default_of_en hen), spPut, if_pos rfl]

/-- The trigger's part of a tick leaves the channels, the FIFO and the ports (R389). -/
theorem watchTrigger_frame (ch : Nat) (was is : Bool) (d : Dev) :
    (watchTrigger ch was is d).cmp.chans = d.cmp.chans ∧ (watchTrigger ch was is d).cmp.fifo = d.cmp.fifo
    ∧ (watchTrigger ch was is d).cmp.dropped = d.cmp.dropped ∧ aside (watchTrigger ch was is d) = aside d := by
  unfold watchTrigger
  split <;> exact ⟨rfl, rfl, rfl, rfl⟩

/-- A channel without registers or writes does nothing at a tick. -/
theorem tickChan_other {ch k : Nat} {y : Chan} {inputs : List Nat} {d : Dev} (h : d.cmp.chans = [(ch, y)]) (hk : k ≠ ch) :
    tickChan inputs k d = watchTrigger k false false d := by
  have hchan : chanOf d k = {} := by
    simp only [chanOf, h, spGet, spGetF, spFind, if_neg (Ne.symm hk)]
    split <;> rfl
  have herase : spSet {} d.cmp.chans k ({} : Chan) = d.cmp.chans := by
    rw [spSet, spSetF, if_pos rfl, h, spErase, if_neg (Ne.symm hk)]
    split <;> rfl
  have hsame : modChan k (fun _ => ({} : Chan)) d = d := by
    unfold modChan
    rw [herase]
  unfold tickChan
  rw [hchan]
  show watchTrigger k false false (modChan k (fun _ => {}) d) = _
  rw [hsame]

theorem capture_frame (ch kind : Nat) (d : Dev) :
    (capture ch kind d).cmp.chans = d.cmp.chans ∧ aside (capture ch kind d) = aside d
    ∧ (d.cmp.fifo.length < 32 → (capture ch kind d).cmp.fifo =
        d.cmp.fifo ++ [⟨BitVec.ofNat 4 ch, BitVec.ofNat 2 kind, d.cmp.dropped, d.timebase⟩]) := by
  unfold capture
  dsimp only
  split
  · next hfull => exact ⟨rfl, rfl, fun h => absurd h (by omega)⟩
  · exact ⟨rfl, rfl, fun _ => rfl⟩

theorem wakeCore_frame (c : ChanCfg) (d : Dev) : (wakeCore c d).cmp = d.cmp ∧ aside (wakeCore c d) = aside d := by
  unfold wakeCore
  split <;> exact ⟨rfl, rfl⟩

theorem postGlobal_frame (typ code : Nat) (w : Half) (log : Bool) (d : Dev) :
    (postGlobal typ code w log d).cmp = d.cmp ∧ aside (postGlobal typ code w log d) = aside d := by
  have hcmp : (postGlobal typ code w log d).cmp = d.cmp := cmp_of_steady (postGlobal_steady typ code w log d)
  have h0 : (postGlobal typ code w log d).p0 = d.p0 := postGlobal_port typ code w log d .p0
  have h1 : (postGlobal typ code w log d).p1 = d.p1 := postGlobal_port typ code w log d .p1
  exact ⟨hcmp, by rw [aside, hcmp, postGlobal_us, h0, h1]; rfl⟩

/-- An edge's event leaves the output and the FIFO (R382). -/
theorem postEdge_frame {ch : Nat} {out : Bool} (kind : Nat) {d : Dev} (h : Lone ch out d) :
    Lone ch out (postEdge ch kind d) ∧ (postEdge ch kind d).cmp.fifo = d.cmp.fifo ∧ aside (postEdge ch kind d) = aside d := by
  obtain ⟨hcmp, haside⟩ := postGlobal_frame 0x08 kind (h16 ch) false d
  unfold postEdge
  dsimp only
  generalize postGlobal 0x08 kind (h16 ch) false d = e at *
  split
  · exact ⟨h, rfl, rfl⟩
  · obtain ⟨y, hy, hout, hen⟩ := h
    exact ⟨⟨_, chans_modChan_lone (by rw [hcmp, hy]) hen, hout, hen⟩, (congrArg Bank16.fifo hcmp :), haside⟩

/-- A selected edge: the output stays, and with CAP the FIFO takes it (R381). -/
theorem onEdge_frame {ch : Nat} {out : Bool} (kind : Nat) (c : ChanCfg) {d : Dev} (h : Lone ch out d) :
    Lone ch out (onEdge ch kind c d) ∧ aside (onEdge ch kind c d) = aside d
    ∧ (c.cap = true → d.cmp.fifo.length < 32 → (onEdge ch kind c d).cmp.fifo =
        d.cmp.fifo ++ [⟨BitVec.ofNat 4 ch, BitVec.ofNat 2 kind, d.cmp.dropped, d.timebase⟩]) := by
  have hcap : Lone ch out (if c.cap then capture ch kind d else d) ∧ aside (if c.cap then capture ch kind d else d) = aside d
      ∧ (c.cap = true → d.cmp.fifo.length < 32 → (if c.cap then capture ch kind d else d).cmp.fifo =
        d.cmp.fifo ++ [⟨BitVec.ofNat 4 ch, BitVec.ofNat 2 kind, d.cmp.dropped, d.timebase⟩]) := by
    obtain ⟨hch, has, hfifo⟩ := capture_frame ch kind d
    split
    · obtain ⟨y, hy, hrest⟩ := h
      exact ⟨⟨y, hch.trans hy, hrest⟩, has, fun _ => hfifo⟩
    · next hc => exact ⟨h, rfl, fun h => absurd h hc⟩
  unfold onEdge
  dsimp only
  generalize (if c.cap then capture ch kind d else d) = e at *
  obtain ⟨he, hea, hef⟩ := hcap
  have hirq : Lone ch out (if c.irq then postEdge ch kind (setG gCmp e) else e)
      ∧ (if c.irq then postEdge ch kind (setG gCmp e) else e).cmp.fifo = e.cmp.fifo
      ∧ aside (if c.irq then postEdge ch kind (setG gCmp e) else e) = aside e := by
    split
    · exact postEdge_frame kind (d := setG gCmp e) he
    · exact ⟨he, rfl, rfl⟩
  generalize (if c.irq then postEdge ch kind (setG gCmp e) else e) = w at *
  obtain ⟨hw, hwf, hwa⟩ := hirq
  obtain ⟨hk, hka⟩ := wakeCore_frame c w
  obtain ⟨y, hy, hrest⟩ := hw
  exact ⟨⟨y, by rw [hk, hy], hrest⟩, (hka.trans hwa).trans hea, fun h1 h2 => by rw [hk, hwf]; exact hef h1 h2⟩

/-- What follows a decision: no edge leaves the FIFO, a captured rise enters it (R381, R382). -/
theorem afterDecision_frame {ch : Nat} {out : Bool} (c : ChanCfg) (was is : Bool) {d : Dev} (h : Lone ch out d) :
    Lone ch out (afterDecision ch c was is d) ∧ aside (afterDecision ch c was is d) = aside d
    ∧ (was = is → (afterDecision ch c was is d).cmp.fifo = d.cmp.fifo)
    ∧ (was = false → is = true → c.edge = 1 ∨ c.edge = 3 → c.cap = true → d.cmp.fifo.length < 32 →
        (afterDecision ch c was is d).cmp.fifo = d.cmp.fifo ++ [⟨BitVec.ofNat 4 ch, 1, d.cmp.dropped, d.timebase⟩]) := by
  have hset : Lone ch out (if c.irq then setG gCmp d else d) ∧ (if c.irq then setG gCmp d else d).cmp = d.cmp
      ∧ aside (if c.irq then setG gCmp d else d) = aside d := by
    split <;> exact ⟨h, rfl, rfl⟩
  unfold afterDecision
  dsimp only
  generalize (if c.irq then setG gCmp d else d) = e at *
  generalize hkind : (if is = true then 1 else 2) = kind
  by_cases hzero : c.edge = 0
  · rw [if_pos hzero]
    split
    · obtain ⟨⟨y, hy, hrest⟩, hcmp, has⟩ := hset
      obtain ⟨hk, hka⟩ := wakeCore_frame c e
      exact ⟨⟨y, by rw [hk, hy], hrest⟩, hka.trans has, fun _ => by rw [hk, hcmp], fun _ _ h13 => by omega⟩
    · exact ⟨h, rfl, fun _ => rfl, fun _ _ h13 => by omega⟩
  rw [if_neg hzero]
  by_cases hedge : was ≠ is ∧ (c.edge >>> (kind - 1)) % 2 = 1
  · rw [if_pos hedge]
    obtain ⟨h1, h2, h3⟩ := onEdge_frame kind c h
    refine ⟨h1, h2, fun hsame => absurd hsame hedge.1, fun _ his _ => ?_⟩
    subst his hkind
    exact h3
  · rw [if_neg hedge]
    refine ⟨h, rfl, fun _ => rfl, fun hwas his h13 => absurd ?_ hedge⟩
    subst hwas his hkind
    obtain h13 | h13 := h13 <;> rw [h13] <;> decide

theorem settleSample_settled {c : Chan} (s : Bool) (h : c.settle = none) : settleSample c s = { c with out := s } := by
  unfold settleSample
  rw [h]

/-- The tick of an enabled channel that nothing reaches decides its output (R377). -/
theorem tickChan_decides {ch : Nat} {c : Chan} {inputs : List Nat} {d : Dev} (hlone : d.cmp.chans = [(ch, c)]) (hw : c.writes = [])
    (hen : c.eff.en = true) (hset : c.settle = none) :
    Lone ch (sampleOut c.eff (inputs.getD c.eff.input 0)) (tickChan inputs ch d) ∧ aside (tickChan inputs ch d) = aside d
    ∧ (c.out = sampleOut c.eff (inputs.getD c.eff.input 0) → (tickChan inputs ch d).cmp.fifo = d.cmp.fifo)
    ∧ (c.out = false → sampleOut c.eff (inputs.getD c.eff.input 0) = true → c.eff.edge = 1 ∨ c.eff.edge = 3 → c.eff.cap = true →
        d.cmp.fifo.length < 32 →
        (tickChan inputs ch d).cmp.fifo = d.cmp.fifo ++ [⟨BitVec.ofNat 4 ch, 1, d.cmp.dropped, d.timebase⟩]) := by
  have hchan : chanOf d ch = c := by simp [chanOf, hlone, spGet, spGetF, spFind]
  have htick : tickChan inputs ch d = watchTrigger ch c.out (sampleOut c.eff (inputs.getD c.eff.input 0))
      (afterDecision ch c.eff c.out (sampleOut c.eff (inputs.getD c.eff.input 0))
        (modChan ch (fun _ => { c with writes := [], out := sampleOut c.eff (inputs.getD c.eff.input 0) }) d)) := by
    unfold tickChan
    rw [hchan]
    dsimp only
    rw [hw, reachAll_none]
    dsimp only
    rw [if_pos hen, settleSample_settled (c := { c with writes := [] }) _ hset, if_neg Bool.false_ne_true, hchan]
  generalize hout : sampleOut c.eff (inputs.getD c.eff.input 0) = out at *
  have hmod : Lone ch out (modChan ch (fun _ => { c with writes := [], out := out }) d) :=
    ⟨_, chans_modChan_lone (f := fun _ => { c with writes := [], out := out }) hlone hen, rfl, hen⟩
  obtain ⟨h1, h2, h3, h4⟩ := afterDecision_frame c.eff c.out out hmod
  rw [htick]
  obtain ⟨k1, k2, -, k4⟩ := watchTrigger_frame ch c.out out
    (afterDecision ch c.eff c.out out (modChan ch (fun _ => { c with writes := [], out := out }) d))
  obtain ⟨y, hy, hrest⟩ := h1
  exact ⟨⟨y, by rw [k1, hy], hrest⟩, k4.trans h2, fun hsame => k2.trans (h3 hsame),
    fun a b e f g => k2.trans (h4 a b e f g)⟩

/-- Channels that are not set up leave what the lone one has. -/
theorem foldDev_tick_others {ch : Nat} {y : Chan} {inputs l : List Nat} (hl : ch ∉ l) {d : Dev} (h : d.cmp.chans = [(ch, y)]) :
    (foldDev (tickChan inputs) l d).cmp.chans = [(ch, y)] ∧ (foldDev (tickChan inputs) l d).cmp.fifo = d.cmp.fifo
    ∧ (foldDev (tickChan inputs) l d).cmp.dropped = d.cmp.dropped ∧ aside (foldDev (tickChan inputs) l d) = aside d := by
  induction l generalizing d with
  | nil => exact ⟨h, rfl, rfl, rfl⟩
  | cons k t ih =>
    obtain ⟨hk, ht⟩ := (not_or.mp fun hmem => hl (List.mem_cons.mpr hmem) : _ ∧ _)
    obtain ⟨w1, w2, w3, w4⟩ := watchTrigger_frame k false false d
    obtain ⟨h1, h2, h3, h4⟩ := ih ht (d := watchTrigger k false false d) (w1.trans h)
    rw [foldDev, tickChan_other h (Ne.symm hk)]
    exact ⟨h1, h2.trans w2, h3.trans w3, h4.trans w4⟩

theorem cmpTick_leads {s : State} {inputs : List Nat} {ch : Nat} {c : Chan} (hup : s.dev.up = true)
    (hlone : s.dev.cmp.chans = [(ch, c)]) (hch : ch < 16) (hticks : ticking s.dev = true) (hdue : s.dev.cmp.tickAt ≤ s.dev.us)
    (hw : c.writes = []) (hen : c.eff.en = true) (hset : c.settle = none) : Leads (.cmpTick inputs) s fun d =>
      d.cmp.tickAt = s.dev.us + tickPeriod s.dev
      ∧ (chanOf d ch).out = sampleOut c.eff (inputs.getD c.eff.input 0)
      ∧ (c.out = sampleOut c.eff (inputs.getD c.eff.input 0) → d.cmp.fifo = s.dev.cmp.fifo)
      ∧ (c.out = false → sampleOut c.eff (inputs.getD c.eff.input 0) = true → c.eff.edge = 1 ∨ c.eff.edge = 3 →
          c.eff.cap = true → s.dev.cmp.fifo.length < 32 →
          d.cmp.fifo = s.dev.cmp.fifo ++ [⟨BitVec.ofNat 4 ch, 1, s.dev.cmp.dropped, s.dev.timebase⟩])
      ∧ d.p0 = s.dev.p0 ∧ d.p1 = s.dev.p1 := by
  rw [leads_onDev (show exec (.cmpTick inputs) s = execCmpTick inputs s from rfl), guardDev_pos (by simp [hup, hticks, hdue])]
  obtain ⟨before, after, hlist⟩ := List.append_of_mem (List.mem_range.mpr hch)
  have hnodup : (before ++ ch :: after).Nodup := hlist ▸ List.nodup_range
  have hsplit := List.nodup_append.mp hnodup
  have hbefore : ch ∉ before := fun h => hsplit.2.2 ch h ch List.mem_cons_self rfl
  have hafter : ch ∉ after := (List.nodup_cons.mp hsplit.2.1).1
  unfold tickBank
  dsimp only
  rw [hlist, foldDev_append, foldDev]
  obtain ⟨b1, b2, b3, b4⟩ := foldDev_tick_others hbefore (inputs := inputs)
    (d := { s.dev with cmp := { s.dev.cmp with tickAt := s.dev.us + tickPeriod s.dev } }) hlone
  generalize foldDev (tickChan inputs) before { s.dev with cmp := { s.dev.cmp with tickAt := s.dev.us + tickPeriod s.dev } } = e at *
  obtain ⟨⟨y, hy, hout, hyen⟩, m2, m3, m4⟩ := tickChan_decides b1 hw hen hset (inputs := inputs)
  generalize tickChan inputs ch e = w at *
  obtain ⟨a1, a2, -, a4⟩ := foldDev_tick_others hafter (inputs := inputs) hy
  generalize foldDev (tickChan inputs) after w = r at *
  have haside : aside r = (s.dev.us, s.dev.us + tickPeriod s.dev, s.dev.p0, s.dev.p1) := (a4.trans m2).trans b4
  simp only [aside, Prod.mk.injEq] at haside
  have hus : e.us = s.dev.us := congrArg Prod.fst b4
  have hbase : e.timebase = s.dev.timebase := congrArg (BitVec.ofNat 32) hus
  obtain ⟨-, htick, h0, h1⟩ := haside
  refine ⟨htick, Lone.chanOf ⟨y, a1, hout, hyen⟩, fun h => ?_, fun h1 h2 h3 h4 h5 => ?_, h0, h1⟩
  · rw [a2, m3 h, b2]
  · rw [a2, m4 h1 h2 h3 h4 (by rw [b2]; exact h5), b2, b3, hbase]

/-- Settles O47: writable registers take the value, the other addresses take none, a write of 1 clears the flags it names unless they
are set in that cycle, and a tick decides the lone channel's output. -/
theorem registersAndComparators : Obligations.RegistersAndComparators := by
  unfold Obligations.RegistersAndComparators
  intro s hok
  have hup : s.dev.up = true := (by simpa [hostOk] using hok : _ ∧ _).2
  refine ⟨fun v => ⟨?scratch, ?gmask, ?pmask0, ?pmask1⟩, fun a v => ignoredWrite_leads hok, fun mask sets i hlow hhigh => ?gstat,
    fun p mask sets i hhigh => ?pevt, fun hpfen v => ⟨?cfg, ?lvl⟩,
    fun inputs ch c hlone hch hticks hdue hw hen hset => cmpTick_leads hup hlone hch hticks hdue hw hen hset⟩
  case scratch =>
    rw [registerWrite_leads hok, writeReg_up hup (by decide) (by decide), markHost_gl]
    exact ⟨rfl, markHost_port _ _ .p0, markHost_port _ _ .p1⟩
  case gmask =>
    rw [registerWrite_leads hok, writeReg_up hup (by decide) (by decide), markHost_gl]
    exact ⟨rfl, markHost_port _ _ .p0, markHost_port _ _ .p1⟩
  case pmask0 =>
    rw [registerWrite_leads hok, writeReg_up hup (by decide) (by decide), markHost_gl]
    exact ⟨markHost_port _ _ .p0, markHost_port _ _ .p1, rfl⟩
  case pmask1 =>
    rw [registerWrite_leads hok, writeReg_up hup (by decide) (by decide), markHost_gl]
    exact ⟨markHost_port _ _ .p1, markHost_port _ _ .p0, rfl⟩
  case gstat =>
    rw [leads_onDev (show exec (.flagClear .gstat mask sets) s = execFlagClear .gstat mask sets s from rfl)]
    dsimp only
    rw [byHost_of_ok hok, markHost_gl]
    exact ⟨gstat_clearG hlow hhigh, markHost_port _ _ .p0⟩
  case pevt =>
    rw [leads_onDev (show exec (.flagClear (.pevt p) mask sets) s = execFlagClear (.pevt p) mask sets s from rfl)]
    dsimp only
    rw [byHost_of_ok hok, markHost_port, markHost_port, modPort_port, modPort_port_other]
    exact ⟨pevt_clearPevt hhigh, rfl⟩
  case cfg =>
    rw [leads_onDev (show exec (.cmpCfgWrite v) s = execCmpCfgWrite v s from rfl), byHost_of_ok hok, chanOf_markHost]
    unfold writeCmpCfg
    rw [chanOf_modChan (chanWrite_ne _ _ _), hpfen]
    exact ⟨rfl, rfl⟩
  case lvl =>
    rw [leads_onDev (show exec (.cmpLvlWrite v) s = execCmpLvlWrite v s from rfl), byHost_of_ok hok, chanOf_markHost]
    unfold writeCmpLvl
    rw [chanOf_modChan (chanWrite_ne _ _ _)]
    exact ⟨rfl, rfl⟩

end Sys2Proof.Laws
end

section
/-! Mailbox arguments, ECHO, MBX_DONE, the owner commands and KEEP_DEFAULTS (R91, R393, R408). -/

namespace Sys2Proof.Laws

open Sys2Proof Machine

/-! ## A command's commits: queued where Keep takes them, refused by block protection (R393, R408) -/

theorem mbxRuns_room {op : Byte} {n : Nat} {d : Dev} (hruns : mbxRuns op d = true) (hroom : queueRoom n d = true) :
    (mbxRuns op d && queueRoom n d) = true := by rw [hruns, hroom]; rfl

/-- The device with one more commit in Keep's queue. -/
def queued (c : Commit) (d : Dev) : Dev := { d with keep := { d.keep with bperr := false, queue := d.keep.queue ++ [c] } }

theorem issue_open {c : Commit} {d : Dev} (hopen : KeepOpen d) (hpass : commitProtected 0 c.writes = false) :
    issue c d = (true, queued c d) :=
  issue_queued (by rw [hopen.1]; exact hpass) hopen.2

/-- The refusal of a command's commit ends it with 0x05 (R393). -/
theorem mbxOutcome_refused (d : Dev) : RefusedByKeep d (mbxOutcome 0x05 [] (keepRefused 2 (bpRefused d))) :=
  ⟨rfl, keepRefused_keep Keep.bperr (fun _ _ _ _ _ _ => rfl) 2 (bpRefused d),
    keepRefused_keep Keep.queue (fun _ _ _ _ _ _ => rfl) 2 (bpRefused d),
    (gl_owner_of_steady (postGlobal_steady _ _ _ _ (setG gKeep (raise 5 (bpRefused d)))) :),
    keepRefused_keep Keep.scrubHours (fun _ _ _ _ _ _ => rfl) 2 (bpRefused d)⟩

theorem commitOwner_open {o : Owner} {closes : Bool} {d : Dev} (hopen : KeepOpen d) : OwnerIssued o closes d (commitOwner o closes d) := by
  obtain ⟨ha, hb⟩ := ownerCommits_pass d o
  unfold commitOwner
  dsimp only
  rw [issue_open (c := ⟨(copyCommits d 2 (ownerCells o)).1, .ownerA o⟩) hopen ha]
  have hopen2 : KeepOpen (queued ⟨(copyCommits d 2 (ownerCells o)).1, .ownerA o⟩ d) := hopen
  dsimp only
  rw [if_neg (by decide), issue_open (c := ⟨(copyCommits d 2 (ownerCells o)).2, .ownerB o closes⟩) hopen2 hb]
  exact ⟨rfl, rfl, List.append_assoc _ _ _⟩

theorem commitOwner_refused {o : Owner} {closes : Bool} {d : Dev} (hbp : d.keep.bp ≠ 0) : RefusedByKeep d (commitOwner o closes d) := by
  unfold commitOwner
  dsimp only
  rw [issue_protected (c := ⟨(copyCommits d 2 (ownerCells o)).1, .ownerA o⟩) (ownerCommit_refused _ hbp d o)]
  exact mbxOutcome_refused d

theorem commitOwner_waits {o : Owner} {closes : Bool} {d : Dev} (hcrit : d.gl.crit = false) :
    WaitsOrRefused d (commitOwner o closes d) ∧ (commitOwner o closes d).gl.owner = d.gl.owner := by
  by_cases hbp : d.keep.bp = 0
  · obtain ⟨hwaits, howner, hqueue⟩ := commitOwner_open (o := o) (closes := closes) ⟨hbp, hcrit⟩
    exact ⟨.inl ⟨hwaits, by rw [hqueue]; simp⟩, howner⟩
  · obtain ⟨hout, hbperr, -, howner, -⟩ := commitOwner_refused (o := o) (closes := closes) hbp
    exact ⟨.inr ⟨hout, hbperr⟩, howner⟩

/-! ## The owner commands (R408) -/

theorem ownerEnrol_enrols {d : Dev} (hlen : d.mbx.args.length = 19) (hopens : lockOpens d = true) (hcode : d.mbx.args.getD 16 0 ≠ 0)
    (hpol : (d.mbx.args.getD 18 0).toNat ≤ 2) : ownerEnrol d = commitOwner (enrolledBy d.mbx.args d.gl.owner.fwlock) true d := by
  have hmem : d.mbx.args.getD 16 0 ∈ d.mbx.args := by
    rw [getD_of_lt _ (by omega)]
    exact List.getElem_mem _
  have hremoval : d.mbx.args.all (· == 0) = false :=
    Bool.eq_false_iff.2 fun h => hcode (eq_of_beq (List.all_eq_true.mp h _ hmem))
  have hlt : ¬ (2 : Half) < d.mbx.args.getD 18 0 := by
    rw [BitVec.lt_def]
    exact Nat.not_lt.2 hpol
  unfold ownerEnrol
  dsimp only
  rw [hremoval, if_neg (not_or.mpr ⟨not_not_intro hlen, fun h => h.2.elim hcode hlt⟩),
    if_neg (by simp [hopens]), if_neg Bool.false_ne_true]
  rfl

theorem ownerEnrol_removes {d : Dev} (hargs : d.mbx.args = List.replicate 19 0) (hopens : lockOpens d = true) :
    ownerEnrol d = commitOwner {} true d := by
  unfold ownerEnrol
  dsimp only
  rw [hargs, if_neg (by decide), if_neg (by simp [hopens])]
  rfl

theorem ownerEnrol_malformed {d : Dev} (hlen : d.mbx.args.length ≠ 19) : ownerEnrol d = mbxOutcome 0x03 [] d := by
  unfold ownerEnrol
  dsimp only
  exact if_pos (.inl hlen)

theorem ownerEnrol_leads {s : State} {P : Dev → Prop} (hruns : mbxRuns 0x20 s.dev = true) (hroom : queueRoom 2 s.dev = true) :
    Leads .ownerEnrol s P ↔ P (ownerEnrol s.dev) := by
  rw [leads_onDev (show exec .ownerEnrol s = execOwnerEnrol s from rfl), guardDev_pos (mbxRuns_room hruns hroom)]

theorem fwlockSet_leads {s : State} {P : Dev → Prop} (hruns : mbxRuns 0x21 s.dev = true) (hroom : queueRoom 2 s.dev = true) :
    Leads .fwlockSet s P ↔ P (if s.dev.gl.owner.enrolled then commitOwner { s.dev.gl.owner with fwlock := true } false s.dev
      else mbxOutcome 0x06 [] s.dev) := by
  rw [leads_onDev (show exec .fwlockSet s = execFwlockSet s from rfl), guardDev_pos (mbxRuns_room hruns hroom)]
  rfl

theorem fwlockClear_leads {s : State} {P : Dev → Prop} (hruns : mbxRuns 0x22 s.dev = true) (hroom : queueRoom 2 s.dev = true) :
    Leads .fwlockClear s P ↔ P (if lockOpens s.dev then commitOwner { s.dev.gl.owner with fwlock := false } false s.dev
      else mbxOutcome 0x04 [] s.dev) := by
  rw [leads_onDev (show exec .fwlockClear s = execFwlockClear s from rfl), guardDev_pos (mbxRuns_room hruns hroom)]
  rfl

/-! ## KEEP_DEFAULTS -/

theorem keepDefaults_leads {s : State} {P : Dev → Prop} (hruns : mbxRuns 0x28 s.dev = true) (hroom : queueRoom 1 s.dev = true) :
    Leads .keepDefaults s P ↔ P (keepDefaults s.dev) := by
  rw [leads_onDev (show exec .keepDefaults s = execKeepDefaults s from rfl), guardDev_pos (mbxRuns_room hruns hroom)]

theorem keepDefaults_open {d : Dev} (hopen : KeepOpen d) :
    (keepDefaults d).mbx.waits = true ∧ (keepDefaults d).mbx.outcome = some (0, []) ∧ (keepDefaults d).keep.scrubHours = 24
    ∧ (keepDefaults d).keep.queue = d.keep.queue ++ [⟨tuningCommit 24 d, .mailbox⟩] := by
  unfold keepDefaults
  rw [issue_open (c := ⟨tuningCommit 24 d, .mailbox⟩) hopen (tuningCommit_passes 24 d)]
  exact ⟨rfl, rfl, rfl, rfl⟩

theorem keepDefaults_refused {d : Dev} (hbp : d.keep.bp ≠ 0) : keepDefaults d = mbxOutcome 0x05 [] (keepRefused 2 (bpRefused d)) := by
  unfold keepDefaults
  rw [issue_protected (c := ⟨tuningCommit 24 d, .mailbox⟩) (tuningCommit_refused _ hbp 24 d)]
  rfl

theorem keepDefaults_waits {d : Dev} (hcrit : d.gl.crit = false) : WaitsOrRefused d (keepDefaults d)
    ∧ ((keepDefaults d).mbx.waits = true → (keepDefaults d).keep.scrubHours = 24 ∧ (keepDefaults d).mbx.outcome = some (0, [])) := by
  by_cases hbp : d.keep.bp = 0
  · obtain ⟨hwaits, hout, hhours, hqueue⟩ := keepDefaults_open (d := d) ⟨hbp, hcrit⟩
    exact ⟨.inl ⟨hwaits, by rw [hqueue]; simp⟩, fun _ => ⟨hhours, hout⟩⟩
  · obtain ⟨hout, hbperr, -⟩ := mbxOutcome_refused d
    rw [keepDefaults_refused hbp]
    exact ⟨.inr ⟨hout, hbperr⟩, fun h => absurd (show (false : Bool) = true from h) (by decide)⟩

/-! ## Copy B of the owner data becomes durable (R395, R408) -/

@[simp] theorem mbxEnds_gl (r : Byte) (l : List Half) (d : Dev) : (mbxEnds r l d).gl = d.gl := by
  unfold mbxEnds
  split <;> rfl

/-- The device with the new owner data in force, before the command learns of it. -/
def ownerInForce (o : Owner) (closes : Bool) (d : Dev) : Dev :=
  { d with gl := { d.gl with owner := o, lockOpen := if closes then false else d.gl.lockOpen } }

theorem ownerApplies_eq (o : Owner) (closes : Bool) (d : Dev) : ownerApplies o closes d = mbxEnds 0 [] (ownerInForce o closes d) := rfl

theorem commitDurable_owner {r : Running} {o : Owner} {closes : Bool} {d : Dev} (hrun : d.keep.run = some r)
    (htag : r.commit.tag = .ownerB o closes) (hpark : d.gl.park = none) :
    commitDurable d = ownerApplies o closes (postGlobal 0x31 0 (r.num.setWidth 16) false (durableDev r d)) := by
  have hshape : commitDurable d =
      parkAdvance (commitEnds r.commit d.keep (postGlobal 0x31 0 (r.num.setWidth 16) false (durableDev r d))) := by
    simp only [commitDurable, hrun]
    rfl
  have hpost : (postGlobal 0x31 0 (r.num.setWidth 16) false (durableDev r d)).gl.park = none :=
    (gl_park_of_steady (postGlobal_steady _ _ _ _ _)).trans hpark
  have hends : (ownerApplies o closes (postGlobal 0x31 0 (r.num.setWidth 16) false (durableDev r d))).gl.park = none := by
    rw [ownerApplies_eq, mbxEnds_gl]
    exact hpost
  rw [hshape, commitEnds, htag]
  exact parkAdvance_none hends

theorem ownerApplies_leaves (o : Owner) (closes : Bool) (d : Dev) :
    (ownerApplies o closes d).gl.owner = o ∧ (ownerApplies o closes d).gl.lockOpen = (d.gl.lockOpen && !closes)
    ∧ (d.mbx.waits = true → (ownerApplies o closes d).mbx.waits = false ∧ (ownerApplies o closes d).mbx.outcome = some (0, [])) := by
  have hlock : (if closes then false else d.gl.lockOpen) = (d.gl.lockOpen && !closes) := by cases closes <;> simp
  rw [ownerApplies_eq, mbxEnds_gl]
  refine ⟨rfl, hlock, fun hw => ?_⟩
  have hends : mbxEnds 0 [] (ownerInForce o closes d) = mbxOutcome 0 [] (ownerInForce o closes d) := if_pos hw
  rw [hends]
  exact ⟨rfl, rfl⟩

theorem ownerDurable_leads {s : State} {r : Running} {o : Owner} {closes : Bool} (hrun : s.dev.keep.run = some r)
    (htag : r.commit.tag = .ownerB o closes) (hpark : s.dev.gl.park = none) : Leads .keepDurable s fun d =>
      d.gl.owner = o ∧ d.gl.lockOpen = (s.dev.gl.lockOpen && !closes)
      ∧ (s.dev.mbx.waits = true → d.mbx.waits = false ∧ d.mbx.outcome = some (0, [])) := by
  rw [leads_onDev (show exec .keepDurable s = execKeepDurable s from rfl), commitDurable_owner hrun htag hpark]
  have hlock : (postGlobal 0x31 0 (r.num.setWidth 16) false (durableDev r s.dev)).gl.lockOpen = s.dev.gl.lockOpen :=
    (gl_lockOpen_of_steady (postGlobal_steady 0x31 0 (r.num.setWidth 16) false (durableDev r s.dev)) :)
  have hmbx : (postGlobal 0x31 0 (r.num.setWidth 16) false (durableDev r s.dev)).mbx = s.dev.mbx :=
    (mbx_of_steady (postGlobal_steady 0x31 0 (r.num.setWidth 16) false (durableDev r s.dev)) :)
  obtain ⟨h1, h2, h3⟩ := ownerApplies_leaves o closes (postGlobal 0x31 0 (r.num.setWidth 16) false (durableDev r s.dev))
  rw [hlock] at h2
  rw [hmbx] at h3
  exact ⟨h1, h2, h3⟩

/-! ## Arguments, ECHO and the end of a command (R91) -/

theorem mbxDone_leads {s : State} {r : Byte} {l : List Half} (hserves : mbxServes s.dev = true) (hbusy : s.dev.mbx.state = 1)
    (hwaits : s.dev.mbx.waits = false) (hout : s.dev.mbx.outcome = some (r, l)) : Leads .mbxDone s fun d =>
      d.mbx.state = (if r = 0 then 2 else 3) ∧ d.mbx.result = r ∧ d.mbx.results = l.take 63
      ∧ d.mbx.args = [] ∧ d.mbx.outcome = none ∧ d.gl.gstat.getLsbD gMbx = true ∧ d.p0 = s.dev.p0 ∧ d.p1 = s.dev.p1 := by
  rw [leads_onDev (show exec .mbxDone s = execMbxDone s from rfl)]
  simp only [hout]
  rw [guardDev_pos (by simp [hserves, hbusy, hwaits])]
  unfold mbxDone
  dsimp only
  have hmbx (typ code : Nat) (w : Half) (log : Bool) (d : Dev) : (postGlobal typ code w log d).mbx = d.mbx :=
    mbx_of_steady (postGlobal_steady typ code w log d)
  rw [hmbx]
  exact ⟨rfl, rfl, rfl, rfl, rfl, post_gstat _ (setG_same (by decide) _), postGlobal_port _ _ _ _ _ .p0, postGlobal_port _ _ _ _ _ .p1⟩

theorem echo_leads {s : State} (hruns : mbxRuns 0x01 s.dev = true) : Leads .echo s fun d =>
    { d with mbx := s.dev.mbx } = s.dev
    ∧ d.mbx.outcome = some (if s.dev.mbx.args.length ≤ 63 then (0, s.dev.mbx.args) else (0x03, [])) := by
  rw [leads_onDev (show exec .echo s = execEcho s from rfl), guardDev_pos hruns]
  split <;> exact ⟨rfl, rfl⟩

theorem mbxArgWrite_exec {s : State} {v : Half} (hreach : mbxReach s.dev = true) (hidle : s.dev.mbx.state ≠ 1) :
    exec (.mbxArgWrite v) s = .next { s with dev := { s.dev with
      mbx := if s.dev.mbx.args.length < 1024 then { s.dev.mbx with args := s.dev.mbx.args ++ [v] }
        else { s.dev.mbx with overrun := true } } } := by
  show execMbxArgWrite v s = _
  rw [execMbxArgWrite, onDev_eq, guardDev_pos hreach, writeMbxArg, if_neg hidle]
  split <;> rfl

/-- Settles O48: an argument, ECHO and MBX_DONE act on the mailbox, and the owner and Keep commands wait for their commits or end with
0x05 where block protection refuses them. -/
theorem mailboxCommands : Obligations.MailboxCommands := by
  unfold Obligations.MailboxCommands
  intro s
  refine ⟨fun v => mbxArgWrite_exec, echo_leads, fun r l => mbxDone_leads, fun r o closes => ownerDurable_leads, fun hroom => ⟨?enrol,
    ?set, ?noOwner, ?clear⟩, fun hroom hruns => ⟨fun hopen => ?defaults, fun hbp => ?defaultsRefused⟩, fun hcrit hroom => ⟨?enrolWaits,
    ?malformed, ?setWaits, ?clearWaits, ?defaultsWait⟩⟩
  case enrol =>
    intro hruns hlen hopens
    refine ⟨fun hcode hpol => ⟨fun hopen => ?_, fun hbp => ?_⟩, fun hargs hopen => ?_⟩ <;> rw [ownerEnrol_leads hruns hroom]
    · rw [ownerEnrol_enrols hlen hopens hcode hpol]
      exact commitOwner_open hopen
    · rw [ownerEnrol_enrols hlen hopens hcode hpol]
      exact commitOwner_refused hbp
    · rw [ownerEnrol_removes hargs hopens]
      exact commitOwner_open hopen
  case set =>
    intro hruns howner
    refine ⟨fun hopen => ?_, fun hbp => ?_⟩ <;> rw [fwlockSet_leads hruns hroom, if_pos howner]
    · exact commitOwner_open hopen
    · exact commitOwner_refused hbp
  case noOwner =>
    intro hruns howner
    rw [fwlockSet_leads hruns hroom, if_neg (by simp [howner])]
    exact ⟨rfl, rfl⟩
  case clear =>
    intro hruns hopens
    refine ⟨fun hopen => ?_, fun hbp => ?_⟩ <;> rw [fwlockClear_leads hruns hroom, if_pos hopens]
    · exact commitOwner_open hopen
    · exact commitOwner_refused hbp
  case defaults =>
    rw [keepDefaults_leads hruns hroom]
    exact keepDefaults_open hopen
  case defaultsRefused =>
    rw [keepDefaults_leads hruns hroom, keepDefaults_refused hbp]
    exact mbxOutcome_refused _
  case enrolWaits =>
    intro hruns hlen hcode hpol hopens
    rw [ownerEnrol_leads hruns hroom, ownerEnrol_enrols hlen hopens hcode hpol]
    exact commitOwner_waits hcrit
  case malformed =>
    intro hruns hlen
    rw [ownerEnrol_leads hruns hroom, ownerEnrol_malformed hlen]
    rfl
  case setWaits =>
    intro hruns howner
    rw [fwlockSet_leads hruns hroom, if_pos howner]
    exact commitOwner_waits hcrit
  case clearWaits =>
    refine fun hruns => ⟨fun hopens => ?_, fun hopens => ?_⟩ <;> rw [fwlockClear_leads hruns hroom]
    · rw [if_pos hopens]
      exact commitOwner_waits hcrit
    · rw [if_neg (by simp [hopens])]
      exact ⟨rfl, rfl⟩
  case defaultsWait =>
    intro hruns
    have hone : queueRoom 1 s.dev = true := by
      have htwo : queueUse s.dev.keep + 2 ≤ 3 := of_decide_eq_true hroom
      exact decide_eq_true (show queueUse s.dev.keep + 1 ≤ 3 by omega)
    rw [keepDefaults_leads hruns hone]
    exact keepDefaults_waits hcrit

end Sys2Proof.Laws
end

section
/-! Banks, refusals and the commit of a reception state (R451, R456, R457). -/

namespace Sys2Proof.Laws

open Sys2Proof Machine

/-! ## Banks and refusals of the update unit (R451, R456) -/

@[simp] theorem postFwu_mbx (code : Nat) (d : Dev) : (postFwu code d).mbx = d.mbx := mbx_of_steady (postFwu_steady code d)
@[simp] theorem postFwu_us (code : Nat) (d : Dev) : (postFwu code d).us = d.us := us_of_steady (postFwu_steady code d)

theorem postFwu_keep {β : Type} (g : Keep → β)
    (h : ∀ k e b hd lg lp, g { k with e := e, bad := b, held := hd, log := lg, logPos := lp } = g k) (code : Nat) (d : Dev) :
    g (postFwu code d).keep = g d.keep := post_keep g h _ _

theorem postFwu_gstat (code : Nat) (d : Dev) : (postFwu code d).gl.gstat.getLsbD gFwu = true :=
  post_gstat _ (setG_same (by decide) _)

theorem bankOf_modBank (b : Bool) (g : Bank → Bank) (d : Dev) : bankOf (modBank b g d).fwu b = g (bankOf d.fwu b) := by
  cases b <;> rfl

theorem bankOf_modBank_other (b : Bool) (g : Bank → Bank) (d : Dev) : bankOf (modBank (!b) g d).fwu b = bankOf d.fwu b := by
  cases b <;> rfl

/-- A bank's change leaves the fields of the update unit that no bank is. -/
theorem modBank_fwu {β : Type} (f : Fwu → β) (h : ∀ u x, f { u with bankA := x } = f u) (h' : ∀ u x, f { u with bankB := x } = f u)
    (b : Bool) (g : Bank → Bank) (d : Dev) : f (modBank b g d).fwu = f d.fwu := by
  cases b with
  | false => exact h d.fwu _
  | true => exact h' d.fwu _

theorem refuseUpdate_leaves (r : BitVec 3) (d : Dev) :
    (refuseUpdate r d).mbx.outcome = some (0x10, []) ∧ (refuseUpdate r d).fwu = { d.fwu with refuse := r, apply := none } :=
  ⟨rfl, postFwu_fwu 3 { d with fwu := { d.fwu with refuse := r, apply := none } }⟩

/-! ## The reception state is committed before the result (R457) -/

/-- The device with a new reception state. -/
def receiving (f : Fwu) (d : Dev) : Dev := { d with fwu := f }

/-- The device with that state's commit queued and the command waiting for it. -/
def received (f : Fwu) (r : Byte) (res : List Half) (d : Dev) : Dev :=
  let d2 := queued ⟨settingsCommit (receiving f d), .mailbox⟩ (receiving f d)
  let d3 := if (fwuProg f, f.rx) = (fwuProg d.fwu, d.fwu.rx) then d2 else setG gFwu d2
  { d3 with mbx := { d3.mbx with outcome := some (r, res), waits := true } }

theorem received_leaves (f : Fwu) (r : Byte) (res : List Half) (d : Dev) :
    (received f r res d).fwu = f ∧ (received f r res d).mbx.waits = true ∧ (received f r res d).mbx.outcome = some (r, res)
    ∧ (received f r res d).keep.queue = d.keep.queue ++ [⟨settingsCommit (receiving f d), .mailbox⟩]
    ∧ (received f r res d).us = d.us := by
  unfold received
  dsimp only
  generalize settingsCommit (receiving f d) = ws
  split <;> exact ⟨rfl, rfl, rfl, rfl, rfl⟩

/-- The device whose new reception state block protection has refused. -/
def receptionRefused (f : Fwu) (d : Dev) : Dev := mbxOutcome 0x05 [] { keepRefused 2 (bpRefused (receiving f d)) with fwu := d.fwu }

theorem receptionRefused_leaves (f : Fwu) (d : Dev) :
    (receptionRefused f d).fwu = d.fwu ∧ (receptionRefused f d).mbx.outcome = some (0x05, [])
    ∧ (receptionRefused f d).keep.bperr = true ∧ (receptionRefused f d).keep.queue = d.keep.queue :=
  ⟨rfl, rfl, keepRefused_keep Keep.bperr (fun _ _ _ _ _ _ => rfl) 2 (bpRefused (receiving f d)),
    keepRefused_keep Keep.queue (fun _ _ _ _ _ _ => rfl) 2 (bpRefused (receiving f d))⟩

section
variable {f : Fwu} {r : Byte} {res : List Half} {after : Dev → Dev} {d : Dev}

theorem commitReception_protected (h : commitProtected d.keep.bp (settingsCommit (receiving f d)) = true) :
    commitReception f r res after d = receptionRefused f d := by
  have hissue : issue ⟨settingsCommit (receiving f d), .mailbox⟩ (receiving f d) = (false, keepRefused 2 (bpRefused (receiving f d))) :=
    issue_protected h
  unfold commitReception
  dsimp only
  rw [← receiving, hissue]
  rfl

theorem commitReception_passes (h : commitProtected d.keep.bp (settingsCommit (receiving f d)) = false) (hcrit : d.gl.crit = false) :
    commitReception f r res after d = after (received f r res d) := by
  have hissue : issue ⟨settingsCommit (receiving f d), .mailbox⟩ (receiving f d) =
      (true, queued ⟨settingsCommit (receiving f d), .mailbox⟩ (receiving f d)) := issue_queued h hcrit
  unfold commitReception received
  dsimp only
  rw [← receiving, hissue]
  rfl

theorem commitReception_cases (hcrit : d.gl.crit = false) :
    commitReception f r res after d = after (received f r res d) ∨ commitReception f r res after d = receptionRefused f d := by
  by_cases h : commitProtected d.keep.bp (settingsCommit (receiving f d)) = true
  · exact .inr (commitReception_protected h)
  · exact .inl (commitReception_passes (Bool.eq_false_iff.2 h) hcrit)

theorem commitReception_open (hopen : KeepOpen d) (hlen : f.header.length ≤ 160) :
    commitReception f r res after d = after (received f r res d) :=
  commitReception_passes (by rw [hopen.1]; exact settingsCommit_passes _ hlen) hopen.2

theorem commitReception_refused (hbp : d.keep.bp ≠ 0) : commitReception f r res after d = receptionRefused f d :=
  commitReception_protected (settingsCommit_refused _ hbp _)

/-- Whether the commit is taken or not, the update unit holds the new state or the earlier one. -/
theorem commitReception_fwu : (commitReception f r res id d).fwu = f ∨ (commitReception f r res id d).fwu = d.fwu := by
  unfold commitReception
  dsimp only
  rw [← receiving]
  have hfwu : (issue ⟨settingsCommit (receiving f d), .mailbox⟩ (receiving f d)).2.fwu = f := by
    unfold issue
    generalize settingsCommit (receiving f d) = ws
    repeat' split
    · exact fwu_of_steady (postGlobal_steady _ _ _ _ (setG gKeep (raise 5 (bpRefused (receiving f d)))))
    · exact fwu_of_steady (postGlobal_steady _ _ _ _ (setG gKeep (raise 5 { receiving f d with
        keep := { (receiving f d).keep with bperr := false } })))
    · rfl
  generalize issue ⟨settingsCommit (receiving f d), .mailbox⟩ (receiving f d) = x at *
  repeat' split
  · exact .inl hfwu
  · exact .inl hfwu
  · exact .inr rfl

end

theorem length_argBytes (l : List Half) : (argBytes l).length = 2 * l.length := by
  unfold argBytes
  induction l with
  | nil => rfl
  | cons w t ih =>
    rw [List.flatMap_cons, List.length_append, ih, length_le2, List.length_cons]
    omega

end Sys2Proof.Laws
end

section
/-! The update commands by their branches (R458 to R462, R469). -/

namespace Sys2Proof.Laws

open Sys2Proof Machine

/-! ## FWU_BEGIN (R458) -/

/-- The device with the inactive bank's delta area empty. -/
def deltaEmptied (d : Dev) : Dev := modBank (!d.fwu.active) (fun b => { b with delta := [] }) d

/-- The reception state that FWU_BEGIN opens. -/
def opened (h : List Byte) (d : Dev) : Fwu := { (deltaEmptied d).fwu with header := h, held := [], torn := none, rx := true }

theorem begunWith_eq (h : List Byte) (d : Dev) : begunWith h d = receiving (opened h d) (deltaEmptied d) := rfl

/-- FWU_BEGIN where it reaches the reception: opened by a good signature. -/
def beginReception (d : Dev) : Dev :=
  commitReception (opened (argBytes d.mbx.args) d) 0 [0, h16 (deltaN (argBytes d.mbx.args))] (postFwu 0) (deltaEmptied d)

theorem fwuBegin_leads {s : State} {store : Bool} {P : Dev → Prop} (hruns : mbxRuns 0x10 s.dev = true) (hroom : queueRoom 1 s.dev = true) :
    Leads (.fwuBegin store) s P ↔ P (fwuBegin store s.dev) := by
  rw [leads_onDev (show exec (.fwuBegin store) s = execFwuBegin store s from rfl), guardDev_pos (mbxRuns_room hruns hroom)]

section
variable {d : Dev} {store : Bool} (hlen : d.mbx.args.length = 80) (hfields : deltaFields (argBytes d.mbx.args) = true)
include hlen hfields

theorem fwuBegin_safe (hsafe : d.gl.safe = true) : fwuBegin store d = refuseUpdate 2 d := by
  unfold fwuBegin
  dsimp only
  rw [if_neg (by simp [hlen, hfields]), if_pos hsafe]

theorem fwuBegin_locked (hsafe : d.gl.safe = false) (hlock : fwLocked d = true) : fwuBegin store d = refuseUpdate 5 d := by
  unfold fwuBegin
  dsimp only
  rw [if_neg (by simp [hlen, hfields]), if_neg (by simp [hsafe]), if_pos hlock]

theorem fwuBegin_opens (hsafe : d.gl.safe = false) (hlock : fwLocked d = false)
    (hepoch : tally d.keep 0 ≤ deltaEpoch (argBytes d.mbx.args))
    (hsource : slice (argBytes d.mbx.args) 32 32 = imgDigest (runningImage d)) (hrx : d.fwu.rx = false) (hpend : d.fwu.pend = false) :
    fwuBegin true d =
      if signedBy d.gl.owner (bytesNat (argBytes d.mbx.args) 24 1) ((argBytes d.mbx.args).take 96) (slice (argBytes d.mbx.args) 96 64) then
        beginReception d
      else refuseUpdate 7 d := by
  unfold fwuBegin
  dsimp only
  rw [if_neg (by simp [hlen, hfields]), if_neg (by simp [hsafe]), if_neg (by simp [hlock]), if_neg (Nat.not_lt.2 hepoch)]
  generalize signedBy d.gl.owner _ _ _ = signed
  cases signed
  · rw [if_pos rfl, if_neg Bool.false_ne_true]
  · rw [if_neg (by decide), if_neg (not_not_intro hsource), if_neg (by simp [hrx]), if_neg (by simp [hpend]),
      if_neg (by decide), if_pos rfl, beginReception, opened, deltaEmptied]

end

/-- Reception is open and its commit queued. -/
theorem begun_leaves (d : Dev) :
    ∃ e, postFwu 0 (received (opened (argBytes d.mbx.args) d) 0 [0, h16 (deltaN (argBytes d.mbx.args))] (deltaEmptied d)) = e
      ∧ e.fwu = opened (argBytes d.mbx.args) d ∧ e.mbx.waits = true
      ∧ e.mbx.outcome = some (0, [0, h16 (deltaN (argBytes d.mbx.args))])
      ∧ e.keep.queue = d.keep.queue ++ [⟨settingsCommit (begunWith (argBytes d.mbx.args) d), .mailbox⟩]
      ∧ e.gl.gstat.getLsbD gFwu = true := by
  obtain ⟨h1, h2, h3, h4, -⟩ :=
    received_leaves (opened (argBytes d.mbx.args) d) 0 [0, h16 (deltaN (argBytes d.mbx.args))] (deltaEmptied d)
  refine ⟨_, rfl, ?_, ?_, ?_, ?_, postFwu_gstat _ _⟩
  · rw [postFwu_fwu, h1]
  · rw [postFwu_mbx, h2]
  · rw [postFwu_mbx, h3]
  · rw [postFwu_keep Keep.queue (fun _ _ _ _ _ _ => rfl), h4]
    rfl

theorem opened_banks (h : List Byte) (d : Dev) : (bankOf (opened h d) (!d.fwu.active)).delta = []
    ∧ bankOf (opened h d) d.fwu.active = bankOf d.fwu d.fwu.active :=
  ⟨congrArg Bank.delta (bankOf_modBank (!d.fwu.active) (fun b => { b with delta := [] }) d),
    bankOf_modBank_other d.fwu.active (fun b => { b with delta := [] }) d⟩

/-! ## FWU_PIECE (R459) -/

theorem fwuPiece_leads {s : State} {vin : Nat} {store : Bool} {P : Dev → Prop} (hruns : mbxRuns 0x11 s.dev = true)
    (hroom : queueRoom 2 s.dev = true) : Leads (.fwuPiece vin store) s P ↔ P (fwuPiece vin store s.dev) := by
  rw [leads_onDev (show exec (.fwuPiece vin store) s = execFwuPiece vin store s from rfl), guardDev_pos (mbxRuns_room hruns hroom)]

section
variable {d : Dev} {vin i : Nat} {pre data : List Byte} {store : Bool} (hargs : pieceArgs d.mbx.args = some (i, pre, data))
include hargs

theorem fwuPiece_low (hvin : vin < d.fwu.vmin.toNat) : fwuPiece vin store d = refuseUpdate 3 d := by
  unfold fwuPiece
  simp only [hargs, if_pos hvin]

theorem fwuPiece_fresh (hvin : d.fwu.vmin.toNat ≤ vin) (hhold : onHoldUp d = false) (hrx : d.fwu.rx = true)
    (hi : i < deltaN d.fwu.header) (hlen : data.length = pieceLen d.fwu.header i) (hnew : i ∉ d.fwu.held) (hpend : d.fwu.pend = false) :
    fwuPiece vin store d = if prefixOk pre data then storePiece i data store d else mbxOutcome 0x13 [] d := by
  have hheld : d.fwu.held.contains i = false := by simpa using hnew
  unfold fwuPiece
  simp only [hargs]
  rw [if_neg (Nat.not_lt.2 hvin), if_neg (by simp [hhold]), if_neg (by simp [hrx]),
    if_neg (not_or.mpr ⟨Nat.not_le.2 hi, not_not_intro hlen⟩), hheld, hpend]
  cases prefixOk pre data
  · rw [if_pos (by decide), if_neg Bool.false_ne_true]
  · rw [if_neg (by decide), if_neg Bool.false_ne_true, if_neg Bool.false_ne_true, if_pos rfl]

end

/-- The torn index's commit. -/
def tornCommit (i : Nat) (d : Dev) : Commit := ⟨settingsCommit (tornAt i d), .due .settings⟩

/-- The device with the torn index's commit queued and the piece in the delta area. -/
def piecePlaced (i : Nat) (data : List Byte) (d : Dev) : Dev :=
  modBank (!d.fwu.active) (fun b => { b with delta := spPut b.delta i data }) (queued (tornCommit i d) (tornAt i d))

/-- The reception state with one more piece held. -/
def pieceHeld (i : Nat) (data : List Byte) (d : Dev) : Fwu :=
  { (piecePlaced i data d).fwu with torn := none, held := d.fwu.held ++ [i] }

/-- What follows the last piece. -/
def pieceAfter (i : Nat) (d : Dev) (e : Dev) : Dev :=
  if (d.fwu.held ++ [i]).length = deltaN d.fwu.header then postFwu 1 e else e

theorem storePiece_protected {i : Nat} {data : List Byte} {d : Dev}
    (h : commitProtected d.keep.bp (settingsCommit (tornAt i d)) = true) :
    (storePiece i data true d).mbx.outcome = some (0x05, []) ∧ (storePiece i data true d).keep.bperr = true := by
  have hissue : issue (tornCommit i d) (tornAt i d) = (false, keepRefused 2 (bpRefused (tornAt i d))) := issue_protected h
  have hstore : storePiece i data true d = mbxOutcome 0x05 [] { (issue (tornCommit i d) (tornAt i d)).2 with fwu := d.fwu } := by
    unfold storePiece
    dsimp only
    rw [← tornAt, if_pos rfl, ← tornCommit, hissue]
    rfl
  rw [hstore, hissue]
  exact ⟨rfl, keepRefused_keep Keep.bperr (fun _ _ _ _ _ _ => rfl) 2 (bpRefused (tornAt i d))⟩

theorem storePiece_passes {i : Nat} {data : List Byte} {d : Dev}
    (h : commitProtected d.keep.bp (settingsCommit (tornAt i d)) = false) (hcrit : d.gl.crit = false) :
    storePiece i data true d = commitReception (pieceHeld i data d) 0 [h16 (d.fwu.held ++ [i]).length] (pieceAfter i d) (piecePlaced i data d) := by
  have hissue : issue (tornCommit i d) (tornAt i d) = (true, queued (tornCommit i d) (tornAt i d)) := issue_queued h hcrit
  unfold storePiece
  dsimp only
  rw [← tornAt, if_pos rfl, ← tornCommit, hissue]
  dsimp only
  rw [if_neg (by decide), if_neg (by decide), ← piecePlaced]
  unfold pieceHeld pieceAfter
  rfl

theorem pieceAfter_field {β : Type} (g : Dev → β) (h : ∀ e, g (postFwu 1 e) = g e) (i : Nat) (d e : Dev) :
    g (pieceAfter i d e) = g e := by
  unfold pieceAfter
  split
  · exact h e
  · rfl

theorem pieceAfter_queue (i : Nat) (d e : Dev) : (pieceAfter i d e).keep.queue = e.keep.queue :=
  pieceAfter_field (fun e => e.keep.queue) (fun e => postFwu_keep Keep.queue (fun _ _ _ _ _ _ => rfl) 1 e) i d e

theorem piecePlaced_keep (i : Nat) (data : List Byte) (d : Dev) :
    (piecePlaced i data d).keep = (queued (tornCommit i d) (tornAt i d)).keep := rfl

/-- The piece is held, and both its commits are queued. -/
theorem pieceStored_leaves (i : Nat) (data : List Byte) (d : Dev) :
    ∃ e, pieceAfter i d (received (pieceHeld i data d) 0 [h16 (d.fwu.held ++ [i]).length] (piecePlaced i data d)) = e
      ∧ e.fwu = pieceHeld i data d ∧ e.mbx.waits = true ∧ e.mbx.outcome = some (0, [h16 (d.fwu.held.length + 1)])
      ∧ e.keep.queue = d.keep.queue ++ [tornCommit i d, ⟨settingsCommit (receiving (pieceHeld i data d) (piecePlaced i data d)), .mailbox⟩] := by
  obtain ⟨h1, h2, h3, h4, -⟩ := received_leaves (pieceHeld i data d) 0 [h16 (d.fwu.held ++ [i]).length] (piecePlaced i data d)
  refine ⟨_, rfl, ?_, ?_, ?_, ?_⟩
  · rw [pieceAfter_field Dev.fwu (postFwu_fwu 1), h1]
  · rw [pieceAfter_field Dev.mbx (postFwu_mbx 1), h2]
  · rw [pieceAfter_field Dev.mbx (postFwu_mbx 1), h3, List.length_append]
    rfl
  · rw [pieceAfter_queue, h4, piecePlaced_keep]
    exact List.append_assoc _ _ _

/-- The fields of the reception state with the piece. -/
theorem pieceHeld_fields (i : Nat) (data : List Byte) (d : Dev) :
    (pieceHeld i data d).held = d.fwu.held ++ [i] ∧ (pieceHeld i data d).torn = none ∧ (pieceHeld i data d).rx = d.fwu.rx
    ∧ (pieceHeld i data d).header = d.fwu.header ∧ spFind (bankOf (pieceHeld i data d) (!d.fwu.active)).delta i = some data := by
  refine ⟨rfl, rfl, modBank_fwu Fwu.rx (fun _ _ => rfl) (fun _ _ => rfl) _ _ _, modBank_fwu Fwu.header (fun _ _ => rfl) (fun _ _ => rfl) _ _ _, ?_⟩
  have hbank : bankOf (piecePlaced i data d).fwu (!d.fwu.active) =
      { bankOf d.fwu (!d.fwu.active) with delta := spPut (bankOf d.fwu (!d.fwu.active)).delta i data } := bankOf_modBank _ _ _
  show spFind (bankOf (piecePlaced i data d).fwu (!d.fwu.active)).delta i = some data
  rw [hbank]
  exact spFind_spPut _ _ _

theorem storePiece_cases {i : Nat} {data : List Byte} {d : Dev} (hcrit : d.gl.crit = false) :
    ((storePiece i data true d).fwu = pieceHeld i data d ∧ (storePiece i data true d).mbx.waits = true)
    ∨ ((storePiece i data true d).mbx.outcome = some (0x05, []) ∧ (storePiece i data true d).keep.bperr = true) := by
  by_cases h : commitProtected d.keep.bp (settingsCommit (tornAt i d)) = true
  · exact .inr (storePiece_protected h)
  rw [storePiece_passes (Bool.eq_false_iff.2 h) hcrit]
  obtain hok | hno := commitReception_cases (f := pieceHeld i data d) (r := 0) (res := [h16 (d.fwu.held ++ [i]).length])
    (after := pieceAfter i d) (d := piecePlaced i data d) hcrit
  · obtain ⟨e, he, hfwu, hwaits, -⟩ := pieceStored_leaves i data d
    rw [hok, he]
    exact .inl ⟨hfwu, hwaits⟩
  · obtain ⟨-, hout, hbperr, -⟩ := receptionRefused_leaves (pieceHeld i data d) (piecePlaced i data d)
    rw [hno]
    exact .inr ⟨hout, hbperr⟩

theorem pieceStored_eq {i : Nat} {data : List Byte} {d : Dev} (hopen : KeepOpen d) (hlen : d.fwu.header.length ≤ 160) :
    pieceStored i data d = receiving (pieceHeld i data d) (piecePlaced i data d) := by
  have hissue : issue (tornCommit i d) (tornAt i d) = (true, queued (tornCommit i d) (tornAt i d)) :=
    issue_open hopen (settingsCommit_passes (tornAt i d) hlen)
  unfold pieceStored
  rw [← tornCommit, hissue]
  rfl

theorem storePiece_open {i : Nat} {data : List Byte} {d : Dev} (hopen : KeepOpen d) (hlen : d.fwu.header.length ≤ 160) :
    storePiece i data true d = pieceAfter i d (received (pieceHeld i data d) 0 [h16 (d.fwu.held ++ [i]).length] (piecePlaced i data d)) := by
  rw [storePiece_passes (by rw [hopen.1]; exact settingsCommit_passes (tornAt i d) hlen) hopen.2]
  exact commitReception_open (d := piecePlaced i data d) hopen (by rw [(pieceHeld_fields i data d).2.2.2.1]; exact hlen)

/-! ## FWU_APPLY (R462, assumption 65) -/

theorem fwuApply_leads {s : State} {vin : Nat} {store : Bool} {P : Dev → Prop} (hruns : mbxRuns 0x12 s.dev = true)
    (hroom : queueRoom 1 s.dev = true) : Leads (.fwuApply vin store) s P ↔ P (fwuApply vin store s.dev) := by
  rw [leads_onDev (show exec (.fwuApply vin store) s = execFwuApply vin store s from rfl), guardDev_pos (mbxRuns_room hruns hroom)]

theorem fwuApply_goesOn {d : Dev} {w : Half} {vin : Nat} {store : Bool} (happly : d.fwu.apply = some w) :
    fwuApply vin store d = applyGoesOn w vin store d := by
  unfold fwuApply
  rw [happly]

theorem applyGoesOn_low {d : Dev} {w : Half} {vin : Nat} {store : Bool} (hvin : vin < d.fwu.vmin.toNat) :
    applyGoesOn w vin store d = refuseUpdate 3 d := if_pos hvin

theorem applyGoesOn_heldUp {d : Dev} {w : Half} {vin : Nat} {store : Bool} (hvin : d.fwu.vmin.toNat ≤ vin) (hhold : onHoldUp d = true) :
    applyGoesOn w vin store d = refuseUpdate 4 d := by
  unfold applyGoesOn
  rw [if_neg (Nat.not_lt.2 hvin), if_pos hhold]

theorem applyGoesOn_builds {d : Dev} {w : Half} {vin : Nat} {store : Bool} (hvin : d.fwu.vmin.toNat ≤ vin) (hhold : onHoldUp d = false) :
    applyGoesOn w vin store d = buildBank w store d := by
  unfold applyGoesOn
  rw [if_neg (Nat.not_lt.2 hvin), if_neg (by simp [hhold])]

theorem buildBank_fails {d : Dev} {w : Half} (h : buildTarget (runningImage d) (receivedBody d) (deltaT d.fwu.header) = none) :
    buildBank w true d = refuseUpdate 7 (abandonBuild d) := by
  unfold buildBank
  simp only [h]
  rfl

/-- The device with the image built in the inactive bank. -/
def bankBuilt (img : List Byte) (d : Dev) : Dev :=
  addRecord (!d.fwu.active) 1 (modBank (!d.fwu.active) (fun x => { x with image := img }) (abandonBuild d))

/-- What follows a build. -/
def builtAfter (w : Half) (e : Dev) : Dev := if w = 0 then askHandover false (postFwu 2 e) else postFwu 2 e

theorem buildBank_built {d : Dev} {w : Half} {img : List Byte}
    (h : buildTarget (runningImage d) (receivedBody d) (deltaT d.fwu.header) = some img) :
    buildBank w true d = match imageFault d img with
      | some r => refuseUpdate r (abandonBuild d)
      | none => commitReception { closedReception (bankBuilt img d).fwu with other := true } 0 [] (builtAfter w) (bankBuilt img d) := by
  unfold buildBank
  simp only [h]
  rfl

theorem bankBuilt_banks (img : List Byte) (d : Dev) : (bankOf (bankBuilt img d).fwu (!d.fwu.active)).image = img
    ∧ bankOf (bankBuilt img d).fwu d.fwu.active = bankOf d.fwu d.fwu.active ∧ (bankBuilt img d).fwu.apply = none := by
  unfold bankBuilt addRecord
  cases hact : d.fwu.active <;> exact ⟨rfl, rfl, rfl⟩

theorem builtAfter_leaves (w : Half) (e : Dev) :
    (builtAfter w e).mbx = e.mbx ∧ (builtAfter w e).fwu = { e.fwu with handReq := if w = 0 then some (e.us, false) else e.fwu.handReq } := by
  unfold builtAfter
  split
  · refine ⟨postFwu_mbx 2 e, ?_⟩
    show { (postFwu 2 e).fwu with handReq := some ((postFwu 2 e).us, false) } = _
    rw [postFwu_fwu, postFwu_us]
  · exact ⟨postFwu_mbx 2 e, postFwu_fwu 2 e⟩

theorem fwuApply_built {s : State} {vin : Nat} {w : Half} {img : List Byte} (hruns : mbxRuns 0x12 s.dev = true)
    (hroom : queueRoom 1 s.dev = true) (happly : s.dev.fwu.apply = some w) (hvin : s.dev.fwu.vmin.toNat ≤ vin)
    (hhold : onHoldUp s.dev = false)
    (himg : buildTarget (runningImage s.dev) (receivedBody s.dev) (deltaT s.dev.fwu.header) = some img) (hcrit : s.dev.gl.crit = false) :
    Leads (.fwuApply vin true) s fun d =>
      d.fwu.apply = none ∧ bankOf d.fwu s.dev.fwu.active = bankOf s.dev.fwu s.dev.fwu.active
      ∧ match imageFault s.dev img with
        | some r => d.mbx.outcome = some (0x10, []) ∧ d.fwu.refuse = r
        | none =>
          (bankOf d.fwu (!s.dev.fwu.active)).image = img ∧ d.fwu.rx = false ∧ d.fwu.held = [] ∧ d.mbx.waits = true
            ∧ d.mbx.outcome = some (0, []) ∧ (w = 0 → d.fwu.handReq = some (s.dev.us, false))
          ∨ d.mbx.outcome = some (0x05, []) ∧ d.keep.bperr = true := by
  rw [fwuApply_leads hruns hroom, fwuApply_goesOn happly, applyGoesOn_builds hvin hhold, buildBank_built himg]
  cases himage : imageFault s.dev img with
  | some r =>
    obtain ⟨hout, hfwu⟩ := refuseUpdate_leaves r (abandonBuild s.dev)
    refine ⟨by rw [hfwu], by rw [hfwu]; rfl, hout, by rw [hfwu]⟩
  | none =>
    obtain ⟨hnew, hold, hnone⟩ := bankBuilt_banks img s.dev
    have hcool : (bankBuilt img s.dev).gl.crit = false := hcrit
    dsimp only
    obtain hok | hno := commitReception_cases (f := { closedReception (bankBuilt img s.dev).fwu with other := true }) (r := 0) (res := [])
      (after := builtAfter w) hcool
    · obtain ⟨h1, h2, h3, -, h5⟩ :=
        received_leaves { closedReception (bankBuilt img s.dev).fwu with other := true } 0 [] (bankBuilt img s.dev)
      rw [hok]
      generalize received { closedReception (bankBuilt img s.dev).fwu with other := true } 0 [] (bankBuilt img s.dev) = e at *
      obtain ⟨hmbx, hfwu⟩ := builtAfter_leaves w e
      rw [h1] at hfwu
      simp only [hfwu, hmbx]
      refine ⟨hnone, hold, .inl ⟨hnew, rfl, rfl, h2, h3, fun hw => ?_⟩⟩
      rw [if_pos hw, h5]
      rfl
    · obtain ⟨h1, h2, h3, -⟩ :=
        receptionRefused_leaves { closedReception (bankBuilt img s.dev).fwu with other := true } (bankBuilt img s.dev)
      rw [hno]
      simp only [h1]
      exact ⟨hnone, hold, .inr ⟨h2, h3⟩⟩

section
variable {d : Dev} {vin : Nat} {store : Bool} (happly : d.fwu.apply = none) (hpend : d.fwu.pend = false)
include happly hpend

theorem fwuApply_empty {w : Half} (hw : w.toNat < 2) (hargs : d.mbx.args = [w]) (hrx : d.fwu.rx = false) :
    fwuApply vin store d = mbxOutcome 0x12 [] d := by
  have h2 : w ≠ 2 := by rintro rfl; exact absurd hw (by decide)
  have hle : ¬ (2 : Half) < w := by rw [BitVec.lt_def]; exact Nat.not_lt.2 (Nat.le_of_lt hw)
  have hget : d.mbx.args.getD 0 0 = w := by rw [hargs]; rfl
  unfold fwuApply fwuApplyStart
  simp only [happly]
  rw [hget, if_neg (not_or.mpr ⟨by simp [hargs], hle⟩), if_neg (by simp [hpend]), if_neg (fun h => h2 h.1), if_pos ⟨h2, .inl hrx⟩]

variable (hsafe : d.gl.safe = false) (hvin : d.fwu.vmin.toNat ≤ vin) (hhold : onHoldUp d = false) (hlock : fwLocked d = false)
include hsafe hvin hhold hlock

theorem fwuApply_swaps (hargs : d.mbx.args = [2]) (hbuilt : hasBuilt d = true) :
    fwuApply vin store d = { askHandover true d with mbx := { d.mbx with waits := true } } := by
  have hget : d.mbx.args.getD 0 0 = 2 := by rw [hargs]; rfl
  unfold fwuApply fwuApplyStart
  simp only [happly]
  rw [hget, if_neg (not_or.mpr ⟨by simp [hargs], by decide⟩), if_neg (by simp [hpend]), if_neg (by simp [hbuilt]),
    if_neg (by simp), if_neg (by simp [hsafe]), if_neg (Nat.not_lt.2 hvin), if_neg (by simp [hhold]), if_neg (by simp [hlock]), if_pos rfl]

theorem fwuApply_complete {w : Half} (hw : w.toNat < 2) (hargs : d.mbx.args = [w]) (hrx : d.fwu.rx = true)
    (hheld : d.fwu.held.length = deltaN d.fwu.header) : fwuApply vin store d = applyBuild w store d := by
  have h2 : w ≠ 2 := by rintro rfl; exact absurd hw (by decide)
  have hle : ¬ (2 : Half) < w := by rw [BitVec.lt_def]; exact Nat.not_lt.2 (Nat.le_of_lt hw)
  have hget : d.mbx.args.getD 0 0 = w := by rw [hargs]; rfl
  unfold fwuApply fwuApplyStart
  simp only [happly]
  rw [hget, if_neg (not_or.mpr ⟨by simp [hargs], hle⟩), if_neg (by simp [hpend]), if_neg (fun h => h2 h.1), if_neg (by simp [hrx, hheld]),
    if_neg (by simp [hsafe]), if_neg (Nat.not_lt.2 hvin), if_neg (by simp [hhold]), if_neg (by simp [hlock]), if_neg h2]

end

/-- The device with the inactive bank's status sector and image area erased. -/
def bankErased (d : Dev) : Dev :=
  modBank (!d.fwu.active) (fun x => { x with status := [], image := [] }) { d with fwu := { d.fwu with other := false } }

theorem bankErased_banks (d : Dev) : (bankOf (bankErased d).fwu (!d.fwu.active)).status = []
    ∧ (bankOf (bankErased d).fwu (!d.fwu.active)).image = []
    ∧ bankOf (bankErased d).fwu d.fwu.active = bankOf d.fwu d.fwu.active := by
  unfold bankErased
  cases d.fwu.active <;> exact ⟨rfl, rfl, rfl⟩

theorem applyBuild_good {d : Dev} {w : Half} {store : Bool} (h : slice d.fwu.header 64 32 = Config.sha256 (receivedBody d)) :
    applyBuild w store d = if store then { bankErased d with fwu := { (bankErased d).fwu with apply := some w } }
      else mbxOutcome 0x15 [] (bankErased d) := by
  unfold applyBuild
  rw [if_neg (not_not_intro h)]
  rfl

theorem applyBuild_bad {d : Dev} {w : Half} {store : Bool} (h : slice d.fwu.header 64 32 ≠ Config.sha256 (receivedBody d)) :
    (applyBuild w store d).fwu.refuse = 7 ∧ bankOf (applyBuild w store d).fwu d.fwu.active = bankOf d.fwu d.fwu.active := by
  have hfwu : (fwuRefused 7 d).fwu = { d.fwu with refuse := 7, apply := none } := postFwu_fwu 3 _
  have hbuild : applyBuild w store d = commitReception { (fwuRefused 7 d).fwu with held := [] } 0x10 [] id (fwuRefused 7 d) := by
    unfold applyBuild
    rw [if_pos h]
  rw [hbuild]
  obtain heq | heq := commitReception_fwu (f := { (fwuRefused 7 d).fwu with held := [] }) (r := 0x10) (res := []) (d := fwuRefused 7 d) <;>
    (rw [heq, hfwu]; exact ⟨rfl, rfl⟩)

/-! ## FWU_CANCEL and RECOVERY_IMAGE (R461, R469) -/

theorem fwuCancel_leads {s : State} {P : Dev → Prop} (hruns : mbxRuns 0x13 s.dev = true) (hroom : queueRoom 1 s.dev = true)
    (hargs : s.dev.mbx.args = []) : Leads .fwuCancel s P ↔
      P (if s.dev.fwu.hand.isSome then { s.dev with fwu := { s.dev.fwu with cancelDue := true }, mbx := { s.dev.mbx with waits := true } }
        else cancelReception s.dev) := by
  rw [leads_onDev (show exec .fwuCancel s = execFwuCancel s from rfl), guardDev_pos (mbxRuns_room hruns hroom),
    if_neg (not_not_intro hargs)]

theorem cancelReception_leaves {d : Dev} (hrx : d.fwu.rx = true) (hcrit : d.gl.crit = false) :
    ((cancelReception d).fwu.rx = false ∧ (cancelReception d).fwu.held = [] ∧ (cancelReception d).fwu.header = []
      ∧ (cancelReception d).mbx.waits = true ∧ (cancelReception d).gl.gstat.getLsbD gFwu = true)
    ∨ ((cancelReception d).mbx.outcome = some (0x05, []) ∧ (cancelReception d).keep.bperr = true) := by
  have hcancel : cancelReception d = commitReception (closedReception d.fwu) 0 [] (setG gFwu) d := if_pos hrx
  rw [hcancel]
  obtain hok | hno := commitReception_cases (f := closedReception d.fwu) (r := 0) (res := []) (after := setG gFwu) hcrit
  · obtain ⟨h1, h2, -⟩ := received_leaves (closedReception d.fwu) 0 [] d
    rw [hok]
    generalize received (closedReception d.fwu) 0 [] d = e at *
    refine .inl ⟨?_, ?_, ?_, h2, setG_same (by decide) e⟩ <;> (rw [setG_fwu, h1]; rfl)
  · obtain ⟨-, h2, h3, -⟩ := receptionRefused_leaves (closedReception d.fwu) d
    rw [hno]
    exact .inr ⟨h2, h3⟩

/-- The device as a recovery download begins, its target bank erased once. -/
def recoveryOpened (d : Dev) : Dev :=
  if d.fwu.recOpen then d else modBank (recoveryBank d.fwu) (fun x => { x with status := [], image := [] }) d

theorem recoveryOpened_frame (d : Dev) : (recoveryOpened d).fwu.recPieces = d.fwu.recPieces
    ∧ (recoveryOpened d).p0 = d.p0 ∧ (recoveryOpened d).p1 = d.p1 := by
  unfold recoveryOpened
  split
  · exact ⟨rfl, rfl, rfl⟩
  · exact ⟨modBank_fwu Fwu.recPieces (fun _ _ => rfl) (fun _ _ => rfl) _ _ _, rfl, rfl⟩

theorem recoveryPiece_fits {d : Dev} {i : Nat} {pre data : List Byte} (hargs : pieceArgs d.mbx.args = some (i, pre, data))
    (hfits : recoveryMisfits d.fwu.recPieces i data.length = false) (hpart : recoveryFull (spPut d.fwu.recPieces i data) = false) :
    recoveryPiece true d = if prefixOk pre data then
        mbxOutcome 0 [h16 (spPut d.fwu.recPieces i data).length, h16 (recoveryNeed (spPut d.fwu.recPieces i data))]
          { recoveryOpened d with fwu := { (recoveryOpened d).fwu with recOpen := true, recPieces := spPut d.fwu.recPieces i data } }
      else mbxOutcome 0x13 [] d := by
  have hpieces : (recoveryOpened d).fwu.recPieces = d.fwu.recPieces := (recoveryOpened_frame d).1
  unfold recoveryPiece
  simp only [hargs]
  rw [hfits, ← recoveryOpened, hpieces, hpart]
  cases prefixOk pre data
  · rw [if_neg Bool.false_ne_true, if_pos (by decide), if_neg Bool.false_ne_true]
  · rw [if_neg Bool.false_ne_true, if_neg (by decide), if_pos rfl]
    rw [if_neg (by decide), if_neg Bool.false_ne_true]

end Sys2Proof.Laws
end

section
/-! FWU_BEGIN to RECOVERY_IMAGE (R455 to R469). -/

namespace Sys2Proof.Laws

open Sys2Proof Machine

/-! ## The reception that FWU_BEGIN opens (R457, R458) -/

theorem beginReception_open {d : Dev} (hlen : d.mbx.args.length = 80) (hopen : KeepOpen d) :
    beginReception d = postFwu 0 (received (opened (argBytes d.mbx.args) d) 0 [0, h16 (deltaN (argBytes d.mbx.args))] (deltaEmptied d)) := by
  have hheader : (opened (argBytes d.mbx.args) d).header.length ≤ 160 := by
    show (argBytes d.mbx.args).length ≤ 160
    exact Nat.le_of_eq (by rw [length_argBytes, hlen])
  exact commitReception_open (d := deltaEmptied d) hopen hheader

theorem beginReception_cases {d : Dev} (hcrit : d.gl.crit = false) :
    ((beginReception d).fwu.header = argBytes d.mbx.args ∧ (beginReception d).fwu.held = [] ∧ (beginReception d).fwu.rx = true
      ∧ (beginReception d).mbx.waits = true
      ∧ (beginReception d).mbx.outcome = some (0, [0, h16 (deltaN (argBytes d.mbx.args))]))
    ∨ ((beginReception d).mbx.outcome = some (0x05, []) ∧ (beginReception d).keep.bperr = true) := by
  obtain hok | hno := commitReception_cases (f := opened (argBytes d.mbx.args) d) (r := 0)
    (res := [0, h16 (deltaN (argBytes d.mbx.args))]) (after := postFwu 0) (d := deltaEmptied d) hcrit
  · obtain ⟨e, he, hfwu, hwaits, hout, -⟩ := begun_leaves d
    rw [beginReception, hok, he, hfwu]
    exact .inl ⟨rfl, rfl, rfl, hwaits, hout⟩
  · obtain ⟨-, hout, hbperr, -⟩ := receptionRefused_leaves (opened (argBytes d.mbx.args) d) (deltaEmptied d)
    rw [beginReception, hno]
    exact .inr ⟨hout, hbperr⟩

theorem beginReception_protected {d : Dev} (hbp : d.keep.bp ≠ 0) (hrx : d.fwu.rx = false) :
    (beginReception d).mbx.outcome = some (0x05, []) ∧ (beginReception d).fwu.rx = false
    ∧ (beginReception d).keep.queue = d.keep.queue := by
  obtain ⟨hfwu, hout, -, hqueue⟩ := receptionRefused_leaves (opened (argBytes d.mbx.args) d) (deltaEmptied d)
  rw [beginReception, commitReception_refused (d := deltaEmptied d) hbp, hfwu]
  exact ⟨hout, (modBank_fwu Fwu.rx (fun _ _ => rfl) (fun _ _ => rfl) _ _ d).trans hrx, hqueue⟩

/-- Settles O49: the update commands by their branches; that a build ends with a second run of FWU_APPLY and that the digests are
open functions are the model's choices (log entries 65 and 8). -/
theorem updateCommands : Obligations.UpdateCommands := by
  unfold Obligations.UpdateCommands
  intro s vin store
  refine ⟨fun hruns hroom hlen hfields hcrit => ⟨fun hsafe => ?safe, fun hsafe hlock => ?locked, fun hsafe hlock hepoch hsource hrx hpend => ?begins⟩,
    fun i pre data hruns hroom hargs => ⟨fun hvin => ?pieceLow, fun hvin hhold hrx hi hlen hnew hpend hcrit => ?piece⟩,
    fun w hruns hroom happly => ⟨fun hvin => ?applyLow, fun hvin hhold => ?applyHeld, fun hvin hhold => ?applyStore,
      fun hvin hhold hbad => ?applyFails, fun img hvin hhold himg hcrit => fwuApply_built hruns hroom happly hvin hhold himg hcrit⟩,
    fun hruns hroom happly hpend hsafe hvin hhold hlock => ⟨fun hargs hbuilt => ?swaps, fun w hw hargs hrx => ?empty,
      fun w hw hargs hrx hheld => ⟨?complete, ?completeStore⟩⟩,
    fun hruns hroom hargs => ⟨fun hhand => ?cancelLater, fun hhand hrx hcrit => ?cancels⟩,
    fun i pre data hruns hargs hfits hpart => ?recovery⟩
  case safe =>
    obtain ⟨hout, hfwu⟩ := refuseUpdate_leaves 2 s.dev
    rw [fwuBegin_leads hruns hroom, fwuBegin_safe hlen hfields hsafe, hfwu]
    exact ⟨hout, rfl⟩
  case locked =>
    rw [fwuBegin_leads hruns hroom, fwuBegin_locked hlen hfields hsafe hlock, (refuseUpdate_leaves 5 s.dev).2]
  case begins =>
    obtain ⟨hout, hfwu⟩ := refuseUpdate_leaves 7 s.dev
    have hopens := fwuBegin_opens hlen hfields hsafe hlock hepoch hsource hrx hpend
    simp only [fwuBegin_leads hruns hroom, hopens]
    generalize signedBy s.dev.gl.owner _ _ _ = signed
    cases signed with
    | false => exact ⟨⟨hout, by rw [if_neg Bool.false_ne_true, hfwu]⟩, fun _ => ⟨hout, by rw [if_neg Bool.false_ne_true, hfwu]⟩,
        fun _ => ⟨hout, by rw [if_neg Bool.false_ne_true, hfwu]⟩⟩
    | true =>
      simp only [if_true]
      refine ⟨beginReception_cases hcrit, fun hopen => ?_, fun hbp => beginReception_protected hbp hrx⟩
      obtain ⟨e, he, hbegun, hwaits, hdone, hqueue, hflag⟩ := begun_leaves s.dev
      obtain ⟨hdelta, hactive⟩ := opened_banks (argBytes s.dev.mbx.args) s.dev
      rw [beginReception_open hlen hopen, he, hbegun]
      exact ⟨rfl, rfl, rfl, rfl, hdelta, hactive, hwaits, hdone, hqueue, hflag⟩
  case pieceLow =>
    rw [fwuPiece_leads hruns hroom, fwuPiece_low hargs hvin, (refuseUpdate_leaves 3 s.dev).2]
    exact ⟨rfl, rfl⟩
  case piece =>
    have hfresh := fwuPiece_fresh (store := true) hargs hvin hhold hrx hi hlen hnew hpend
    obtain ⟨hheld, htorn, hrxHeld, -, hfind⟩ := pieceHeld_fields i data s.dev
    simp only [fwuPiece_leads hruns hroom, hfresh]
    refine ⟨?_, fun hpre hheader hopen => ?_⟩
    · split
      · refine (storePiece_cases hcrit).imp (fun h => ?_) id
        rw [h.1]
        exact ⟨hheld, htorn, h.2, hfind⟩
      · exact ⟨rfl, rfl⟩
    · obtain ⟨e, he, hfwu, hwaits, hdone, hqueue⟩ := pieceStored_leaves i data s.dev
      rw [if_pos hpre, storePiece_open hopen hheader, he, hfwu, pieceStored_eq hopen hheader]
      exact ⟨hheld, htorn, hrxHeld.trans hrx, hfind, hwaits, hdone, hqueue⟩
  case applyLow =>
    obtain ⟨hout, hfwu⟩ := refuseUpdate_leaves 3 s.dev
    rw [fwuApply_leads hruns hroom, fwuApply_goesOn happly, applyGoesOn_low hvin, hfwu]
    exact ⟨hout, rfl, rfl⟩
  case applyHeld =>
    obtain ⟨hout, hfwu⟩ := refuseUpdate_leaves 4 s.dev
    rw [fwuApply_leads hruns hroom, fwuApply_goesOn happly, applyGoesOn_heldUp hvin hhold, hfwu]
    exact ⟨hout, rfl, rfl⟩
  case applyStore =>
    rw [fwuApply_leads hruns hroom, fwuApply_goesOn happly, applyGoesOn_builds hvin hhold]
    exact ⟨rfl, rfl⟩
  case applyFails =>
    obtain ⟨hout, hfwu⟩ := refuseUpdate_leaves 7 (abandonBuild s.dev)
    rw [fwuApply_leads hruns hroom, fwuApply_goesOn happly, applyGoesOn_builds hvin hhold, buildBank_fails hbad, hfwu]
    exact ⟨hout, rfl, rfl⟩
  case swaps =>
    rw [fwuApply_leads hruns hroom, fwuApply_swaps happly hpend hsafe hvin hhold hlock hargs hbuilt]
    exact ⟨rfl, rfl, rfl, rfl⟩
  case empty =>
    rw [fwuApply_leads hruns hroom, fwuApply_empty happly hpend hw hargs hrx]
    exact ⟨rfl, rfl⟩
  case complete =>
    obtain ⟨hstatus, himage, hactive⟩ := bankErased_banks s.dev
    rw [fwuApply_leads hruns hroom, fwuApply_complete happly hpend hsafe hvin hhold hlock hw hargs hrx hheld]
    by_cases hsum : slice s.dev.fwu.header 64 32 = Config.sha256 (receivedBody s.dev)
    · rw [applyBuild_good hsum, if_pos rfl, if_pos hsum]
      exact ⟨⟨rfl, rfl, hstatus, himage⟩, hactive⟩
    · rw [if_neg hsum]
      exact applyBuild_bad hsum
  case completeStore =>
    obtain ⟨hstatus, himage, hactive⟩ := bankErased_banks s.dev
    rw [fwuApply_leads hruns hroom, fwuApply_complete happly hpend hsafe hvin hhold hlock hw hargs hrx hheld, ← receivedBody]
    by_cases hsum : slice s.dev.fwu.header 64 32 = Config.sha256 (receivedBody s.dev)
    · rw [applyBuild_good hsum, if_neg Bool.false_ne_true, if_pos hsum]
      exact ⟨⟨rfl, hstatus, himage⟩, hactive⟩
    · rw [if_neg hsum]
      exact applyBuild_bad hsum
  case cancelLater =>
    rw [fwuCancel_leads hruns hroom hargs, if_pos hhand]
    exact ⟨rfl, rfl⟩
  case cancels =>
    rw [fwuCancel_leads hruns hroom hargs, if_neg (by simp [hhand])]
    exact cancelReception_leaves hrx hcrit
  case recovery =>
    obtain ⟨-, h0, h1⟩ := recoveryOpened_frame s.dev
    rw [leads_onDev (show exec (.recoveryImage true) s = execRecoveryImage true s from rfl), guardDev_pos hruns,
      recoveryPiece_fits hargs hfits hpart]
    split
    · exact ⟨⟨rfl, rfl, rfl⟩, h0, h1⟩
    · exact ⟨⟨rfl, rfl⟩, rfl, rfl⟩

end Sys2Proof.Laws
end

section
/-! A word that issues alone, and the values of Table 20-4 (R412, R419, R420, R426, R434). -/

namespace Sys2Proof.Laws

open Sys2Proof Machine

/-! ## A word that issues alone (R412, R426, R434) -/

/-- The length of a bundle of one word. -/
abbrev wordLen (w : OpWord) : Nat := if w.lit.isSome then 8 else 4

theorem seqPc_eq (w : OpWord) (c : Core) : c.pc + BitVec.ofNat 32 (wordLen w) = seqPc w c := by
  unfold seqPc wordLen
  split <;> rfl

/-- A command whose operation changes the core alone goes on where the operation says. -/
theorem exec_onCore {c : Instr} {o : Opc} {w : OpWord} {s : State} {f : Core → Core} {nx : Option Word} {t : Word}
    (hc : exec c s = coreOp o w s) (h : IssuesAlone o w s)
    (he : evalOp (o, w) (wordLen w) s.dev = .ok { act := fun d => d.onCore f, next := nx })
    (hn : nx.getD (seqPc w s.dev.core) = t) (ht : fetchable t = true) (hw : (f s.dev.core).wait = none) :
    exec c s = .next (s.onCore fun c => { f c with pc := t }) := by
  rw [hc]
  exact coreOp_core h f _ t he (by simp [foldDev, applyEffect, sameImage]) hn ht hw

/-- The same where the next bundle follows. -/
theorem exec_advance {c : Instr} {o : Opc} {w : OpWord} {s : State} {f : Core → Core}
    (hc : exec c s = coreOp o w s) (h : IssuesAlone o w s) (hf : fetchable (seqPc w s.dev.core) = true)
    (he : evalOp (o, w) (wordLen w) s.dev = .ok { act := fun d => d.onCore f }) (hw : (f s.dev.core).wait = none) :
    exec c s = .next (s.advance w f) := exec_onCore hc h he rfl hf hw

/-- An operation that traps enters its handler or, under TH, calls the watchdog (R426, R428). -/
theorem leads_trap {c : Instr} {o : Opc} {w : OpWord} {s : State} {k : Nat} {v : Option Word} {P : Dev → Prop}
    (hc : exec c s = coreOp o w s) (h : IssuesAlone o w s) (he : evalOp (o, w) (wordLen w) s.dev = .trap k v)
    (hP : P (syncTrap k (trapPc k (wordLen w) s.dev) v s.dev)) : Leads c s P := by
  refine leads_of_issueOp hc ?_ hP
  rw [issueOp_alone h, runBundle_alone h, he]

/-- Outside a handler a trap enters its handler, with its value in TVAL where it has one. -/
theorem syncTrap_enters_val {k : Nat} {tpc : Word} {s : State} (v : Option Word) (hth : s.dev.core.th = false) :
    Enters k tpc s (syncTrap k tpc v s.dev) ∧ ∀ x, v = some x → (syncTrap k tpc v s.dev).core.tval = x := by
  cases v with
  | none => exact ⟨by simp [syncTrap, trapEntry, trapValue, trapVector, takeFree, Enters, hth] <;> rfl, fun x hx => nomatch hx⟩
  | some y =>
    refine ⟨by simp [syncTrap, trapEntry, trapValue, trapVector, Enters, hth] <;> rfl, fun x hx => ?_⟩
    obtain rfl := Option.some.inj hx
    simp [syncTrap, trapEntry, trapValue, hth]

theorem issuesAlone_wait {o : Opc} {w : OpWord} {s : State} (h : IssuesAlone o w s) : s.dev.core.wait = none := h.2.1

theorem issuesAlone_wordOk {o : Opc} {w : OpWord} {s : State} (h : IssuesAlone o w s) : wordOk o w = true := h.2.2.2.2.2

/-- The parts of a legal word (R434 to R436). -/
theorem wordOk_parts {o : Opc} {w : OpWord} (h : wordOk o w = true) :
    (w.lit.isNone || o.hasLit) = true ∧ modOk o w = true := by
  unfold Machine.wordOk at h
  simp only [Bool.and_eq_true] at h
  obtain ⟨⟨⟨⟨⟨⟨⟨⟨hlit, hmod⟩, -⟩, -⟩, -⟩, -⟩, -⟩, -⟩, -⟩ := h
  exact ⟨hlit, hmod⟩

theorem lit_none {o : Opc} {w : OpWord} (h : wordOk o w = true) (hno : o.hasLit = false) : w.lit = none := by
  have hlit := (wordOk_parts h).1
  rw [hno, Bool.or_false] at hlit
  exact Option.isNone_iff_eq_none.mp hlit

/-- The b operand of an operation that takes neither a literal nor an immediate. -/
theorem opB_reg {o : Opc} {w : OpWord} {c : Core} (h : wordOk o w = true) (hno : o.hasLit = false) (himm : o.hasImm = false) :
    opB o w c = regVal c w.b.toNat := by
  unfold opB
  rw [lit_none h hno]
  simp [opImm, himm]

/-! ## What an operation of the A or M unit leaves in its register (Tables 20-4 and 20-5) -/

theorem evalOp_alu {o : Opc} {w : OpWord} {n : Nat} {d : Dev} (h : o.isAlu = true) : evalOp (o, w) n d = .ok (aluEval o w d.core) := by
  have harith : arithEval o w d.core = aluEval o w d.core := if_pos h
  have hslot : o.slot = 0 ∨ o.slot = 1 := by revert h; cases o <;> decide
  rw [← harith]
  unfold evalOp
  rcases hslot with hs | hs <;> simp only [hs]

/-- An operation that writes a register, with STATUS.SAT sticky. -/
theorem exec_reg {c : Instr} {o : Opc} {w : OpWord} {s : State} {v : Word × Bool} (hc : exec c s = coreOp o w s)
    (h : IssuesAlone o w s) (hf : fetchable (seqPc w s.dev.core) = true)
    (he : evalOp (o, w) (wordLen w) s.dev = .ok (regEffect s.dev.core.cwb w.d.toNat v)) :
    exec c s = .next (s.advance w fun c => putReg c.cwb w.d.toNat v.1 { c with sat := c.sat || v.2 }) :=
  exec_advance (f := fun c => putReg s.dev.core.cwb w.d.toNat v.1 { c with sat := c.sat || v.2 }) hc h hf he
    ((putReg_wait _ _ _ _).trans (issuesAlone_wait h))

/-- An operation that writes a register and does not saturate. -/
theorem exec_writesD {c : Instr} {o : Opc} {w : OpWord} {s : State} {v : Word} (hc : exec c s = coreOp o w s)
    (h : IssuesAlone o w s) (hf : fetchable (seqPc w s.dev.core) = true)
    (he : evalOp (o, w) (wordLen w) s.dev = .ok (regEffect s.dev.core.cwb w.d.toNat (v, false))) : exec c s = .next (s.writesD w v) :=
  hc.trans (writesD_of h hf v he)

section
variable {c : Instr} {o : Opc} {w : OpWord} {s : State} (hc : exec c s = coreOp o w s) (halu : o.isAlu = true)
  (h : IssuesAlone o w s) (hf : fetchable (seqPc w s.dev.core) = true)
include hc halu h hf

theorem alu_writesD {v : Word}
    (hv : aluVal o w.mod.toNat (regVal s.dev.core w.d.toNat) (regVal s.dev.core w.a.toNat) (opB o w s.dev.core) = (v, false)) :
    exec c s = .next (s.writesD w v) := by
  refine exec_writesD hc h hf ?_
  rw [evalOp_alu halu, aluEval, hv]

end

/-! ## Saturation (R419, R420) -/

theorem satBits_eq (n : Nat) (x : Int) : satBits n x = (clampTo n x, decide (clampTo n x ≠ x)) := by
  have htop : (0 : Int) < 2 ^ (n - 1) := Int.pow_pos (by decide)
  unfold satBits clampTo
  dsimp only
  generalize (2 : Int) ^ (n - 1) = top at *
  split
  · have : max (-top) (min (top - 1) x) = -top := by omega
    rw [this, decide_eq_true (by omega)]
  split
  · have : max (-top) (min (top - 1) x) = top - 1 := by omega
    rw [this, decide_eq_true (by omega)]
  · have : max (-top) (min (top - 1) x) = x := by omega
    rw [this, decide_eq_false (by omega)]

theorem satWord_eq (x : Int) : satWord x = (BitVec.ofInt 32 (clampTo 32 x), decide (clampTo 32 x ≠ x)) := by
  rw [satWord, satBits_eq]

theorem satHalf_eq (x : Int) : satHalf x = (BitVec.ofInt 32 (clampTo 16 x), decide (clampTo 16 x ≠ x)) := by
  rw [satHalf, satBits_eq]

theorem satAcc_eq (x : Int) : satAcc x = (BitVec.ofInt 40 (clampTo 40 x), decide (clampTo 40 x ≠ x)) := by
  rw [satAcc, satBits_eq]

/-- An operation that writes a register with a number held to some bits. -/
theorem exec_writesSat {c : Instr} {o : Opc} {w : OpWord} {s : State} {n : Nat} {x : Int} {v : Word × Bool}
    (hc : exec c s = coreOp o w s) (h : IssuesAlone o w s) (hf : fetchable (seqPc w s.dev.core) = true)
    (he : evalOp (o, w) (wordLen w) s.dev = .ok (regEffect s.dev.core.cwb w.d.toNat v))
    (hv : v = (BitVec.ofInt 32 (clampTo n x), decide (clampTo n x ≠ x))) : exec c s = .next (s.writesSat w n x) := by
  subst hv
  exact exec_reg hc h hf he

/-! ## The values of Table 20-4 -/

theorem sshiftRight_eq_div (a : Word) (n : Nat) : a.sshiftRight n = BitVec.ofInt 32 (a.toInt / 2 ^ n) := by
  rw [BitVec.sshiftRight, Int.shiftRight_eq_div_pow]
  norm_cast

theorem min_signed (a b : Word) : (if a.toInt < b.toInt then a else b) = BitVec.ofInt 32 (min a.toInt b.toInt) := by
  split
  · next h => rw [Int.min_eq_left (Int.le_of_lt h), BitVec.ofInt_toInt]
  · next h => rw [Int.min_eq_right (Int.not_lt.mp h), BitVec.ofInt_toInt]

theorem max_signed (a b : Word) : (if a.toInt < b.toInt then b else a) = BitVec.ofInt 32 (max a.toInt b.toInt) := by
  split
  · next h => rw [Int.max_eq_right (Int.le_of_lt h), BitVec.ofInt_toInt]
  · next h => rw [Int.max_eq_left (Int.not_lt.mp h), BitVec.ofInt_toInt]

theorem min_unsigned (a b : Word) : (if a.toNat < b.toNat then a else b) = BitVec.ofNat 32 (min a.toNat b.toNat) := by
  split
  · next h => rw [Nat.min_eq_left (Nat.le_of_lt h), BitVec.ofNat_toNat, BitVec.setWidth_eq]
  · next h => rw [Nat.min_eq_right (Nat.not_lt.mp h), BitVec.ofNat_toNat, BitVec.setWidth_eq]

theorem max_unsigned (a b : Word) : (if a.toNat < b.toNat then b else a) = BitVec.ofNat 32 (max a.toNat b.toNat) := by
  split
  · next h => rw [Nat.max_eq_right (Nat.le_of_lt h), BitVec.ofNat_toNat, BitVec.setWidth_eq]
  · next h => rw [Nat.max_eq_left (Nat.not_lt.mp h), BitVec.ofNat_toNat, BitVec.setWidth_eq]

/-- CMP by its condition code. -/
theorem compares_eq {m : BitVec 4} (hm : m.toNat % 8 ≤ 5) (a b : Word) :
    BitVec.ofNat 32 (b2n (compares (m.toNat % 8) a b)) =
      (if (m.setWidth 3 = (0 : BitVec 3) ∧ a = b) ∨ (m.setWidth 3 = (1 : BitVec 3) ∧ a ≠ b)
        ∨ (m.setWidth 3 = (2 : BitVec 3) ∧ a.slt b = true) ∨ (m.setWidth 3 = (3 : BitVec 3) ∧ b.sle a = true)
        ∨ (m.setWidth 3 = (4 : BitVec 3) ∧ a < b) ∨ (m.setWidth 3 = (5 : BitVec 3) ∧ b ≤ a) then 1 else 0) := by
  have hcode : m.setWidth 3 = BitVec.ofNat 3 (m.toNat % 8) := by
    apply BitVec.eq_of_toNat_eq
    simp
  have hbit (p : Prop) [Decidable p] : BitVec.ofNat 32 (b2n (decide p)) = if p then (1 : Word) else 0 := by
    by_cases hp : p <;> simp [hp, b2n]
  rw [hcode]
  generalize m.toNat % 8 = k at *
  obtain rfl | rfl | rfl | rfl | rfl | rfl : k = 0 ∨ k = 1 ∨ k = 2 ∨ k = 3 ∨ k = 4 ∨ k = 5 := by omega
  all_goals
    simp only [compares, hbit]
    simp [BitVec.slt, BitVec.sle, BitVec.lt_def, BitVec.le_def]

/-- EXT by MOD. -/
theorem extend_eq {m : BitVec 4} (hm : m.toNat < 4) (a : Word) : extend (m.toNat % 4) a =
    if m = 0 then (a.setWidth 8).signExtend 32 else if m = 1 then (a.setWidth 16).signExtend 32
    else if m = 2 then a &&& 0xFF else a &&& 0xFFFF := by
  have hlow (k : Nat) (hk : k ≤ 32) : (a.setWidth k).setWidth 32 = a &&& BitVec.ofNat 32 (2 ^ k - 1) := by
    have hpow : 2 ^ k ≤ 2 ^ 32 := Nat.pow_le_pow_right (by decide) hk
    have hpos : 0 < 2 ^ k := Nat.two_pow_pos k
    apply BitVec.eq_of_toNat_eq
    rw [BitVec.toNat_and, BitVec.toNat_ofNat, Nat.mod_eq_of_lt (a := 2 ^ k - 1) (by omega), Nat.and_two_pow_sub_one_eq_mod,
      BitVec.toNat_setWidth, BitVec.toNat_setWidth]
    exact Nat.mod_eq_of_lt (Nat.lt_of_lt_of_le (Nat.mod_lt _ hpos) hpow)
  obtain rfl | rfl | rfl | rfl : m = 0 ∨ m = 1 ∨ m = 2 ∨ m = 3 := by bv_omega
  · rfl
  · rfl
  · exact hlow 8 (by decide)
  · exact hlow 16 (by decide)

/-- CLZ counts the zeros above the highest one. -/
theorem leadingZeros_spec (a : Word) : leadingZeros a ≤ 32 ∧ (∀ i, i < leadingZeros a → a.getLsbD (31 - i) = false)
    ∧ (leadingZeros a < 32 → a.getLsbD (31 - leadingZeros a) = true) := by
  unfold leadingZeros
  cases hfind : (List.range 32).find? fun i => a.getLsbD (31 - i) with
  | none =>
    have hall := List.find?_eq_none.mp hfind
    refine ⟨Nat.le_refl _, fun i hi => ?_, fun h => absurd h (by decide)⟩
    exact Bool.eq_false_iff.mpr (hall i (List.mem_range.mpr hi))
  | some k =>
    obtain ⟨hk, hmem, hbefore⟩ := List.find?_range_eq_some.mp hfind
    refine ⟨Nat.le_of_lt (List.mem_range.mp hmem), fun i hi => ?_, fun _ => hk⟩
    simpa using hbefore i hi

end Sys2Proof.Laws
end

section
/-! The A unit (Table 20-4, R420, R436). -/

namespace Sys2Proof.Laws

open Sys2Proof Machine

/-- A saturating operation of the A unit, which takes registers alone. -/
theorem alu_writesSat {c : Instr} {o : Opc} {w : OpWord} {s : State} {n : Nat} {x : Int} (hc : exec c s = coreOp o w s)
    (halu : o.isAlu = true) (hlit : o.hasLit = false) (himm : o.hasImm = false) (h : IssuesAlone o w s)
    (hf : fetchable (seqPc w s.dev.core) = true)
    (hv : aluVal o w.mod.toNat (regVal s.dev.core w.d.toNat) (regVal s.dev.core w.a.toNat) (regVal s.dev.core w.b.toNat) =
      (BitVec.ofInt 32 (clampTo n x), decide (clampTo n x ≠ x))) : exec c s = .next (s.writesSat w n x) := by
  refine exec_writesSat hc h hf ?_ hv
  rw [evalOp_alu halu, aluEval, opB_reg (issuesAlone_wordOk h) hlit himm]

/-- A legal CMP has one of the six condition codes (Table 20-4). -/
theorem cmp_code {w : OpWord} (h : wordOk .cmp w = true) : w.mod.toNat % 8 ≤ 5 := by
  have hmod := (wordOk_parts h).2
  unfold modOk at hmod
  rw [if_neg (by simp), if_pos rfl] at hmod
  exact (of_decide_eq_true hmod).1

/-- A legal EXT has one of the four widths (Table 20-4). -/
theorem ext_width {w : OpWord} (h : wordOk .ext w = true) : w.mod.toNat < 4 := by
  have hmod := (wordOk_parts h).2
  unfold modOk at hmod
  rw [if_neg (by simp [lit_none h rfl])] at hmod
  exact of_decide_eq_true hmod

theorem abs_signed (a : Int) : (if a < 0 then -a else a) = max a (-a) := by
  split <;> omega

/-- Settles O50: each operation of the A unit leaves its value, the saturating ones hold their number. -/
theorem coreIntegerAndSaturating : Obligations.CoreIntegerAndSaturating := by
  unfold Obligations.CoreIntegerAndSaturating
  rintro s w a b hf rfl
  refine ⟨⟨fun v hv => ?literal, fun hno himm => ?immediate, fun hno hreg => ?register⟩, ?values, fun h => ?sel, fun h => ?clz,
    fun h => ?ext, ?saturating, fun h => ?negs, fun h => ?abss⟩
  case literal => simp only [opB, hv]
  case immediate => simp [opB, hno, opImm, himm, Opc.hasImm]
  case register => simp only [opB, hno, opImm, hreg, Bool.and_false, Bool.false_eq_true, if_false]
  case values =>
    rintro rfl
    refine ⟨fun h => alu_writesD rfl rfl h hf rfl, fun h => alu_writesD rfl rfl h hf rfl, fun h => alu_writesD rfl rfl h hf rfl,
      fun h => alu_writesD rfl rfl h hf rfl, fun h => alu_writesD rfl rfl h hf rfl, fun h => alu_writesD rfl rfl h hf rfl,
      fun h => alu_writesD rfl rfl h hf rfl, fun h => alu_writesD rfl rfl h hf ?cmp, fun h => alu_writesD rfl rfl h hf rfl,
      fun h => alu_writesD rfl rfl h hf rfl, fun h => alu_writesD rfl rfl h hf ?sar, fun h => alu_writesD rfl rfl h hf rfl,
      fun h => alu_writesD rfl rfl h hf ?min, fun h => alu_writesD rfl rfl h hf ?max, fun h => alu_writesD rfl rfl h hf ?minu,
      fun h => alu_writesD rfl rfl h hf ?maxu⟩
    case cmp => exact congrArg (·, false) (compares_eq (cmp_code (issuesAlone_wordOk h)) _ _)
    case sar => exact congrArg (·, false) (sshiftRight_eq_div _ _)
    case min => exact congrArg (·, false) (min_signed _ _)
    case max => exact congrArg (·, false) (max_signed _ _)
    case minu => exact congrArg (·, false) (min_unsigned _ _)
    case maxu => exact congrArg (·, false) (max_unsigned _ _)
  case sel =>
    refine alu_writesD rfl rfl h hf ?_
    rw [opB_reg (issuesAlone_wordOk h) rfl rfl]
    rfl
  case clz =>
    obtain ⟨hle, hzeros, hone⟩ := leadingZeros_spec (regVal s.dev.core w.a.toNat)
    exact ⟨_, hle, hzeros, hone, alu_writesD rfl rfl h hf rfl⟩
  case ext => exact alu_writesD rfl rfl h hf (congrArg (·, false) (extend_eq (ext_width (issuesAlone_wordOk h)) _))
  case saturating =>
    rintro rfl
    exact ⟨fun h => alu_writesSat rfl rfl rfl rfl h hf (satWord_eq _), fun h => alu_writesSat rfl rfl rfl rfl h hf (satWord_eq _),
      fun h => alu_writesSat rfl rfl rfl rfl h hf (satHalf_eq _), fun h => alu_writesSat rfl rfl rfl rfl h hf (satHalf_eq _)⟩
  case negs => exact alu_writesSat rfl rfl rfl rfl h hf (satWord_eq _)
  case abss =>
    refine alu_writesSat rfl rfl rfl rfl h hf ?_
    rw [← abs_signed]
    exact satWord_eq _

end Sys2Proof.Laws
end

section
/-! The M unit (Table 20-5, R419, R420). -/

namespace Sys2Proof.Laws

open Sys2Proof Machine

/-! ## Rounding (R420) -/

theorem two_pow_cast (n : Nat) : ((2 ^ n : Nat) : Int) = 2 ^ n := by push_cast; rfl

/-- Half up is the floor of the number and a half (R420). -/
theorem round_half_up (v m : Int) (hm : 0 < m) : (if m ≤ 2 * (v % m) then v / m + 1 else v / m) = (2 * v + m) / (m * 2) := by
  have hdiv : v % m + m * (v / m) = v := Int.emod_add_mul_ediv v m
  have hlow := Int.emod_nonneg v (Int.ne_of_gt hm)
  have hhigh := Int.emod_lt_of_pos v hm
  generalize v % m = r at *
  generalize v / m = q at *
  subst hdiv
  have htwice : m * 2 * q = 2 * (m * q) := by rw [Int.mul_comm m 2, Int.mul_assoc]
  split
  · have hnext : m * 2 * (q + 1) = 2 * (m * q) + m * 2 := by rw [Int.mul_add, htwice, Int.mul_one]
    exact ((Int.ediv_emod_unique (r := 2 * r - m) (by omega)).mpr ⟨by omega, by omega, by omega⟩).1.symm
  · exact ((Int.ediv_emod_unique (r := 2 * r + m) (by omega)).mpr ⟨by omega, by omega, by omega⟩).1.symm

theorem roundShift_spec (rnd : BitVec 2) (v : Int) (n : Nat) :
    (rnd = 0 → roundShift rnd v n = v / 2 ^ n) ∧ (rnd = 1 → roundShift rnd v n = (2 * v + 2 ^ n) / 2 ^ (n + 1))
    ∧ (2 ≤ rnd.toNat → 2 * (v - roundShift rnd v n * 2 ^ n).natAbs ≤ 2 ^ n
      ∧ (2 * (v - roundShift rnd v n * 2 ^ n).natAbs = 2 ^ n → roundShift rnd v n % 2 = 0)) := by
  have hm : (0 : Int) < 2 ^ n := Int.pow_pos (by decide)
  have hcast := two_pow_cast n
  unfold roundShift
  dsimp only
  refine ⟨fun h => if_pos h, fun h => ?_, fun h => ?_⟩
  · rw [h, if_neg (by decide), if_pos rfl, Int.pow_succ]
    exact round_half_up v _ hm
  · rw [if_neg (by rintro rfl; exact absurd h (by decide)), if_neg (by rintro rfl; exact absurd h (by decide))]
    have hdiv : v % 2 ^ n + 2 ^ n * (v / 2 ^ n) = v := Int.emod_add_mul_ediv v _
    have hlow := Int.emod_nonneg v (Int.ne_of_gt hm)
    have hhigh := Int.emod_lt_of_pos v hm
    generalize 2 ^ n = k at hcast ⊢
    generalize (2 : Int) ^ n = m at *
    have hdown : v - v / m * m = v % m := by rw [Int.mul_comm]; omega
    have hup : v - (v / m + 1) * m = v % m - m := by rw [Int.add_mul, Int.one_mul, Int.mul_comm]; omega
    generalize v % m = r at *
    generalize v / m = q at *
    split
    · rw [hup]
      omega
    · rw [hdown]
      omega

/-! ## The values of Table 20-5 -/

theorem mulh_eq (a b : Word) : BitVec.ofInt 32 (a.toInt * b.toInt / 4294967296) =
    (a.signExtend 64 * b.signExtend 64 : BitVec 64).extractLsb' 32 32 := by
  rw [BitVec.signExtend, BitVec.signExtend, ← BitVec.ofInt_mul]
  generalize a.toInt * b.toInt = p
  apply BitVec.eq_of_toNat_eq
  rw [BitVec.extractLsb'_toNat, BitVec.toNat_ofInt, BitVec.toNat_ofInt, Nat.shiftRight_eq_div_pow]
  omega

theorem mulhu_eq (a b : Word) : BitVec.ofNat 32 (a.toNat * b.toNat / 4294967296) =
    (a.setWidth 64 * b.setWidth 64 : BitVec 64).extractLsb' 32 32 := by
  have ha : a.toNat % 2 ^ 64 = a.toNat := Nat.mod_eq_of_lt (by omega)
  have hb : b.toNat % 2 ^ 64 = b.toNat := Nat.mod_eq_of_lt (by omega)
  apply BitVec.eq_of_toNat_eq
  rw [BitVec.extractLsb'_toNat, BitVec.toNat_ofNat, BitVec.toNat_mul, BitVec.toNat_setWidth, BitVec.toNat_setWidth, ha, hb,
    Nat.shiftRight_eq_div_pow]
  generalize a.toNat * b.toNat = p
  omega

theorem div_eq (a b : Word) : BitVec.ofInt 32 (a.toInt.tdiv b.toInt) = a.sdiv b :=
  BitVec.eq_of_toInt_eq (by rw [BitVec.toInt_ofInt, BitVec.toInt_sdiv])

theorem rem_eq (a b : Word) : BitVec.ofInt 32 (a.toInt.tmod b.toInt) = a.srem b := by
  rw [← BitVec.toInt_srem, BitVec.ofInt_toInt]

theorem divu_eq (a b : Word) : BitVec.ofNat 32 (a.toNat / b.toNat) = a / b := by
  rw [← BitVec.toNat_udiv, BitVec.ofNat_toNat, BitVec.setWidth_eq]

theorem remu_eq (a b : Word) : BitVec.ofNat 32 (a.toNat % b.toNat) = a % b := by
  rw [← BitVec.toNat_umod, BitVec.ofNat_toNat, BitVec.setWidth_eq]

/-- A number that 40 bits hold is not clamped. -/
theorem clampTo_acc {x : Int} (hlow : -549755813888 ≤ x) (hhigh : x < 549755813888) : clampTo 40 x = x := by
  have htop : (2 : Int) ^ (40 - 1) = 549755813888 := rfl
  rw [clampTo, htop]
  omega

theorem toInt_acc (x : Acc) : -549755813888 ≤ x.toInt ∧ x.toInt < 549755813888 := by
  have htop : (2 : Int) ^ (40 - 1) = 549755813888 := rfl
  have hlow := BitVec.le_toInt x
  have hhigh := BitVec.toInt_lt (x := x)
  rw [htop] at hlow hhigh
  exact ⟨hlow, hhigh⟩

/-- ACCSH to the right divides, rounding down. -/
theorem accShift_right (x : Acc) (n : Nat) : (x.sshiftRight n, false) =
    (BitVec.ofInt 40 (clampTo 40 (x.toInt / 2 ^ n)), decide (clampTo 40 (x.toInt / 2 ^ n) ≠ x.toInt / 2 ^ n)) := by
  obtain ⟨hlow, hhigh⟩ := toInt_acc x
  have hm : (0 : Int) < 2 ^ n := Int.pow_pos (by decide)
  have hscaled : (549755813888 : Int) * 1 ≤ 549755813888 * 2 ^ n := Int.mul_le_mul_of_nonneg_left hm (by decide)
  have hclamp : clampTo 40 (x.toInt / 2 ^ n) = x.toInt / 2 ^ n :=
    clampTo_acc (Int.le_ediv_of_mul_le hm (by omega)) (Int.ediv_lt_of_lt_mul hm (by omega))
  rw [hclamp, decide_eq_false (not_not_intro rfl), BitVec.sshiftRight, Int.shiftRight_eq_div_pow]
  norm_cast

/-! ## What an operation leaves in its accumulator (R419) -/

/-- An operation that writes an accumulator, with STATUS.AOV sticky. -/
theorem exec_acc {c : Instr} {o : Opc} {w : OpWord} {s : State} {v : Acc × Bool} (hc : exec c s = coreOp o w s)
    (h : IssuesAlone o w s) (hf : fetchable (seqPc w s.dev.core) = true)
    (he : evalOp (o, w) (wordLen w) s.dev = .ok (accEffect w.d.toNat v)) :
    exec c s = .next (s.advance w fun c => putAcc w.d.toNat v.1 { c with aov := c.aov || v.2 }) :=
  exec_advance (f := fun c => putAcc w.d.toNat v.1 { c with aov := c.aov || v.2 }) hc h hf he (issuesAlone_wait h)

/-- An operation that writes an accumulator with a number held to 40 bits. -/
theorem exec_writesAcc {c : Instr} {o : Opc} {w : OpWord} {s : State} {x : Int} {v : Acc × Bool} (hc : exec c s = coreOp o w s)
    (h : IssuesAlone o w s) (hf : fetchable (seqPc w s.dev.core) = true)
    (he : evalOp (o, w) (wordLen w) s.dev = .ok (accEffect w.d.toNat v))
    (hv : v = (BitVec.ofInt 40 (clampTo 40 x), decide (clampTo 40 x ≠ x))) : exec c s = .next (s.writesAcc w x) := by
  subst hv
  exact exec_acc hc h hf he

/-- ACCLD fits: it never saturates. -/
theorem accld_exec {w : OpWord} {s : State} (h : IssuesAlone .accld w s) (hf : fetchable (seqPc w s.dev.core) = true) :
    exec (.accld w) s = .next (s.advance w (putAcc w.d.toNat ((regVal s.dev.core w.a.toNat).signExtend 40))) := by
  generalize ha : regVal s.dev.core w.a.toNat = a
  have hlow := BitVec.le_toInt a
  have hhigh := BitVec.toInt_lt (x := a)
  have htop : (2 : Int) ^ (32 - 1) = 2147483648 := rfl
  rw [htop] at hlow hhigh
  have hfits : clampTo 40 a.toInt = a.toInt := clampTo_acc (by omega) (by omega)
  have hsat : satAcc a.toInt = (a.signExtend 40, false) := by
    rw [satAcc_eq, hfits, decide_eq_false (not_not_intro rfl)]
    rfl
  have hexec := exec_acc (c := .accld w) (v := satAcc (regVal s.dev.core w.a.toNat).toInt) rfl h hf rfl
  rw [ha, hsat] at hexec
  rw [hexec]
  simp only [State.advance, State.onCore, Dev.onCore, Bool.or_false]

theorem accShiftEffect_small {w : OpWord} {c : Core} (h : (opB .accsh w c).toNat ≤ 39) : accShiftEffect w c =
    accEffect w.d.toNat (accShift (w.mod.getLsbD 0) (accVal c w.a.toNat) (opB .accsh w c).toNat) := if_pos h

/-- A command whose operation acts on the device beside its core goes on with the next bundle. -/
theorem exec_device {c : Instr} {o : Opc} {w : OpWord} {s : State} {e : OpEffect} {x : Dev} (hc : exec c s = coreOp o w s)
    (h : IssuesAlone o w s) (hf : fetchable (seqPc w s.dev.core) = true) (he : evalOp (o, w) (wordLen w) s.dev = .ok e)
    (hx : foldDev (applyEffect s.dev) [e] (e.pre s.dev) = x) (hn : e.next = none) (hhand : x.fwu.hand = s.dev.fwu.hand)
    (hw : x.core.wait = none) : exec c s = .next { s with dev := x.onCore fun c => { c with pc := seqPc w s.dev.core } } := by
  have hpre : foldDev OpEffect.pre [e] s.dev = e.pre s.dev := rfl
  have hsame : sameImage s.dev x = true := decide_eq_true hhand
  rw [hc]
  simp only [coreOp, issueOp_alone h, runBundle_alone h, he, commitOps, hpre, hx, hsame, if_true, nextOf, hn, Option.getD_none,
    seqPc_eq, goTo_of_fetchable hf]
  rw [settleWait_of_none (d := x.onCore fun c => { c with pc := seqPc w s.dev.core }) hw]

theorem accsh_free {w : OpWord} {s : State} (h : IssuesAlone .accsh w s) (hf : fetchable (seqPc w s.dev.core) = true)
    (hbig : 39 < (opB .accsh w s.dev.core).toNat) : Leads (.accsh w) s fun d => d.free = s.dev.free + 1
      ∧ d.core.pc = seqPc w s.dev.core ∧ d.core.phys = s.dev.core.phys ∧ d.core.g = s.dev.core.g ∧ d.core.sat = s.dev.core.sat := by
  have he : evalOp (.accsh, w) (wordLen w) s.dev = .ok { act := fun d =>
      (accEffect w.d.toNat ((takeFree d).1.setWidth 40, (takeFree d).1.getLsbD 63)).act (takeFree d).2 } :=
    congrArg CoreOut.ok (if_neg (Nat.not_le.2 hbig))
  exact ⟨_, exec_device rfl h hf he (if_pos (decide_eq_true rfl)) rfl rfl (issuesAlone_wait h), rfl, rfl, rfl, rfl, rfl⟩

/-- Settles O51: products, quotients and remainders, accumulators held to 40 bits, and narrowing; that ACCSH above 39 leaves a free
value is the model's choice (log entry 5). -/
theorem coreMultiplyAndAccumulate : Obligations.CoreMultiplyAndAccumulate := by
  unfold Obligations.CoreMultiplyAndAccumulate
  rintro s w a b x y hf rfl rfl
  refine ⟨roundShift_spec, ?integer, ?products, fun h => accld_exec h hf, ?accadd, ?accsh, fun h => ?narq31, fun h => ?narq15⟩
  case integer =>
    rintro rfl
    refine ⟨fun h => alu_writesD rfl rfl h hf rfl, fun h => alu_writesD rfl rfl h hf ?mulh, fun h => alu_writesD rfl rfl h hf ?mulhu,
      fun h => alu_writesD rfl rfl h hf ?div, fun h => alu_writesD rfl rfl h hf ?divu, fun h => alu_writesD rfl rfl h hf ?rem,
      fun h => alu_writesD rfl rfl h hf ?remu⟩
    case mulh => exact congrArg (·, false) (mulh_eq _ _)
    case mulhu => exact congrArg (·, false) (mulhu_eq _ _)
    case div =>
      rw [← div_eq]
      rfl
    case divu =>
      rw [← divu_eq]
      rfl
    case rem =>
      rw [← rem_eq]
      rfl
    case remu =>
      rw [← remu_eq]
      rfl
  case products =>
    rintro rfl rfl
    refine ⟨fun h => exec_writesAcc rfl h hf rfl (satAcc_eq _), fun h => exec_writesAcc rfl h hf rfl (satAcc_eq _),
      fun h => exec_writesAcc rfl h hf rfl (satAcc_eq _), fun h => exec_writesAcc rfl h hf rfl (satAcc_eq _),
      fun h => exec_writesAcc rfl h hf rfl (satAcc_eq _), fun h => exec_writesSat rfl h hf rfl (satWord_eq _),
      fun h => exec_writesD rfl h hf ?mulaf⟩
    rw [Int.mul_comm _ (2147483648 : Int), ← Int.emod_def]
    rfl
  case accadd =>
    rintro rfl h
    exact exec_writesAcc rfl h hf rfl (satAcc_eq _)
  case accsh =>
    rintro rfl h
    refine ⟨fun hsmall hright => ?_, fun hsmall hleft => ?_, fun hbig => accsh_free h hf hbig⟩
    · refine exec_writesAcc rfl h hf (congrArg CoreOut.ok (accShiftEffect_small hsmall)) ?_
      rw [hright]
      exact accShift_right _ _
    · refine exec_writesAcc rfl h hf (congrArg CoreOut.ok (accShiftEffect_small hsmall)) ?_
      rw [hleft]
      exact satAcc_eq _
  case narq31 => exact exec_writesSat rfl h hf rfl (satWord_eq _)
  case narq15 => exact exec_writesSat rfl h hf rfl (satHalf_eq _)

end Sys2Proof.Laws
end

section
/-! The B unit: branches, calls, returns, traps and the special registers (R415 to R418, R426, R428, R439, R440). -/

namespace Sys2Proof.Laws

open Sys2Proof Machine

/-! ## Branches, calls and returns (R415 to R418, R440) -/

/-- A taken branch to an aligned place that can be fetched. -/
theorem exec_jump {c : Instr} {o : Opc} {w : OpWord} {s : State} {t : Word} (f : Core → Core) (hc : exec c s = coreOp o w s)
    (h : IssuesAlone o w s) (he : evalOp (o, w) (wordLen w) s.dev = branchTo t fun d => d.onCore f) (h4 : t.toNat % 4 = 0)
    (ht : fetchable t = true) (hw : (f s.dev.core).wait = none) (hiram : (f s.dev.core).iram = s.dev.core.iram) :
    exec c s = .next (s.jump t f) := by
  have hok : evalOp (o, w) (wordLen w) s.dev =
      .ok { act := fun d => d.onCore fun c => { f c with iramFetch := (f c).iram }, next := some t } := by
    rw [he]
    exact if_neg (not_not_intro h4)
  rw [exec_onCore (t := t) hc h hok rfl ht hw]
  unfold State.jump State.onCore Dev.onCore
  dsimp only
  rw [hiram]

/-- A branch taken under a condition, else the next bundle. -/
theorem exec_branchIf {c : Instr} {o : Opc} {w : OpWord} {s : State} {t : Word} {b : Bool} (hc : exec c s = coreOp o w s)
    (h : IssuesAlone o w s) (hf : fetchable (seqPc w s.dev.core) = true)
    (he : evalOp (o, w) (wordLen w) s.dev = branchIf b t id) (h4 : t.toNat % 4 = 0) (ht : fetchable t = true) :
    exec c s = .next (if b then s.jump t id else s.advance w id) := by
  cases b with
  | true => exact exec_jump id hc h he h4 ht (issuesAlone_wait h) rfl
  | false => exact exec_advance (f := id) hc h hf he (issuesAlone_wait h)

/-- A call with a free window and a place on the return stack. -/
theorem exec_call {c : Instr} {o : Opc} {w : OpWord} {s : State} {t : Word} (hc : exec c s = coreOp o w s) (h : IssuesAlone o w s)
    (he : evalOp (o, w) (wordLen w) s.dev = callEval t (s.dev.core.pc + BitVec.ofNat 32 (wordLen w)) s.dev.core)
    (h4 : t.toNat % 4 = 0) (ht : fetchable t = true) (hwin : s.dev.core.wres.toNat < 9)
    (hplace : s.dev.core.rsCnt.toNat < 16 ∨ s.dev.core.rswrap = true) :
    exec c s = .next (s.jump t fun c => rsPush (seqPc w s.dev.core) { c with cwb := c.cwb + 24, wres := c.wres + 1 }) := by
  have hfull : ¬(s.dev.core.rsCnt.toNat = 16 ∧ s.dev.core.rswrap = false) := by
    rintro ⟨hcnt, hwrap⟩
    rcases hplace with hfree | hon
    · omega
    · exact absurd (hwrap.symm.trans hon) (by decide)
  refine exec_jump _ hc h ?_ h4 ht (issuesAlone_wait h) rfl
  rw [he, seqPc_eq, callEval, if_neg (not_not_intro h4), if_neg (Nat.not_le.2 hwin), if_neg hfull]

/-- A return with a window to go back to and an address to go to. -/
theorem ret_exec {w : OpWord} {s : State} (h : IssuesAlone .ret w s)
    (h4 : (spGet 0 s.dev.core.rs s.dev.core.rsTop.toNat).toNat % 4 = 0)
    (ht : fetchable (spGet 0 s.dev.core.rs s.dev.core.rsTop.toNat) = true) (hwin : 2 ≤ s.dev.core.wres.toNat)
    (hheld : s.dev.core.rsCnt ≠ 0 ∨ s.dev.core.rswrap = true) :
    exec (.ret w) s = .next (s.jump (spGet 0 s.dev.core.rs s.dev.core.rsTop.toNat) fun c =>
      rsPop { c with cwb := c.cwb - 24, wres := c.wres - 1 }) := by
  have hempty : (decide (s.dev.core.rsCnt = 0) && !s.dev.core.rswrap) = false := by
    rcases hheld with hcnt | hon
    · rw [decide_eq_false hcnt, Bool.false_and]
    · rw [hon]
      exact Bool.and_false _
  refine exec_jump _ rfl h ?_ h4 ht (issuesAlone_wait h) rfl
  show retEval s.dev.core = _
  simp only [retEval, hempty, h4, ne_eq, not_true_eq_false, false_and, if_false, if_neg (Nat.not_le.2 hwin), Bool.false_eq_true]

theorem bltz_msb (a : Word) : decide (a.toInt < 0) = a.msb := (BitVec.msb_eq_toInt).symm

theorem bgez_msb (a : Word) : decide (0 ≤ a.toInt) = !a.msb := by
  rw [← bltz_msb, ← decide_not]
  exact decide_eq_decide.mpr Int.not_lt.symm

/-! ## Traps of the B unit (R416 to R418, R426, R428, R440) -/

/-- A trap without a value, outside a handler. -/
theorem leads_enters {c : Instr} {o : Opc} {w : OpWord} {s : State} {k : Nat} {v : Option Word} (hc : exec c s = coreOp o w s)
    (h : IssuesAlone o w s) (hth : s.dev.core.th = false) (he : evalOp (o, w) (wordLen w) s.dev = .trap k v) (hk : k ≠ 8 ∧ k ≠ 9) :
    Leads c s (Enters k s.dev.core.pc s) := by
  have hpc : trapPc k (wordLen w) s.dev = s.dev.core.pc := if_neg (not_or.mpr hk)
  refine leads_trap hc h he ?_
  rw [hpc]
  exact (syncTrap_enters_val v hth).1

/-- The same with its value in TVAL. -/
theorem leads_enters_val {c : Instr} {o : Opc} {w : OpWord} {s : State} {k : Nat} {v : Word} (hc : exec c s = coreOp o w s)
    (h : IssuesAlone o w s) (hth : s.dev.core.th = false) (he : evalOp (o, w) (wordLen w) s.dev = .trap k (some v))
    (hk : k ≠ 8 ∧ k ≠ 9) : Leads c s fun d => Enters k s.dev.core.pc s d ∧ d.core.tval = v := by
  have hpc : trapPc k (wordLen w) s.dev = s.dev.core.pc := if_neg (not_or.mpr hk)
  refine leads_trap hc h he ?_
  rw [hpc]
  exact (syncTrap_enters_val (some v) hth).imp_right fun hval => hval v rfl

/-- BREAK and SYSCALL return behind themselves. -/
theorem leads_enters_behind {c : Instr} {o : Opc} {w : OpWord} {s : State} {k : Nat} (hc : exec c s = coreOp o w s)
    (h : IssuesAlone o w s) (hth : s.dev.core.th = false) (he : evalOp (o, w) (wordLen w) s.dev = .trap k none)
    (hk : k = 8 ∨ k = 9) : Leads c s (Enters k (seqPc w s.dev.core) s) := by
  have hpc : trapPc k (wordLen w) s.dev = seqPc w s.dev.core := (if_pos hk).trans (seqPc_eq w s.dev.core)
  refine leads_trap hc h he ?_
  rw [hpc]
  exact (syncTrap_enters_val none hth).1

theorem syncTrap_wait (k : Nat) (tpc : Word) (v : Option Word) (d : Dev) : (syncTrap k tpc v d).core.wait = d.core.wait := by
  unfold syncTrap
  dsimp only
  split
  · rfl
  · cases v <;> rfl

/-- A branch to a place that cannot be fetched traps there (R440). -/
theorem leads_unfetchable {c : Instr} {o : Opc} {w : OpWord} {s : State} {t : Word} (hc : exec c s = coreOp o w s)
    (h : IssuesAlone o w s) (hth : s.dev.core.th = false) (he : evalOp (o, w) (wordLen w) s.dev = branchTo t id)
    (h4 : t.toNat % 4 = 0) (ht : fetchable t = false) : Leads c s fun d => Enters 3 t s d ∧ d.core.tval = t := by
  have hok : evalOp (o, w) (wordLen w) s.dev = .ok { act := fun d => syncFetch (id d), next := some t } := by
    rw [he]
    exact if_neg (not_not_intro h4)
  obtain ⟨henters, hval⟩ := syncTrap_enters_val (k := 3) (tpc := t)
    (s := s.onCore fun c => { c with iramFetch := c.iram, pc := t }) (some t) hth
  have hact : foldDev (applyEffect s.dev) [{ act := fun d => syncFetch (id d), next := some t }] s.dev = syncFetch s.dev :=
    if_pos (decide_eq_true rfl)
  have hgo : goTo t (syncFetch s.dev) = syncTrap 3 t (some t) (s.onCore fun c => { c with iramFetch := c.iram, pc := t }).dev :=
    if_neg (Bool.eq_false_iff.mp ht)
  have hwait : (syncTrap 3 t (some t) (s.onCore fun c => { c with iramFetch := c.iram, pc := t }).dev).core.wait = none :=
    (syncTrap_wait ..).trans (issuesAlone_wait h)
  refine leads_of_issueOp hc ?_ ⟨henters, hval t rfl⟩
  rw [issueOp_alone h, runBundle_alone h, hok, ← settleWait_of_none hwait, ← hgo, ← hact]
  exact congrArg Except.ok (if_pos (hact ▸ decide_eq_true rfl))

/-- A word that breaks a rule of R434 to R436 is ILLEGAL. -/
theorem leads_illegal {c : Instr} {o : Opc} {w : OpWord} {s : State} (hc : exec c s = coreOp o w s) (hrun : s.dev.core.run = true)
    (hwait : s.dev.core.wait = none) (hwd : s.dev.core.wdNow = false) (hempty : s.dev.core.bundle = []) (hstop : w.stop = true)
    (hth : s.dev.core.th = false) (hbad : wordOk o w = false) : Leads c s (Enters 1 s.dev.core.pc s) := by
  have hill : bundleOk [(o, w)] = false := by simp [bundleOk, hbad]
  have hissue : issueOp o w s.dev = .ok (syncTrap 1 s.dev.core.pc none (s.dev.onCore fun c => { c with bundle := [] })) := by
    rw [issueOp_of_stop hrun hwait hwd hstop, hempty]
    exact runBundle_of_illegal hill
  exact leads_of_issueOp hc hissue (syncTrap_enters_val (s := s.onCore fun c => { c with bundle := [] }) none hth).1

/-- A trap in a handler calls the watchdog and enters nothing (R428). -/
theorem leads_watchdog {w : OpWord} {s : State} (h : IssuesAlone .syscall w s) (hth : s.dev.core.th = true) :
    Leads (.syscall w) s fun d => d.core.wdNow = true ∧ d.core.pc = s.dev.core.pc ∧ d.core.tpc = s.dev.core.tpc
      ∧ d.core.cwb = s.dev.core.cwb := by
  refine leads_trap rfl h rfl ?_
  simp [syncTrap, hth]

/-! ## The special registers (R418, R439, Table 19-4) -/

theorem mfs_writesD {w : OpWord} {s : State} (h : IssuesAlone .mfs w s) (hf : fetchable (seqPc w s.dev.core) = true)
    (ha : w.a ≠ 9) : exec (.mfs w) s = .next (s.writesD w (specialVal w.a.toNat s.dev)) :=
  exec_advance (f := putReg s.dev.core.cwb w.d.toNat (specialVal w.a.toNat s.dev)) rfl h hf (congrArg CoreOut.ok (if_neg ha))
    ((putReg_wait ..).trans (issuesAlone_wait h))

/-- MFS of RSBOT takes the oldest return address out. -/
theorem mfs_rsBot {w : OpWord} {s : State} (h : IssuesAlone .mfs w s) (hf : fetchable (seqPc w s.dev.core) = true)
    (ha : w.a = 9) (hheld : s.dev.core.rsCnt ≠ 0) : Leads (.mfs w) s fun d =>
      d.core.rsCnt = s.dev.core.rsCnt - 1 ∧ d.core.rsTop = s.dev.core.rsTop ∧ d.core.cwb = s.dev.core.cwb
      ∧ d.core.wres = s.dev.core.wres ∧ d.core.pc = seqPc w s.dev.core := by
  have hread : mfsEval w s.dev = readRsBot w s.dev.core := if_pos ha
  have hexec := exec_advance (c := .mfs w) rfl h hf (congrArg CoreOut.ok (hread.trans (if_neg hheld)))
    ((putReg_wait ..).trans (issuesAlone_wait h))
  exact ⟨_, hexec, putReg_rsCnt .., putReg_rsTop .., putReg_cwb .., putReg_wres .., rfl⟩

theorem putSpecial_wait (n : Nat) (v : Word) (d : Dev) : (putSpecial n v d).core.wait = d.core.wait := by
  unfold putSpecial
  split
  case h_7 =>
    unfold putRsBot Dev.onCore
    dsimp only
    split <;> rfl
  all_goals rfl

theorem putSpecial_hand (n : Nat) (v : Word) (d : Dev) : (putSpecial n v d).fwu.hand = d.fwu.hand := by
  unfold putSpecial
  split <;> rfl

/-- MTS of a register that takes the value. -/
theorem exec_mts {w : OpWord} {s : State} (h : IssuesAlone .mts w s) (hf : fetchable (seqPc w s.dev.core) = true)
    (hok : ¬(w.d = 7 ∧ (s.dev.core.th = false ∨ (regVal s.dev.core w.b.toNat).toNat < 1
      ∨ 10 < (regVal s.dev.core w.b.toNat).toNat))) :
    exec (.mts w) s = .next { s with dev := (putSpecial w.d.toNat (regVal s.dev.core w.b.toNat) s.dev).onCore fun c =>
      { c with pc := seqPc w s.dev.core } } := by
  have hhand := putSpecial_hand w.d.toNat (regVal s.dev.core w.b.toNat) s.dev
  exact exec_device rfl h hf (if_neg hok) (if_pos (decide_eq_true hhand)) rfl hhand
    ((putSpecial_wait ..).trans (issuesAlone_wait h))

/-- MTS of a register other than WRES, whose number is `k`. -/
theorem exec_mts_at {w : OpWord} {s : State} {f : Core → Core} (k : Nat) (h : IssuesAlone .mts w s)
    (hf : fetchable (seqPc w s.dev.core) = true) (hk : w.d.toNat = k) (hne : w.d ≠ 7)
    (hput : putSpecial k (regVal s.dev.core w.b.toNat) s.dev = s.dev.onCore f) : exec (.mts w) s = .next (s.advance w f) := by
  rw [exec_mts h hf fun hwres => hne hwres.1, hk, hput]
  rfl

theorem testBit_b2n (b : Bool) (i : Nat) : (b2n b).testBit i = (b && decide (i = 0)) := by
  cases b with
  | false => exact Nat.zero_testBit i
  | true => exact (Nat.testBit_two_pow (n := 0) (m := i)).trans (decide_eq_decide.mpr eq_comm)

theorem testBit_evrWord (d : Dev) (i : Nat) :
    (evrWord d).testBit i = (d.core.evr.getLsbD i || (d.p0.sig && decide (i = 1) || d.p1.sig && decide (i = 2))) := by
  have hone : (decide (1 ≤ i) && decide (i - 1 = 0)) = decide (i = 1) := by grind
  have htwo : (decide (2 ≤ i) && decide (i - 2 = 0)) = decide (i = 2) := by grind
  simp only [evrWord, pack, Nat.testBit_or, Nat.testBit_shiftLeft, testBit_b2n, Nat.zero_testBit, Bool.or_false, ge_iff_le,
    Bool.and_left_comm (decide (_ ≤ i)), hone, htwo, BitVec.testBit_toNat]

/-- MTS of EVR clears the events whose bits are 1. -/
theorem evrWord_clearEvr (v : Word) (d : Dev) (i : Nat) :
    (evrWord (clearEvr (v.toNat % 32) d)).testBit i = ((evrWord d).testBit i && !v.getLsbD i) := by
  have hmask (j : Nat) (hj : j < 5) : (v.toNat % 32).testBit j = v.getLsbD j := by
    have hmod := Nat.testBit_mod_two_pow v.toNat 5 j
    rwa [decide_eq_true hj, Bool.true_and, BitVec.testBit_toNat] at hmod
  have hevr : (d.core.evr &&& ~~~BitVec.ofNat 5 (v.toNat % 32)).getLsbD i = (d.core.evr.getLsbD i && !v.getLsbD i) := by
    by_cases hi : i < 5
    · rw [BitVec.getLsbD_and, BitVec.getLsbD_not, BitVec.getLsbD_ofNat, hmask i hi, decide_eq_true hi, Bool.true_and, Bool.true_and]
    · simp [BitVec.getLsbD_of_ge _ i (Nat.not_lt.mp hi)]
  have hp0 : bit (v.toNat % 32) 1 = v.getLsbD 1 := hmask 1 (by decide)
  have hp1 : bit (v.toNat % 32) 2 = v.getLsbD 2 := hmask 2 (by decide)
  rw [testBit_evrWord, testBit_evrWord]
  simp only [clearEvr, hevr, hp0, hp1]
  grind

/-- Settles O54: branches, calls, returns, traps and special registers; that a return on RSWRAP with nothing held takes the
pointer's slot (log entry 33) and what TRET does outside a handler (log entry 34) are the model's choice. -/
theorem coreControl : Obligations.CoreControl := by
  unfold Obligations.CoreControl
  rintro s w a t r hf rfl rfl
  refine ⟨fun ht h4 => ?taken, fun hth => ?traps, fun hth h => leads_watchdog h hth,
    fun h => exec_advance (f := id) rfl h hf rfl (issuesAlone_wait h),
    fun h => exec_advance (f := fun c => { c with iramFetch := c.iram }) rfl h hf rfl (issuesAlone_wait h),
    fun h => ⟨mfs_writesD h hf, mfs_rsBot h hf⟩, ?mts⟩
  case taken =>
    refine ⟨?br, ?cond, ?jr, fun hwin hplace => ⟨?call, ?callr⟩, ?ret, ?tret⟩
    case br =>
      rintro rfl h
      exact exec_jump id rfl h rfl h4 ht (issuesAlone_wait h) rfl
    case cond =>
      rintro rfl
      refine ⟨fun h => ?bz, fun h => ?bnz, fun h => ?bltz, fun h => ?bgez⟩
      case bz => simpa only [decide_eq_true_eq] using exec_branchIf (c := .bz w) rfl h hf rfl h4 ht
      case bnz => simpa only [decide_eq_true_eq] using exec_branchIf (c := .bnz w) (t := branchTarget .bz w s.dev.core) rfl h hf rfl h4 ht
      case bltz => exact exec_branchIf rfl h hf (congrArg (branchIf · _ id) (bltz_msb _)) h4 ht
      case bgez =>
        rw [← ite_not]
        simpa using exec_branchIf (c := .bgez w) rfl h hf (congrArg (branchIf · (branchTarget .bz w s.dev.core) id) (bgez_msb _)) h4 ht
    case jr =>
      rintro rfl h
      exact exec_jump id rfl h rfl h4 ht (issuesAlone_wait h) rfl
    case call =>
      rintro rfl h
      exact exec_call rfl h rfl h4 ht hwin hplace
    case callr =>
      rintro rfl h
      exact exec_call rfl h rfl h4 ht hwin hplace
    case ret =>
      rintro rfl hwin hheld h
      exact ret_exec h h4 ht hwin hheld
    case tret =>
      rintro rfl h
      exact exec_jump _ rfl h rfl h4 ht (issuesAlone_wait h) rfl
  case traps =>
    refine ⟨?br, fun h4 h => ⟨fun hwin => ?window, fun hwin hfull hoff => ?full⟩,
      fun h4 h => ⟨fun hwin => ?bottom, fun hwin hempty hoff => ?nothing⟩, fun h => leads_enters_behind rfl h hth rfl (.inl rfl),
      fun h => leads_enters_behind rfl h hth rfl (.inr rfl), fun hrun hwait hwd hempty hstop hbad =>
        leads_illegal rfl hrun hwait hwd hempty hstop hth hbad⟩
    case br =>
      rintro rfl h
      exact ⟨fun hmis => leads_enters_val rfl h hth (if_pos hmis) (by decide), leads_unfetchable rfl h hth rfl⟩
    case window => exact leads_enters rfl h hth ((if_neg (not_not_intro h4)).trans (if_pos hwin)) (by decide)
    case full =>
      refine leads_enters rfl h hth
        ((if_neg (not_not_intro h4)).trans ((if_neg (Nat.not_le.2 hwin)).trans (if_pos ⟨?_, hoff⟩))) (by decide)
      rw [hfull]
      rfl
    case bottom =>
      exact leads_enters rfl h hth ((if_neg fun hmis => hmis.1 h4).trans (if_pos hwin)) (by decide)
    case nothing =>
      refine leads_enters rfl h hth
        ((if_neg fun hmis => hmis.1 h4).trans ((if_neg (Nat.not_le.2 hwin)).trans (if_pos ?_))) (by decide)
      rw [decide_eq_true hempty, hoff]
      rfl
  case mts =>
    rintro h v rfl
    refine ⟨fun hd => ?config, fun hd => ?status, fun hd => ?tpc, fun hd => ?tvec, fun hd => ?ien, fun hd => ?readOnly,
      fun hd hth hlow hhigh => ?wres, fun hd hth => ?noHandler, fun hd => ?evr⟩
    case config => exact exec_mts_at 0 h hf (by rw [hd]; rfl) (by rw [hd]; decide) rfl
    case status => exact exec_mts_at 1 h hf (by rw [hd]; rfl) (by rw [hd]; decide) rfl
    case tpc => exact exec_mts_at 2 h hf (by rw [hd]; rfl) (by rw [hd]; decide) rfl
    case tvec => exact exec_mts_at 5 h hf (by rw [hd]; rfl) (by rw [hd]; decide) rfl
    case ien => exact exec_mts_at 10 h hf (by rw [hd]; rfl) (by rw [hd]; decide) rfl
    case readOnly =>
      have hkeep : putSpecial w.d.toNat (regVal s.dev.core w.b.toNat) s.dev = s.dev.onCore id := by
        simp only [List.mem_cons, List.not_mem_nil, or_false] at hd
        obtain hk | hk | hk | hk := hd <;> rw [hk] <;> rfl
      exact exec_mts_at _ h hf rfl (fun hwres => by rw [hwres] at hd; exact absurd hd (by decide)) hkeep
    case wres =>
      have hok : ¬(w.d = 7 ∧ (s.dev.core.th = false ∨ (regVal s.dev.core w.b.toNat).toNat < 1
          ∨ 10 < (regVal s.dev.core w.b.toNat).toNat)) := by
        rintro ⟨-, hoff | hzero | habove⟩
        · exact absurd (hth.symm.trans hoff) (by decide)
        · omega
        · omega
      rw [exec_mts h hf hok, hd]
      rfl
    case noHandler =>
      exact leads_enters rfl h hth (if_pos ⟨hd, .inl hth⟩) (by decide)
    case evr =>
      refine ⟨_, exec_mts h hf (fun hwres => absurd (hd.symm.trans hwres.1) (by decide)), fun i => ?_, rfl⟩
      rw [hd]
      exact evrWord_clearEvr _ _ i

end Sys2Proof.Laws
end

section
/-! Waits, events, interrupts and the commands that signal (R426, R427, R429, R446, R447). -/

namespace Sys2Proof.Laws

open Sys2Proof Machine

theorem next_dev {s : State} {d x : Dev} (h : d = x) : (.next { s with dev := d } : Answer) = .next { s with dev := x } := by
  rw [h]

/-! ## Waits (R429, R446, R447) -/

/-- An operation that stays at its place and begins a wait, which may end at once. -/
theorem exec_wait {c : Instr} {o : Opc} {w : OpWord} {s : State} {f : Core → Core} (hc : exec c s = coreOp o w s)
    (h : IssuesAlone o w s) (hp : fetchable s.dev.core.pc = true)
    (he : evalOp (o, w) (wordLen w) s.dev = .ok { act := fun d => d.onCore f, next := some s.dev.core.pc })
    (hpc : (f s.dev.core).pc = s.dev.core.pc) : exec c s = .next { s with dev := settleWait (s.dev.onCore f) } := by
  have hact : foldDev (applyEffect s.dev) [{ act := fun d => d.onCore f, next := some s.dev.core.pc }] s.dev = s.dev.onCore f :=
    if_pos (decide_eq_true rfl)
  have hstay : goTo s.dev.core.pc (s.dev.onCore f) = s.dev.onCore f := by
    rw [goTo_of_fetchable hp, ← hpc]
    rfl
  have hcommit : commitOps (wordLen w) [{ act := fun d => d.onCore f, next := some s.dev.core.pc }] s.dev
      = settleWait (s.dev.onCore f) := by
    rw [← hstay, ← hact]
    exact if_pos (hact ▸ decide_eq_true rfl)
  rw [hc]
  simp only [coreOp, issueOp_alone h, runBundle_alone h, he, hcommit]

/-- EWAIT takes the selected events that are there. -/
theorem settleWait_ewait_taken {d : Dev} {f : BitVec 6} {m : Byte} {n : Nat} (hw : d.core.wait = some (.ewait f m n))
    (hsel : evrWord d &&& m.toNat &&& 31 ≠ 0) (ht : fetchable (d.core.pc + BitVec.ofNat 32 n) = true) :
    settleWait d = (clearEvr (evrWord d &&& m.toNat &&& 31) (d.onCore fun c =>
      putReg c.cwb f.toNat (BitVec.ofNat 32 (evrWord d &&& m.toNat &&& 31)) { c with wait := none })).onCore
        fun c => { c with pc := d.core.pc + BitVec.ofNat 32 n } := by
  rw [← goTo_of_fetchable ht]
  simp only [settleWait, hw, if_neg hsel]

theorem settleWait_ewait_waits {d : Dev} {f : BitVec 6} {m : Byte} {n : Nat} (hw : d.core.wait = some (.ewait f m n))
    (hsel : evrWord d &&& m.toNat &&& 31 = 0) : settleWait d = d := by
  simp only [settleWait, hw, if_pos hsel]

/-- WAITUNTIL goes on once its time is reached. -/
theorem settleWait_until_reached {d : Dev} {t : Word} {n : Nat} (hw : d.core.wait = some (.until_ t n)) (hr : reached d t = true)
    (ht : fetchable (d.core.pc + BitVec.ofNat 32 n) = true) :
    settleWait d = d.onCore fun c => { c with wait := none, pc := d.core.pc + BitVec.ofNat 32 n } := by
  simp only [settleWait, hw, if_pos hr, goTo_of_fetchable ht]
  rfl

theorem settleWait_until_waits {d : Dev} {t : Word} {n : Nat} (hw : d.core.wait = some (.until_ t n)) (hr : reached d t = false) :
    settleWait d = d := by
  simp only [settleWait, hw, hr, Bool.false_eq_true, if_false]

theorem wait_none_eta {c : Core} (h : c.wait = none) : { c with wait := none } = c := by
  rw [← h]

/-- An EWAIT that has begun. -/
theorem exec_ewait {w : OpWord} {s : State} {m : Word} (h : IssuesAlone .ewait w s) (hp : fetchable s.dev.core.pc = true)
    (hm : m = regVal s.dev.core w.a.toNat) (hmask : m.toNat % 32 ≠ 0 ∨ m.getLsbD 7 = true) :
    exec (.ewait w) s = .next { s with dev := settleWait (s.dev.onCore fun c =>
      { c with wait := some (.ewait w.d (m.setWidth 8) (wordLen w)) }) } := by
  have hlegal : ¬(m.toNat % 32 = 0 ∧ m.getLsbD 7 = false) := by
    rintro ⟨hnone, hoff⟩
    rcases hmask with hsome | hon
    · exact hsome hnone
    · exact absurd (hon.symm.trans hoff) (by decide)
  subst hm
  exact exec_wait rfl h hp (if_neg hlegal) rfl

/-- EWAIT with an event there. -/
theorem ewait_takes {w : OpWord} {s : State} {m : Word} {x : Nat} (h : IssuesAlone .ewait w s)
    (hf : fetchable (seqPc w s.dev.core) = true) (hp : fetchable s.dev.core.pc = true) (hm : m = regVal s.dev.core w.a.toNat)
    (hmask : m.toNat % 32 ≠ 0 ∨ m.getLsbD 7 = true) (hsel : evrWord s.dev &&& (m.setWidth 8).toNat &&& 31 ≠ 0)
    (hx : x = evrWord s.dev &&& (m.setWidth 8).toNat &&& 31) :
    exec (.ewait w) s = .next { s with dev := clearEvr x (s.writesD w (BitVec.ofNat 32 x)).dev } := by
  have hgo := (congrArg fetchable (seqPc_eq w s.dev.core)).trans hf
  have hsettle := settleWait_ewait_taken (d := s.dev.onCore fun c =>
    { c with wait := some (.ewait w.d (m.setWidth 8) (wordLen w)) }) rfl hsel hgo
  have hsame : evrWord (s.dev.onCore fun c => { c with wait := some (.ewait w.d (m.setWidth 8) (wordLen w)) }) = evrWord s.dev := rfl
  have heta := wait_none_eta (issuesAlone_wait h)
  rw [exec_ewait h hp hm hmask, hsettle, hsame, ← hx]
  simp only [Dev.onCore, heta, seqPc_eq]
  rfl

/-- WAITUNTIL writes the compare register. -/
theorem exec_waituntil {w : OpWord} {s : State} {t : Word} (h : IssuesAlone .waituntil w s) (hp : fetchable s.dev.core.pc = true)
    (hlit : ∀ v, w.lit = some v → t = v) (hreg : w.lit = none → t = regVal s.dev.core w.a.toNat) :
    exec (.waituntil w) s = .next { s with dev := settleWait (s.dev.onCore fun c =>
      { setCompare t c with wait := some (.until_ t (wordLen w)) }) } := by
  have htarget : (match w.lit with | some v => v | none => regVal s.dev.core w.a.toNat) = t := by
    cases hl : w.lit with
    | some v => exact (hlit v hl).symm
    | none => exact (hreg hl).symm
  subst htarget
  exact exec_wait rfl h hp rfl rfl

theorem waituntil_goes {w : OpWord} {s : State} {t : Word} (h : IssuesAlone .waituntil w s)
    (hf : fetchable (seqPc w s.dev.core) = true) (hp : fetchable s.dev.core.pc = true) (hlit : ∀ v, w.lit = some v → t = v)
    (hreg : w.lit = none → t = regVal s.dev.core w.a.toNat) (hr : reached s.dev t = true) :
    exec (.waituntil w) s = .next (s.advance w (setCompare t)) := by
  have hgo := (congrArg fetchable (seqPc_eq w s.dev.core)).trans hf
  have hsettle := settleWait_until_reached (d := s.dev.onCore fun c =>
    { setCompare t c with wait := some (.until_ t (wordLen w)) }) rfl hr hgo
  have hadvance : s.advance w (setCompare t) = s.onCore fun c =>
      { setCompare t c with wait := none, pc := s.dev.core.pc + BitVec.ofNat 32 (wordLen w) } := by
    have heta := wait_none_eta (c := setCompare t s.dev.core) (issuesAlone_wait h)
    simp only [State.advance, State.onCore, Dev.onCore, seqPc_eq]
    rw [← heta]
  rw [exec_waituntil h hp hlit hreg, hsettle, hadvance]
  rfl

/-! ## Events and interrupts (R426, R427, R429) -/

theorem epost_self (evr : BitVec 5) (m : Word) : evr ||| (m.setWidth 5 &&& 1) = if m.getLsbD 0 then evr ||| 1 else evr := by
  have hbit : m.setWidth 5 &&& (1 : BitVec 5) = if m.getLsbD 0 then 1 else 0 := by
    refine (BitVec.and_one_eq_setWidth_ofBool_getLsbD (x := m.setWidth 5)).trans ?_
    rw [BitVec.getLsbD_setWidth]
    cases m.getLsbD 0 <;> rfl
  rw [hbit]
  split <;> simp

theorem epost_posts {w : OpWord} {s : State} {m : Word} (h : IssuesAlone .epost w s) (hf : fetchable (seqPc w s.dev.core) = true)
    (hm : m = regVal s.dev.core w.a.toNat) (hlow : m.toNat < 16) :
    exec (.epost w) s = .next (s.advance w fun c => { c with
      evr := if m.getLsbD 0 then c.evr ||| 1 else c.evr, pe0In := c.pe0In || m.getLsbD 1, pe1In := c.pe1In || m.getLsbD 2
      dmaIn := c.dmaIn || m.getLsbD 3 }) := by
  subst hm
  simp only [← epost_self]
  exact exec_advance rfl h hf (if_neg (Nat.not_le.2 hlow)) (issuesAlone_wait h)

theorem takeSource_phys (k : Nat) (c : Core) : (takeSource k c).phys = c.phys := by
  unfold takeSource
  split <;> rfl

theorem takeSource_wait (k : Nat) (c : Core) : (takeSource k c).wait = c.wait := by
  unfold takeSource
  split <;> rfl

/-- An interrupt enters its handler. -/
theorem interrupt_enters (k j : Nat) (s : State) :
    Enters k s.dev.core.pc s (trapEntry k s.dev.core.pc none (s.dev.onCore (takeSource j))) := by
  unfold takeSource
  split
  · exact ⟨rfl, rfl, rfl, rfl, rfl, rfl, rfl, rfl, rfl, rfl, rfl, rfl, rfl, rfl, rfl, rfl, rfl, rfl, rfl⟩
  · exact ⟨rfl, rfl, rfl, rfl, rfl, rfl, rfl, rfl, rfl, rfl, rfl, rfl, rfl, rfl, rfl, rfl, rfl, rfl, rfl⟩

theorem exec_interrupt {s : State} (hrun : s.dev.core.run = true) (hwd : s.dev.core.wdNow = false) :
    exec .interrupt s = .next { s with dev := takeInterrupt s.dev } := by
  have hguard : (s.dev.core.run && !s.dev.core.wdNow) = true := by rw [hrun, hwd]; rfl
  exact next_dev (guardDev_pos hguard)

/-- What a register write leaves in the windows depends on them alone. -/
theorem putReg_phys_congr (cwb : Byte) (n : Nat) (v : Word) {c x : Core} (h : c.phys = x.phys) :
    (putReg cwb n v c).phys = (putReg cwb n v x).phys := by
  unfold putReg
  rw [h]
  split
  · rfl
  · split
    · exact h
    · rfl

/-- EWAIT interrupted: with bit 7 of its mask it returns behind itself and reads 0x80. -/
theorem interrupt_ewait {s : State} {f : BitVec 6} {x : Byte} {n k : Nat} (hrun : s.dev.core.run = true)
    (hwd : s.dev.core.wdNow = false) (hwait : s.dev.core.wait = some (.ewait f x n))
    (hsel : evrWord s.dev &&& x.toNat &&& 31 = 0) (hint : interruptOf s.dev = some k) :
    Leads .interrupt s fun d => d.core.tcause = BitVec.ofNat 6 (16 + k) ∧ d.core.wait = none
      ∧ d.core.tpc = (if x.getLsbD 7 then s.dev.core.pc + BitVec.ofNat 32 n else s.dev.core.pc)
      ∧ (x.getLsbD 7 = true → d.core.phys = (putReg s.dev.core.cwb f.toNat 0x80 s.dev.core).phys)
      ∧ (x.getLsbD 7 = false → d.core.phys = s.dev.core.phys) := by
  have htake : takeInterrupt s.dev = trapEntry (16 + k) (endWait s.dev).core.pc none ((endWait s.dev).onCore (takeSource k)) := by
    simp only [takeInterrupt, settleWait_ewait_waits hwait hsel, hint]
  refine ⟨takeInterrupt s.dev, exec_interrupt hrun hwd, ?_⟩
  rw [htake]
  have hend : endWait s.dev = if x.getLsbD 7 then s.dev.onCore fun c =>
        putReg c.cwb f.toNat 0x80 { c with wait := none, pc := c.pc + BitVec.ofNat 32 n }
      else s.dev.onCore fun c => { c with wait := none } := by
    simp only [endWait, hwait]
  cases hseven : x.getLsbD 7 with
  | true =>
    rw [hseven, if_pos rfl] at hend
    rw [hend]
    have hphys := putReg_phys_congr s.dev.core.cwb f.toNat 0x80
      (c := { s.dev.core with wait := none, pc := s.dev.core.pc + BitVec.ofNat 32 n }) (x := s.dev.core) rfl
    exact ⟨rfl, (takeSource_wait ..).trans (putReg_wait ..), putReg_pc .., fun _ => (takeSource_phys ..).trans hphys,
      fun h => absurd h (by decide)⟩
  | false =>
    rw [hseven, if_neg Bool.false_ne_true] at hend
    rw [hend]
    exact ⟨rfl, takeSource_wait .., rfl, fun h => absurd h (by decide), fun _ => takeSource_phys ..⟩

/-- Settles O55: waits, events, interrupts and the commands that signal; that a wait is held as state (log entry 36) and that a
debugger that is attached changes nothing (log entry 38) are the model's choice. -/
theorem coreWaitsAndInterrupts : Obligations.CoreWaitsAndInterrupts := by
  unfold Obligations.CoreWaitsAndInterrupts
  rintro s w m hf hp hm
  refine ⟨fun h hmask => ⟨fun hsel x hx => ewait_takes h hf hp hm hmask hsel hx, fun hsel => ?ewaitWaits⟩,
    fun h hnone hoff hth => ?ewaitIllegal, fun h t hlit hreg => ⟨waituntil_goes h hf hp hlit (hm ▸ hreg), fun hr => ?untilWaits⟩,
    fun h => ⟨epost_posts h hf hm, fun hbig hth => ?epostIllegal⟩, fun hrun hwd => ⟨fun hwait => ⟨fun k hint => ?interrupt,
      fun hint => ?noInterrupt, fun hth => ?halt⟩, fun f x n k hwait hsel hint => interrupt_ewait hrun hwd hwait hsel hint⟩,
    ?haltAttached, fun hup hwait => ⟨?dma, fun hon hr => ?compare⟩, fun t n hup hon hr hwait ht hgo => ?compareUntil⟩
  case ewaitWaits =>
    exact (exec_ewait h hp hm hmask).trans (next_dev (settleWait_ewait_waits rfl hsel))
  case ewaitIllegal =>
    subst hm
    exact leads_enters_val rfl h hth (if_pos ⟨hnone, hoff⟩) (by decide)
  case untilWaits =>
    exact (exec_waituntil h hp hlit (hm ▸ hreg)).trans (next_dev (settleWait_until_waits rfl hr))
  case epostIllegal =>
    subst hm
    exact leads_enters_val rfl h hth (if_pos hbig) (by decide)
  case interrupt =>
    have htake : takeInterrupt s.dev = trapEntry (16 + k) s.dev.core.pc none (s.dev.onCore (takeSource k)) := by
      simp only [takeInterrupt, settleWait_of_none hwait, hint, endWait, hwait]
    exact ⟨_, exec_interrupt hrun hwd, htake ▸ interrupt_enters (16 + k) k s⟩
  case noInterrupt =>
    have htake : takeInterrupt s.dev = s.dev := by simp only [takeInterrupt, settleWait_of_none hwait, hint]
    exact (exec_interrupt hrun hwd).trans (next_dev htake)
  case halt =>
    have hguard : (s.dev.core.run && !s.dev.core.wdNow && !false) = true := by rw [hrun, hwd]; rfl
    have heta := wait_none_eta hwait
    refine ⟨_, next_dev (guardDev_pos hguard), ?_⟩
    simp only [settleWait_of_none hwait, Dev.onCore, heta]
    exact (syncTrap_enters_val none hth).1
  case haltAttached =>
    have hguard : (s.dev.core.run && !s.dev.core.wdNow && !true) = false := Bool.and_false _
    exact next_dev (if_neg (Bool.eq_false_iff.mp hguard))
  case dma => exact next_dev ((guardDev_pos hup).trans (settleWait_of_none hwait))
  case compare =>
    have hguard : (s.dev.up && s.dev.core.compareOn && reached s.dev s.dev.core.compare) = true := by rw [hup, hon, hr]; rfl
    exact next_dev ((guardDev_pos hguard).trans (settleWait_of_none hwait))
  case compareUntil =>
    subst ht
    have hguard : (s.dev.up && s.dev.core.compareOn && reached s.dev s.dev.core.compare) = true := by rw [hup, hon, hr]; rfl
    exact next_dev ((guardDev_pos hguard).trans (settleWait_until_reached hwait hr hgo))

end Sys2Proof.Laws
end

section
/-! Data RAM: bytes, accesses, stores and atomics (R421, R422, R430, R448, Tables 19-1 and 20-6). -/

namespace Sys2Proof.Laws

open Sys2Proof Machine

/-! ## Bytes of a number, low byte first (R433) -/

theorem leBytes_getElem? (n : Nat) {i k : Nat} (hi : i < k) : (leBytes n k)[i]? = some (BitVec.ofNat 8 (n / 256 ^ i)) := by
  induction k generalizing n i with
  | zero => exact absurd hi (Nat.not_lt_zero _)
  | succ k ih =>
    cases i with
    | zero => simp [leBytes]
    | succ i =>
      rw [leBytes, List.getElem?_cons_succ, ih _ (by omega), Nat.div_div_eq_div_mul, Nat.pow_succ, Nat.mul_comm 256]

/-- A list of bytes is the bytes of the number it spells. -/
theorem leBytes_leNat (l : List Byte) : leBytes (leNat l) l.length = l := by
  induction l with
  | nil => rfl
  | cons b t ih =>
    have hb := b.isLt
    have hlow : BitVec.ofNat 8 (b.toNat + 256 * leNat t) = b := BitVec.eq_of_toNat_eq (by rw [BitVec.toNat_ofNat]; omega)
    have hrest : (b.toNat + 256 * leNat t) / 256 = leNat t := by omega
    rw [leNat, List.length_cons, leBytes, hlow, hrest, ih]

theorem leNat_inj {l m : List Byte} (hlen : l.length = m.length) : leNat l = leNat m ↔ l = m := by
  refine ⟨fun h => ?_, congrArg leNat⟩
  rw [← leBytes_leNat l, ← leBytes_leNat m, h, hlen]

/-! ## Data RAM (R421, R430, Table 19-1) -/

theorem find_putBytes (l : List Byte) (m : Sparse Byte) (a i : Nat) (hi : i < l.length) :
    spFind (putBytes m a l) (a + i) = l[i]? := by
  induction l generalizing m a i with
  | nil => exact absurd hi (Nat.not_lt_zero _)
  | cons b t ih =>
    cases i with
    | zero =>
      have hfirst : spFind (putBytes (spPut m a b) (a + 1) t) a = some b :=
        (find_putBytes_ne t _ (a + 1) a (.inl (Nat.lt_succ_self a))).trans (spFind_spPut m a b)
      exact hfirst
    | succ i =>
      have hnext := ih (spPut m a b) (a + 1) i (Nat.lt_of_succ_lt_succ hi)
      rwa [Nat.add_right_comm, Nat.add_assoc] at hnext

/-- What a core reads of its data RAM depends on that memory and its two epochs. -/
theorem ramByte_congr {c x : Core} (hram : c.ram = x.ram) (hepoch : c.ramEpoch = x.ramEpoch) (hkept : c.keptEpoch = x.keptEpoch) (k : Nat) :
    ramByte c k = ramByte x k := by
  unfold ramByte
  rw [hram, hepoch, hkept]

/-- A number stored in data RAM. -/
theorem ramStored_putBytes {a : Word} {n v : Nat} {c x : Core} (hram : x.ram = putBytes c.ram (a.toNat - 0x10000000) (leBytes v n))
    (hepoch : x.ramEpoch = c.ramEpoch) (hkept : x.keptEpoch = c.keptEpoch) : RamStored a n v c x := by
  intro k
  generalize a.toNat - 0x10000000 = off at *
  split
  · next hin =>
    obtain ⟨i, rfl⟩ := Nat.exists_eq_add_of_le hin.1
    have hi : i < n := by omega
    rw [ramByte, spGetF, hram, find_putBytes _ _ _ _ (by rwa [length_leBytes]), leBytes_getElem? v hi, Nat.add_sub_cancel_left]
    rfl
  · next hin =>
    have hout : k < off ∨ off + (leBytes v n).length ≤ k := by
      rw [length_leBytes]
      omega
    rw [ramByte, ramByte, spGetF, spGetF, hram, find_putBytes_ne _ _ _ _ hout, hepoch, hkept]

theorem areaOf_inRam {n : Nat} {a : Word} (h : InRam n a) : areaOf a.toNat = some (.ram (a.toNat - 0x10000000)) := by
  obtain ⟨hlow, hhigh, -⟩ := h
  unfold areaOf
  rw [if_neg (by omega), if_neg (by omega), if_pos hhigh]

theorem accessAt_inRam (store : Bool) {n : Nat} {a : Word} (h : InRam n a) :
    accessAt store n a = .ok (.ram (a.toNat - 0x10000000)) := by
  have halign : ¬a.toNat % n ≠ 0 := not_not_intro h.2.2
  unfold accessAt
  rw [if_neg halign, areaOf_inRam h]
  cases store <;> rfl

theorem atomicAt_inRam {n : Nat} {a : Word} (h : InRam n a) : atomicAt n a = .ok (a.toNat - 0x10000000) := by
  have halign : ¬a.toNat % n ≠ 0 := not_not_intro h.2.2
  unfold atomicAt
  rw [if_neg halign, areaOf_inRam h]

theorem bothAt_inRam (store : Bool) {n : Nat} {a b : Word} (ha : InRam n a) (hb : InRam n b) :
    bothAt n a store b = .ok (.ram (a.toNat - 0x10000000), .ram (b.toNat - 0x10000000)) := by
  unfold bothAt
  rw [if_neg (not_not_intro ha.2.2), if_neg (not_not_intro hb.2.2), accessAt_inRam false ha, accessAt_inRam store hb]

/-- A misaligned access and one that no row of Table 19-1 names trap with their address. -/
theorem accessAt_misaligned (store : Bool) {n : Nat} {a : Word} (h : a.toNat % n ≠ 0) : accessAt store n a = .trap 2 (some a) := if_pos h

theorem accessAt_unnamed (store : Bool) {n : Nat} {a : Word} (h : a.toNat % n = 0) (hno : areaOf a.toNat = none) :
    accessAt store n a = .trap 3 (some a) := by
  unfold accessAt
  rw [if_neg (not_not_intro h), hno]

theorem dvd_eight {n : Nat} (h : n ∣ 8) : n = 1 ∨ n = 2 ∨ n = 4 ∨ n = 8 := by
  have hall : ∀ k : Fin 9, k.val ∣ 8 → k.val = 1 ∨ k.val = 2 ∨ k.val = 4 ∨ k.val = 8 := by decide
  exact hall ⟨n, Nat.lt_succ_of_le (Nat.le_of_dvd (by decide) h)⟩ h

/-- An aligned store of at most a granule touches one granule (R430). -/
theorem endsResv_aligned {off n : Nat} (hn : n ∣ 8) (halign : off % n = 0) (r : Option Nat) :
    endsResv off n r = if r = some (off / 8) then none else r := by
  have hone : (off + n - 1) / 8 = off / 8 := by
    obtain rfl | rfl | rfl | rfl := dvd_eight hn <;> omega
  cases r with
  | none => rfl
  | some g =>
    simp only [endsResv, hone, Option.some.injEq, ← Nat.le_antisymm_iff, eq_comm (a := off / 8)]

/-! ## A word of the L unit over data RAM (R421, R430, Table 20-6) -/

/-- A command whose operation does to this device what a change of the core does. -/
theorem exec_effect {c : Instr} {o : Opc} {w : OpWord} {s : State} {e : OpEffect} {t : Word} (f : Core → Core)
    (hc : exec c s = coreOp o w s) (h : IssuesAlone o w s) (he : evalOp (o, w) (wordLen w) s.dev = .ok e)
    (hpre : e.pre s.dev = s.dev) (hact : e.act s.dev = s.dev.onCore f) (hn : e.next.getD (seqPc w s.dev.core) = t)
    (ht : fetchable t = true) (hw : (f s.dev.core).wait = none) : exec c s = .next (s.onCore fun c => { f c with pc := t }) := by
  rw [hc]
  refine coreOp_core h f e t he ?_ hn ht hw
  rw [hpre, ← hact]
  exact if_pos (decide_eq_true rfl)

/-- A change of the core that leaves data RAM, the reservation and the wait. -/
def KeepsMemory (f : Core → Core) : Prop :=
  ∀ c, (f c).ram = c.ram ∧ (f c).resv = c.resv ∧ (f c).ramEpoch = c.ramEpoch ∧ (f c).keptEpoch = c.keptEpoch ∧ (f c).wait = c.wait

theorem keepsMemory_putReg (b : Byte) (n : Nat) (v : Word) : KeepsMemory (putReg b n v) := fun _ =>
  ⟨putReg_ram .., putReg_resv .., putReg_ramEpoch .., putReg_keptEpoch .., putReg_wait ..⟩

theorem keepsMemory_backTo (o : Opc) (w : OpWord) (c0 : Core) : KeepsMemory (backTo o w c0) := by
  unfold backTo
  split
  · exact keepsMemory_putReg _ _ _
  · exact fun c => ⟨rfl, rfl, rfl, rfl, rfl⟩

theorem keepsMemory_comp {f g : Core → Core} (hf : KeepsMemory f) (hg : KeepsMemory g) : KeepsMemory fun c => f (g c) := by
  intro c
  obtain ⟨hram, hresv, hepoch, hkept, hwait⟩ := hf (g c)
  obtain ⟨hram', hresv', hepoch', hkept', hwait'⟩ := hg c
  exact ⟨hram.trans hram', hresv.trans hresv', hepoch.trans hepoch', hkept.trans hkept', hwait.trans hwait'⟩

/-- A store of a number in data RAM, beside a change of the core's registers. -/
theorem leads_stores {c : Instr} {o : Opc} {w : OpWord} {s : State} {e : OpEffect} {t a : Word} {n v : Nat} {x : Core} {f : Core → Core}
    (hc : exec c s = coreOp o w s) (h : IssuesAlone o w s) (he : evalOp (o, w) (wordLen w) s.dev = .ok e)
    (hpre : e.pre s.dev = s.dev)
    (hact : e.act s.dev = storeBytes (.ram (a.toNat - 0x10000000)) (leBytes v n) (s.dev.onCore f))
    (hn : e.next.getD (seqPc w s.dev.core) = t) (ht : fetchable t = true) (hsize : n ∣ 8) (ha : InRam n a) (hf : KeepsMemory f)
    (hx : x = { f s.dev.core with pc := t }) : Leads c s (Stores a n v x s) := by
  obtain ⟨hram, hresv, hepoch, hkept, hwait⟩ := hf s.dev.core
  have halign : (a.toNat - 0x10000000) % n = 0 := by
    obtain ⟨hlow, -, hmod⟩ := ha
    obtain rfl | rfl | rfl | rfl := dvd_eight hsize <;> omega
  have hexec := exec_effect (fun c => { f c with
    ram := putBytes (f c).ram (a.toNat - 0x10000000) (leBytes v n)
    resv := endsResv (a.toNat - 0x10000000) (leBytes v n).length (f c).resv }) hc h he hpre hact hn ht
    (hwait.trans (issuesAlone_wait h))
  refine ⟨_, hexec, ramStored_putBytes (congrArg (putBytes · _ _) hram) hepoch hkept, ?_, ?_, rfl⟩
  · rw [← hresv, ← endsResv_aligned hsize halign]
    exact congrArg (endsResv _ · _) (length_leBytes ..)
  · rw [hx, ← hram, ← hresv]
    rfl

theorem writeBack_eq (o : Opc) (w : OpWord) (c0 : Core) (d : Dev) : writeBack o w c0 d = d.onCore (backTo o w c0) := by
  unfold writeBack backTo
  split <;> rfl

theorem loadEval_inRam {o : Opc} {w : OpWord} {c : Core} (h : InRam (accessBytes o) (addressOf o w c)) :
    loadEval o w c = .ok { act := loadAct o w c (.ram ((addressOf o w c).toNat - 0x10000000)) } := by
  rw [loadEval, accessAt_inRam false h]

theorem storeEval_inRam {o : Opc} {w : OpWord} {c : Core} (h : InRam (accessBytes o) (addressOf o w c)) : storeEval o w c = .ok
    { act := fun d => storeBytes (.ram ((addressOf o w c).toNat - 0x10000000)) (storedBytes o w c) (writeBack o w c d) } := by
  rw [storeEval, accessAt_inRam true h]

/-- A load of a register: its value is that of the bytes it reads. -/
theorem exec_load {c : Instr} {o : Opc} {w : OpWord} {s : State} (v : Core → Word) (hc : exec c s = coreOp o w s)
    (h : IssuesAlone o w s) (hf : fetchable (seqPc w s.dev.core) = true)
    (he : evalOp (o, w) (wordLen w) s.dev = loadEval o w s.dev.core) (hlda : o ≠ .lda)
    (ha : InRam (accessBytes o) (addressOf o w s.dev.core))
    (hv : v s.dev.core = loadVal o ((List.range (accessBytes o)).map fun k =>
      ramByte s.dev.core ((addressOf o w s.dev.core).toNat - 0x10000000 + k))) :
    exec c s = .next (s.advance w fun c => backTo o w c (putReg c.cwb w.d.toNat (v c) c)) := by
  obtain ⟨-, -, -, -, hwait⟩ := keepsMemory_backTo o w s.dev.core (putReg s.dev.core.cwb w.d.toNat (v s.dev.core) s.dev.core)
  have hload : loadAct o w s.dev.core (.ram ((addressOf o w s.dev.core).toNat - 0x10000000)) s.dev
      = s.dev.onCore fun c => backTo o w c (putReg c.cwb w.d.toNat (v c) c) := by
    simp only [loadAct, loadBytes, writeBack_eq, if_neg hlda, Dev.onCore, hv]
  exact exec_effect _ hc h (he.trans (loadEval_inRam ha)) rfl hload rfl hf (hwait.trans ((putReg_wait ..).trans (issuesAlone_wait h)))

/-- A store of a register or an accumulator. -/
theorem leads_store {c : Instr} {o : Opc} {w : OpWord} {s : State} {n v : Nat} (hc : exec c s = coreOp o w s)
    (h : IssuesAlone o w s) (hf : fetchable (seqPc w s.dev.core) = true)
    (he : evalOp (o, w) (wordLen w) s.dev = storeEval o w s.dev.core) (hn : n = accessBytes o) (hsize : n ∣ 8)
    (ha : InRam n (addressOf o w s.dev.core)) (hv : storedBytes o w s.dev.core = leBytes v n) :
    Leads c s (Stores (addressOf o w s.dev.core) n v (s.advance w (backTo o w s.dev.core)).dev.core s) := by
  subst hn
  have hact : storeBytes (.ram ((addressOf o w s.dev.core).toNat - 0x10000000)) (storedBytes o w s.dev.core)
      (writeBack o w s.dev.core s.dev) = storeBytes (.ram ((addressOf o w s.dev.core).toNat - 0x10000000))
        (leBytes v (accessBytes o)) (s.dev.onCore (backTo o w s.dev.core)) := by
    rw [writeBack_eq, hv]
  exact leads_stores hc h (he.trans (storeEval_inRam ha)) rfl hact rfl hf hsize ha (keepsMemory_backTo o w s.dev.core) rfl

/-- A load or a store whose access traps. -/
theorem loadEval_trap {o : Opc} {w : OpWord} {c : Core} {k : Nat} {v : Option Word}
    (h : accessAt false (accessBytes o) (addressOf o w c) = .trap k v) : loadEval o w c = .trap k v := by
  rw [loadEval, h]

theorem storeEval_trap {o : Opc} {w : OpWord} {c : Core} {k : Nat} {v : Option Word}
    (h : accessAt true (accessBytes o) (addressOf o w c) = .trap k v) : storeEval o w c = .trap k v := by
  rw [storeEval, h]

/-! ## Atomics (R430, R448) -/

/-- What an atomic does at its place in data RAM. -/
def atomicAct (o : Opc) (w : OpWord) (c : Core) (off : Nat) : OpEffect :=
  match o with
  | .lrW => loadReserved w c off
  | .scW => storeConditional w c off
  | _ => testAndSet w c off

theorem atomicEval_inRam {o : Opc} {w : OpWord} {c : Core} {a : Word} (haddr : addressOf o w c = a) (h : InRam o.size a) :
    atomicEval o w c = .ok (atomicAct o w c (a.toNat - 0x10000000)) := by
  rw [atomicEval, haddr, atomicAt_inRam h]
  cases o <;> rfl

theorem addressOf_scW {w : OpWord} {c : Core} (h : wordOk .scW w = true) : addressOf .scW w c = regVal c w.a.toNat := by
  rw [addressOf, lit_none h rfl]
  exact if_pos rfl

theorem putReg_ram_restored (b : Byte) (n : Nat) (v : Word) (m : Sparse Byte) (c : Core) :
    { putReg b n v { c with ram := m } with ram := c.ram } = putReg b n v c := by
  unfold putReg
  split
  · rfl
  · split <;> rfl

/-- LR.W reserves the granule that it reads. -/
theorem lrW_exec {w : OpWord} {s : State} {a : Word} (h : IssuesAlone .lrW w s) (hf : fetchable (seqPc w s.dev.core) = true)
    (haddr : a = addressOf .lrW w s.dev.core) (ha : InRam 4 a) : exec (.lrW w) s = .next (s.advance w fun c =>
      putReg c.cwb w.d.toNat (BitVec.ofNat 32 (ramNat c a 4)) { c with resv := some ((a.toNat - 0x10000000) / 8) }) := by
  have hact : (loadReserved w s.dev.core (a.toNat - 0x10000000)).act s.dev = s.dev.onCore fun c =>
      putReg c.cwb w.d.toNat (BitVec.ofNat 32 (ramNat c a 4)) { c with resv := some ((a.toNat - 0x10000000) / 8) } := by
    simp only [loadReserved, Dev.onCore, ramNat]
  exact exec_effect _ rfl h (atomicEval_inRam haddr.symm ha) rfl hact rfl hf ((putReg_wait ..).trans (issuesAlone_wait h))

/-- SC.W stores under its reservation. -/
theorem scW_stores {w : OpWord} {s : State} {a : Word} (h : IssuesAlone .scW w s) (hf : fetchable (seqPc w s.dev.core) = true)
    (haddr : a = regVal s.dev.core w.a.toNat) (ha : InRam 4 a)
    (hheld : s.dev.core.resv = some ((a.toNat - 0x10000000) / 8)) : Leads (.scW w) s fun d =>
      RamStored a 4 (regVal s.dev.core w.b.toNat).toNat s.dev.core d.core
      ∧ { d.core with ram := s.dev.core.ram } = (s.advance w fun c => putReg c.cwb w.d.toNat 0 { c with resv := none }).dev.core
      ∧ { d with core := s.dev.core } = s.dev := by
  have hact : (storeConditional w s.dev.core (a.toNat - 0x10000000)).act s.dev = s.dev.onCore fun c =>
      putReg c.cwb w.d.toNat 0 { c with
        resv := none, ram := putBytes c.ram (a.toNat - 0x10000000) (leBytes (regVal s.dev.core w.b.toNat).toNat 4) } := by
    simp only [storeConditional, decide_eq_true hheld, Bool.not_true, b2n, Bool.false_eq_true, if_false, if_true]
    rfl
  have hexec := exec_effect (c := .scW w) _ rfl h
    (atomicEval_inRam ((addressOf_scW (issuesAlone_wordOk h)).trans haddr.symm) ha) rfl hact rfl hf
    ((putReg_wait ..).trans (issuesAlone_wait h))
  refine ⟨_, hexec, ramStored_putBytes (putReg_ram ..) (putReg_ramEpoch ..) (putReg_keptEpoch ..), ?_, rfl⟩
  have hregs := putReg_ram_restored s.dev.core.cwb w.d.toNat 0
    (putBytes s.dev.core.ram (a.toNat - 0x10000000) (leBytes (regVal s.dev.core w.b.toNat).toNat 4)) { s.dev.core with resv := none }
  exact congrArg (fun c : Core => { c with pc := seqPc w s.dev.core }) hregs

/-- SC.W without its reservation writes 1 and stores nothing. -/
theorem scW_fails {w : OpWord} {s : State} {a : Word} (h : IssuesAlone .scW w s) (hf : fetchable (seqPc w s.dev.core) = true)
    (haddr : a = regVal s.dev.core w.a.toNat) (ha : InRam 4 a)
    (hnot : s.dev.core.resv ≠ some ((a.toNat - 0x10000000) / 8)) :
    exec (.scW w) s = .next (s.advance w fun c => putReg c.cwb w.d.toNat 1 { c with resv := none }) := by
  have hact : (storeConditional w s.dev.core (a.toNat - 0x10000000)).act s.dev = s.dev.onCore fun c =>
      putReg c.cwb w.d.toNat 1 { c with resv := none } := by
    simp only [storeConditional, decide_eq_false hnot, Bool.not_false, b2n, Bool.false_eq_true, if_false, if_true]
    rfl
  exact exec_effect _ rfl h (atomicEval_inRam ((addressOf_scW (issuesAlone_wordOk h)).trans haddr.symm) ha) rfl hact rfl hf
    ((putReg_wait ..).trans (issuesAlone_wait h))

theorem testAndSet_act (w : OpWord) (c : Core) (off : Nat) (d : Dev) : (testAndSet w c off).act d =
    storeBytes (.ram off) (leBytes 0xFF 1) (d.onCore (putReg c.cwb w.d.toNat ((ramByte c off).setWidth 32))) := rfl

theorem leNat_ramByte_one (c : Core) (off : Nat) :
    leNat ((List.range 1).map fun k => ramByte c (off + k)) = (ramByte c off).toNat := by simp [leNat]

theorem ramNat_one (c : Core) (a : Word) : BitVec.ofNat 32 (ramNat c a 1) = (ramByte c (a.toNat - 0x10000000)).setWidth 32 :=
  (congrArg (BitVec.ofNat 32) (leNat_ramByte_one c _)).trans (BitVec.ofNat_toNat ..)

/-- TAS.B reads its byte and leaves 0xFF. -/
theorem tasB_stores {w : OpWord} {s : State} {a : Word} (h : IssuesAlone .tasB w s) (hf : fetchable (seqPc w s.dev.core) = true)
    (haddr : a = addressOf .tasB w s.dev.core) (ha : InRam 1 a) : Leads (.tasB w) s
      (Stores a 1 0xFF (s.advance w fun c => putReg c.cwb w.d.toNat (BitVec.ofNat 32 (ramNat c a 1)) c).dev.core s) := by
  have hx : (s.advance w fun c => putReg c.cwb w.d.toNat (BitVec.ofNat 32 (ramNat c a 1)) c).dev.core =
      { putReg s.dev.core.cwb w.d.toNat ((ramByte s.dev.core (a.toNat - 0x10000000)).setWidth 32) s.dev.core with
        pc := seqPc w s.dev.core } := by
    rw [← ramNat_one]
    rfl
  exact leads_stores rfl h (atomicEval_inRam haddr.symm ha) rfl (testAndSet_act w s.dev.core _ s.dev) rfl hf (by decide) ha
    (keepsMemory_putReg _ _ _) hx

/-! ## Block operations (R442 to R445) -/

/-- The registers that an iteration moves. -/
def movedCore (w : OpWord) (src : Bool) (c0 c : Core) : Core :=
  putReg c0.cwb w.b.toNat (regVal c0 w.b.toNat - 1)
    (if src then putReg c0.cwb w.a.toNat (blockStep w (regVal c0 w.a.toNat))
        (putReg c0.cwb w.d.toNat (blockStep w (regVal c0 w.d.toNat)) c)
      else putReg c0.cwb w.d.toNat (blockStep w (regVal c0 w.d.toNat)) c)

theorem blockMove_eq (w : OpWord) (src : Bool) (c0 : Core) (d : Dev) : blockMove w src c0 d = d.onCore (movedCore w src c0) := rfl

theorem keepsMemory_movedCore (w : OpWord) (src : Bool) (c0 : Core) : KeepsMemory (movedCore w src c0) := by
  have hcount := keepsMemory_putReg c0.cwb w.b.toNat (regVal c0 w.b.toNat - 1)
  have hdest := keepsMemory_putReg c0.cwb w.d.toNat (blockStep w (regVal c0 w.d.toNat))
  have hsource := keepsMemory_putReg c0.cwb w.a.toNat (blockStep w (regVal c0 w.a.toNat))
  cases src with
  | true =>
    have hmoved := keepsMemory_comp hcount (keepsMemory_comp hsource hdest)
    exact hmoved
  | false =>
    have hmoved := keepsMemory_comp hcount hdest
    exact hmoved

theorem blockSize_dvd (w : OpWord) : blockSize w ∣ 8 := Nat.pow_dvd_pow 2 (n := 3) (by omega)

theorem blockNext_getD (w : OpWord) (c : Core) (seq : Word) :
    (blockNext w c).getD seq = if regVal c w.b.toNat = 1 then seq else c.pc := by
  unfold blockNext
  split <;> rfl

end Sys2Proof.Laws
end

section
/-! The L unit over data RAM (R421, R422, R430, R442 to R444, R448, Table 20-6). -/

namespace Sys2Proof.Laws

open Sys2Proof Machine

/-- The bytes that an access in data RAM reads. -/
def ramList (c : Core) (a : Word) (n : Nat) : List Byte := (List.range n).map fun k => ramByte c (a.toNat - 0x10000000 + k)

theorem length_ramList (c : Core) (a : Word) (n : Nat) : (ramList c a n).length = n := by
  rw [ramList, List.length_map, List.length_range]

theorem ramList_eq (c : Core) (a : Word) (n : Nat) : ramList c a n = leBytes (ramNat c a n) n := by
  have hbytes := leBytes_leNat (ramList c a n)
  rw [length_ramList] at hbytes
  exact hbytes.symm

theorem loadBytes_ram (a : Word) (n : Nat) (d : Dev) : loadBytes (.ram (a.toNat - 0x10000000)) n d = (ramList d.core a n, d) := rfl

theorem blockEval_none {o : Opc} {w : OpWord} {d : Dev} (h : regVal d.core w.b.toNat = 0) : blockEval o w d = .ok {} := if_pos h

theorem copyEval_inRam {w : OpWord} {c : Core} (ha : InRam (blockSize w) (regVal c w.a.toNat))
    (hb : InRam (blockSize w) (regVal c w.d.toNat)) : copyEval w c = .ok
      { act := copyAct w c (.ram ((regVal c w.a.toNat).toNat - 0x10000000)) (.ram ((regVal c w.d.toNat).toNat - 0x10000000))
        next := blockNext w c } := by
  rw [copyEval, bothAt_inRam true ha hb]

theorem diffEval_inRam {w : OpWord} {d : Dev} (ha : InRam (blockSize w) (regVal d.core w.a.toNat))
    (hb : InRam (blockSize w) (regVal d.core w.d.toNat)) {x y : Area}
    (hx : x = .ram ((regVal d.core w.d.toNat).toNat - 0x10000000)) (hy : y = .ram ((regVal d.core w.a.toNat).toNat - 0x10000000)) :
    diffEval w d = .ok { act := diffAct w d.core x y, next := if (diffLoads w x y d).1 then blockNext w d.core else none } := by
  subst hx hy
  rw [diffEval, bothAt_inRam false hb ha]

section
variable {s : State} {w : OpWord} {a b n : Word} {x : Bool → Core} (hf : fetchable (seqPc w s.dev.core) = true)
  (hp : fetchable s.dev.core.pc = true) (hn : n = regVal s.dev.core w.b.toNat) (ha : a = regVal s.dev.core w.a.toNat)
  (hb : b = regVal s.dev.core w.d.toNat) (hcount : n ≠ 0)
  (hx : ∀ src, x src = { (blockMove w src s.dev.core s.dev).core with
    pc := if n = 1 then seqPc w s.dev.core else s.dev.core.pc })
include hf hp

/-- The place where the bundle behind an iteration lies can be fetched. -/
theorem fetchable_blockNext : fetchable (if n = 1 then seqPc w s.dev.core else s.dev.core.pc) = true := by
  split
  · exact hf
  · exact hp

include hn ha hb hcount hx

/-- One iteration of BCOPY. -/
theorem bcopy_stores (h : IssuesAlone .bcopy w s) (hina : InRam (blockSize w) a) (hinb : InRam (blockSize w) b) :
    Leads (.bcopy w) s (Stores b (blockSize w) (ramNat s.dev.core a (blockSize w)) (x (!w.mod.getLsbD 3)) s) := by
  have hnext := blockNext_getD w s.dev.core (seqPc w s.dev.core)
  have hgo := fetchable_blockNext (n := n) hf hp
  subst hn ha hb
  have he : evalOp (.bcopy, w) (wordLen w) s.dev = copyEval w s.dev.core := if_neg hcount
  have hact : copyAct w s.dev.core (.ram ((regVal s.dev.core w.a.toNat).toNat - 0x10000000))
      (.ram ((regVal s.dev.core w.d.toNat).toNat - 0x10000000)) s.dev
      = storeBytes (.ram ((regVal s.dev.core w.d.toNat).toNat - 0x10000000))
        (leBytes (ramNat s.dev.core (regVal s.dev.core w.a.toNat) (blockSize w)) (blockSize w))
        (s.dev.onCore (movedCore w (!w.mod.getLsbD 3) s.dev.core)) := by
    rw [copyAct, loadBytes_ram, ramList_eq, blockMove_eq]
  exact leads_stores rfl h (he.trans (copyEval_inRam hina hinb)) rfl hact hnext hgo (blockSize_dvd w) hinb
    (keepsMemory_movedCore _ _ _) (hx _)

/-- One iteration of BFILL. -/
theorem bfill_stores (h : IssuesAlone .bfill w s) (hinb : InRam (blockSize w) b) :
    Leads (.bfill w) s (Stores b (blockSize w) a.toNat (x false) s) := by
  have hnext := blockNext_getD w s.dev.core (seqPc w s.dev.core)
  have hgo := fetchable_blockNext (n := n) hf hp
  subst hn ha hb
  have he : evalOp (.bfill, w) (wordLen w) s.dev = fillEval w s.dev.core := if_neg hcount
  have hfill : fillEval w s.dev.core = .ok
      { act := fun d => storeBytes (.ram ((regVal s.dev.core w.d.toNat).toNat - 0x10000000))
          (leBytes (regVal s.dev.core w.a.toNat).toNat (blockSize w)) (blockMove w false s.dev.core d)
        next := blockNext w s.dev.core } := by
    rw [fillEval, accessAt_inRam true hinb]
  have hact : storeBytes (.ram ((regVal s.dev.core w.d.toNat).toNat - 0x10000000))
      (leBytes (regVal s.dev.core w.a.toNat).toNat (blockSize w)) (blockMove w false s.dev.core s.dev)
      = storeBytes (.ram ((regVal s.dev.core w.d.toNat).toNat - 0x10000000))
        (leBytes (regVal s.dev.core w.a.toNat).toNat (blockSize w)) (s.dev.onCore (movedCore w false s.dev.core)) := by
    rw [blockMove_eq]
  exact leads_stores rfl h (he.trans hfill) rfl hact hnext hgo (blockSize_dvd w) hinb (keepsMemory_movedCore _ _ _) (hx _)

/-- One iteration of BDIFF. -/
theorem bdiff_exec (h : IssuesAlone .bdiff w s) (hina : InRam (blockSize w) a) (hinb : InRam (blockSize w) b) :
    exec (.bdiff w) s = .next
      (if ramNat s.dev.core a (blockSize w) = ramNat s.dev.core b (blockSize w) then s.onCore fun _ => x (!w.mod.getLsbD 3)
        else s.advance w id) := by
  have hnext := blockNext_getD w s.dev.core (seqPc w s.dev.core)
  have hgo := fetchable_blockNext (n := n) hf hp
  subst hn
  have he : evalOp (.bdiff, w) (wordLen w) s.dev = diffEval w s.dev := if_neg hcount
  have hloads : diffLoads w (.ram (b.toNat - 0x10000000)) (.ram (a.toNat - 0x10000000)) s.dev
      = (decide (ramList s.dev.core b (blockSize w) = ramList s.dev.core a (blockSize w)), s.dev) := rfl
  have hiff : ramNat s.dev.core a (blockSize w) = ramNat s.dev.core b (blockSize w)
      ↔ ramList s.dev.core b (blockSize w) = ramList s.dev.core a (blockSize w) :=
    eq_comm.trans (leNat_inj ((length_ramList ..).trans (length_ramList ..).symm))
  have heval := he.trans (diffEval_inRam (ha ▸ hina) (hb ▸ hinb) (congrArg (fun v : Word => Area.ram (v.toNat - 0x10000000)) hb)
    (congrArg (fun v : Word => Area.ram (v.toNat - 0x10000000)) ha))
  obtain ⟨-, -, -, -, hwait⟩ := keepsMemory_movedCore w (!w.mod.getLsbD 3) s.dev.core s.dev.core
  split
  · next heq =>
    have hdec := decide_eq_true (hiff.mp heq)
    rw [hloads, hdec, if_pos rfl] at heval
    have hact : diffAct w s.dev.core (.ram (b.toNat - 0x10000000)) (.ram (a.toNat - 0x10000000)) s.dev
        = s.dev.onCore (movedCore w (!w.mod.getLsbD 3) s.dev.core) := by
      rw [diffAct, hloads, hdec]
      rfl
    rw [exec_effect _ rfl h heval rfl hact hnext hgo (hwait.trans (issuesAlone_wait h))]
    simp only [State.onCore, Dev.onCore, hx]
    rfl
  · next heq =>
    have hdec := decide_eq_false fun hl => heq (hiff.mpr hl)
    rw [hloads, hdec, if_neg Bool.false_ne_true] at heval
    have hact : diffAct w s.dev.core (.ram (b.toNat - 0x10000000)) (.ram (a.toNat - 0x10000000)) s.dev = s.dev.onCore id := by
      rw [diffAct, hloads, hdec]
      rfl
    exact exec_effect _ rfl h heval rfl hact rfl hf (issuesAlone_wait h)

end

/-- A block word with a count of 0 has ended. -/
theorem exec_blockEnd {c : Instr} {o : Opc} {w : OpWord} {s : State} (hc : exec c s = coreOp o w s) (h : IssuesAlone o w s)
    (hf : fetchable (seqPc w s.dev.core) = true) (he : evalOp (o, w) (wordLen w) s.dev = blockEval o w s.dev)
    (hcount : regVal s.dev.core w.b.toNat = 0) : exec c s = .next (s.advance w id) :=
  exec_advance (f := id) hc h hf (he.trans (blockEval_none hcount)) (issuesAlone_wait h)

/-- LDA takes five of the eight bytes it reads. -/
theorem lda_exec {w : OpWord} {s : State} {a : Word} (h : IssuesAlone .lda w s) (hf : fetchable (seqPc w s.dev.core) = true)
    (haddr : a = addressOf .lda w s.dev.core) (ha : InRam 8 a) : exec (.lda w) s = .next (s.advance w fun c =>
      backTo .lda w c (putAcc w.d.toNat (BitVec.ofNat 40 (ramNat c a 5)) c)) := by
  subst haddr
  obtain ⟨-, -, -, -, hwait⟩ := keepsMemory_backTo .lda w s.dev.core
    (putAcc w.d.toNat (BitVec.ofNat 40 (ramNat s.dev.core (addressOf .lda w s.dev.core) 5)) s.dev.core)
  have hfive : (ramList s.dev.core (addressOf .lda w s.dev.core) 8).take 5 = ramList s.dev.core (addressOf .lda w s.dev.core) 5 := by
    rw [ramList, ← List.map_take]
    rfl
  have hact : loadAct .lda w s.dev.core (.ram ((addressOf .lda w s.dev.core).toNat - 0x10000000)) s.dev
      = s.dev.onCore fun c => backTo .lda w c (putAcc w.d.toNat (BitVec.ofNat 40 (ramNat c (addressOf .lda w s.dev.core) 5)) c) := by
    have hread : loadBytes (.ram ((addressOf .lda w s.dev.core).toNat - 0x10000000)) (accessBytes .lda) s.dev
        = (ramList s.dev.core (addressOf .lda w s.dev.core) 8, s.dev) := rfl
    have hspell : leNat (ramList s.dev.core (addressOf .lda w s.dev.core) 5) = ramNat s.dev.core (addressOf .lda w s.dev.core) 5 := rfl
    simp only [loadAct, hread, writeBack_eq, hfive, hspell, if_true, Dev.onCore]
  have hexec := exec_effect (c := .lda w) _ rfl h (loadEval_inRam ha) rfl hact rfl hf
    (hwait.trans ((putAcc_wait ..).trans (issuesAlone_wait h)))
  exact hexec

theorem lea_exec {w : OpWord} {s : State} {a : Word} (h : IssuesAlone .lea w s) (hf : fetchable (seqPc w s.dev.core) = true)
    (haddr : a = addressOf .lea w s.dev.core) :
    exec (.lea w) s = .next (s.advance w fun c => backTo .lea w c (putReg c.cwb w.d.toNat a c)) := by
  subst haddr
  obtain ⟨-, -, -, -, hwait⟩ := keepsMemory_backTo .lea w s.dev.core
    (putReg s.dev.core.cwb w.d.toNat (addressOf .lea w s.dev.core) s.dev.core)
  have hact : writeBack .lea w s.dev.core (s.dev.onCore (putReg s.dev.core.cwb w.d.toNat (addressOf .lea w s.dev.core)))
      = s.dev.onCore fun c => backTo .lea w c (putReg c.cwb w.d.toNat (addressOf .lea w s.dev.core) c) := by
    rw [writeBack_eq]
    rfl
  exact exec_effect _ rfl h rfl rfl hact rfl hf (hwait.trans ((putReg_wait ..).trans (issuesAlone_wait h)))

/-- Settles O52: loads, stores, atomics and block iterations over data RAM, and the traps of an address; that one command is one
iteration of a block word is the model's choice (log entry 26). -/
theorem coreMemoryOperations : Obligations.CoreMemoryOperations := by
  unfold Obligations.CoreMemoryOperations
  intro s w hf hp
  refine ⟨fun a => ⟨?ldW, ?ldH, ?ldHu, ?ldB, ?ldBu, fun haddr h ha => lda_exec h hf haddr ha, fun haddr h => lea_exec h hf haddr⟩,
    fun a => ⟨?stW, ?stH, ?stB, ?sta⟩,
    fun a => ⟨fun haddr h ha => lrW_exec h hf haddr ha, fun haddr h ha => ⟨scW_stores h hf haddr ha, scW_fails h hf haddr ha⟩,
      fun haddr h ha => tasB_stores h hf haddr ha⟩,
    fun hcount => ⟨fun h => exec_blockEnd rfl h hf rfl hcount, fun h => exec_blockEnd rfl h hf rfl hcount,
      fun h => exec_blockEnd rfl h hf rfl hcount⟩,
    fun a b n x hn ha hb hcount hx => ⟨bcopy_stores hf hp hn ha hb hcount hx, bfill_stores hf hp hn ha hb hcount hx,
      bdiff_exec hf hp hn ha hb hcount hx⟩, fun hth a => ⟨?loadTraps, ?storeTraps⟩⟩
  case ldW =>
    rintro rfl h ha
    exact exec_load (fun c => BitVec.ofNat 32 (ramNat c _ 4)) rfl h hf rfl (by decide) ha rfl
  case ldH =>
    rintro rfl h ha
    exact exec_load (fun c => (BitVec.ofNat 16 (ramNat c _ 2)).signExtend 32) rfl h hf rfl (by decide) ha rfl
  case ldHu =>
    rintro rfl h ha
    exact exec_load (fun c => BitVec.ofNat 32 (ramNat c _ 2)) rfl h hf rfl (by decide) ha rfl
  case ldB =>
    rintro rfl h ha
    exact exec_load (fun c => (BitVec.ofNat 8 (ramNat c _ 1)).signExtend 32) rfl h hf rfl (by decide) ha rfl
  case ldBu =>
    rintro rfl h ha
    exact exec_load (fun c => BitVec.ofNat 32 (ramNat c _ 1)) rfl h hf rfl (by decide) ha rfl
  case stW =>
    rintro rfl h ha
    exact leads_store rfl h hf rfl rfl (by decide) ha rfl
  case stH =>
    rintro rfl h ha
    exact leads_store rfl h hf rfl rfl (by decide) ha rfl
  case stB =>
    rintro rfl h ha
    exact leads_store rfl h hf rfl rfl (by decide) ha rfl
  case sta =>
    rintro rfl h ha
    exact leads_store rfl h hf rfl rfl (by decide) ha rfl
  case loadTraps =>
    rintro rfl h
    exact ⟨fun hmis => leads_enters_val rfl h hth (loadEval_trap (accessAt_misaligned false hmis)) (by decide),
      fun h4 hno => leads_enters_val rfl h hth (loadEval_trap (accessAt_unnamed false h4 hno)) (by decide)⟩
  case storeTraps =>
    rintro rfl h
    exact ⟨fun hmis => leads_enters_val rfl h hth (storeEval_trap (accessAt_misaligned true hmis)) (by decide),
      fun h4 hno => leads_enters_val rfl h hth (storeEval_trap (accessAt_unnamed true h4 hno)) (by decide)⟩

end Sys2Proof.Laws
end
